-- ==== Sys2Proof/Word.lean ====
section
/-! DEFINITION. Word.lean: the word types of the model. -/

namespace Sys2Proof

/-- One byte. -/
abbrev Byte := BitVec 8

/-- One register of the register space, one lane of a vector tile register, one FP32 or INT32 value. -/
abbrev W32 := BitVec 32

/-- One Retil instruction word, one scalar register, one object address, one statistics count. -/
abbrev W64 := BitVec 64

end Sys2Proof
end

