-- ==== Sys2Proof/Syntax.lean ====
section
/-! DEFINITION. Syntax.lean: the commands of the block, one constructor of `Instr` for each row of the operation
table, and the types of their operands. -/

namespace Sys2Proof

/-- A thread slot of a cell: slot `T slot` of cell `C cell` (R298). -/
structure ThreadRef where
  cell : Nat
  slot : Nat
  deriving DecidableEq, Repr

/-- The two engines of a cell (R115). -/
inductive Engine where
  | access
  | execute
  deriving DecidableEq, Repr

/-- The path of a register access from outside a cell (R494). QCT accesses are the rows REG_READ and REG_WRITE. -/
inductive RegPath where
  | i3c
  | jtag
  deriving DecidableEq, Repr

/-- A UDP datagram for the QCT port: the sender's address and port, and the bytes after the UDP header (R422). -/
structure Datagram where
  srcIp : BitVec 128
  srcPort : BitVec 16
  bytes : List Byte
  deriving DecidableEq, Repr

/-- The opcode of a RoCEv2 request, as far as R433 tells requests apart. -/
inductive RdmaOp where
  | write
  | read
  | other
  deriving DecidableEq, Repr

/-- A RoCEv2 request at UDP port 4791 (R433). `va` is the byte offset of the RETH, `len` the bytes asked for by a READ,
`ecn` an ECN mark on the packet. -/
structure RdmaReq where
  qpn : Nat
  psn : BitVec 24
  op : RdmaOp
  rkey : W32
  va : Nat
  len : Nat
  data : List Byte
  ecn : Bool
  deriving DecidableEq, Repr

/-- What an IP packet carries, as far as R418 tells packets apart. -/
inductive IpBody where
  /-- An IPv6 neighbour solicitation for an address. -/
  | neighbourSolicit (target : BitVec 128)
  /-- An ICMP or ICMPv6 echo request. -/
  | echo (data : List Byte)
  /-- UDP: ports, whether the checksum field is zero, and the payload. -/
  | udp (sport dport : BitVec 16) (zeroSum : Bool) (payload : List Byte)
  /-- UDP to port 4791, decoded as a RoCEv2 request. -/
  | roce (r : RdmaReq)
  | other
  deriving DecidableEq, Repr

/-- What a frame carries after its tags (R418, R420). -/
inductive NetBody where
  | arp (target : BitVec 32)
  /-- An IP packet: version 6 or 4, addresses, whether it has options or extension headers, whether it is a fragment. -/
  | ip (v6 : Bool) (src dst : BitVec 128) (options fragment : Bool) (body : IpBody)
  /-- IEEE 802.3 global PAUSE. -/
  | pause
  /-- IEEE 802.1Qbb priority flow control: the priorities to pause. -/
  | pfc (pri : Byte)
  | other
  deriving DecidableEq, Repr

/-- The IEEE 802.1AE security tag of a protected frame (R421): association number, packet number and check value. -/
structure SecTag where
  an : Nat
  pn : W64
  icv : BitVec 128
  deriving DecidableEq, Repr

/-- An Ethernet frame as it arrives (R418): its length with FCS, whether the FCS holds, its 802.1Q tags (VID and priority),
its security tag, and its content. -/
structure Frame where
  len : Nat
  fcsOk : Bool
  tags : List (BitVec 12 × BitVec 3)
  sec : Option SecTag
  body : NetBody
  deriving DecidableEq, Repr

/-- A flit of 256 bytes (R382); byte b is bits [8b + 7 : 8b]. -/
abbrev Flit := BitVec 2048

/-- A fabric packet (R391): the fields of its route unit, and the units after it, 16 bytes each. -/
structure Packet where
  dst : Nat
  src : Nat
  epoch : W32
  typ : Nat
  hops : Nat
  poison : Bool
  tag : W32
  body : List (BitVec 128)
  deriving DecidableEq, Repr

/-- A barrier tree message (R334, R336): the link it arrives on, and its channel, episode and parity bit; `brk` is 0, or the
cause code of R341 in a message by which a break spreads over the tree (R339). -/
structure BarMsg where
  link : Nat
  chan : Nat
  episode : Byte
  parity : Bool
  brk : Nat
  deriving DecidableEq, Repr

/-- The states of an object (R54). -/
inductive ObjState where
  | creating
  | live
  | sealed
  | freeing
  | orphaned
  deriving DecidableEq, Repr

/-- An object descriptor (R56). EPP, PLOTS and the 64-byte layout are computed from these fields. -/
structure Desc where
  handle : Nat
  typ : Nat
  state : ObjState
  format : Nat
  esize : Nat
  count : Nat
  steward : Nat
  affinity : Nat
  pinDev : Nat
  pinLnd : Nat
  policy : Nat
  scale : Nat
  deriving DecidableEq, Repr

/-- A placement map entry (R62). `nrep` and `repIdx` are its fields NREP and REPIDX, `reps` the (device, landing, frame) triples of its
replica record, which only the steward's table holds. -/
structure MapEntry where
  dev : Nat
  lnd : Nat
  frame : Nat
  gen : BitVec 16
  pstate : Nat
  nrep : Nat
  repIdx : Nat
  reps : List (Nat × Nat × Nat)
  deriving DecidableEq, Repr

/-- The 32-byte record of a work item (R99). KIND 0 RANGE, 1 GEYSER_PART, 2 GEYSER_COMBINE. `deg` is the degree of the geyser from whose
list a thinned part draws (R108), which the record does not carry. -/
structure WorkItem where
  kind : Nat
  thinned : Bool
  rerun : Bool
  wset : Nat
  item : Nat
  v0 : Nat
  v1 : Nat
  e0 : Nat
  ne : Nat
  pslot : Nat
  deg : Nat
  deriving DecidableEq, Repr

/-- A move as lookouts speak of it: plot, class of R81 (4 a replica, 5 the move of a replica), steward, source and target triples, the
generation of the entry when it was selected (R84), and the entry's NREP and REPIDX. -/
structure MoveReq where
  handle : Nat
  plot : Nat
  cls : Nat
  steward : Nat
  src : Nat × Nat × Nat
  dst : Nat × Nat × Nat
  gen : BitVec 16
  nrep : Nat
  repIdx : Nat
  deriving DecidableEq, Repr

/-- The messages that lookouts and Scalers exchange in MGMT packets (R392). The spec names what they carry and gives no
layout, so they are told apart here by what they say (log entry 36, DESIGN CHOICE). -/
inductive MgmtMsg where
  /-- A create begins: how many frames are free (R77)? -/
  | askFree (handle : Nat)
  /-- The free frames of each landing. -/
  | freeFrames (handle : Nat) (free : List Nat)
  /-- Back `count` plots from plot `first`, on landing `lnd`, or in rotation when that is 12 (R77). -/
  | allocRun (handle first count lnd : Nat)
  /-- The frames given, or none for want of frames. -/
  | allocDone (handle first : Nat) (frames : List (Nat × Nat))
  /-- Install a descriptor (R56). -/
  | descInstall (d : Desc)
  | descAck (handle : Nat)
  /-- The handle is live, or being created for a steward of lower number (R53). -/
  | descNack (handle : Nat)
  /-- The state of an object changed at its steward (R54). -/
  | descState (handle : Nat) (st : ObjState)
  /-- Forget a handle: its create failed or its free completed. -/
  | descDrop (handle steward : Nat)
  /-- What the keeper tells a device that joins: the membership table and the divisions of affinity groups (R414). -/
  | members (table : List (Nat × Nat)) (groups : List (Nat × List (Nat × Nat)))
  /-- The division of an affinity group (R79): devices with the element below which their range ends. -/
  | groupFix (group : Nat) (division : List (Nat × Nat))
  /-- The object is freed: release its frames here and drop its translations and forwarding records (R55). -/
  | objFree (handle : Nat)
  | freeAck (handle : Nat)
  /-- A generation sweep of a handle (R90). -/
  | sweep (handle : Nat)
  | sweepAck (handle : Nat)
  /-- A host command for an object of another steward, passed to it: create, free, seal and hint, with the steward's status. -/
  | createAsk (d : Desc)
  | freeAsk (handle : Nat)
  | sealAsk (handle : Nat)
  | hintAsk (handle hint : Nat)
  | askDone (opc handle status : Nat)
  /-- The figures of PLC_QUERY for a plot, asked of its steward (R114). -/
  | queryAsk (handle plot : Nat)
  | queryDone (handle plot : Nat) (entry : Option MapEntry) (loads stores adds : Nat) (reqs : List (Nat × Nat))
  /-- The owner informs of a work set it accepted (R99), with the geyser rows to keep, highest degree first (R106). -/
  | workSetNew (num feature : Nat) (rows : List Nat)
  /-- The owner informs that a work set is complete (R99). -/
  | workSetDone (num : Nat)
  /-- The owner gives items to this device, with their costs (R97). -/
  | itemsAssign (num : Nat) (items : List (WorkItem × Nat))
  /-- A device reports WDONE of an item (R99, R105). -/
  | itemDone (it : WorkItem)
  /-- A steward sets a frame record (R63), or releases a frame (R52). -/
  | frameInstall (lnd frame handle plot : Nat) (gen : BitVec 16)
  | frameRelease (lnd frame handle plot : Nat) (entry : Option MapEntry)
  /-- A frame that homes a plot has been retired (R110, R374). -/
  | retired (handle plot lnd frame : Nat)
  /-- A device's figures for the interval just ended (R81): free frames and requests served by each landing, the landings that
  have failed, and its plots' traffic as (handle, plot, device, loads, stores, adds). -/
  | report (free served failed : List Nat) (traffic : List (Nat × Nat × Nat × Nat × Nat × Nat))
  /-- A steward asks for those figures, as its interval ends. -/
  | reportAsk
  /-- A move (R84): the target is asked to reserve a frame, the source to copy; then the flip, the end of the invalidates, and
  the end of a move that is abandoned, `spent` when R86 abandons it. -/
  | moveAsk (m : MoveReq)
  | moveGo (m : MoveReq)
  | moveFlip (m : MoveReq)
  | moveInv (handle plot : Nat)
  | moveEnd (m : MoveReq) (spent : Bool)
  /-- A move whose target region has retired is to be made again, to the target named (R89). -/
  | moveAgain (m : MoveReq)
  deriving DecidableEq, Repr

/-- The commands of the block: one constructor for each row of the operation table. A Retil row names the thread or the cell
whose engine issues, and the 64-bit word that issues, which holds the operand fields (R269). A host row names the command
queue and the payload bytes that follow the QCT header (R431). -/
inductive Instr where
  /-- OBJ_CREATE (R52): Host command that checks parameters, places and zero-backs every plot and installs the descriptor on every member device. -/
  | objCreate (q : Nat) (payload : List Byte)
  /-- OBJ_FREE (R55): Host command that puts an object in FREEING, releases its frames and has every device drop its translations and forwarding records. -/
  | objFree (q : Nat) (payload : List Byte)
  /-- OBJ_SEAL (R54): Host command that makes a LIVE object SEALED once its moves have finished or been abandoned. -/
  | objSeal (q : Nat) (payload : List Byte)
  /-- OBJ_QUERY (R56): Host command that returns the 64-byte descriptor of an object. -/
  | objQuery (q : Nat) (payload : List Byte)
  /-- OBJ_HINT (R80): Host command that attaches a NONE, HOT, COLD or STREAM hint to an object. -/
  | objHint (q : Nat) (payload : List Byte)
  /-- OBJ_READ (R430): Host command that reads up to 8,192 bytes of an object by element and byte offset. -/
  | objRead (q : Nat) (payload : List Byte)
  /-- OBJ_WRITE (R332): Host command that writes up to 8,176 bytes of an object and completes once every granule has been applied. -/
  | objWrite (q : Nat) (payload : List Byte)
  /-- PLC_QUERY_PLOT (R114): Host command that returns a plot's map entry and its traffic counters for the last interval. -/
  | plcQueryPlot (q : Nat) (payload : List Byte)
  /-- PLC_QUERY_WORK_SET (R114): Host command that returns the cost assigned to each cell for a work set and the cost reported done. -/
  | plcQueryWorkSet (q : Nat) (payload : List Byte)
  /-- WORK_SET (R96): Host command that checks a vertex range, cuts it into items, marks and splits geysers, creates the partial area and assigns the items to devices and cells. -/
  | workSet (q : Nat) (payload : List Byte)
  /-- WORK_ITEM_REBALANCE (R98): When a cell's queue empties, the Scaler moves half of the donor cell's untaken items to it. -/
  | workItemRebalance (c : Nat)
  /-- PROG_LOAD (R430): Host command that writes bytes into the operand memory of every named cell. -/
  | progLoad (q : Nat) (payload : List Byte)
  /-- THREAD_START (R301): Host command that takes a free slot on a named cell, or on a cell that the field supervisor chooses, and makes the thread READY. -/
  | threadStart (q : Nat) (payload : List Byte)
  /-- THREAD_STOP (R304): Host command that frees a slot in any state, at instruction retirement for a RUNNING thread. -/
  | threadStop (q : Nat) (payload : List Byte)
  /-- THREAD_FREE (R304): Host command that frees a FAILED slot. -/
  | threadFree (q : Nat) (payload : List Byte)
  /-- THREAD_SIGNAL (R308): Host command that ORs flags into a slot's event flags. -/
  | threadSignal (q : Nat) (payload : List Byte)
  /-- SESSION_OPEN (R424): Host command that opens the single QCT session and grants queues and a window. -/
  | sessionOpen (q : Nat) (payload : List Byte)
  /-- SESSION_CLOSE (R431): Host command that closes the session once its completion is sent. -/
  | sessionClose (q : Nat) (payload : List Byte)
  /-- KEEPALIVE (R428): Host command that completes at once with the device timebase. -/
  | keepalive (q : Nat) (payload : List Byte)
  /-- REG_READ (R494): Host command that reads 1–256 registers, taking latch 0 unless it is held. -/
  | regRead (q : Nat) (payload : List Byte)
  /-- REG_WRITE (R494): Host command that writes 1–256 consecutive registers as one uninterrupted sequence. -/
  | regWrite (q : Nat) (payload : List Byte)
  /-- POWER_SET_RUNG (R465): Host command at scope 0 that moves the device to a target rung through the drain, clean, save and power-down steps. -/
  | powerSetRung (q : Nat) (payload : List Byte)
  /-- POWER_SET_SETPOINT (R465): Host command at scope 1 that writes the setpoint of each cell in a mask. -/
  | powerSetSetpoint (q : Nat) (payload : List Byte)
  /-- ATTEST (R451): Host command that returns a signed attestation report, with the certificate if requested. -/
  | attest (q : Nat) (payload : List Byte)
  /-- FW_BEGIN (R452): Firmware update operation that erases the slot that was not booted and opens a staging. -/
  | fwBegin (q : Nat) (payload : List Byte)
  /-- FW_DATA (R452): Firmware update operation that writes staged image bytes at an offset. -/
  | fwData (q : Nat) (payload : List Byte)
  /-- FW_COMMIT (R452): Firmware update operation that checks the staged image and marks it TRIAL. -/
  | fwCommit (q : Nat) (payload : List Byte)
  /-- FW_CONFIRM (R452): Firmware update operation that confirms the running trial slot, blows the revocation fuses and raises the counter. -/
  | fwConfirm (q : Nat) (payload : List Byte)
  /-- FW_RAISE (R453): Firmware update operation that raises the anti-rollback counter to the running SVN. -/
  | fwRaise (q : Nat) (payload : List Byte)
  /-- OWNER_ENROL (R455): Firmware update operation that fuses the owner key digest while enrolment is armed. -/
  | ownerEnrol (q : Nat) (payload : List Byte)
  /-- FW_ABORT (R452): Firmware update operation that ends the staging and marks its slot EMPTY. -/
  | fwAbort (q : Nat) (payload : List Byte)
  /-- MACSEC_KEY (R421): Host command that installs a secure association key for one direction and association number. -/
  | macsecKey (q : Nat) (payload : List Byte)
  /-- RDMA_QP_CREATE (R433): Host command that creates a RoCEv2 queue pair. -/
  | rdmaQpCreate (q : Nat) (payload : List Byte)
  /-- RDMA_QP_DESTROY (R433): Host command that destroys a RoCEv2 queue pair. -/
  | rdmaQpDestroy (q : Nat) (payload : List Byte)
  /-- RDMA_MR_CREATE (R433): Host command that creates a memory region over elements of one object and returns its rkey. -/
  | rdmaMrCreate (q : Nat) (payload : List Byte)
  /-- RDMA_MR_DESTROY (R433): Host command that destroys a memory region. -/
  | rdmaMrDestroy (q : Nat) (payload : List Byte)
  /-- QCT_PACKET (R425): A QCT datagram arrives and is checked for session, source and window, then buffered, treated as a duplicate or dropped. -/
  | qctPacket (d : Datagram)
  /-- QCT_RETRANSMIT (R426): An unacknowledged completion is resent when its retransmission timer expires, with exponential backoff. -/
  | qctRetransmit (q : Nat)
  /-- ACKONLY (R426): An ACKONLY packet is sent within 20 µs of a command when no other packet carries the acknowledgement. -/
  | ackonly (q : Nat)
  /-- KEEPALIVE_LOSS (R428): The session is closed when nothing has arrived from the host for three times KA_MS. -/
  | keepaliveLoss
  /-- EVENT_SEND (R432): Buffered event records are sent as sequenced packets on the event queue. -/
  | eventSend
  /-- RDMA_WRITE (R433): A RoCEv2 WRITE request is checked against its region and applied, and acknowledged once every granule has been applied. -/
  | rdmaWrite (r : RdmaReq)
  /-- RDMA_READ (R433): A RoCEv2 READ request is checked against its region and answered. -/
  | rdmaRead (r : RdmaReq)
  /-- CNP_RECEIVE (R433): A received congestion notification packet lowers the rate of READ responses. -/
  | cnpReceive (qpn : Nat)
  /-- FRAME_RECEIVE (R418): An Ethernet frame arrives and is checked for size, VLAN, MACsec and network rules, and ARP, neighbour discovery and echo are answered. -/
  | frameReceive (f : Frame)
  /-- PFC_FRAME (R420): A priority flow control frame pauses transmission at the named priorities. -/
  | pfcFrame (pri : Byte)
  /-- PORT_UP (R418): The Ethernet port finishes auto-negotiation and training and comes UP, or falls back to 800 Gb/s. -/
  | portUp (lanes : Nat)
  /-- LAUNCH_A (R120): Scalar instruction that checks a launch descriptor and starts an access program. -/
  | launchA (th : ThreadRef) (w : W64)
  /-- LAUNCH_X (R120): Scalar instruction that checks a launch descriptor and starts an execute program. -/
  | launchX (th : ThreadRef) (w : W64)
  /-- PROGRAM_COMPLETE (R123): An engine program completes; its summary is written and the launching thread's flag is set. -/
  | programComplete (c : Nat) (e : Engine)
  /-- PROGRAM_ABORT (R124): When a program faults, the other engine's program is aborted at its next boundary and the declared chutes are emptied. -/
  | programAbort (c : Nat)
  /-- CHUTE_WAIT_END (R125): An instruction waiting on a chute proceeds once a credit or a full slot becomes available. -/
  | chuteWaitEnd (c : Nat) (e : Engine)
  /-- DECOUPLE_STALL (R130): When the decouple watchdog reaches 2^20 with WD_EN set, the waiting programs fault. -/
  | decoupleStall (c : Nat)
  /-- WTAKE (R99): Scalar instruction that takes a work item record, and for a combine item also its order list, into operand memory. -/
  | wtake (th : ThreadRef) (w : W64)
  /-- WDONE (R279): Scalar instruction that reports an item finished; it may make a combine item takeable and complete a work set. -/
  | wdone (th : ThreadRef) (w : W64)
  /-- S_NOP (R277): Scalar no-operation. -/
  | sNop (th : ThreadRef) (w : W64)
  /-- S_ADD (R277): Scalar register add. -/
  | sAdd (th : ThreadRef) (w : W64)
  /-- S_SUB (R277): Scalar register subtract. -/
  | sSub (th : ThreadRef) (w : W64)
  /-- S_MUL (R277): Low 64 bits of a product. -/
  | sMul (th : ThreadRef) (w : W64)
  /-- S_MULHU (R277): High 64 bits of an unsigned product. -/
  | sMulhu (th : ThreadRef) (w : W64)
  /-- S_DIVU (R277): Unsigned division. -/
  | sDivu (th : ThreadRef) (w : W64)
  /-- S_REMU (R277): Unsigned remainder. -/
  | sRemu (th : ThreadRef) (w : W64)
  /-- S_AND (R277): Bitwise AND. -/
  | sAnd (th : ThreadRef) (w : W64)
  /-- S_OR (R277): Bitwise OR. -/
  | sOr (th : ThreadRef) (w : W64)
  /-- S_XOR (R277): Bitwise XOR. -/
  | sXor (th : ThreadRef) (w : W64)
  /-- S_SLL (R277): Shift left by a register. -/
  | sSll (th : ThreadRef) (w : W64)
  /-- S_SRL (R277): Logical shift right by a register. -/
  | sSrl (th : ThreadRef) (w : W64)
  /-- S_SRA (R277): Arithmetic shift right by a register. -/
  | sSra (th : ThreadRef) (w : W64)
  /-- S_SLT (R277): Set if less than, signed. -/
  | sSlt (th : ThreadRef) (w : W64)
  /-- S_SLTU (R277): Set if less than, unsigned. -/
  | sSltu (th : ThreadRef) (w : W64)
  /-- S_ADDI (R277): Add an immediate. -/
  | sAddi (th : ThreadRef) (w : W64)
  /-- S_ANDI (R277): AND with an immediate. -/
  | sAndi (th : ThreadRef) (w : W64)
  /-- S_ORI (R277): OR with an immediate. -/
  | sOri (th : ThreadRef) (w : W64)
  /-- S_XORI (R277): XOR with an immediate. -/
  | sXori (th : ThreadRef) (w : W64)
  /-- S_SLLI (R277): Shift left by an immediate. -/
  | sSlli (th : ThreadRef) (w : W64)
  /-- S_SRLI (R277): Logical shift right by an immediate. -/
  | sSrli (th : ThreadRef) (w : W64)
  /-- S_SRAI (R277): Arithmetic shift right by an immediate. -/
  | sSrai (th : ThreadRef) (w : W64)
  /-- S_LIH (R277): Load an immediate into the high half of a register. -/
  | sLih (th : ThreadRef) (w : W64)
  /-- S_BEQ (R277): Branch if equal. -/
  | sBeq (th : ThreadRef) (w : W64)
  /-- S_BNE (R277): Branch if not equal. -/
  | sBne (th : ThreadRef) (w : W64)
  /-- S_BLT (R277): Branch if less than, signed. -/
  | sBlt (th : ThreadRef) (w : W64)
  /-- S_BGE (R277): Branch if greater or equal, signed. -/
  | sBge (th : ThreadRef) (w : W64)
  /-- S_BLTU (R277): Branch if less than, unsigned. -/
  | sBltu (th : ThreadRef) (w : W64)
  /-- S_BGEU (R277): Branch if greater or equal, unsigned. -/
  | sBgeu (th : ThreadRef) (w : W64)
  /-- S_JAL (R277): Jump and link. -/
  | sJal (th : ThreadRef) (w : W64)
  /-- S_JALR (R277): Jump and link through a register. -/
  | sJalr (th : ThreadRef) (w : W64)
  /-- S_LD (R277): Load from operand memory, zero-extended. -/
  | sLd (th : ThreadRef) (w : W64)
  /-- S_LDS (R277): Load from operand memory, sign-extended. -/
  | sLds (th : ThreadRef) (w : W64)
  /-- S_ST (R277): Store to operand memory. -/
  | sSt (th : ThreadRef) (w : W64)
  /-- S_RDREG (R277): Read a register of the thread's own cell. -/
  | sRdreg (th : ThreadRef) (w : W64)
  /-- S_WRREG (R277): Write a register of the thread's own cell with its access type. -/
  | sWrreg (th : ThreadRef) (w : W64)
  /-- S_TIME (R277): Read the device timebase. -/
  | sTime (th : ThreadRef) (w : W64)
  /-- S_TICK (R277): Read the cell tick counter. -/
  | sTick (th : ThreadRef) (w : W64)
  /-- FENCE (R281): Synchronisation instruction that starts a wait for covered operations to reach the point of visibility of its scope, cleaning the cell cache at device or space scope. -/
  | fence (th : ThreadRef) (w : W64)
  /-- FENCE_COMPLETE (R329): The FENCE ends once every covered operation has reached its point of visibility, and the thread continues. -/
  | fenceComplete (th : ThreadRef)
  /-- WAIT (R282): Synchronisation instruction that blocks the thread until its flags satisfy a mask or a timeout elapses. -/
  | wait (th : ThreadRef) (w : W64)
  /-- SLEEP (R283): Synchronisation instruction that puts the thread on the delay list for a number of ticks. -/
  | sleep (th : ThreadRef) (w : W64)
  /-- YIELD (R283): Synchronisation instruction that returns the thread to READY. -/
  | yield (th : ThreadRef) (w : W64)
  /-- SIGNAL (R284): Synchronisation instruction that ORs flags into a slot of this device. -/
  | signal (th : ThreadRef) (w : W64)
  /-- FLAGS (R285): Synchronisation instruction that reads the thread's flags and clears selected bits. -/
  | flags (th : ThreadRef) (w : W64)
  /-- MBOX (R285): Synchronisation instruction that reads the mailbox and marks it read. -/
  | mbox (th : ThreadRef) (w : W64)
  /-- BARRIER (R286): Synchronisation instruction that arrives on a barrier channel for an episode without blocking. -/
  | barrier (th : ThreadRef) (w : W64)
  /-- SETPRI (R287): Synchronisation instruction that sets the thread's priority. -/
  | setpri (th : ThreadRef) (w : W64)
  /-- POST (R287): Synchronisation instruction that sends a value and tag to the host as an event, or drops it. -/
  | post (th : ThreadRef) (w : W64)
  /-- EXIT (R287): Synchronisation instruction that ends the thread and frees its slot. -/
  | exit (th : ThreadRef) (w : W64)
  /-- THREAD_DISPATCH (R306): A free core takes the highest-priority READY thread, preferring one that last ran on it. -/
  | threadDispatch (c core slot : Nat)
  /-- THREAD_WAKE (R309): A WAITING thread becomes READY in the cycle its flags first satisfy its mask, clearing them if requested. -/
  | threadWake (th : ThreadRef)
  /-- TICK_BOUNDARY (R310): At each multiple of the tick period, every cell's tick counter advances. -/
  | tickBoundary
  /-- DEADLINE_DUE (R313): Every sleeping thread, and every waiting thread with a timeout, whose deadline is due becomes READY. -/
  | deadlineDue (c : Nat)
  /-- STARVATION_LIMIT (R314): A thread READY for LIMIT ticks without dispatch is marked starved and counted. -/
  | starvationLimit (th : ThreadRef)
  /-- BARRIER_MESSAGE (R336): A barrier tree message arrives at a node, which counts it toward the subtree's completion or breaks the channel on a parity mismatch. -/
  | barrierMessage (m : BarMsg)
  /-- BARRIER_EPISODE_COMPLETE (R334): Completion travels down the tree, and each cell sets the arriving slots' flags and advances its episode. -/
  | barrierEpisodeComplete (chan : Nat)
  /-- BARRIER_CHANNEL_ENABLE (R338): Writing SCH_BAR_CHn.EN from 0 to 1 resets every episode and count, and clears BROKEN and CAUSE. -/
  | barrierChannelEnable (chan : Nat)
  /-- BARRIER_CHANNEL_DISABLE (R339): Writing SCH_BAR_CHn.EN to 0 discards pending arrivals without flags. -/
  | barrierChannelDisable (chan : Nat)
  /-- A_ADDA (R134): Access instruction that adds an immediate to an address register. -/
  | aAdda (c : Nat) (w : W64)
  /-- A_ADDAN (R134): Access instruction that adds a scaled count register to an address register. -/
  | aAddan (c : Nat) (w : W64)
  /-- A_SETN (R134): Access instruction that sets a count register. -/
  | aSetn (c : Nat) (w : W64)
  /-- A_ADDN (R134): Access instruction that adds an immediate to a count register. -/
  | aAddn (c : Nat) (w : W64)
  /-- A_LOOP (R134): Access instruction that repeats the next instructions a counted number of times. -/
  | aLoop (c : Nat) (w : W64)
  /-- A_NOP (R134): Access no-operation. -/
  | aNop (c : Nat) (w : W64)
  /-- A_GATHER (R138): Access instruction that gathers element parts named by an index list into an input chute. -/
  | aGather (c : Nat) (w : W64)
  /-- A_GATHERCSR (R141): Access instruction that gathers neighbour rows through CSR row pointers and columns, with segment lengths and optional edge values. -/
  | aGathercsr (c : Nat) (w : W64)
  /-- A_STREAM (R138): Access instruction that streams consecutive element parts into a chute. -/
  | aStream (c : Nat) (w : W64)
  /-- A_STREAMC (R162): Access instruction that reads compressed blocks, checks their headers and pair slots, and pushes them unchanged. -/
  | aStreamc (c : Nat) (w : W64)
  /-- A_LOAD (R138): Access instruction that loads consecutive element parts into operand memory. -/
  | aLoad (c : Nat) (w : W64)
  /-- A_PREF (R150): Access instruction that prefetches element granules into the cell cache. -/
  | aPref (c : Nat) (w : W64)
  /-- A_STORE (R140): Access instruction that writes parts taken from an output chute to consecutive elements. -/
  | aStore (c : Nat) (w : W64)
  /-- A_STOREC (R160): Access instruction that writes dense blocks from an output chute in a compressed or fallback form. -/
  | aStorec (c : Nat) (w : W64)
  /-- A_SCADD (R163): Access instruction that sends near-memory adds of rows from an output chute to the elements named by an index list. -/
  | aScadd (c : Nat) (w : W64)
  /-- A_HAUL (R165): Access instruction that copies element parts from any object into a range homed on this device. -/
  | aHaul (c : Nat) (w : W64)
  /-- REQUEST_ISSUE (R144): Each cell cycle, the sort window issues up to four granule requests under the bank and device caps. -/
  | requestIssue (c : Nat)
  /-- GRANULE_DELIVERY (R139): A granule's data returns to the cell, is delivered to its chute slot or operand memory, and may be installed in the cell cache. -/
  | granuleDelivery (c id : Nat)
  /-- WALK_COMPLETE (R64): A placement map walk returns its entry, which is installed, and the waiting requests are sent. -/
  | walkComplete (c handle plot : Nat)
  /-- REDIRECT_RECEIVE (R71): A REDIRECT answer makes the cell install a newer entry, keep its own or walk again, and reissue the request. -/
  | redirectReceive (c id : Nat)
  /-- HOME_LOST_RECEIVE (R73): A request completing HOME-LOST delivers poison, or drops its store or add, and sets HOME_LOST. -/
  | homeLostReceive (c id : Nat)
  /-- REQUEST_ACK (R325): A store or add acknowledgement reaches the cell, bringing the operation to its point of visibility. -/
  | requestAck (c id : Nat)
  /-- MCFG (R171): Matrix instruction that selects FULL or QUARTER and empties every bank and tile. -/
  | mcfg (c : Nat) (w : W64)
  /-- MLDW (R174): Matrix instruction that loads a weight tile into one bank, or skips it when predicated off. -/
  | mldw (c : Nat) (w : W64)
  /-- MLDW_COMPLETE (R175): A weight load finishes and its bank becomes LOADED. -/
  | mldwComplete (c : Nat)
  /-- MPRE (R178): Matrix instruction that preloads a tile or quadrant and resets its status. -/
  | mpre (c : Nat) (w : W64)
  /-- MMUL (R180): Matrix instruction that checks its operands and streams activation rows through a bank, dense or sparse, into a tile. -/
  | mmul (c : Nat) (w : W64)
  /-- MMUL_COMPLETE (R191): An MMUL's last row reaches the foot and the instruction completes. -/
  | mmulComplete (c : Nat)
  /-- OVERFLOW_REPLAY (R206): An overflow in block-scaled traffic restores the image, scales the tile by 2^-16 and reruns the MMUL, or saturates at the limits. -/
  | overflowReplay (c : Nat)
  /-- MDRAIN (R184): Matrix instruction that drains tile rows through the foot with a fused operation, reduction and output conversion. -/
  | mdrain (c : Nat) (w : W64)
  /-- MDRAIN_COMPLETE (R191): A drain finishes and releases the drain path. -/
  | mdrainComplete (c : Nat)
  /-- X_NOP (R229): Execute no-operation. -/
  | xNop (c : Nat) (w : W64)
  /-- X_SETK (R229): Execute instruction that sets a loop count register. -/
  | xSetk (c : Nat) (w : W64)
  /-- X_ADDK (R229): Execute instruction that adds an immediate to a loop count register. -/
  | xAddk (c : Nat) (w : W64)
  /-- X_LOOP (R229): Execute instruction that repeats the next instructions a counted number of times. -/
  | xLoop (c : Nat) (w : W64)
  /-- X_MA (R275): Execute instruction that writes the base, stride and depth of an address slot. -/
  | xMa (c : Nat) (w : W64)
  /-- VSETVL (R224): Execute instruction that sets vl. -/
  | vsetvl (c : Nat) (w : W64)
  /-- VMOV (R231): Vector move. -/
  | vmov (c : Nat) (w : W64)
  /-- VADD (R231): Vector FP32 add. -/
  | vadd (c : Nat) (w : W64)
  /-- VSUB (R231): Vector FP32 subtract. -/
  | vsub (c : Nat) (w : W64)
  /-- VMUL (R231): Vector FP32 multiply. -/
  | vmul (c : Nat) (w : W64)
  /-- VFMA (R231): Vector fused multiply-add. -/
  | vfma (c : Nat) (w : W64)
  /-- VMAX (R231): Vector FP32 maximum. -/
  | vmax (c : Nat) (w : W64)
  /-- VMIN (R231): Vector FP32 minimum. -/
  | vmin (c : Nat) (w : W64)
  /-- VABS (R231): Vector absolute value. -/
  | vabs (c : Nat) (w : W64)
  /-- VNEG (R231): Vector negation. -/
  | vneg (c : Nat) (w : W64)
  /-- VIADD (R231): Vector INT32 add. -/
  | viadd (c : Nat) (w : W64)
  /-- VISUB (R231): Vector INT32 subtract. -/
  | visub (c : Nat) (w : W64)
  /-- VIMUL (R231): Vector INT32 multiply. -/
  | vimul (c : Nat) (w : W64)
  /-- VIMAX (R231): Vector INT32 maximum. -/
  | vimax (c : Nat) (w : W64)
  /-- VIMIN (R231): Vector INT32 minimum. -/
  | vimin (c : Nat) (w : W64)
  /-- VAND (R231): Vector bitwise AND. -/
  | vand (c : Nat) (w : W64)
  /-- VOR (R231): Vector bitwise OR. -/
  | vor (c : Nat) (w : W64)
  /-- VXOR (R231): Vector bitwise XOR. -/
  | vxor (c : Nat) (w : W64)
  /-- VSLL (R231): Vector shift left. -/
  | vsll (c : Nat) (w : W64)
  /-- VSRL (R231): Vector logical shift right. -/
  | vsrl (c : Nat) (w : W64)
  /-- VSRA (R231): Vector arithmetic shift right. -/
  | vsra (c : Nat) (w : W64)
  /-- VCMP (R231): Vector compare that writes mask bits. -/
  | vcmp (c : Nat) (w : W64)
  /-- VSEL (R231): Vector select under a mask. -/
  | vsel (c : Nat) (w : W64)
  /-- VMAND (R231): Mask AND. -/
  | vmand (c : Nat) (w : W64)
  /-- VMOR (R231): Mask OR. -/
  | vmor (c : Nat) (w : W64)
  /-- VMXOR (R231): Mask XOR. -/
  | vmxor (c : Nat) (w : W64)
  /-- VMNOT (R231): Mask NOT. -/
  | vmnot (c : Nat) (w : W64)
  /-- VMFIRST (R231): Mask with the first n bits set. -/
  | vmfirst (c : Nat) (w : W64)
  /-- VLMUL (R233): Log-domain multiply of L codes. -/
  | vlmul (c : Nat) (w : W64)
  /-- VLADD (R234): Log-domain add of L values. -/
  | vladd (c : Nat) (w : W64)
  /-- VEXP (R235): Approximate 2^x. -/
  | vexp (c : Nat) (w : W64)
  /-- VRCP (R235): Approximate reciprocal. -/
  | vrcp (c : Nat) (w : W64)
  /-- VRSQ (R235): Approximate reciprocal square root. -/
  | vrsq (c : Nat) (w : W64)
  /-- VLOG2 (R235): Approximate base-2 logarithm. -/
  | vlog2 (c : Nat) (w : W64)
  /-- VPERM (R238): Vector permutation by an index group. -/
  | vperm (c : Nat) (w : W64)
  /-- VSHUF (R238): Vector transpose, rotate or reverse. -/
  | vshuf (c : Nat) (w : W64)
  /-- VCOMPRESS (R238): Compress unmasked elements and set vl. -/
  | vcompress (c : Nat) (w : W64)
  /-- VEXPAND (R238): Expand elements into unmasked positions. -/
  | vexpand (c : Nat) (w : W64)
  /-- VRSUM (R239): Sum reduction over rows or all elements. -/
  | vrsum (c : Nat) (w : W64)
  /-- VRMAX (R239): Maximum reduction. -/
  | vrmax (c : Nat) (w : W64)
  /-- VRMIN (R239): Minimum reduction. -/
  | vrmin (c : Nat) (w : W64)
  /-- VSEGSUM (R241): Segmented sum of rows, driven by popped lengths and carried across instructions. -/
  | vsegsum (c : Nat) (w : W64)
  /-- VLD (R228): Vector load from a chute or operand memory. -/
  | vld (c : Nat) (w : W64)
  /-- VST (R228): Vector store to a chute or operand memory. -/
  | vst (c : Nat) (w : W64)
  /-- VSUMMARY (R243): Posts a 64-bit value to the launching thread's mailbox and sets its flag. -/
  | vsummary (c : Nat) (w : W64)
  /-- VPRED (R260): Predicts the active output blocks, draws audit bits and writes XPRED. -/
  | vpred (c : Nat) (w : W64)
  /-- VCVT (R236): Vector format conversion with counting of saturated, flushed and NaN elements. -/
  | vcvt (c : Nat) (w : W64)
  /-- VPACK (R237): Packs the low bits of lanes into a narrow format. -/
  | vpack (c : Nat) (w : W64)
  /-- VUNPACK (R237): Unpacks narrow-format elements into lanes. -/
  | vunpack (c : Nat) (w : W64)
  /-- CC_CLEAN (R349): Range maintenance operation that writes back dirty lines and keeps them valid. -/
  | ccClean (c : Nat)
  /-- CC_INVALIDATE (R349): Range maintenance operation that invalidates and unlocks lines, discarding dirty data. -/
  | ccInvalidate (c : Nat)
  /-- CC_CLEAN_INV (R349): Range maintenance operation that writes back dirty lines, then invalidates and unlocks them. -/
  | ccCleanInv (c : Nat)
  /-- CC_PRELOAD_LOCK (R349): Range maintenance operation that fetches lines and locks them. -/
  | ccPreloadLock (c : Nat)
  /-- CC_UNLOCK (R349): Range maintenance operation that removes locks. -/
  | ccUnlock (c : Nat)
  /-- CC_MAINT_COMPLETE (R353): A maintenance operation completes once every set has been probed and every outstanding fill has returned, and BUSY clears. -/
  | ccMaintComplete (c : Nat)
  /-- SCALER_FRAME_INVALIDATE (R353): A Scaler frame invalidate runs ahead of software operations and is acknowledged when complete. -/
  | scalerFrameInvalidate (c lnd frame : Nat)
  /-- LANDING_REQUEST (R364): A landing serves a request, checking its frame record, and applies stores and adds or answers REDIRECT or holds it. -/
  | landingRequest (l id : Nat)
  /-- SCRUB_READ (R373): Patrol scrub reads the next granule and corrects errors. -/
  | scrubRead (l : Nat)
  /-- FRAME_ZERO_FILL (R366): A landing zero-fills a released frame. -/
  | frameZeroFill (l frame : Nat)
  /-- LANDING_FAIL (R376): A landing whose pseudo-channel cannot be retrained, or whose retirement log is full, fails as a whole. -/
  | landingFail (l : Nat)
  /-- PLACEMENT_INTERVAL (R81): At each re-placement interval, the steward's Scaler selects retirements, moves and replica changes within the budget. -/
  | placementInterval
  /-- MOVE_COPY_DONE (R84): A plot copy finishes; the move recopies, abandons or opens the move window. -/
  | moveCopyDone (handle plot : Nat)
  /-- MOVE_FLIP (R84): After the recopy, the target installs its frame record, the map entry advances a generation and held requests are redirected. -/
  | moveFlip (handle plot : Nat)
  /-- SWEEP_COMPLETE (R90): A sweep completes once every live device has acknowledged. -/
  | sweepComplete (handle : Nat)
  /-- MOVE_INVALIDATE_DONE (R85): All 192 invalidate acknowledgements arrive; the target applies the held writes and the source frame is released. -/
  | moveInvalidateDone (handle plot : Nat)
  /-- LINK_TRAINED (R381): An enabled link finishes training and comes UP, possibly at reduced width. -/
  | linkTrained (l lanes : Nat)
  /-- DATA_FLIT (R384): A DATA flit arrives and is accepted in sequence, or discarded with a NAK. -/
  | dataFlit (l : Nat) (f : Flit)
  /-- NAK (R384): A NAK flit makes the transmitter resend every DATA flit after the acknowledged one, going DOWN after 16 in succession. -/
  | nak (l : Nat) (f : Flit)
  /-- HEARTBEAT (R386): A HEARTBEAT flit arrives, giving the far device, space, epoch and keeper. -/
  | heartbeat (l : Nat) (f : Flit)
  /-- HEARTBEAT_SEND (R386): Each end sends a heartbeat no more than 1 µs after its previous one. -/
  | heartbeatSend (l : Nat)
  /-- BEACON (R387): A BEACON flit marks the link PARKED and counts as liveness. -/
  | beacon (l : Nat) (f : Flit)
  /-- WAKE (R387): A WAKE flit makes the parked device leave DORMANT. -/
  | wake (l : Nat) (f : Flit)
  /-- RESUME (R387): A RESUME flit brings the link back UP once both ends have sent one. -/
  | resume (l : Nat) (f : Flit)
  /-- LINK_LIVENESS_TIMEOUT (R386): A link with no good flit for 3 µs goes DOWN and begins recovery. -/
  | linkLivenessTimeout (l : Nat)
  /-- PACKET_ROUTE (R396): The router forwards a packet on the valid UP path with the most credits, or holds or discards it. -/
  | packetRoute (p : Packet)
  /-- NOROUTE_HOLD_EXPIRY (R398): A packet held with no path for HOLD_US is answered HOME_LOST. -/
  | norouteHoldExpiry (p : Packet)
  /-- PARKED_HOLD_EXPIRY (R412): A packet held for a parked device for 1 ms is answered HOME_LOST. -/
  | parkedHoldExpiry (p : Packet)
  /-- LOAD (R392): A LOAD packet arrives at its destination and is passed to the landing. -/
  | load (p : Packet)
  /-- STORE (R392): A STORE packet arrives at its destination and is passed to the landing, or refused FENCED. -/
  | store (p : Packet)
  /-- ADD (R392): An ADD packet arrives at its destination and is passed to the landing, or refused FENCED. -/
  | add (p : Packet)
  /-- WALK (R392): A WALK packet reads a placement map entry at the steward. -/
  | walk (p : Packet)
  /-- FENCED (R409): A FENCED answer to a device's own request puts it in EXPELLED. -/
  | fenced (p : Packet)
  /-- MOVE (R392): A MOVE packet writes 64 bytes of a plot copy at the target. -/
  | move (p : Packet)
  /-- MGMT (R392): A management packet carries descriptors, sweeps, work sets or placement messages between lookouts and Scalers. -/
  | mgmt (src : Nat) (m : MgmtMsg)
  /-- MEMB_LINK_DOWN (R404): The keeper receives a link-down report and probes the far device. -/
  | membLinkDown (p : Packet)
  /-- PROBE (R404): A device answers a PROBE with its epoch. -/
  | probe (p : Packet)
  /-- PROBE_RESP (R404): A probe answer keeps the device a MEMBER. -/
  | probeResp (p : Packet)
  /-- PROBE_TIMEOUT (R404): An unanswered probe makes the keeper declare the device LOST in a new epoch. -/
  | probeTimeout (x : Nat)
  /-- LINK_DOWN_REPORT_TIMEOUT (R405): An unacknowledged link-down report goes to the next member, which may take over as keeper. -/
  | linkDownReportTimeout (x : Nat)
  /-- EPOCH (R403): An EPOCH message is flooded once and installed when newer, applying the loss or admission it names. -/
  | epoch (p : Packet)
  /-- DRAIN_TIMEOUT (R408): Remote requests still unanswered DRAIN_US after a loss was installed complete HOME-LOST as path loss. -/
  | drainTimeout
  /-- MEMB_JOIN (R413): The keeper decides a JOIN as OK, DUP_ID, SPACE or STALE. -/
  | membJoin (p : Packet)
  /-- JOIN_RESP (R413): A JOIN answer sets the joiner's result and state. -/
  | joinResp (p : Packet)
  /-- JOIN_TIMEOUT (R413): A JOIN with no answer within 1 ms gives NO_PATH. -/
  | joinTimeout
  /-- RECOVER (R388): The far device answers RECOVER with the last completing sequence number and discards incomplete packets. -/
  | recover (p : Packet)
  /-- RECOVER_RESP (R388): The transmitter reroutes the packets after the reported sequence number and releases its replay buffer. -/
  | recoverResp (p : Packet)
  /-- FAB_FOUND (R402): Writing FAB_CTRL.FOUND makes a detached device the first MEMBER and keeper of a new space. -/
  | fabFound
  /-- FAB_JOIN (R413): Writing FAB_CTRL.JOIN makes the device clean its state if needed and send JOIN to the keeper. -/
  | fabJoin
  /-- POWER_ON (R461): VSTBY comes within its limits, starting the timebase with the lookout holding the device in reset. -/
  | powerOn
  /-- PWR_EN_RISE (R522): PWR_EN rises and the device raises its rails and drives PWR_GOOD. -/
  | pwrEnRise
  /-- PWR_GOOD_TIMEOUT (R522): PWR_GOOD not high within 20 ms of PWR_EN asserts FAULT_N. -/
  | pwrGoodTimeout
  /-- PWR_EN_FALL (R523): PWR_EN falling while RST_N is high acts as a reset and removes the rails. -/
  | pwrEnFall
  /-- RESET_ASSERT (R523): RST_N is asserted and the lookout completes its flash writes. -/
  | resetAssert
  /-- BOOT_ROM (R445): On RST_N release the boot ROM chooses, checks and measures a slot and starts the lookout firmware, or enters BOOT_FAIL. -/
  | bootRom (strap : BitVec 3)
  /-- LOOKOUT_BOOT (R446): The lookout firmware checks and installs the microcode and policy tables, trains HBM and queues the BOOT event. -/
  | lookoutBoot
  /-- LOOKOUT_WATCHDOG (R472): The lookout firmware failing its watchdog for 1 s resets the device. -/
  | lookoutWatchdog
  /-- JTAG_UNLOCK_CHALLENGE (R457): A read of UNLOCK_CHAL returns a fresh challenge while UNLOCK_EN is set. -/
  | jtagUnlockChallenge
  /-- JTAG_UNLOCK_RESPONSE (R457): A response shifted into UNLOCK_RESP is verified, opening the debug port or counting a failure. -/
  | jtagUnlockResponse (bytes : List Byte)
  /-- RUNG_DRAIN_DONE (R465): Once every running program has completed, the rung entry continues with clean, save and power-down. -/
  | rungDrainDone
  /-- RUNG_DRAIN_TIMEOUT (R465): A drain exceeding DRAIN_MS abandons the entry and completes POWER_SET BUSY. -/
  | rungDrainTimeout
  /-- WAKE_PIN (R467): WAKE_N held low for 1 µs wakes the device from any rung when enabled. -/
  | wakePin
  /-- RUNG_EXIT (R467): A wake restores the device to ACTIVE within the exit time, restoring cell images. -/
  | rungExit
  /-- FALLOW_EXIT (R468): Leaving FALLOW is a reset without the boot ROM, leaving the device detached. -/
  | fallowExit
  /-- SETPOINT_CHANGE (R469): A cell's clock moves to a new setpoint within 5 µs. -/
  | setpointChange (c : Nat)
  /-- CELL_PARK (R470): A cell idle for IDLE_US is parked in SIMMER by its supervisor. -/
  | cellPark (c : Nat)
  /-- CELL_UNPARK (R470): A flag, deadline, start, register access or invalidate unparks a cell within 2 µs. -/
  | cellUnpark (c : Nat)
  /-- THERMAL_WARN (R471): The hottest sensor reaching or leaving WARN asserts or releases THERM_N. -/
  | thermalWarn (sensor : Nat) (temp : Int)
  /-- THROTTLE_STEP (R471): Each 1 ms, a hot field's cells step down one setpoint, or a cooled field's step back up. -/
  | throttleStep (field : Nat)
  /-- THERMAL_TRIP (R471): At 120 °C the comparator asserts TRIP_N and removes every package rail. -/
  | thermalTrip (sensor : Nat) (temp : Int)
  /-- CELL_RESTART (R482): A supervisor restarts a cell on a cell-fatal error or a RESTART write, through seven timed steps. -/
  | cellRestart (c : Nat) (parity : Bool)
  /-- DEVICE_FATAL (R484): A device-fatal error asserts FAULT_N, stops the links and resets the device. -/
  | deviceFatal
  /-- REPORT_FORWARD (R477): A field supervisor forwards a report to the lookout, which queues one event record subject to rate limiting. -/
  | reportForward (field : Nat)
  /-- ERR_CNT_CLR (R486): Writing ERR_CNT_CLR clears every error counter of the device at one instant. -/
  | errCntClr
  /-- SNAPSHOT_TAKE (R488): A TAKE copies every counter and latched register of its scope at one instant and clears RC fields. -/
  | snapshotTake (j : Nat) (scope : BitVec 16)
  /-- SNAPSHOT_RELEASE (R488): A RELEASE returns reads to live values. -/
  | snapshotRelease (j : Nat)
  /-- REGISTER_WRITE (R9): A write to a register with no behaviour of its own stores, sets or clears its fields as their access codes state. -/
  | registerWrite (p : RegPath) (addr : Nat) (v : W32)
  /-- PORT_DOWN (R434): The Ethernet port loses its link, ETH_STATUS.LINK goes DOWN and the session survives only if the port returns within 3 × KA_MS. -/
  | portDown
  /-- IDLE_FLIT (R382): An IDLE flit arrives and its ACK and CREDIT fields release replay-buffer entries and return credits. -/
  | idleFlit (l : Nat) (f : Flit)
  /-- VSTBY_LOSS (R524): VSTBY leaves its limits, the lookout island loses power and the device becomes unpowered, with the boot state kept in its two flash copies. -/
  | vstbyLoss
  /-- RAIL_FAILURE (R525): VIN48 is removed or a package rail fails, PWR_GOOD falls, FAULT_N is asserted, HBM contents are lost and partners declare the device LOST. -/
  | railFailure
  /-- TRIP_RAIL_RETURN (R532): After a tripped device has been reset, its rails return under PWR_EN once every sensor reads below 100 °C. -/
  | tripRailReturn
  /-- CELL_RESTART_COMPLETE (R482): A cell restart ends after its seven steps, the cell leaves RESTARTING and its crossings reopen, releasing held register accesses. -/
  | cellRestartComplete (c : Nat)
  /-- MPRE_COMPLETE (R188): An MPRE finishes writing its tile, releases the drain path and lets waiting MMUL, MDRAIN and V-class reads proceed. -/
  | mpreComplete (c : Nat)
  /-- V_CLASS_BUSY_END (R230): A V-class instruction reaches the end of its busy time, its results become visible and the vector engine frees for the next one. -/
  | vClassBusyEnd (c : Nat)
  /-- REGISTER_READ (R494): A register read over I3C or unlocked JTAG returns values through latch 0 and clears RC fields read live. -/
  | registerRead (p : RegPath) (addr count : Nat)
  /-- I3C_DYNAMIC_ADDRESSING (R528): A SETDASA or ENTDAA command from the I3C controller assigns the device a dynamic I3C address. -/
  | i3cDynamicAddressing (addr : BitVec 7)
  deriving DecidableEq, Repr

end Sys2Proof
end

