-- ==== Sys2Proof/Decode.lean ====
section
/-! DEFINITION. Decode.lean: the commands that the operation table spells in bits. It gives no row of this block any bits. -/

namespace Sys2Proof

/-- The command that a word spells by the bits of the operation table: none, since no row gives bits. The words of Retil
instructions are operands of their rows, and Machine/Operands.lean reads them. -/
def decodeTableWord (_nbits _w : Nat) : Option Instr := none

end Sys2Proof
end

