-- ==== Sys2Proof/Machine/Tbl.lean ====
section
/-! DEFINITION. Machine/Tbl.lean: sparse tables in one canonical form, the bytes of a memory among them, and the bit and byte
helpers that the meanings use. A table is a list of (key, value) pairs with strictly rising keys; a key it does not list
holds the table's default, and no listed value equals that default. -/

namespace Sys2Proof.Machine

/-- The value of key `k`, `d` where the table does not list it. -/
def tblGet {α : Type} (d : α) (k : Nat) : List (Nat × α) → α
  | [] => d
  | (k', v) :: t => if k = k' then v else if k < k' then d else tblGet d k t

/-- The table with `v` at key `k`, the default `d` of that key leaving it unlisted. -/
def tblSet {α : Type} [DecidableEq α] (d : α) (k : Nat) (v : α) : List (Nat × α) → List (Nat × α)
  | [] => if v = d then [] else [(k, v)]
  | (k', v') :: t =>
    if k < k' then (if v = d then (k', v') :: t else (k, v) :: (k', v') :: t)
    else if k = k' then (if v = d then t else (k, v) :: t)
    else (k', v') :: tblSet d k v t

/-- Keys above `lo` (all keys when `lo` is none), strictly rising, and no value equal to its key's default. -/
def tblWfFrom {α : Type} [DecidableEq α] (dflt : Nat → α) : Option Nat → List (Nat × α) → Bool
  | _, [] => true
  | lo, (k, v) :: t =>
    (match lo with | none => true | some b => decide (b < k)) && decide (v ≠ dflt k) && tblWfFrom dflt (some k) t

/-- The canonical form of a table. -/
def tblWf {α : Type} [DecidableEq α] (dflt : Nat → α) (t : List (Nat × α)) : Bool := tblWfFrom dflt none t

/-- What a byte that nothing has written reads as (R52: the contents of a new object read as zero). -/
def memDefault : Byte := 0

/-- The byte at an address. -/
def memGet (m : List Host.Cell) (a : Nat) : Byte := tblGet memDefault a m

/-- The memory with one byte written. -/
def memSet (m : List Host.Cell) (a : Nat) (b : Byte) : List Host.Cell := tblSet memDefault a b m

/-- The canonical form of a memory. -/
def memWf (m : List Host.Cell) : Bool := tblWf (fun _ => memDefault) m

/-- `n` bytes from address `a` upward. -/
def memRead (m : List Host.Cell) (a : Nat) : Nat → List Byte
  | 0 => []
  | n + 1 => memGet m a :: memRead m (a + 1) n

/-- The bytes written from address `a` upward. -/
def memWrite (m : List Host.Cell) (a : Nat) : List Byte → List Host.Cell
  | [] => m
  | b :: t => memWrite (memSet m a b) (a + 1) t

/-- The `n` bytes of a number, least significant first (R7). -/
def leBytes : Nat → Nat → List Byte
  | 0, _ => []
  | n + 1, v => BitVec.ofNat 8 v :: leBytes n (v / 256)

/-- The number that bytes spell, least significant first (R7). -/
def leNat : List Byte → Nat
  | [] => 0
  | b :: t => b.toNat + 256 * leNat t

/-- Byte `i` of a payload, 0 beyond its end. -/
def byteAt (p : List Byte) (i : Nat) : Byte := p.getD i 0

/-- Bytes `[i + n - 1 : i]` of a payload as a number. -/
def leAt (p : List Byte) (i n : Nat) : Nat := leNat ((p.drop i).take n)

/-- Whether bytes `[i + n - 1 : i]` are all zero. -/
def zeroAt (p : List Byte) (i n : Nat) : Bool := ((p.drop i).take n).all (· == 0)

/-- Bits `[hi : lo]` of a number. -/
def natBits (v hi lo : Nat) : Nat := v / 2 ^ lo % 2 ^ (hi + 1 - lo)

/-- Bit `i` of a number. -/
def natBit (v i : Nat) : Bool := v.testBit i

/-- Bits `[hi : lo]` of a word as a number. -/
def fld {w : Nat} (v : BitVec w) (hi lo : Nat) : Nat := natBits v.toNat hi lo

/-- A number with its bits `[hi : lo]` replaced. -/
def setFld {w : Nat} (v : BitVec w) (hi lo : Nat) (x : Nat) : BitVec w :=
  BitVec.ofNat w (v.toNat - natBits v.toNat hi lo * 2 ^ lo + x % 2 ^ (hi + 1 - lo) * 2 ^ lo)

/-- A two's-complement value of `n` bits. -/
def signed (n v : Nat) : Int := if v % 2 ^ n < 2 ^ (n - 1) then (v % 2 ^ n : Nat) else (v % 2 ^ n : Nat) - (2 ^ n : Nat)

/-- ⌈a / b⌉. -/
def ceilDiv (a b : Nat) : Nat := (a + b - 1) / b

/-- Replaces element `i` of a list by `f` of it; a list too short is left. -/
def modAt {α : Type} (i : Nat) (f : α → α) : List α → List α
  | [] => []
  | a :: t => match i with
    | 0 => f a :: t
    | j + 1 => a :: modAt j f t

/-- Half-range comparison modulo 2^n: whether `a` is newer than `b` (R67, R489). -/
def newer (n a b : Nat) : Bool :=
  let d := (a + 2 ^ n - b % 2 ^ n) % 2 ^ n
  decide (1 ≤ d) && decide (d < 2 ^ (n - 1))

/-- The least number from `i` that meets `p`, looking at `fuel` of them. -/
def lowest (p : Nat → Bool) : Nat → Nat → Option Nat
  | 0, _ => none
  | fuel + 1, i => if p i then some i else lowest p fuel (i + 1)

/-- The elements of a list cut into pieces of `n`. -/
def chunks {α : Type} (n : Nat) : Nat → List α → List (List α)
  | 0, _ => []
  | fuel + 1, l => if l.isEmpty then [] else l.take n :: chunks n fuel (l.drop n)

end Sys2Proof.Machine
end

