-- ==== Sys2Proof/Machine/Numeric.lean ====
section
/-! DEFINITION. Machine/Numeric.lean: the number formats of R18, their exact values, IEEE binary32 arithmetic (R232), the
logarithmic formats (R19 to R28) and the conversions of R35 to R41. Finite values are exact dyadic numbers, rounded in one
place. -/

namespace Sys2Proof.Machine

/-! ## Exact values -/

/-- A value: NaN, an infinity, or (−1)^neg · m · 2^e. Zero keeps its sign. -/
inductive FVal where
  | nan
  | inf (neg : Bool)
  | fin (neg : Bool) (m : Nat) (e : Int)
  deriving DecidableEq, Repr

def FVal.zero : FVal := .fin false 0 0

/-- The value of an integer. -/
def FVal.ofInt (i : Int) : FVal := .fin (decide (i < 0)) i.natAbs 0

def FVal.isZero : FVal → Bool
  | .fin _ m _ => m == 0
  | _ => false

def FVal.isNeg : FVal → Bool
  | .nan => false
  | .inf n => n
  | .fin n _ _ => n

def FVal.isFinite : FVal → Bool
  | .fin _ _ _ => true
  | _ => false

def FVal.neg : FVal → FVal
  | .nan => .nan
  | .inf n => .inf !n
  | .fin n m e => .fin (!n) m e

/-- The value times 2^k. -/
def FVal.scale (k : Int) : FVal → FVal
  | .fin n m e => .fin n m (e + k)
  | v => v

/-- The signed significand of a finite value when its exponent is lowered to `e'`. -/
def sigAt (neg : Bool) (m : Nat) (e e' : Int) : Int :=
  let k : Nat := m * 2 ^ (e - e').toNat
  if neg then -(k : Int) else (k : Int)

/-- The exact sum. A zero sum is −0 only when both are negative. -/
def FVal.add : FVal → FVal → FVal
  | .nan, _ => .nan
  | _, .nan => .nan
  | .inf a, .inf b => if a = b then .inf a else .nan
  | .inf a, .fin _ _ _ => .inf a
  | .fin _ _ _, .inf b => .inf b
  | .fin n₁ m₁ e₁, .fin n₂ m₂ e₂ =>
    let e := min e₁ e₂
    let s := sigAt n₁ m₁ e₁ e + sigAt n₂ m₂ e₂ e
    if s = 0 then .fin (n₁ && n₂) 0 e else .fin (decide (s < 0)) s.natAbs e

/-- The exact product. -/
def FVal.mul : FVal → FVal → FVal
  | .nan, _ => .nan
  | _, .nan => .nan
  | .inf a, .inf b => .inf (a != b)
  | .inf a, .fin n m _ => if m = 0 then .nan else .inf (a != n)
  | .fin n m _, .inf b => if m = 0 then .nan else .inf (n != b)
  | .fin n₁ m₁ e₁, .fin n₂ m₂ e₂ => .fin (n₁ != n₂) (m₁ * m₂) (e₁ + e₂)

/-- Whether m₁ · 2^e₁ < m₂ · 2^e₂. -/
def magLt (m₁ : Nat) (e₁ : Int) (m₂ : Nat) (e₂ : Int) : Bool :=
  let e := min e₁ e₂
  decide (m₁ * 2 ^ (e₁ - e).toNat < m₂ * 2 ^ (e₂ - e).toNat)

/-- Whether `a` is below `b` in value; −0 equals +0. Neither is NaN. -/
def FVal.lt : FVal → FVal → Bool
  | .nan, _ => false
  | _, .nan => false
  | .inf a, .inf b => a && !b
  | .inf a, .fin _ _ _ => a
  | .fin _ _ _, .inf b => !b
  | .fin n₁ m₁ e₁, .fin n₂ m₂ e₂ =>
    let e := min e₁ e₂
    decide (sigAt n₁ m₁ e₁ e < sigAt n₂ m₂ e₂ e)

/-! ## Binary formats (R18, R30, R31) -/

/-- A binary floating-point format: significand bits with the hidden one, exponent bits, exponent of the least subnormal, the
NaN it produces, and whether it lacks infinities (E4M3). -/
structure FFmt where
  p : Nat
  ebits : Nat
  emin : Int
  nanBits : Nat
  noInf : Bool
  deriving DecidableEq, Repr

def fp32 : FFmt := { p := 24, ebits := 8, emin := -149, nanBits := 0x7FC00000, noInf := false }
def bf16 : FFmt := { p := 8, ebits := 8, emin := -133, nanBits := 0x7FC0, noInf := false }
def fp16 : FFmt := { p := 11, ebits := 5, emin := -24, nanBits := 0x7E00, noInf := false }
def e4m3 : FFmt := { p := 4, ebits := 4, emin := -9, nanBits := 0x7F, noInf := true }
def e5m2 : FFmt := { p := 3, ebits := 5, emin := -16, nanBits := 0x7F, noInf := false }
/-- IEEE binary64, internal to the spill buffers (R18). -/
def fp64 : FFmt := { p := 53, ebits := 11, emin := -1074, nanBits := 0x7FF8000000000000, noInf := false }

def FFmt.width (f : FFmt) : Nat := f.ebits + f.p
def FFmt.infBits (f : FFmt) : Nat := (2 ^ f.ebits - 1) * 2 ^ (f.p - 1)
/-- The encoding of the largest finite magnitude. -/
def FFmt.maxBits (f : FFmt) : Nat := if f.noInf then 2 ^ (f.width - 1) - 2 else f.infBits - 1
def FFmt.signBit (f : FFmt) (neg : Bool) : Nat := if neg then 2 ^ (f.width - 1) else 0

/-- The value of an encoding. -/
def fDecode (f : FFmt) (b : Nat) : FVal :=
  let fr := b % 2 ^ (f.p - 1)
  let ef := b / 2 ^ (f.p - 1) % 2 ^ f.ebits
  let neg := b.testBit (f.width - 1)
  if f.noInf then
    if b % 2 ^ (f.width - 1) = 2 ^ (f.width - 1) - 1 then .nan
    else if ef = 0 then .fin neg fr f.emin else .fin neg (fr + 2 ^ (f.p - 1)) (f.emin + ef - 1)
  else if ef = 2 ^ f.ebits - 1 then (if fr = 0 then .inf neg else .nan)
  else if ef = 0 then .fin neg fr f.emin else .fin neg (fr + 2 ^ (f.p - 1)) (f.emin + ef - 1)

/-- m / 2^d, rounded to nearest even. -/
def roundShift (m d : Nat) : Nat :=
  if d = 0 then m else
    let q := m / 2 ^ d
    let r := m % 2 ^ d
    let h := 2 ^ (d - 1)
    if h < r ∨ (r = h ∧ q % 2 = 1) then q + 1 else q

/-- The encoding, without sign, of m · 2^e rounded to nearest even with `p` significand bits and least exponent `emin`, as if
the exponent range had no upper end. -/
def rneBits (p : Nat) (emin : Int) (m : Nat) (e : Int) : Nat :=
  if m = 0 then 0 else
    let q : Int := max ((Nat.log2 m : Int) + e - ((p - 1 : Nat) : Int)) emin
    let k := if q ≤ e then m * 2 ^ (e - q).toNat else roundShift m (q - e).toNat
    (q - emin).toNat * 2 ^ (p - 1) + k

/-- Encoding by IEEE 754: overflow to infinity. -/
def fEncode (f : FFmt) : FVal → Nat
  | .nan => f.nanBits
  | .inf n => f.signBit n + f.infBits
  | .fin n m e => f.signBit n + min (rneBits f.p f.emin m e) f.infBits

/-- Encoding of a finite result, saturating at the largest finite magnitude, and whether it saturated (R185, R204). -/
def fEncodeSat (f : FFmt) (n : Bool) (m : Nat) (e : Int) : Nat × Bool :=
  let b := rneBits f.p f.emin m e
  if f.infBits ≤ b then (f.signBit n + f.maxBits, true) else (f.signBit n + b, false)

/-! ## Binary32 arithmetic (R232) -/

def f32 (v : FVal) : W32 := BitVec.ofNat 32 (fEncode fp32 v)
def f32Val (b : W32) : FVal := fDecode fp32 b.toNat
def f32IsNan (b : W32) : Bool := decide (0x7F800000 < b.toNat % 0x80000000)
def f32Quiet (b : W32) : W32 := b ||| 0x00400000
def qnan : W32 := 0x7FC00000
/-- The quiet NaN that marks an empty mean or variance (R214). -/
def qnanEmpty : W32 := 0x7FC00E00

/-- The first NaN operand, quieted (R232). -/
def firstNan (l : List W32) : Option W32 := (l.find? f32IsNan).map f32Quiet

def f32Add (a b : W32) : W32 := (firstNan [a, b]).getD (f32 ((f32Val a).add (f32Val b)))
def f32Sub (a b : W32) : W32 := (firstNan [a, b]).getD (f32 ((f32Val a).add (f32Val b).neg))
def f32Mul (a b : W32) : W32 := (firstNan [a, b]).getD (f32 ((f32Val a).mul (f32Val b)))
def f32Fma (a b c : W32) : W32 := (firstNan [a, b, c]).getD (f32 (((f32Val a).mul (f32Val b)).add (f32Val c)))

/-- A key that orders non-NaN binary32 encodings, −0 below +0. -/
def f32Key (b : W32) : Int := if b.toNat < 0x80000000 then (b.toNat : Int) else 0x7FFFFFFF - (b.toNat : Int)

def f32Max (a b : W32) : W32 := (firstNan [a, b]).getD (if f32Key a < f32Key b then b else a)
def f32Min (a b : W32) : W32 := (firstNan [a, b]).getD (if f32Key b < f32Key a then b else a)
def f32Abs (a : W32) : W32 := a &&& 0x7FFFFFFF
def f32Neg (a : W32) : W32 := a ^^^ 0x80000000

/-- Comparison by condition code cc: EQ, NE, LT, LE, GT, GE (R293). A NaN makes every one but NE false. -/
def f32Cmp (cc : Nat) (a b : W32) : Bool :=
  if f32IsNan a || f32IsNan b then cc == 1
  else
    let lt := (f32Val a).lt (f32Val b)
    let gt := (f32Val b).lt (f32Val a)
    match cc with
    | 0 => !lt && !gt
    | 1 => lt || gt
    | 2 => lt
    | 3 => !gt
    | 4 => gt
    | _ => !lt

def i32Cmp (cc : Nat) (a b : W32) : Bool :=
  match cc with
  | 0 => a == b
  | 1 => a != b
  | 2 => a.slt b
  | 3 => a.sle b
  | 4 => b.slt a
  | _ => b.sle a

/-- An integer clamped to `n` bits of two's complement, as its bits, and whether it was out of range. -/
def satInt (n : Nat) (i : Int) : Nat × Bool :=
  let hi : Int := (2 ^ (n - 1) : Nat) - 1
  let lo : Int := -((2 ^ (n - 1) : Nat) : Int)
  if hi < i then (2 ^ (n - 1) - 1, true)
  else if i < lo then (2 ^ (n - 1), true)
  else ((i % ((2 ^ n : Nat) : Int)).toNat, false)

/-! ## The logarithmic formats (R19 to R28) -/

/-- The significands of T64[k], each times 2^23 (R28): 2^(k/64) rounded to nearest even in FP32. -/
def t64 : List Nat :=
  [0x800000, 0x8164D2, 0x82CD87, 0x843A29, 0x85AAC3, 0x871F62, 0x88980F, 0x8A14D5,
   0x8B95C2, 0x8D1ADF, 0x8EA43A, 0x9031DC, 0x91C3D3, 0x935A2B, 0x94F4F0, 0x96942D,
   0x9837F0, 0x99E046, 0x9B8D3A, 0x9D3EDA, 0x9EF532, 0xA0B051, 0xA27043, 0xA43516,
   0xA5FED7, 0xA7CD94, 0xA9A15B, 0xAB7A3A, 0xAD583F, 0xAF3B79, 0xB123F6, 0xB311C4] ++
  [0xB504F3, 0xB6FD92, 0xB8FBAF, 0xBAFF5B, 0xBD08A4, 0xBF179A, 0xC12C4D, 0xC346CD,
   0xC5672A, 0xC78D75, 0xC9B9BE, 0xCBEC15, 0xCE248C, 0xD06334, 0xD2A81E, 0xD4F35B,
   0xD744FD, 0xD99D16, 0xDBFBB8, 0xDE60F5, 0xE0CCDF, 0xE33F89, 0xE5B907, 0xE8396A,
   0xEAC0C7, 0xED4F30, 0xEFE4BA, 0xF28177, 0xF5257D, 0xF7D0DF, 0xFA83B3, 0xFD3E0C]

/-- The two logarithmic formats: steps per octave, code offset, code bits. T8[k] is T64[8k]. -/
structure LFmt where
  steps : Nat
  off : Nat
  bits : Nat
  deriving DecidableEq, Repr

def l12 : LFmt := { steps := 64, off := 1024, bits := 11 }
def l8 : LFmt := { steps := 8, off := 64, bits := 7 }

def LFmt.top (f : LFmt) : Nat := 2 ^ f.bits - 1
def LFmt.code (f : LFmt) (b : Nat) : Nat := b % 2 ^ f.bits
def LFmt.sign (f : LFmt) (b : Nat) : Bool := b.testBit f.bits
def LFmt.signBit (f : LFmt) (neg : Bool) : Nat := if neg then 2 ^ f.bits else 0

/-- The binary value of (−1)^neg · 2^(p/steps) by the table (R28). -/
def lPower (f : LFmt) (neg : Bool) (p : Int) : FVal :=
  let q := p / (f.steps : Int)
  let k := (p % (f.steps : Int)).toNat
  .fin neg (t64.getD (k * (64 / f.steps)) 0) (q - 23)

/-- The value of an element, as the array and the conversions see it. -/
def lVal (f : LFmt) (b : Nat) : FVal :=
  if f.code b = 0 then .fin (f.sign b) 0 0 else lPower f (f.sign b) ((f.code b : Int) - f.off)

/-- The product code of two non-zero elements (R27). -/
def lProdCode (f : LFmt) (a b : Nat) : Int := ((f.code a : Int) - f.off) + ((f.code b : Int) - f.off)

/-- The product of two elements as a binary value; +0 when either code is 0 (R27, R28). -/
def lProd (f : LFmt) (a b : Nat) : FVal :=
  if f.code a = 0 ∨ f.code b = 0 then .fin false 0 0 else lPower f (f.sign a != f.sign b) (lProdCode f a b)

/-- The integer nearest to steps · log2(m · 2^e), for m > 0 (R36). -/
def lNearest (f : LFmt) (m : Nat) (e : Int) : Int :=
  ((2 * f.steps : Nat) * e + (Nat.log2 (m ^ (2 * f.steps)) : Nat) + 1) / 2

/-! ## Conversion results (R35, R40, R41) -/

/-- What a conversion of one element met. -/
inductive CvtEv where
  | plain | sat | flush | nan
  deriving DecidableEq, Repr

def CvtEv.rank : CvtEv → Nat
  | .nan => 3 | .sat => 2 | .flush => 1 | .plain => 0

/-- Of two events of one element, the one that is counted (R41). -/
def CvtEv.join (a b : CvtEv) : CvtEv := if a.rank < b.rank then b else a

/-- How many elements of a list met an event. -/
def countEv (ev : CvtEv) (l : List CvtEv) : Nat := (l.filter (· == ev)).length

/-- Whether a finite non-zero value lies below the FP32 normal range. -/
def tiny : FVal → Bool
  | .fin _ m e => decide (m ≠ 0) && magLt m e 1 (-126)
  | _ => false

/-- A value converted to a code of an L format, after scaling by 2^−e (R35, R36). `fpIn` says that the value is an FP32 input,
whose subnormals flush; a descaled value of R208 is not. -/
def cvtL (f : LFmt) (fpIn : Bool) (sc : Int) (v : FVal) : Nat × CvtEv :=
  match v with
  | .nan => (0, .nan)
  | .inf n => (f.signBit n + f.top, .sat)
  | .fin n m e =>
    if m = 0 then (f.signBit n, .plain)
    else if fpIn && tiny v then (f.signBit n, .flush)
    else
      let j := lNearest f m (e - sc)
      if (f.top : Int) - f.off < j then (f.signBit n + f.top, .sat)
      else if j < 1 - (f.off : Int) then (f.signBit n, .flush)
      else (f.signBit n + (j + f.off).toNat, .plain)

/-- The scale chosen for a row or block: `k` is 14 for L12 (R37) and 6 for L8 (R38). -/
def pickScale (k : Int) (vs : List FVal) : Int :=
  let best := vs.foldl (fun (b : Option Int) v =>
    match v with
    | .fin _ m e => if m = 0 then b else
        let l := (Nat.log2 m : Int) + e
        some (match b with | none => l | some x => max x l)
    | _ => b) none
  match best with
  | none => 0
  | some l => max (-128) (min 127 (l - k))

/-- A row or block converted with the scale chosen for it. -/
def cvtScaledGroup (f : LFmt) (fpIn : Bool) (vs : List FVal) : List (Nat × CvtEv) × Int :=
  let sc := pickScale (if f.steps = 64 then 14 else 6) vs
  (vs.map (cvtL f fpIn sc), sc)

/-- A value converted to a binary floating-point format (R35). `fpIn` as in `cvtL`; a non-FP32 value below the FP32 normal
range that becomes zero is flushed (R208). -/
def cvtF (f : FFmt) (fpIn : Bool) (v : FVal) : Nat × CvtEv :=
  match v with
  | .nan => (f.nanBits, .nan)
  | .inf n => if f.noInf then (f.signBit n + f.maxBits, .sat) else (f.signBit n + f.infBits, .plain)
  | .fin n m e =>
    match fDecode f f.maxBits with
    | .fin _ mm me =>
      if magLt mm me m e then (f.signBit n + f.maxBits, .sat)
      else
        let b := rneBits f.p f.emin m e
        (f.signBit n + b, if b = 0 && !fpIn && tiny v then .flush else .plain)
    | _ => (f.nanBits, .nan)

/-- m · 2^e rounded to nearest even as an integer. -/
def rneInt (n : Bool) (m : Nat) (e : Int) : Int :=
  let k : Nat := if 0 ≤ e then m * 2 ^ e.toNat else roundShift m (-e).toNat
  if n then -(k : Int) else (k : Int)

/-- A value converted to a two's-complement integer of `w` bits (R35): out of range when it lies above the largest or below
the least value, compared before rounding. -/
def cvtI (w : Nat) (fpIn : Bool) (v : FVal) : Nat × CvtEv :=
  match v with
  | .nan => (0, .nan)
  | .inf n => ((if n then 2 ^ (w - 1) else 2 ^ (w - 1) - 1), .sat)
  | .fin n m e =>
    if n && magLt (2 ^ (w - 1)) 0 m e then (2 ^ (w - 1), .sat)
    else if !n && magLt (2 ^ (w - 1) - 1) 0 m e then (2 ^ (w - 1) - 1, .sat)
    else
      let b := (satInt w (rneInt n m e)).1
      (b, if b = 0 && !fpIn && tiny v then .flush else .plain)

/-! ## Format codes (R273) -/

def fmtBits : Nat → Nat
  | 0 => 4 | 1 => 8 | 2 => 8 | 3 => 8 | 4 => 12 | 5 => 12 | 6 => 8 | 7 => 16 | 8 => 16 | 9 => 32 | 10 => 32 | 11 => 40 | _ => 8

def fmtIsArray (f : Nat) : Bool := decide (f ≤ 8)
def fmtIsInt (f : Nat) : Bool := f == 0 || f == 1
def fmtIsScaled (f : Nat) : Bool := f == 5 || f == 6
def fmtIsL (f : Nat) : Bool := f == 4 || f == 5 || f == 6
def fmtL (f : Nat) : LFmt := if f = 6 then l8 else l12

/-- The binary format of codes 2, 3, 7, 8 and 9. -/
def fmtF (f : Nat) : Option FFmt :=
  match f with
  | 2 => some e4m3 | 3 => some e5m2 | 7 => some bf16 | 8 => some fp16 | 9 => some fp32 | _ => none

/-- The value of an element of a format, L formats by the table of R28 and without any scale. -/
def elemVal (f : Nat) (b : Nat) : FVal :=
  match fmtF f with
  | some ff => fDecode ff b
  | none => if fmtIsL f then lVal (fmtL f) b else FVal.ofInt (signed (fmtBits f) b)

/-- Element `i` of packed bytes given as one number (R21, R32). -/
def packedAt (w n i : Nat) : Nat := n / 2 ^ (w * i) % 2 ^ w

/-- The elements of packed bytes. -/
def unpack (w : Nat) : Nat → Nat → List Nat
  | 0, _ => []
  | n + 1, v => v % 2 ^ w :: unpack w n (v / 2 ^ w)

/-- Elements packed into one number. -/
def pack (w : Nat) : List Nat → Nat
  | [] => 0
  | a :: t => a % 2 ^ w + 2 ^ w * pack w t

/-- The magnitude of a finite value lies above that of the largest code of an L format: 2^((top − off) / steps) (R208). -/
def aboveTop (f : LFmt) : FVal → Bool
  | .fin _ m e => magLt 1 (f.top - f.off) (m ^ f.steps) (f.steps * e)
  | _ => false

/-- A value converted to an unscaled target format. A descaled value that is no FP32 input saturates above the largest code (R208). -/
def cvtTo (f : Nat) (fpIn : Bool) (v : FVal) : Nat × CvtEv :=
  match fmtF f with
  | some ff => cvtF ff fpIn v
  | none =>
    if fmtIsL f then
      (if !fpIn && aboveTop (fmtL f) v then ((fmtL f).signBit v.isNeg + (fmtL f).top, .sat) else cvtL (fmtL f) fpIn 0 v)
    else cvtI (fmtBits f) fpIn v

/-- The row of R35 from FP32 to FP32 is none: R208 rounds a descaled value into FP32, saturating, and counts a value that
rounds below 2^−149 as flushed. A NaN becomes 0x7FC00000 and is counted (log entry 80, DESIGN CHOICE). -/
def cvtReal32 (v : FVal) : W32 × CvtEv :=
  match v with
  | .nan => (qnan, .nan)
  | .inf n => (f32 (.inf n), .plain)
  | .fin n m e =>
    match fEncodeSat fp32 n m e with
    | (b, true) => (BitVec.ofNat 32 b, .sat)
    | (b, false) => (BitVec.ofNat 32 b, if m ≠ 0 ∧ b % 0x80000000 = 0 then .flush else .plain)

/-- One lane of a source format read as FP32 (R35, R236); `sc` is its scale. A NaN keeps its sign and is not counted (log entry 80, DESIGN
CHOICE). -/
def laneToF32 (f : Nat) (lane : W32) (sc : Int) : W32 × CvtEv :=
  let b := lane.toNat % 2 ^ fmtBits f
  match f with
  | 9 => (lane, .plain)
  | 5 => cvtReal32 ((lVal l12 b).scale sc)
  | 6 => cvtReal32 ((lVal l8 b).scale sc)
  | _ =>
    match fmtF f, elemVal f b with
    | some ff, .nan =>
      (BitVec.ofNat 32 ((if b.testBit (ff.width - 1) then 0x80000000 else 0) + 0x7F800000 +
        (b % 2 ^ (ff.p - 1)) * 2 ^ (24 - ff.p)) ||| 0x00400000, .plain)
    | _, v => (f32 v, .plain)

/-- Whether a pair of formats is a row of the table of R35 (R294). -/
def cvtPairOk (s d : Nat) : Bool :=
  let mid (f : Nat) := f == 7 || f == 8 || f == 2 || f == 3 || f == 10 || f == 1 || f == 0
  (s == 9 && (fmtIsL d || mid d)) || (d == 9 && (fmtIsL s || mid s)) || (s == 6 && d == 4) || (s == 4 && mid d) || (mid s && d == 4)

/-- L8/32 to L12, exact: m12 = 8 · m8 + 512 + 64 · e (R35). -/
def l8ToL12 (b : Nat) (sc : Int) : Nat × CvtEv :=
  let sb := l12.signBit (l8.sign b)
  if l8.code b = 0 then (sb, .plain)
  else
    let m : Int := 8 * (l8.code b : Int) + 512 + 64 * sc
    if 2047 < m then (sb + 2047, .sat) else if m < 1 then (sb, .flush) else (sb + m.toNat, .plain)

/-- The product of two L codes as a code (R233). -/
def lMulCode (f : LFmt) (a b : Nat) : Nat × CvtEv :=
  if f.code a = 0 ∨ f.code b = 0 then (0, .plain)
  else
    let sb := f.signBit (f.sign a != f.sign b)
    let c := lProdCode f a b + f.off
    if (f.top : Int) < c then (sb + f.top, .sat) else if c < 1 then (sb, .flush) else (sb + c.toNat, .plain)

/-! ## Roots, and the functions that R234 and R235 bound -/

/-- Newton's steps down to ⌊√n⌋ from a start above it. -/
def isqrtGo : Nat → Nat → Nat → Nat
  | 0, _, x => x
  | fuel + 1, n, x =>
    let y := (x + n / x) / 2
    if y < x then isqrtGo fuel n y else x

def isqrt (n : Nat) : Nat := if n = 0 then 0 else isqrtGo 64 n (2 ^ (Nat.log2 n / 2 + 1))

/-- ⌊n^(1/64)⌋. -/
def root64 (n : Nat) : Nat := isqrt (isqrt (isqrt (isqrt (isqrt (isqrt n)))))

/-- The integer nearest to steps · log2(1 ± 2^(−d/steps)): the change of code from the larger of two L values, whose codes
differ by `d`, to their sum or difference (R234). A bound of half a code step leaves one code. -/
def lAddDelta (f : LFmt) (sub : Bool) (d : Nat) : Int :=
  let k := 64 * 64 - d * (64 / f.steps)
  let r := if 64 * 64 < d * (64 / f.steps) then 0 else root64 (2 ^ k)
  let s := if sub then 2 ^ 64 - r else 2 ^ 64 + r
  lNearest f s (-64)

/-- VLADD of two codes (R234). -/
def lAddCode (f : LFmt) (a b : Nat) : Nat × CvtEv :=
  let ca := f.code a
  let cb := f.code b
  if ca = 0 ∧ cb = 0 then (0, .plain)
  else if ca = 0 then (b % 2 ^ (f.bits + 1), .plain)
  else if cb = 0 then (a % 2 ^ (f.bits + 1), .plain)
  else
    let sub := f.sign a != f.sign b
    if sub ∧ ca = cb then (0, .plain)
    else
      let hi := max ca cb
      let sb := f.signBit (if cb ≤ ca then f.sign a else f.sign b)
      let c : Int := (hi : Int) + lAddDelta f sub (hi - min ca cb)
      if (f.top : Int) < c then (sb + f.top, .sat) else if c < 1 then (sb, .flush) else (sb + c.toNat, .plain)

/-- 2^64 · 2^(2^−i) rounded down, by repeated roots; `n` factors, i from 1. -/
def exp2Table : Nat → Nat → List Nat
  | 0, _ => []
  | n + 1, x => let r := isqrt (x * 2 ^ 64); r :: exp2Table n r

/-- 2^64 · 2^(f / 2^40) for f below 2^40, with a relative error below 2^−56. -/
def exp2Frac (f : Nat) : Nat :=
  ((exp2Table 40 (2 ^ 65)).foldl (fun (acc : Nat × Nat) r =>
    (if f.testBit acc.2 then acc.1 * r / 2 ^ 64 else acc.1, acc.2 - 1)) (2 ^ 64, 39)).1

/-- ⌊2^40 · log2(y / 2^128)⌋ for y in [2^128, 2^129), bit by bit. -/
def log2Frac : Nat → Nat → Nat
  | 0, _ => 0
  | n + 1, y =>
    let z := y * y / 2 ^ 128
    if 2 ^ 129 ≤ z then 2 ^ n + log2Frac n (z / 2) else log2Frac n z

/-- The four functions of R235 by number (0 VEXP, 1 VRCP, 2 VRSQ, 3 VLOG2): a close value of the function at a finite
non-zero operand, within 2^−38 relative (absolute for VLOG2). -/
def approxRef (fn : Nat) (n : Bool) (m : Nat) (e : Int) : FVal :=
  match fn with
  | 0 =>
    let i := rneInt false m (e + 41) / 2
    let x : Int := if n then -i else i
    let w := x / (2 ^ 40 : Nat)
    .fin false (exp2Frac (x % ((2 ^ 40 : Nat) : Int)).toNat) (w - 64)
  | 1 => .fin n (2 ^ 80 / m) (-80 - e)
  | 2 =>
    let odd := e % 2 ≠ 0
    let m' := if odd then 2 * m else m
    let e' := if odd then e - 1 else e
    .fin false (isqrt (2 ^ 160 / m')) (-80 - e' / 2)
  | _ =>
    let l := Nat.log2 m
    let v : Int := ((l : Int) + e) * (2 ^ 40 : Nat) + (log2Frac 40 (m * 2 ^ (128 - l)) : Nat)
    .fin (decide (v < 0)) v.natAbs (-40)

/-- Whether an encoding `c` lies within the bound of R235 of the value `v`; 1 in 2^12 of the bound is kept back for the
error of `approxRef`. -/
def withinBound (fn : Nat) (c : W32) (v : FVal) : Bool :=
  match (f32Val c).add v.neg, v with
  | .fin _ dm de, .fin _ m e =>
    let slack (k : Int) : FVal := .fin false 4095 (k - 12)
    let lim : FVal :=
      match fn with
      | 0 => if magLt m e 1 (-126) then slack (-149) else (FVal.fin false m e).mul (slack (-20))
      | 1 => if magLt m e 1 (-126) then slack (-149) else (FVal.fin false m e).mul (slack (-22))
      | 2 => (FVal.fin false m e).mul (slack (-22))
      | _ => slack (-21)
    !(lim.lt (.fin false dm de))
  | _, _ => false

/-- One lane of VEXP, VRCP, VRSQ or VLOG2 (R235). `d` is the free choice, in units of the last place, among the results that
the bound allows. -/
def approxLane (fn : Nat) (d : Nat) (x : W32) : W32 :=
  if f32IsNan x then f32Quiet x
  else
    let pick (v : FVal) : W32 :=
      let r := f32 v
      let c := BitVec.ofNat 32 (r.toNat + d % 65 - 32)
      if 32 ≤ r.toNat % 0x80000000 + d % 65 ∧ r.toNat % 0x80000000 + d % 65 - 32 < 0x7F800000 ∧ withinBound fn c v then c else r
    match fn, f32Val x with
    | 0, .inf n => if n then 0 else f32 (.inf false)
    | 0, .fin n m e =>
      if m = 0 then pick (.fin false 1 0)
      else if !n && !(magLt m e 1 7) then f32 (.inf false)
      else if n && magLt 150 0 m e then 0
      else pick (approxRef 0 n m e)
    | 1, .inf n => f32 (.fin n 0 0)
    | 1, .fin n m e => if m = 0 then f32 (.inf n) else
        let v := approxRef 1 n m e
        if magLt m e 1 (-126) ∧ (fEncodeSat fp32 n (2 ^ 80 / m) (-80 - e)).2 then f32 (.inf n) else pick v
    | 2, .inf n => if n then qnan else 0
    | 2, .fin n m e => if m = 0 then f32 (.inf n) else if n then qnan else pick (approxRef 2 n m e)
    | _, .inf n => if n then qnan else f32 (.inf false)
    | _, .fin n m e => if m = 0 then f32 (.inf true) else if n then qnan else pick (approxRef 3 n m e)
    | _, .nan => f32Quiet x

end Sys2Proof.Machine
end

