-- ==== Sys2Proof/Config.lean ====
section
/-! DEFINITION. Config.lean: what one device fixes and the values the spec leaves open. Each is a constant without a body, so
that nothing rests on a particular value. -/

namespace Sys2Proof.Config

/-- A fresh 64-bit value for each number: the draws of R264, and every order the spec leaves open. Log entry 3, DESIGN CHOICE. -/
opaque freeWord : Nat → BitVec 64

/-- The value that a cell's random generator, whose algorithm the spec does not give, draws as its n-th from a seed (R108). Log entry 3,
DESIGN CHOICE. -/
opaque random : BitVec 64 → Nat → BitVec 64

/-- The result of VEXP (0), VRCP (1), VRSQ (2) or VLOG2 (3) on an operand, as a choice among the results that the bound of R235
allows. Log entry 5, DESIGN CHOICE. -/
opaque approx : Nat → BitVec 32 → Nat

/-- The orders in which VPRED adds the 128 products of P (0) and the 16 of a score (1), whose accuracy carries no promise (R260), each as
a number that picks an arrangement. Log entry 35, DESIGN CHOICE. -/
opaque sketchOrder : Nat → Nat

/-- The check bits of a granule's data and poison marker, of a code that R370 describes and does not give bit by bit. Log entry 70,
DESIGN CHOICE. -/
opaque eccCheck : BitVec 512 → Bool → BitVec 24

/-- SHAKE256 of a message, 64 bytes (R437). Log entry 6, DESIGN CHOICE. -/
opaque shake256 : List (BitVec 8) → BitVec 512

/-- Whether a Falcon-1024 signature of a message verifies under a public key (R437). Log entry 6, DESIGN CHOICE. -/
opaque falconVerify : List (BitVec 8) → List (BitVec 8) → List (BitVec 8) → Bool

/-- The device's Falcon-1024 signature of a message, made with a nonce (R437). Log entry 6, DESIGN CHOICE. -/
opaque falconSign : BitVec 64 → List (BitVec 8) → List (BitVec 8)

/-- The date of the device certificate (R441). Log entry 6, DESIGN CHOICE. -/
opaque certDate : BitVec 64

/-- The identity public key, byte by byte (R441). Log entry 6, DESIGN CHOICE. -/
opaque identityKey : Nat → BitVec 8

/-- The certification signature of a message (R441). Log entry 6, DESIGN CHOICE. -/
opaque certSign : List (BitVec 8) → List (BitVec 8)

/-- The digests of KEY0 to KEY3 in the boot ROM (R439). Log entry 6, DESIGN CHOICE. -/
opaque romDigest : Nat → BitVec 512

/-- The contents of the boot ROM, which it measures (R449). Log entry 6, DESIGN CHOICE. -/
opaque romImage : List (BitVec 8)

/-- The bytes of the configuration record for a MAC address, a VLAN, an IPv4 and an IPv6 address, whose layout the spec does not
give (R442, R449). Log entry 6, DESIGN CHOICE. -/
opaque configRecord : BitVec 48 → BitVec 15 → BitVec 32 → BitVec 128 → List (BitVec 8)

/-- Whether the check value of a protected frame holds under a key: key, salt, packet number, check value, frame number.
Log entry 6, DESIGN CHOICE. -/
opaque gcmCheck : BitVec 256 → BitVec 96 → BitVec 64 → BitVec 128 → Nat → Bool

end Sys2Proof.Config
end

