-- ==== Sys2Proof/Machine/State.lean ====
section
/-! DEFINITION. Machine/State.lean: the state of the block, plain data, with its reset. Tables (`List (Nat × _)`) are in the
canonical form of Machine/Tbl.lean. Registers that software writes are held by their address in `regs`, statistics counters
in `cnts`; a register whose fields only show other state is computed from it (Machine/Regs.lean). -/

namespace Sys2Proof.Machine

/-! ## Threads (R298, R320) -/

inductive ThState where
  | free | ready | running | waiting | sleeping | failed
  deriving DecidableEq, Repr

/-- A FENCE that a thread waits on: its scope (0 cell, 1 device, 2 space) and the operations it covers, by request number (R281). -/
structure FenceWait where
  scope : Nat
  covers : List Nat
  deriving DecidableEq, Repr

/-- A thread slot (R298). `regs` are s1 to s31; `pc` is the address of the next instruction; `entered` is the tick of entry
into the present state; `starved` says that the check of R314 has acted on this entry into READY, and `readyTicks` counts the
ticks since then that it counts; `timed` that the deadline is
in use; `waitRd` is the rd of the WAIT; `wake` are the flags as they stood when they first satisfied the mask (R309), until the
thread is READY; `token` tells the threads that a slot has held apart. -/
structure Thread where
  state : ThState
  pri : BitVec 3
  pc : W64
  regs : List W64
  flags : W32
  mask : W32
  modeAll : Bool
  clr : Bool
  waitRd : Nat
  deadline : W32
  timed : Bool
  lastCore : BitVec 2
  lcv : Bool
  mailbox : W64
  unread : Bool
  reason : BitVec 2
  faultCode : BitVec 16
  faultInfo : W64
  entered : W32
  evwait : W32
  starved : Bool
  readyTicks : Nat
  wake : Option W32
  token : Nat
  fence : Option FenceWait
  deriving DecidableEq, Repr

def Thread.reset : Thread :=
  { state := .free, pri := 0, pc := 0, regs := List.replicate 31 0, flags := 0, mask := 0, modeAll := false, clr := false,
    waitRd := 0, deadline := 0, timed := false, lastCore := 0, lcv := false, mailbox := 0, unread := false, reason := 0,
    faultCode := 0, faultInfo := 0, entered := 0, evwait := 0, starved := false, readyTicks := 0, wake := none,
    token := 0, fence := none }

/-- A control core: the slot it runs, and which of the last 1,024 tick boundaries found it busy (R318). -/
structure CoreSt where
  slot : Option Nat
  load : BitVec 1024
  deriving DecidableEq, Repr

/-! ## Chutes and engine programs (R119 to R130) -/

/-- A full chute slot: its bytes, and a poison mark per 64 bytes of the slot (R125, R372). -/
structure Slot where
  bytes : List Byte
  poison : List Bool
  deriving DecidableEq, Repr

/-- A chute: its full slots, oldest first, and how many bytes of the oldest have been read. -/
structure Chute where
  slots : List Slot
  rd : Nat
  deriving DecidableEq, Repr

def Chute.empty : Chute := { slots := [], rd := 0 }

/-- A loop of an engine program: its first and last instruction, the runs still due, the iteration number (R134, R229). -/
structure Loop where
  first : Nat
  last : Nat
  left : Nat
  iter : Nat
  deriving DecidableEq, Repr

/-- A running engine program: what its launch descriptor gave (R119), the copied text with its poison (R121), and its sticky
summary flags (R123). `fault` is code, program index and FAULT_INFO. -/
structure Prog where
  launcher : Nat
  token : Nat
  number : Nat
  text : List W64
  textPoison : List Bool
  textAddr : Nat
  pc : Nat
  evt : Nat
  lenient : Bool
  ichUse : Byte
  ochUse : BitVec 4
  sum : Nat
  loops : List Loop
  flags : W32
  fault : Option (BitVec 16 × Nat × W64)
  aborted : Bool
  cycles : Nat
  deriving DecidableEq, Repr

/-- An access descriptor as an instruction read it from operand memory at issue (R135): `addr` is its operand-memory address,
`off` and `len` the part taken of each element, `rsv` bytes [31:28]. -/
structure ADesc where
  addr : Nat
  base : W64
  extent : Nat
  kind : Nat
  flags : Nat
  runahead : Nat
  off : Nat
  len : Nat
  cap : Nat
  block : Nat
  rsv : Nat
  deriving DecidableEq, Repr

/-- A granule that has arrived: the number by which its instruction or command asked for it, its 64 bytes, its poison. Of a
run-ahead request, `due` are the numbers it serves, until what its arrival sets off (R151) has been carried out: the flag HOME_LOST when
`lost`, the poison's flag and count, and the fault of its request. -/
structure Granule where
  key : Nat
  data : BitVec 512
  poison : Bool
  lost : Bool
  fault : Option (Nat × W64)
  due : List Nat
  deriving DecidableEq, Repr

/-- The access instruction in flight (R138): its word, the descriptors, the address registers and the count it read at issue, the
granules that have arrived, the numbers of those asked for, of them the ones asked for ahead of chute credit (R149), how many slots
of each of its streams have been pushed, the bytes taken
from an output chute and not yet written, each with its poison, and how many parts, rows, blocks or entries it has dealt with. -/
structure AOp where
  word : W64
  descs : List ADesc
  areg : List W64
  n : Nat
  got : List Granule
  asked : List Nat
  ahead : List Nat
  pushed : List Nat
  taken : List (Byte × Bool)
  done : Nat
  deriving DecidableEq, Repr

structure AEngine where
  prog : Option Prog
  a : List W64
  n : List W32
  op : Option AOp
  wait : Option Nat
  deriving DecidableEq, Repr

/-- An address slot ma0 to ma3 (R275). -/
structure MaSlot where
  base : BitVec 20
  stride : BitVec 16
  depth : Option Nat
  deriving DecidableEq, Repr

/-- An M-class instruction in flight: opcode, unit, tile, bank (R188, R191). -/
structure MOp where
  op : Nat
  unit : Nat
  tile : Nat
  bank : Nat
  deriving DecidableEq, Repr

/-- How a pair of R262 goes: it runs, an audited pair among others, or it is skipped. -/
inductive Pair where
  | runs (audited : Bool)
  | skipped
  deriving DecidableEq, Repr

/-- An M-class instruction that has issued and waits under R188, with what it took at issue: its word, its index in the program, the
iteration numbers, the address slots, how its pair goes, and whether an MMUL runs sparse, with the counter of R268 that says so. -/
structure LateM where
  word : W64
  pc : Nat
  li : List Nat
  ma : List MaSlot
  pair : Pair
  choice : Bool × Option Nat
  deriving DecidableEq, Repr

/-- How far the execute instruction at issue has come: the bytes read from each of its sources, the slots it has still to push, by
output chute, the bytes of each output stream that fill no slot yet, the rows dealt with, the rows sent out, a tally of what it
counts, whether it has set OVF_SAT, whether it runs sparse with the counter of that choice, how its pair goes, the iteration numbers li0
to li3 that it took, and, for an instruction that had waited under R188, all that it took at issue. -/
structure XHold where
  ins : List (List Byte)
  outs : List (Nat × Slot)
  part : List (List Byte)
  row : Nat
  sent : Nat
  tally : Nat
  ovf : Bool
  choice : Bool × Option Nat
  pair : Pair
  li : List Nat
  own : Option LateM
  deriving DecidableEq, Repr

/-- The execute engine. `late` are the M-class instructions that have issued and wait under R188, in program order. -/
structure XEngine where
  prog : Option Prog
  k : List W32
  ma : List MaSlot
  wait : Option Nat
  hold : Option XHold
  late : List LateM
  deriving DecidableEq, Repr

/-! ## The dense array (R171 to R218) -/

/-- One weight bank of one unit: state, format, K rows of N elements in packed bytes, and scale bytes (R173, R174). -/
structure Bank where
  loaded : Bool
  fmt : Nat
  data : List Byte
  scale : List Byte
  deriving DecidableEq, Repr

def Bank.empty : Bank := { loaded := false, fmt := 0, data := [], scale := [] }

/-- The status of a tile, or of a quadrant of a tile (R177, R193), the spill settings it took at MPRE (R201), and whether any
row or column scale is recorded. -/
structure QStat where
  cls : Nat
  ovfSat : Bool
  longsum : Bool
  nanIn : Bool
  spilled : Bool
  replays : Nat
  t : Nat
  spillS : Nat
  spillEn : Bool
  deriving DecidableEq, Repr

def QStat.reset : QStat :=
  { cls := 1, ovfSat := false, longsum := false, nanIn := false, spilled := false, replays := 0, t := 0, spillS := 8192,
    spillEn := true }

/-- An MMUL of block-scaled traffic that overflowed and waits for its replay (R206): tile, quarter, first row, the rows'
decoded operands held in the row buffer, bank, mode, the non-zero groups of each row (R249, R257), and how often it has been
replayed. -/
structure Replay where
  tile : Nat
  q : Nat
  r0 : Nat
  m : Nat
  bank : Nat
  fmt : Nat
  sparse : Bool
  rows : List (List Byte)
  nz : List (List Nat)
  scales : List Byte
  taken : Nat
  deriving DecidableEq, Repr

/-- The dense array. `acc` keys: 16384 · tile + 128 · row + column. `chain` and `since` keys: 512 · tile + 128 · q + row, the
counts of R196 since MPRE and since the last spill, and `fed`, 1 for a row that a product has entered since MPRE (R179). `rowScale` and `colScale` keys: the same with row or column (R182).
`win` holds, per unit, the non-zero group counts of the last 64 rows (R250), `replays` the MMULs that wait for a replay, at most one of
a unit. -/
structure ArraySt where
  quarter : Bool
  banks : List Bank
  acc : List (Nat × W32)
  stat : List QStat
  chain : List (Nat × Nat)
  since : List (Nat × Nat)
  fed : List (Nat × Nat)
  rowScale : List (Nat × Option Byte)
  colScale : List (Nat × Option Byte)
  mops : List MOp
  replays : List Replay
  win : List (List Nat)
  deriving DecidableEq, Repr

def ArraySt.reset : ArraySt :=
  { quarter := false, banks := List.replicate 8 Bank.empty, acc := [], stat := List.replicate 8 QStat.reset, chain := [],
    since := [], fed := [], rowScale := [], colScale := [], mops := [], replays := [], win := List.replicate 4 [] }

/-! ## The vector engine (R220 to R247) -/

/-- The segment carry (R241). -/
structure Carry where
  isOpen : Bool
  rem : W32
  width : Nat
  row : List W32
  closed : W32
  deriving DecidableEq, Repr

/-- What a V-class instruction in flight leaves when its busy time ends (R230): registers, the operand memory it writes, the
mailbox value and flag it posts (R243), and XPRED with its block count and the words it predicts (R260). -/
structure VecFin where
  vt : List (Nat × W32)
  vm : List (BitVec 1024)
  vl : Nat
  carry : Carry
  store : Option (Nat × List Byte)
  post : Option (W64 × Nat)
  pred : Option (W32 × W32 × Nat)
  deriving DecidableEq, Repr

/-- The vector engine. `vt` keys: 1024 · register + lane. `busy` is the busy time of the instruction in flight, `fin` what it
leaves, `accRead` the tile it reads. -/
structure VecSt where
  vt : List (Nat × W32)
  vm : List (BitVec 1024)
  vl : Nat
  carry : Carry
  busy : Option Nat
  accRead : Option Nat
  fin : Option VecFin
  deriving DecidableEq, Repr

def VecSt.reset : VecSt :=
  { vt := [], vm := List.replicate 4 0, vl := 0, carry := { isOpen := false, rem := 0, width := 32, row := [], closed := 0 },
    busy := none, accRead := none, fin := none }

/-- The predictor (R260 to R267): XPRED's active and audit words with the block count B, and the outcomes of the last 1,024
audited pairs, true for a miss. -/
structure PredSt where
  active : W32
  audit : W32
  blocks : Nat
  hist : List Bool
  deriving DecidableEq, Repr

def PredSt.launch : PredSt :=
  { active := BitVec.allOnes 32, audit := 0, blocks := 32, hist := [] }

/-! ## The cell cache and translation (R343 to R358, R64) -/

/-- A valid cache line (R343). `upset` is a physical error not yet met: 0 none, 1 one bit of data, 2 two bits of a word, 3 the
tag (R355, R356). -/
structure Line where
  la : Nat
  dirty : Bool
  lock : Bool
  poison : Bool
  data : BitVec 512
  upset : Nat
  deriving DecidableEq, Repr

/-- The software range-maintenance operation (R350): whether one is BUSY, whether it has begun and whether the engine has probed
every set, its operation and range, ERR, the plot that it translates next, how often that translation was redirected in succession,
whether a walk for it is awaited and, once that has ended, the entry it gave or none (R351), and the requests that the operation still
waits for. -/
structure Maint where
  busy : Bool
  begun : Bool
  done : Bool
  op : Nat
  all : Bool
  addr : W64
  count : Nat
  err : Nat
  plot : Nat
  tries : Nat
  await : Bool
  got : Option (Option MapEntry)
  fills : List Nat
  deriving DecidableEq, Repr

def Maint.idle : Maint :=
  { busy := false, begun := false, done := false, op := 0, all := false, addr := 0, count := 0, err := 0, plot := 0, tries := 0,
    await := false, got := none, fills := [] }

/-- The cache. `lines` keys: 16 · set + way. -/
structure CacheSt where
  lines : List (Nat × Option Line)
  plru : List (Nat × BitVec 15)
  maint : Maint
  deriving DecidableEq, Repr

/-- An entry of the placement translation cache (R64): the map entry, the descriptor fields EPP, ESIZE_M1, COUNT and TYPE, the replica
that the cell has chosen, and the recency bit `used`. -/
structure PtcEntry where
  handle : Nat
  plot : Nat
  entry : MapEntry
  epp : Nat
  esizeM1 : Nat
  count : Nat
  typ : Nat
  pick : Option (Nat × Nat × Nat)
  used : Bool
  deriving DecidableEq, Repr

/-- One cell's part in a barrier channel (R335): episode, and the arrivals for it and for the next one, each a slot, the token of its
thread and a flag. -/
structure BarCell where
  episode : Byte
  now : List (Nat × Nat × Nat)
  early : List (Nat × Nat × Nat)
  up : Bool
  deriving DecidableEq, Repr

def BarCell.reset : BarCell := { episode := 0, now := [], early := [], up := false }

/-- A work item given to a cell, with its cost (R96 to R99). -/
structure QItem where
  it : WorkItem
  cost : Nat
  deriving DecidableEq, Repr

inductive CellMode where
  | running | restarting | offline
  deriving DecidableEq, Repr

/-- One cell. `opmem` is operand memory (R116), `opPoison` its poisoned 64-byte blocks. `queue` are the items queued, `held`
those that wait at the Scaler, `taken` those taken and not yet reported (R98, R99). `lastPage` holds, by 256 · landing + bank, one more than the page that the last
request issued to the bank opened, `lastDev` the device of the last request issued to another device (R144). `scInv` are the frames that the
cell invalidates for the Scaler, as landing and frame with the fills that it waits for (R353). `parkRung` is the rung in which a parked
cell is parked (R470, R473). `seed` is that of the cell's random generator, `drawn` how many values it has given since it was seeded, `picks` the
edge indexes drawn for the thinned part taken last (R108). `capWait` says that the
sort window has stood under the cap of one bank since it last held a request to another (R148). -/
structure CellSt where
  threads : List Thread
  cores : List CoreSt
  tick : W32
  opmem : List Host.Cell
  opPoison : List (Nat × Bool)
  ich : List Chute
  och : List Chute
  ae : AEngine
  xe : XEngine
  wd : Nat
  arr : ArraySt
  vec : VecSt
  pred : PredSt
  cc : CacheSt
  ptc : List (Nat × Option PtcEntry)
  queue : List QItem
  held : List QItem
  taken : List QItem
  bars : List (Nat × BarCell)
  mode : CellMode
  restarts : List W64
  parked : Bool
  parkRung : Nat
  seed : W64
  drawn : Nat
  picks : List Nat
  idleSince : W64
  lastPage : List (Nat × Nat)
  lastDev : Option Nat
  scInv : List (Nat × Nat × List Nat)
  capWait : Bool
  cycAcc : Nat
  launches : Nat
  deriving DecidableEq, Repr

def AEngine.reset : AEngine :=
  { prog := none, a := List.replicate 16 0, n := List.replicate 8 0, op := none, wait := none }

def MaSlot.reset : MaSlot := { base := 0, stride := 0, depth := none }

def XEngine.reset : XEngine :=
  { prog := none, k := List.replicate 8 0, ma := List.replicate 4 MaSlot.reset, wait := none, hold := none, late := [] }

def CellSt.reset : CellSt :=
  { threads := List.replicate 64 Thread.reset, cores := List.replicate 4 { slot := none, load := 0 }, tick := 0, opmem := [],
    opPoison := [], ich := List.replicate 8 Chute.empty, och := List.replicate 4 Chute.empty, ae := AEngine.reset,
    xe := XEngine.reset, wd := 0, arr := ArraySt.reset, vec := VecSt.reset, pred := PredSt.launch,
    cc := { lines := [], plru := [], maint := Maint.idle }, ptc := [], queue := [], held := [], taken := [],
    bars := [], mode := .running, restarts := [], parked := false, parkRung := 0, seed := 0, drawn := 0, picks := [], idleSince := 0, lastPage := [], lastDev := none,
    scInv := [], capWait := false, cycAcc := 0, launches := 0 }

/-! ## Memory requests (R131, R142 to R151, R364) -/

/-- Who made a request. -/
inductive Who where
  | cell (c : Nat)
  | maint (c : Nat)
  | host (job : Nat)
  | dev (d : Nat) (tag : W32)
  deriving DecidableEq, Repr

inductive ReqOp where
  | load | pref | store | add
  deriving DecidableEq, Repr

/-- The answer to a request. -/
inductive Answer where
  | data (d : BitVec 512) (poison : Bool)
  | ack
  | redirect (e : Option MapEntry)
  | homeLost
  | badHandle
  | fenced
  deriving DecidableEq, Repr

/-- Where a request stands: translated and waiting for room in the sort window, in the window, waiting for a walk, at landing l, held there (in a move window, or a write
before the invalidate is acknowledged), sent to another device, or answered. -/
inductive Stage where
  | queued
  | window
  | walking
  | landing (l : Nat)
  | heldWindow (l : Nat)
  | heldWrite (l : Nat)
  | remote
  | answered (a : Answer)
  deriving DecidableEq, Repr

/-- A granule request. `off` is the granule's byte offset in its plot, `en` the byte enables, `int` the type of an add,
`addr` the object address it serves, `prog` the number of the engine program, `owner` the thread that launched it (its slot
plus 64 times its token), `keys` the numbers under which the parts that it
serves asked for it (R145), `rem` that it may go to another device, `born` the timebase at which it entered the window or reached its
landing, `tag` the TAG of its packet (R391), `noFill` that its line is not to be
installed: 1 by R353, 2 for a later write of its own cell; `slot` that it holds a request slot of its cell once it has left the
window (not after a restart of the cell, R167); `wb` that it is the write-back of a cache line (R347). Requests that stand at one landing
stand in `State.reqs` in the order of their arrival there. -/
structure Req where
  id : Nat
  who : Who
  op : ReqOp
  handle : Nat
  plot : Nat
  off : Nat
  gen : BitVec 16
  dev : Nat
  lnd : Nat
  frame : Nat
  data : BitVec 512
  en : BitVec 64
  int : Bool
  poison : Bool
  cache : Bool
  addr : W64
  prog : Nat
  owner : Nat
  redirects : Nat
  keys : List Nat
  rem : Bool
  born : W64
  tag : W32
  noFill : Nat
  slot : Bool
  wb : Bool
  stage : Stage
  deriving DecidableEq, Repr

/-- A walk of a steward's map in progress (R64, R65): the cell that waits for it, 192 for the lookout, and its packet's TAG. -/
structure Walk where
  cell : Nat
  handle : Nat
  plot : Nat
  tag : W32
  deriving DecidableEq, Repr

/-! ## Landings (R360 to R378) -/

structure FrameRec where
  handle : Nat
  plot : Nat
  gen : BitVec 16
  deriving DecidableEq, Repr

structure FwdRec where
  handle : Nat
  plot : Nat
  entry : MapEntry
  deriving DecidableEq, Repr

/-- One landing. `frames` are its frame records by frame, `fwd` its forwarding records oldest first, `ce` the corrected count of
each frame in scrub period `cePeriod` (R374), `zero` the frames still to be zero-filled, `inval` those of them that the cells still
invalidate, with the cells that have acknowledged (R88), `reserved` the targets of moves, `failedPcs` the pseudo-channels that have
failed, `scrub` the granule that the scrub reads next, `scrubOn` that a pass is in progress, `scrubbed` the period in which the last
pass began, `adds` the granules of the add buffer, oldest first (R367), `page` the open page of each bank,
`occMax` the largest occupancy seen, `served` the requests that it has served, of them `servedFrom` before the present interval and
`servedLast` in the last (R81). -/
structure Landing where
  frames : List (Nat × Option FrameRec)
  fwd : List FwdRec
  retired : List Nat
  ce : List (Nat × Nat)
  cePeriod : Nat
  zero : List Nat
  inval : List (Nat × List Nat)
  reserved : List Nat
  failed : Bool
  failedPcs : List Nat
  scrub : Nat
  scrubOn : Bool
  scrubbed : Option Nat
  adds : List Nat
  page : List (Nat × Option Nat)
  occMax : List (Nat × Nat)
  served : Nat
  servedFrom : Nat
  servedLast : Nat
  deriving DecidableEq, Repr

def Landing.reset : Landing :=
  { frames := [], fwd := [], retired := [], ce := [], cePeriod := 0, zero := [], inval := [], reserved := [], failed := false,
    failedPcs := [], scrub := 0, scrubOn := false, scrubbed := none, adds := [], page := [], occMax := [], served := 0,
    servedFrom := 0, servedLast := 0 }

/-! ## The Scaler (R75 to R114) -/

inductive MovePhase where
  | queued | copying | recopied | window | flipped
  deriving DecidableEq, Repr

/-- A move of a plot in progress (R84), held at its steward, its source and its target. One that waits at its source for one of the eight
that run there is `queued` (R82). `written` are its sub-blocks marked
written, `acks` the cells whose invalidate is acknowledged, `tag` that of its MOVE packets and `unacked` how many of them are
unanswered. -/
structure Move where
  req : MoveReq
  phase : MovePhase
  written : List Nat
  acks : List Nat
  tag : W32
  unacked : Nat
  deriving DecidableEq, Repr

/-- Requests to a plot by one device in an interval (R81). -/
structure Traffic where
  handle : Nat
  plot : Nat
  dev : Nat
  loads : Nat
  stores : Nat
  adds : Nat
  deriving DecidableEq, Repr

/-- An item of a work set as its owner sees it. -/
structure WRec where
  it : WorkItem
  cost : Nat
  dev : Nat
  done : Bool
  deriving DecidableEq, Repr

/-- A work set known to the device (R96 to R105). `seq` orders them by acceptance; `orders` lists, per geyser vertex, the
partial slots in order of WDONE arrival; `row` and `col` are its row-pointer and column objects; `cells` the cost assigned and the cost reported done, per cell of this device. -/
structure WSet where
  num : Nat
  seq : Nat
  owned : Bool
  complete : Bool
  row : Nat
  col : Nat
  items : List WRec
  partialH : Option Nat
  orders : List (Nat × List Nat)
  cells : List (Nat × Nat)
  deriving DecidableEq, Repr

/-- A generation sweep or a free in progress: the handle, the devices that have still to acknowledge (R55, R90), and the device
whose host asked for the free. -/
structure Sweep where
  handle : Nat
  waiting : List Nat
  asker : Option Nat
  deriving DecidableEq, Repr

/-- A create in progress at its steward (R52): its descriptor, the device that passed it on, its step (0 free frames are asked
for, 1 frames are being given, 2 descriptors are being installed), the devices still to answer, the free frames reported, the
runs placed so far as (device, first plot, plots), and the work set whose partial area it is. -/
structure Creating where
  desc : Desc
  asker : Option Nat
  step : Nat
  waiting : List Nat
  free : List (Nat × List Nat)
  runs : List (Nat × Nat × Nat)
  wset : Option Nat
  deriving DecidableEq, Repr

/-- The Scaler's state. Plot keys: handle · 2^40 + plot. `repTab` holds, by REPIDX, one more than the key of the plot whose replica record
stands there (R62). `base` holds the generation of each entry at the start of the last
completed sweep; `seals` the objects to be sealed, with the device
whose host asked; `groups` the division of each affinity group as (device, elements below which it lies); `moved` the interval
number at which a plot last moved; `quiet` the interval before which an abandoned plot is not selected; `queue` the moves selected
that wait for one of the eight to end; `quietRep` how many intervals in succession a replica served fewer than 2^10 loads, by
(handle, plot, device); `left` the bytes that this device may still copy in the interval under R82, `due` the devices whose figures of the interval just ended are
awaited and `gather` what is known of that interval (R81); `peers` what other devices last reported, as device, free frames, requests
served by each landing in the interval and failed landings, `peerServed` the requests that their landings have served in all; `rows` the granules of the geyser row table by (handle, plot,
offset), with their poison. -/
structure ScalerSt where
  objs : List (Nat × Option Desc)
  hints : List (Nat × Nat)
  pmap : List (Nat × Option MapEntry)
  repTab : List (Nat × Nat)
  base : List (Nat × BitVec 16)
  startGen : List (Nat × BitVec 16)
  sweeps : List Sweep
  frees : List Sweep
  creates : List Creating
  seals : List (Nat × Option Nat)
  groups : List (Nat × List (Nat × Nat))
  moves : List Move
  queue : List MoveReq
  traffic : List Traffic
  trafficLast : List Traffic
  interval : Nat
  moved : List (Nat × Nat)
  quiet : List (Nat × Nat)
  quietRep : List ((Nat × Nat × Nat) × Nat)
  retire : List (Nat × Nat)
  left : Nat
  due : List Nat
  gather : List Traffic
  sets : List WSet
  setSeq : Nat
  peers : List (Nat × List Nat × List Nat × List Nat)
  peerServed : List (Nat × List Nat)
  rows : List ((Nat × Nat × Nat) × BitVec 512 × Bool)
  deriving DecidableEq, Repr

def ScalerSt.reset : ScalerSt :=
  { objs := [], hints := [], pmap := [], repTab := [], base := [], startGen := [], sweeps := [], frees := [], creates := [], seals := [], groups := [],
    moves := [], queue := [], traffic := [], trafficLast := [], interval := 0, moved := [], quiet := [], quietRep := [],
    retire := [], left := 0, due := [], gather := [], sets := [], setSeq := 0, peers := [], peerServed := [], rows := [] }

/-! ## The fabric (R380 to R417) -/

inductive LinkState where
  | off | training | up | down | parked | beacon | foreign
  deriving DecidableEq, Repr

/-- One link (R381 to R390). `txSeq` is the SEQ of the next DATA flit, `rxSeq` the next expected, `replay` the unacknowledged
flits, `naks` how often NAK came in succession for `nakSeq`, `inUse` the credits in use per VC, `part` the units of an incomplete packet per VC, `owed` credits to
return, `sent` the flits sent. `rxOld` is `rxLast` as it stood when the link last went DOWN, and `answered` says that a RECOVER has come for
that time. `recovering` says that the replay buffer waits for RECOVER_RESP (R388). -/
structure Link where
  state : LinkState
  width : Nat
  farDev : Nat
  farLink : Nat
  farValid : Bool
  farKeeper : Nat
  txSeq : Nat
  rxSeq : Nat
  rxLast : Option Nat
  rxOld : Option Nat
  answered : Bool
  replay : List (Nat × Flit)
  naks : Nat
  nakSeq : Option Nat
  inUse : List Nat
  part : List (List (BitVec 128))
  owed : List Nat
  lastGood : W64
  lastBeat : W64
  recovering : Bool
  lowPower : Bool
  resumeSent : Bool
  resumeGot : Bool
  sent : List Flit
  deriving DecidableEq, Repr

def Link.reset : Link :=
  { state := .off, width := 0, farDev := 0, farLink := 0, farValid := false, farKeeper := 0, txSeq := 0, rxSeq := 0, rxLast := none,
    rxOld := none, answered := true, replay := [],
    naks := 0, nakSeq := none, inUse := List.replicate 8 0, part := List.replicate 8 [], owed := List.replicate 8 0, lastGood := 0,
    lastBeat := 0, recovering := false, lowPower := false, resumeSent := false, resumeGot := false, sent := [] }

inductive FabState where
  | detached | joining | member | expelled
  deriving DecidableEq, Repr

/-- A packet held at the router: since when, and whether across a PARKED link (R398, R412). -/
structure HeldPk where
  p : Packet
  since : W64
  parked : Bool
  deriving DecidableEq, Repr

/-- A probe in progress: the device probed, the probe number, when it was sent, and what it decides: false a loss, true a JOIN. -/
structure ProbeSt where
  dev : Nat
  num : W32
  at_ : W64
  forJoin : Option Packet
  takeover : Bool
  deriving DecidableEq, Repr

/-- A link-down report that waits for its acknowledgement (R405): the far device, the device it went to, its TAG, when it was sent. -/
structure DownReport where
  dev : Nat
  link : Nat
  to_ : Nat
  tag : W32
  at_ : W64
  deriving DecidableEq, Repr

/-- The fabric's state. `absent` is the state of devices that `members` does not list, `losses` the devices reported to this
one that it has still to probe, `lossTimes` the instants of the losses installed whose drain has not passed, `router` are the packets to route, `arrived` those for this device, `mgmtOut` the MGMT messages sent. -/
structure FabSt where
  state : FabState
  idSet : Bool
  everMember : Bool
  joinResult : Nat
  epoch : W32
  keeper : Nat
  members : List (Nat × BitVec 2)
  absent : BitVec 2
  routes : List (Nat × W32)
  links : List Link
  router : List Packet
  arrived : List Packet
  held : List HeldPk
  probes : List ProbeSt
  reports : List DownReport
  losses : List Nat
  joinAt : Option W64
  lossTimes : List W64
  seenEpochs : List W32
  probeNum : W32
  mgmtOut : List (Nat × MgmtMsg)
  deriving DecidableEq, Repr

def FabSt.reset : FabSt :=
  { state := .detached, idSet := false, everMember := false, joinResult := 0, epoch := 0, keeper := 0, members := [], absent := 0, routes := [],
    links := List.replicate 32 Link.reset, router := [], arrived := [], held := [], probes := [], reports := [], losses := [],
    joinAt := none, lossTimes := [], seenEpochs := [], probeNum := 0, mgmtOut := [] }

/-! ## The host link (R418 to R436) -/

/-- A command of a queue: SEQ, OPC, TAG and payload. -/
structure QCmd where
  seq : W32
  opc : Nat
  tag : W32
  payload : List Byte
  deriving DecidableEq, Repr

/-- A completion held for resending (R425, R426): its own SEQ, that of its command, what it carries, whether it is
acknowledged, when it was last sent and the wait until the next resend in µs. -/
structure Completion where
  seq : W32
  cmdSeq : W32
  opc : Nat
  tag : W32
  status : Nat
  payload : List Byte
  acked : Bool
  sentAt : W64
  rto : Nat
  deriving DecidableEq, Repr

/-- What the lookout carries out with requests of its own: a QCT command of a queue of a session, a RoCEv2 request, the copying of geyser
rows, or the new assignment of items of a work set after a loss (R100). -/
inductive HostJob where
  | qct (q : Nat) (session : W32) (cmd : QCmd)
  | rdma (pri : Nat) (r : RdmaReq)
  | rows
  | again (wset : Nat)
  deriving DecidableEq, Repr

/-- A job that has started and waits for its requests, moves or acknowledgements. `ids` are its requests outstanding; `got` what
they brought; `poison`, `lost` and `tired` that one met poison, a lost home or 16 redirects; `maps` the map entries it has asked
for, `items` the items of a work set being placed, `stage` how far it has come; `rows`, `geysers` and `excess` what a work set was cut
to: the geyser rows to keep, how many geysers, whether there were too many (R102, R106, R112). -/
structure HostWait where
  job : Nat
  what : HostJob
  ids : List Nat
  got : List Granule
  poison : Bool
  lost : Bool
  tired : Bool
  handle : Nat
  maps : List ((Nat × Nat) × Option MapEntry)
  items : List (WorkItem × Nat)
  stage : Nat
  rows : List Nat
  geysers : Nat
  excess : Bool
  deriving DecidableEq, Repr

/-- One command queue of the session (R425). -/
structure QSt where
  rxNext : W32
  buf : List QCmd
  held : List Completion
  txNext : W32
  ackDue : Bool
  deriving DecidableEq, Repr

def QSt.start (seq : W32) : QSt :=
  { rxNext := seq, buf := [], held := [], txNext := seq, ackDue := false }

/-- The open session (R424). -/
structure Session where
  num : W32
  ip : BitVec 128
  port : BitVec 16
  q : Nat
  w : Nat
  queues : List QSt
  evSeq : W32
  evAcked : W32
  lastRx : W64
  anyCmd : Bool
  deriving DecidableEq, Repr

/-- An event record (R432): KIND, SOURCE, timebase and data bytes [31:12]. -/
structure EventRec where
  kind : Nat
  source : Nat
  time : W64
  data : BitVec 160
  deriving DecidableEq, Repr

/-- An event record queued: the SEQ of the packet that last carried it, none when it has not been sent. -/
structure EventQ where
  record : EventRec
  seq : Option W32
  deriving DecidableEq, Repr

/-- What the device sends on the port. -/
inductive NetOut where
  | qct (ip : BitVec 128) (port : BitVec 16) (flags qid opc : Nat) (seq ackno session : W32) (dev status : Nat) (tag incarn : W32)
      (payload : List Byte)
  | arpReply (target : BitVec 32)
  | ndReply (target : BitVec 128)
  | echoReply (dst : BitVec 128) (data : List Byte)
  | rdmaAck (qpn : Nat) (psn : BitVec 24)
  | rdmaNak (qpn : Nat) (psn : BitVec 24) (access : Bool)
  | rdmaData (qpn : Nat) (psn : BitVec 24) (data : List Byte)
  | cnp (qpn : Nat)
  deriving DecidableEq, Repr

/-- A secure association key (R421). -/
structure SaKey where
  key : BitVec 256
  nextPn : W64
  ssci : W32
  salt : BitVec 96
  deriving DecidableEq, Repr

/-- A RoCEv2 queue pair (R433). `slowed` counts the congestion notifications it has received. -/
structure Qp where
  qpn : Nat
  partner : Nat
  ip : BitVec 128
  port : BitVec 16
  rxPsn : BitVec 24
  txPsn : BitVec 24
  error : Bool
  slowed : Nat
  deriving DecidableEq, Repr

/-- A RoCEv2 memory region. -/
structure Mr where
  rkey : W32
  read : Bool
  write : Bool
  addr : W64
  count : Nat
  valid : Bool
  deriving DecidableEq, Repr

/-- The Ethernet block's state. `opens` are SESSION_OPEN packets not yet carried out, `txq` are packets that wait for a paused priority, `out` those sent,
each with whether MACsec protects it, `txAn` and `rxAn` the associations in use, `jobs` what the lookout carries out. -/
structure EthSt where
  link : Nat
  slow : Bool
  paused : Byte
  keys : List (Nat × Option SaKey)
  macsecNow : Bool
  txAn : Nat
  rxAn : Option Nat
  session : Option Session
  lastSession : W32
  displaced : Option (BitVec 128 × BitVec 16 × W32)
  opens : List Datagram
  events : List EventQ
  lost : Nat
  qps : List Qp
  mrs : List Mr
  txq : List (Nat × NetOut)
  out : List (NetOut × Bool)
  jobs : List HostWait
  nextJob : Nat
  deriving DecidableEq, Repr

def EthSt.reset : EthSt :=
  { link := 0, slow := false, paused := 0, keys := [], macsecNow := false, txAn := 0, rxAn := none, session := none, lastSession := 0,
    displaced := none, opens := [], events := [], lost := 0, qps := [], mrs := [], txq := [], out := [], jobs := [],
    nextJob := 0 }

/-! ## Boot, identity and power (R437 to R475, R520 to R532) -/

/-- A flash slot: its state code of R442 and its image bytes. -/
structure FlashSlot where
  state : Nat
  image : List Host.Cell
  deriving DecidableEq, Repr

/-- What survives every loss of power: the boot flash (R442) and the fuses and one-time memory (R439). `copyBad` says that one
of the two copies of the boot state fails its check (R524). -/
structure FlashSt where
  slotA : FlashSlot
  slotB : FlashSlot
  incarn : W32
  copyBad : Bool
  mac : BitVec 48
  vlan : BitVec 15
  ip4 : BitVec 32
  ip6 : BitVec 128
  retired : List (Nat × Nat)
  revoked : BitVec 4
  owner : Option (BitVec 512)
  arb : Nat
  uid : BitVec 128
  sfdp : Bool
  deriving DecidableEq, Repr

def FlashSt.shipped : FlashSt :=
  { slotA := { state := 0, image := [] }, slotB := { state := 0, image := [] }, incarn := 0, copyBad := false, mac := 0, vlan := 0,
    ip4 := 0, ip6 := 0, retired := [], revoked := 0, owner := none, arb := 0, uid := 0, sfdp := true }

/-- A staging of a firmware image (R452): the slot, the session that began it, its length, whether it is committed. -/
structure Staging where
  slot : Nat
  session : W32
  len : Nat
  deriving DecidableEq, Repr

/-- The security block (R449, R457, R458). -/
structure SecSt where
  stage : Nat
  slot : Nat
  trial : Bool
  fallback : Bool
  reason : Nat
  svn : Nat
  meas : List (BitVec 512)
  jtagOpen : Bool
  jtagFails : Nat
  challenge : Option (BitVec 256 × W64)
  staging : Option Staging
  committed : Bool
  jtagOut : List Byte
  deriving DecidableEq, Repr

def SecSt.reset : SecSt :=
  { stage := 0, slot := 0, trial := false, fallback := false, reason := 0, svn := 0, meas := List.replicate 5 0, jtagOpen := false,
    jtagFails := 0, challenge := none, staging := none, committed := false, jtagOut := [] }

/-- Where the device stands between no power and service. -/
inductive Phase where
  /-- VSTBY outside its limits. -/
  | unpowered
  /-- VSTBY present; RST_N in force. -/
  | inReset
  /-- The boot ROM has started the lookout firmware (R445). -/
  | lookout
  /-- In service (R446). -/
  | running
  /-- BOOT_FAIL (R447). -/
  | bootFail
  /-- After a thermal trip, until RST_N (R471). -/
  | tripped
  deriving DecidableEq, Repr

/-- Supplies, sideband pins, the rung ladder and temperature. Outputs are held as driven levels; the open-drain ones and
PRSNT_N as true when asserted. A change in progress is `busy`: an entry to `target` while `rung` is 0, else an exit after which the device
enters `target` when that is not 0; `since` is when it began. -/
structure PowerSt where
  phase : Phase
  vstby : Bool
  vin48 : Bool
  pwrEn : Bool
  rstN : Bool
  rails : Bool
  pwrGood : Bool
  therm : Bool
  faultN : Bool
  trip : Bool
  pgTimeout : Bool
  rung : Nat
  target : Nat
  busy : Bool
  since : W64
  temps : List Int
  strap : BitVec 3
  dynAddr : Option (BitVec 7)
  i3cOut : List W32
  i3cNak : Bool
  cause : Nat
  throttled : List Nat
  throttleAt : List (Option W64)
  cur : List Nat
  deriving DecidableEq, Repr

def PowerSt.reset : PowerSt :=
  { phase := .unpowered, vstby := false, vin48 := true, pwrEn := false, rstN := false, rails := false, pwrGood := false,
    therm := false, faultN := false, trip := false, pgTimeout := false, rung := 0, target := 0, busy := false, since := 0, temps := List.replicate 32 0, strap := 0, dynAddr := none, i3cOut := [], i3cNak := false,
    cause := 0, throttled := List.replicate 4 0, throttleAt := List.replicate 4 none, cur := List.replicate 192 0 }

/-! ## Reports and latches (R476 to R491) -/

/-- A report on its way: SOURCE, KIND of the record, CODE, CLASS, and the data bytes [31:12] of its record. -/
structure Report where
  source : Nat
  kind : Nat
  code : Nat
  cls : Nat
  data : BitVec 160
  deriving DecidableEq, Repr

/-- A snapshot latch of a block (R488): latch number, block and index as in SCOPE, the instant, and the copies by address. -/
structure Latch where
  j : Nat
  scope : Nat
  time : W64
  copies : List (Nat × W32)
  deriving DecidableEq, Repr

/-- A barrier channel of the device (R334, R341): enabled, broken with its cause, episodes done, and the tree messages received
from children for the present episode and the next. -/
structure BarChan where
  en : Bool
  broken : Bool
  cause : Nat
  done : Byte
  kids : List Nat
  kidsNext : List Nat
  sentUp : Bool
  reached : Bool
  deriving DecidableEq, Repr

def BarChan.reset : BarChan :=
  { en := false, broken := false, cause := 0, done := 0, kids := [], kidsNext := [], sentUp := false, reached := false }

/-- The state of the block. `tickPeriod` is the tick period in effect (R311); `memPoison` holds the poison marker of a granule and
`memUpset` the symbols of its stored bits that are in error, a bit for each (R370), by line address; `free` counts the free values taken so far: the model's own field, not the spec's. -/
structure State where
  pending : List Instr
  timebase : W64
  tickPeriod : Nat
  regs : List (Nat × W32)
  cnts : List (Nat × W64)
  latches : List Latch
  snapTimes : List W64
  cells : List CellSt
  reqs : List Req
  walks : List Walk
  nextReq : Nat
  mem : List Host.Cell
  memPoison : List (Nat × Bool)
  memUpset : List (Nat × Nat)
  landings : List Landing
  scaler : ScalerSt
  bars : List (Nat × BarChan)
  barOut : List BarMsg
  fab : FabSt
  eth : EthSt
  flash : FlashSt
  sec : SecSt
  power : PowerSt
  errSeen : BitVec 4
  supQ : List (Nat × Report)
  recent : List (Nat × Nat × W64)
  muted : Nat
  free : Nat
  deriving DecidableEq, Repr

/-- Stops of the block with a fault. No command of stepping A0 ends so: an access that does not exist reads 0 or raises one of
the spec's own faults, which are next states. -/
inductive Fault where
  /-- Never raised: kept so that the type has a name to speak of. Safe. -/
  | unreachable
  deriving DecidableEq, Repr

/-- Commands the model has no meaning for. -/
inductive Refusal where
  /-- The arm of a command that is not modelled. Raised by Dispatch only. Safe: nothing is said of the command. -/
  | notModelled (mnemonic : String)
  deriving DecidableEq, Repr

/-- The device before its supplies are applied: every register at the reset value that the spec gives it (an unlisted register
reads its reset value), memory with nothing listed, and an empty queue. -/
def State.reset : State :=
  { pending := [], timebase := 0, tickPeriod := 4, regs := [], cnts := [], latches := [], snapTimes := [0, 0], cells := List.replicate 192 CellSt.reset,
    reqs := [], walks := [], nextReq := 0, mem := [], memPoison := [], memUpset := [], landings := List.replicate 12 Landing.reset,
    scaler := ScalerSt.reset, bars := [], barOut := [], fab := FabSt.reset, eth := EthSt.reset, flash := FlashSt.shipped,
    sec := SecSt.reset, power := PowerSt.reset, errSeen := 0, supQ := [], recent := [], muted := 0, free := 0 }

end Sys2Proof.Machine
end

