-- ==== Sys2Proof/Machine/Regs.lean ====
section
/-! DEFINITION. Machine/Regs.lean: the register space as a file of fields (R493, R499 to R511): which fields of which address
software may write, with their access, reset value and range (R9), the addresses of every register, and the counters
(R486, R487). Fields that show other state are computed in Machine/View.lean. -/

namespace Sys2Proof.Machine

/-! ## Addresses (R499 to R509) -/

def pwrBase : Nat := 0x10000
def errBase : Nat := 0x20000
def secBase : Nat := 0x30000
def plcBase : Nat := 0x40000
def schBase : Nat := 0x50000
def ethBase : Nat := 0x60000
def fabBase : Nat := 0x70000
def lndBase (l : Nat) : Nat := 0x1000000 + 0x10000 * l
def cellBase (c : Nat) : Nat := 0x2000000 + 0x10000 * c

/-- The blocks that a register address lies in (R499). -/
inductive Block where
  | ident | power | errs | sec | plc | sched | eth | fab
  | lnd (l : Nat)
  | cell (c : Nat)
  | none
  deriving DecidableEq, Repr

/-- The block of an address. -/
def blockOf (a : Nat) : Block :=
  let b := a / 0x10000
  if 0x200 ≤ b then (if b < 0x200 + 192 then .cell (b - 0x200) else .none)
  else if 0x100 ≤ b then (if b < 0x100 + 12 then .lnd (b - 0x100) else .none)
  else match b with
    | 0 => .ident | 1 => .power | 2 => .errs | 3 => .sec | 4 => .plc | 5 => .sched | 6 => .eth | 7 => .fab | _ => .none

/-- The offset of an address in its block. -/
def offOf (a : Nat) : Nat := a % 0x10000

/-! ## Writable fields -/

/-- A RW field: its low bit, its width, its reset value, and its range. -/
structure Fld where
  lo : Nat
  w : Nat
  reset : Nat
  min : Nat
  max : Nat
  deriving DecidableEq, Repr

/-- A RW field that takes every value of its width. -/
def Fld.all (lo w reset : Nat) : Fld := { lo := lo, w := w, reset := reset, min := 0, max := 2 ^ w - 1 }

/-- Whether `o` is one of `n` registers at steps of 4 from `b`. -/
def inRun (o b n : Nat) : Bool := decide (b ≤ o) && decide (o < b + 4 * n) && (o - b) % 4 == 0

def cellFlds (o : Nat) : List Fld :=
  if o < 0x300 then
    match o with
    | 0x10 => [.all 0 1 1]
    | 0x24 => [.all 0 1 1, { lo := 16, w := 15, reset := 0x2000, min := 256, max := 16384 }]
    | 0xB0 => [.all 0 1 0, { lo := 8, w := 5, reset := 6, min := 0, max := 16 }, { lo := 16, w := 11, reset := 0x10, min := 0, max := 1024 }]
    | 0xBC => [.all 0 1 0]
    | 0xC0 => [.all 0 1 0]
    | 0x100 => [{ lo := 0, w := 12, reset := 0x12C, min := 16, max := 2400 }, { lo := 12, w := 12, reset := 0x100, min := 16, max := 2048 },
        .all 24 1 1, .all 25 1 1]
    | 0x200 => [{ lo := 0, w := 4, reset := 12, min := 0, max := 12 }]
    | 0x208 => [.all 0 4 0]
    | 0x20C => [.all 0 32 0]
    | 0x210 => [.all 0 32 0]
    | 0x214 => [.all 0 32 0]
    | _ => []
  else
    match o with
    | 0x304 => [.all 0 32 0x10000]
    | 0x30C => [.all 0 2 0]
    | _ => if inRun o 0x400 80 then [{ lo := 0, w := 7, reset := 0, min := 0, max := 64 }] else []

def lndFlds (o : Nat) : List Fld :=
  match o with
  | 0x0 => [.all 0 1 1]
  | 0x4 => [{ lo := 0, w := 8, reset := 8, min := 1, max := 168 }]
  | 0x8 => [{ lo := 0, w := 8, reset := 0x10, min := 1, max := 255 }]
  | 0x14 => [.all 0 1 0]
  | _ => []

def plcFlds (o : Nat) : List Fld :=
  match o with
  | 0x0 => [.all 0 4 0xB]
  | 0x4 => [{ lo := 0, w := 16, reset := 0x64, min := 10, max := 10000 }]
  | 0x8 => [{ lo := 0, w := 16, reset := 0x64, min := 0, max := 1000 }]
  | 0xC => [{ lo := 0, w := 32, reset := 0x8000, min := 1024, max := 2 ^ 32 - 1 }]
  | 0x10 => [{ lo := 0, w := 24, reset := 0x4000, min := 1024, max := 1048576 }]
  | 0x14 => [{ lo := 0, w := 24, reset := 0x10000, min := 1024, max := 1048576 }]
  | 0x18 => [.all 0 1 0, { lo := 8, w := 24, reset := 0x1000, min := 1, max := 2 ^ 24 - 1 }]
  | 0x1C => [.all 0 32 0]
  | 0x20 => [.all 0 32 0]
  | 0x2C => [.all 0 5 0]
  | _ => []

def ethFlds (o : Nat) : List Fld :=
  match o with
  | 0x0 => [.all 0 17 0x8004]
  | 0x8 => [.all 0 32 0]
  | 0xC => [.all 0 16 0]
  | 0x10 => [.all 0 15 0]
  | 0x14 => [.all 0 32 0]
  | 0x18 => [.all 0 32 0]
  | 0x1C => [.all 0 32 0]
  | 0x20 => [.all 0 32 0]
  | 0x24 => [.all 0 32 0]
  | 0x40 => [{ lo := 0, w := 16, reset := 0xC4E0, min := 1024, max := 65535 }, { lo := 16, w := 9, reset := 0x40, min := 1, max := 256 }]
  | 0x44 => [{ lo := 0, w := 16, reset := 0x64, min := 10, max := 10000 }, { lo := 16, w := 16, reset := 0x3E8, min := 100, max := 60000 }]
  | _ => []

def fabFlds (o : Nat) : List Fld :=
  match o with
  | 0x0 => [.all 0 16 0]
  | 0x4 => [.all 0 32 0]
  | 0xC => [.all 0 32 0]
  | 0x18 => [{ lo := 0, w := 8, reset := 0xA, min := 4, max := 255 }]
  | 0x1C => [{ lo := 0, w := 16, reset := 0x1F4, min := 50, max := 65535 }, { lo := 16, w := 16, reset := 0x32, min := 10, max := 65535 }]
  | 0x20 => [.all 0 16 0]
  | 0x28 => [.all 0 16 0]
  | 0x34 => [.all 0 10 0]
  | _ => if inRun o 0x400 16 then [.all 0 7 0] else if inRun o 0x440 16 then [.all 0 32 0] else []

def pwrFlds (o : Nat) : List Fld :=
  match o with
  | 0x4 => [{ lo := 0, w := 8, reset := 0xA, min := 1, max := 255 }, .all 8 1 1]
  | 0x8 => [.all 0 1 0, { lo := 1, w := 16, reset := 0x64, min := 10, max := 65535 }]
  | 0xC => [{ lo := 0, w := 8, reset := 0x64, min := 60, max := 110 }, .all 8 1 0]
  | 0x18 => [.all 0 4 0]
  | _ => if inRun o 0x400 192 then [.all 0 2 0] else []

/-- The offset of the first counter area of a block that `o` lies in, and how many counters it holds (R501 to R509). -/
def cntArea (b : Block) (o : Nat) : Option (Nat × Nat) :=
  let tryAreas (l : List (Nat × Nat)) := l.find? fun p => decide (p.1 ≤ o) && decide (o < p.1 + 16 * p.2)
  match b with
  | .power => tryAreas [(0x1000, 3)]
  | .plc => tryAreas [(0x1000, 15)]
  | .sched => tryAreas [(0x1000, 2)]
  | .eth => tryAreas [(0x1000, 18)]
  | .fab => if 0x1000 ≤ o ∧ o < 0x1800 then some (0x1000 + 64 * ((o - 0x1000) / 64), 4) else tryAreas [(0x1800, 8)]
  | .lnd _ => tryAreas [(0x1000, 256), (0x2000, 256), (0x3000, 7)]
  | .cell _ => tryAreas [(0x1000, 84)]
  | _ => none

/-- Whether an address is the control word of a statistics counter (R487). -/
def isCntCtl (a : Nat) : Bool := (cntArea (blockOf a) (offOf a)).isSome && a % 16 == 8

/-- The RW fields of a register. -/
def regFlds (a : Nat) : List Fld :=
  if isCntCtl a then [.all 1 1 0]
  else match blockOf a with
    | .power => pwrFlds (offOf a)
    | .errs => if offOf a = 0x10 ∨ offOf a = 0x20 then [.all 8 16 0] else []
    | .sec => if offOf a = 0x10 then [.all 0 2 0] else []
    | .plc => plcFlds (offOf a)
    | .sched => match offOf a with
      | 0x0 => [{ lo := 0, w := 13, reset := 4, min := 1, max := 4096 }]
      | 0x8 => [.all 0 3 0]
      | _ => []
    | .eth => ethFlds (offOf a)
    | .fab => fabFlds (offOf a)
    | .lnd _ => lndFlds (offOf a)
    | .cell _ => cellFlds (offOf a)
    | _ => []

/-- The W1C bits of a register. -/
def regW1c (a : Nat) : Nat :=
  if isCntCtl a then 1
  else match blockOf a, offOf a with
    | .power, 0x14 => 0xF
    | .plc, 0x28 => 0x1F
    | .sched, 0x4 => 7
    | .fab, 0x30 => 0x3FF
    | .lnd _, 0x10 => 0xF
    | .cell _, 0xB8 => 1
    | .cell _, 0x218 => 0x32
    | .cell _, 0x308 => 3
    | .cell _, 0x310 => 0xFFFFFFFF
    | .cell _, 0x314 => 0xFFFFFFFF
    | _, _ => 0

/-- The reset value of the stored part of a register. -/
def regReset (a : Nat) : W32 := BitVec.ofNat 32 ((regFlds a).foldl (fun acc f => acc + f.reset * 2 ^ f.lo) 0)

/-- The stored part of a register: RW and W1C fields, maxima, error counts and the fields that hardware alone sets. -/
def State.reg (s : State) (a : Nat) : W32 := tblGet (regReset a) a s.regs

def State.setReg (s : State) (a : Nat) (v : W32) : State := { s with regs := tblSet (regReset a) a v s.regs }

/-- Bits `[hi : lo]` of the stored part of a register. -/
def State.regF (s : State) (a hi lo : Nat) : Nat := fld (s.reg a) hi lo

def State.regBit (s : State) (a i : Nat) : Bool := (s.reg a).getLsbD i

/-- Bits of the stored part of a register replaced. -/
def State.setRegF (s : State) (a hi lo x : Nat) : State := s.setReg a (setFld (s.reg a) hi lo x)

/-- Bits of a W1C register set by hardware. -/
def State.setBits (s : State) (a : Nat) (m : W32) : State := s.setReg a (s.reg a ||| m)

/-- A value clamped to a field's range (R112, R169, R320 and the like). -/
def Fld.clamp (f : Fld) (x : Nat) : Nat := Nat.max f.min (Nat.min f.max x)

/-- The stored part of a register after a plain write of `v` (R9): RW fields take their bits of `v`, clamped; W1C bits written 1
are cleared; everything else is kept. -/
def plainWrite (a : Nat) (old v : W32) : W32 :=
  let c := old &&& ~~~(v &&& BitVec.ofNat 32 (regW1c a))
  (regFlds a).foldl (fun acc f => setFld acc (f.lo + f.w - 1) f.lo (f.clamp (fld v (f.lo + f.w - 1) f.lo))) c

/-- An error counter raised by one, sticking at 0xFFFF (R486). -/
def State.errBump (s : State) (a : Nat) : State :=
  s.setReg a (if (s.reg a).toNat < 0xFFFF then s.reg a + 1 else 0xFFFF)

/-- A maximum raised to at least `x` (R10: an RC field updated by hardware). -/
def State.maxReg (s : State) (a x : Nat) : State :=
  s.setReg a (if (s.reg a).toNat < x then BitVec.ofNat 32 (min x 0xFFFFFFFF) else s.reg a)

/-- Whether an address holds an error counter (R486, R503 to R508). -/
def isErrCnt (a : Nat) : Bool :=
  let o := offOf a
  match blockOf a with
  | .errs => inRun o 0xC00 192 || inRun o 0x1000 192
  | .sec => o == 0x80 || o == 0x84
  | .eth => o == 0x80 || o == 0x84
  | .fab => inRun o 0x200 32 || inRun o 0x280 32 || inRun o 0x300 32
  | .lnd _ => inRun o 0x20 3
  | .cell _ => o == 0x14 || inRun o 0x21C 3 || o == 0x360
  | _ => false

/-! ## Names -/

def rPwrCfg : Nat := pwrBase + 0x4
def rPwrPark : Nat := pwrBase + 0x8
def rPwrTherm : Nat := pwrBase + 0xC
def rPwrTemp : Nat := pwrBase + 0x10
def rPwrEvent : Nat := pwrBase + 0x14
def rPwrEventEn : Nat := pwrBase + 0x18
def rCellSp (c : Nat) : Nat := pwrBase + 0x400 + 4 * c
def rSnap (j : Nat) : Nat := errBase + 0x10 + 0x10 * j
def rErrRestart (c : Nat) : Nat := errBase + 0xC00 + 4 * c
def rErrEngFault (c : Nat) : Nat := errBase + 0x1000 + 4 * c
def rSecCtrl : Nat := secBase + 0x10
def rErrSecJtag : Nat := secBase + 0x80
def rErrSecAuth : Nat := secBase + 0x84
def rPlcCtrl : Nat := plcBase
def rPlcInterval : Nat := plcBase + 0x4
def rPlcBudget : Nat := plcBase + 0x8
def rPlcDeg : Nat := plcBase + 0xC
def rPlcPart : Nat := plcBase + 0x10
def rPlcEdges : Nat := plcBase + 0x14
def rPlcThin : Nat := plcBase + 0x18
def rPlcSeedLo : Nat := plcBase + 0x1C
def rPlcSeedHi : Nat := plcBase + 0x20
def rPlcEvent : Nat := plcBase + 0x28
def rPlcEventEn : Nat := plcBase + 0x2C
def rSchTick : Nat := schBase
def rBarEvent : Nat := schBase + 0x4
def rBarEventEn : Nat := schBase + 0x8
def rEthCfg : Nat := ethBase
def rEthMacLo : Nat := ethBase + 0x8
def rEthMacHi : Nat := ethBase + 0xC
def rEthVlan : Nat := ethBase + 0x10
def rEthIp4 : Nat := ethBase + 0x14
def rEthIp6 (i : Nat) : Nat := ethBase + 0x18 + 4 * i
def rQctCfg : Nat := ethBase + 0x40
def rQctTimers : Nat := ethBase + 0x44
def rErrEthFcs : Nat := ethBase + 0x80
def rFabId : Nat := fabBase
def rFabSpace : Nat := fabBase + 0x4
def rFabLinkEn : Nat := fabBase + 0xC
def rFabProbe : Nat := fabBase + 0x18
def rFabDrain : Nat := fabBase + 0x1C
def rFabRtIdx : Nat := fabBase + 0x20
def rFabMbrIdx : Nat := fabBase + 0x28
def rFabEvent : Nat := fabBase + 0x30
def rFabEventEn : Nat := fabBase + 0x34
def rFabTree (j : Nat) : Nat := fabBase + 0x400 + 4 * j
def rFabChild (j : Nat) : Nat := fabBase + 0x440 + 4 * j
def rErrFabCrc (l : Nat) : Nat := fabBase + 0x200 + 4 * l
def rErrFabRetrain (l : Nat) : Nat := fabBase + 0x300 + 4 * l
def rLnd (l o : Nat) : Nat := lndBase l + o
def rCell (c o : Nat) : Nat := cellBase c + o

/-- This device's number, FAB_ID.DEV. -/
def State.dev (s : State) : Nat := s.regF rFabId 15 0

/-! ## Statistics counters (R487, R501) -/

/-- Counters of the cell area by their index (R509). -/
def cAe (i : Nat) : Nat := i
def cPtc (i : Nat) : Nat := 11 + i
def cCvt (i : Nat) : Nat := 14 + i
def cMx (i : Nat) : Nat := 17 + i
def cVx (i : Nat) : Nat := 28 + i
def cSp (i : Nat) : Nat := 35 + i
def cPred (i : Nat) : Nat := 41 + i
def cCc (i : Nat) : Nat := 46 + i
def cDispatch (p : Nat) : Nat := 53 + p
def cRdyWait (p : Nat) : Nat := 61 + p
def cEvWaits : Nat := 69
def cEvWaitTicks : Nat := 70
def cCoreBusy (k : Nat) : Nat := 71 + k
def cSwitch (k : Nat) : Nat := 75 + k
def cStarve : Nat := 79
def cPostDrop : Nat := 80
def cFence : Nat := 81
def cFenceCyc : Nat := 82
def cFenceClean : Nat := 83

def kCell (c i : Nat) : Nat := cellBase c + 0x1000 + 16 * i
def kPwr (i : Nat) : Nat := pwrBase + 0x1000 + 16 * i
def kPlc (i : Nat) : Nat := plcBase + 0x1000 + 16 * i
def kBar (i : Nat) : Nat := schBase + 0x1000 + 16 * i
def kEth (i : Nat) : Nat := ethBase + 0x1000 + 16 * i
def kLink (l i : Nat) : Nat := fabBase + 0x1000 + 64 * l + 16 * i
def kFab (i : Nat) : Nat := fabBase + 0x1800 + 16 * i
def kLndReq (l b : Nat) : Nat := lndBase l + 0x1000 + 16 * b
def kLndPmiss (l b : Nat) : Nat := lndBase l + 0x2000 + 16 * b
def kLnd (l i : Nat) : Nat := lndBase l + 0x3000 + 16 * i

/-- The count of a statistics counter, by the address of its area entry. -/
def State.cnt (s : State) (k : Nat) : W64 := tblGet 0 k s.cnts

/-! ## Units -/

def State.cell (s : State) (c : Nat) : CellSt := s.cells.getD c CellSt.reset
def State.modCell (s : State) (c : Nat) (f : CellSt → CellSt) : State := { s with cells := modAt c f s.cells }
def State.setCell (s : State) (c : Nat) (x : CellSt) : State := s.modCell c fun _ => x
def CellSt.thread (x : CellSt) (t : Nat) : Thread := x.threads.getD t Thread.reset
def State.thread (s : State) (c t : Nat) : Thread := (s.cell c).thread t
def State.modThread (s : State) (c t : Nat) (f : Thread → Thread) : State :=
  s.modCell c fun x => { x with threads := modAt t f x.threads }
def State.landing (s : State) (l : Nat) : Landing := s.landings.getD l Landing.reset
def State.modLanding (s : State) (l : Nat) (f : Landing → Landing) : State := { s with landings := modAt l f s.landings }
def State.link (s : State) (l : Nat) : Link := s.fab.links.getD l Link.reset
def State.modFab (s : State) (f : FabSt → FabSt) : State := { s with fab := f s.fab }
def State.modLink (s : State) (l : Nat) (f : Link → Link) : State := s.modFab fun x => { x with links := modAt l f x.links }
def State.modEth (s : State) (f : EthSt → EthSt) : State := { s with eth := f s.eth }
def State.modScaler (s : State) (f : ScalerSt → ScalerSt) : State := { s with scaler := f s.scaler }
def State.modPower (s : State) (f : PowerSt → PowerSt) : State := { s with power := f s.power }
def State.modSec (s : State) (f : SecSt → SecSt) : State := { s with sec := f s.sec }
def State.modFlash (s : State) (f : FlashSt → FlashSt) : State := { s with flash := f s.flash }
def State.bar (s : State) (n : Nat) : BarChan := tblGet BarChan.reset n s.bars
def State.setBar (s : State) (n : Nat) (b : BarChan) : State := { s with bars := tblSet BarChan.reset n b s.bars }
def State.barCell (s : State) (c n : Nat) : BarCell := tblGet BarCell.reset n (s.cell c).bars
def State.setBarCell (s : State) (c n : Nat) (b : BarCell) : State :=
  s.modCell c fun x => { x with bars := tblSet BarCell.reset n b x.bars }

/-- The field of a cell or landing (R13, R15). -/
def fieldOfCell (c : Nat) : Nat := c / 48
def fieldOfLanding (l : Nat) : Nat := l / 3

end Sys2Proof.Machine
end

