-- ==== Sys2Proof/Machine/Ops.lean ====
section
/-! DEFINITION. Machine/Ops.lean: the named operations that every meaning is built from: free values, counters, reports and
event records, operand memory, thread slots and their flags. -/

namespace Sys2Proof.Machine

/-! ## Free values -/

/-- A free value, and the state in which the next one is another. -/
def State.fresh (s : State) : W64 × State := (Config.freeWord s.free, { s with free := s.free + 1 })

/-! ## Event records (R432, R477 to R480) -/

/-- SOURCE codes (R478). -/
def srcSup (f : Nat) : Nat := 0x1000 + f
def srcCell (c : Nat) : Nat := 0x2000 + c
def srcLnd (l : Nat) : Nat := 0x3000 + l
def srcLink (l : Nat) : Nat := 0x4000 + l
def srcEth : Nat := 0x5000
def srcPlc : Nat := 0x6000
def srcSec : Nat := 0x7000
def srcPwr : Nat := 0x8000

/-- Event record kinds (R432). -/
def kBoot : Nat := 1
def kError : Nat := 2
def kThreadFault : Nat := 3
def kPost : Nat := 4
def kFabric : Nat := 5
def kPlacement : Nat := 6
def kPredictor : Nat := 7
def kPower : Nat := 8
def kThermal : Nat := 9
def kOverflow : Nat := 10

/-- Data bytes [31:12] of a record: CODE, byte 14 (CLASS or slot), INFO and PC (R479). -/
def recData (code b14 info pc : Nat) : BitVec 160 :=
  BitVec.ofNat 160 (code % 2 ^ 16 + b14 % 2 ^ 8 * 2 ^ 16 + info % 2 ^ 64 * 2 ^ 32 + pc % 2 ^ 32 * 2 ^ 96)

/-- How many event records the device buffers (R432). -/
def eventDepth : Nat := 4096

/-- Adds to a statistics counter (R486, R487) without the event of a wrap. -/
def State.rawCount (s : State) (k n : Nat) : State :=
  let v := (s.cnt k).toNat + n
  let s := { s with cnts := tblSet 0 k (BitVec.ofNat 64 v) s.cnts }
  if 2 ^ 64 ≤ v then s.setBits (k + 8) 1 else s

/-- Queues one event record, or drops and counts it when the buffer is full; the first record queued once space frees is an
OVERFLOW record with the number lost (R432). -/
def State.pushEvent (s : State) (kind source : Nat) (data : BitVec 160) : State :=
  let put (s : State) (k src : Nat) (d : BitVec 160) : State :=
    s.modEth fun e => { e with events := e.events ++ [{ record := { kind := k, source := src, time := s.timebase, data := d }, seq := none }] }
  let s := if s.eth.lost ≠ 0 ∧ s.eth.events.length < eventDepth then
      (put s kOverflow 0 (BitVec.ofNat 160 s.eth.lost)).modEth fun e => { e with lost := 0 }
    else s
  if s.eth.events.length < eventDepth then put s kind source data
  else (s.modEth fun e => { e with lost := e.lost + 1 }).rawCount (kEth 14) 1

/-- The lookout queues the record of a report (R477): from one SOURCE and with one CODE at most one record of CLASS 0 or 4
per millisecond. -/
def State.lookoutReport (s : State) (r : Report) : State :=
  if r.cls = 0 ∨ r.cls = 4 then
    if s.recent.any (fun x => x.1 == r.source && x.2.1 == r.code && decide (s.timebase.toNat < x.2.2.toNat + 1000000)) then
      { s with muted := s.muted + 1 }
    else
      { s with recent := (r.source, r.code, s.timebase) ::
          s.recent.filter fun x => !(x.1 == r.source && x.2.1 == r.code) }.pushEvent r.kind r.source r.data
  else s.pushEvent r.kind r.source r.data

/-- An error of a class has occurred: ERR_STATUS.SEEN (R490). Notices are not recorded. -/
def State.seeClass (s : State) (cls : Nat) : State :=
  if cls < 4 then { s with errSeen := s.errSeen ||| BitVec.ofNat 4 (2 ^ cls) } else s

/-- A report by a block that sits in field `f`, to the supervisor of that field (R17, R477). -/
def State.supReport (s : State) (f : Nat) (r : Report) : State := { s with supQ := s.supQ ++ [(f, r)] }

/-- A report on the path of its source (R17, R477): cells and landings through their field's supervisor, every other block
directly to the lookout. -/
def State.report (s : State) (r : Report) : State :=
  let b := r.source / 0x1000
  let i := r.source % 0x1000
  if b = 2 then s.supReport (fieldOfCell i) r
  else if b = 3 then s.supReport (fieldOfLanding i) r
  else if b = 1 then s.supReport i r
  else s.lookoutReport r

/-- A report with the data layout of R479. -/
def State.raise (s : State) (source kind code cls info : Nat) : State :=
  let d := recData code (if kind = kError then cls else 0) info 0
  s.report { source := source, kind := kind, code := code, cls := cls, data := d }

/-- The SOURCE code of the block that holds a counter or register (R499). -/
def sourceOf (a : Nat) : Nat :=
  match blockOf a with
  | .power => srcPwr | .sec => srcSec | .plc => srcPlc | .eth => srcEth
  | .fab => if 0x1000 ≤ offOf a ∧ offOf a < 0x1800 then srcLink ((offOf a - 0x1000) / 64) else srcLink 0
  | .lnd l => srcLnd l | .cell c => srcCell c | _ => 0

/-- Adds to a statistics counter; a wrap sets WRAPPED and, with EVT_EN set, raises an ERROR record of CODE 0x0190 and CLASS 4
with the counter's register offset (R487). -/
def State.count (s : State) (k n : Nat) : State :=
  let wraps := decide (2 ^ 64 ≤ (s.cnt k).toNat + n)
  let s := s.rawCount k n
  if wraps && s.regBit (k + 8) 1 then s.raise (sourceOf k) kError 0x0190 4 (offOf k) else s

/-- Adds to a counter of a cell, by its index in the cell's area (R509). -/
def State.countC (s : State) (c i n : Nat) : State := s.count (kCell c i) n

/-! ## Operand memory (R116, R117, R372) -/

def opSize : Nat := 0x100000
/-- The end of the software region. -/
def opSoft : Nat := 0xA0000

def CellSt.op (x : CellSt) (a n : Nat) : List Byte := memRead x.opmem a n
def CellSt.opNat (x : CellSt) (a n : Nat) : Nat := leNat (x.op a n)

/-- The first of `n` 64-byte blocks from block `b` that carries poison. -/
def firstPoison (p : List (Nat × Bool)) : Nat → Nat → Option Nat
  | 0, _ => none
  | n + 1, b => if tblGet false b p then some b else firstPoison p n (b + 1)

/-- The address of the first poisoned block that bytes `a` to `a + n − 1` touch (R372). -/
def CellSt.opPoisoned (x : CellSt) (a n : Nat) : Option Nat :=
  if n = 0 then none else (firstPoison x.opPoison ((a + n - 1) / 64 + 1 - a / 64) (a / 64)).map (64 * ·)

/-- Clears the poison of every block that lies wholly in `a` to `a + n − 1` (R372). -/
def clearPoison (p : List (Nat × Bool)) (a n : Nat) : List (Nat × Bool) :=
  p.filter fun e => !(decide (a ≤ 64 * e.1) && decide (64 * e.1 + 64 ≤ a + n))

/-- Unpoisoned bytes written to operand memory (R118, R372). -/
def CellSt.opWrite (x : CellSt) (a : Nat) (b : List Byte) : CellSt :=
  { x with opmem := memWrite x.opmem a b, opPoison := clearPoison x.opPoison a b.length }

/-- Marks the block of an address poisoned. -/
def CellSt.opMark (x : CellSt) (a : Nat) : CellSt := { x with opPoison := tblSet false (a / 64) true x.opPoison }

/-! ## When the device's cells act -/

/-- The device is in service and in ACTIVE with no rung change in progress: cores and engines may issue (R463, R465). -/
def State.active (s : State) : Bool :=
  s.power.phase == .running && s.power.rung == 0

/-- Cores may issue and launches are accepted: not during a rung change (R465 step 1). -/
def State.coresGo (s : State) : Bool := s.active && !s.power.busy

/-- A cell that runs: not restarting, not OFFLINE. -/
def State.cellUp (s : State) (c : Nat) : Bool := decide (c < 192) && (s.cell c).mode == .running

/-! ## Threads (R298 to R320) -/

def Thread.reg (t : Thread) (r : Nat) : W64 := if r = 0 then 0 else t.regs.getD (r - 1) 0

/-- Writes a scalar register; a write to s0 is discarded (R272). -/
def Thread.setReg (t : Thread) (r : Nat) (v : W64) : Thread :=
  if r = 0 then t else { t with regs := modAt (r - 1) (fun _ => v) t.regs }

/-- Takes a slot off its core. -/
def CellSt.releaseCore (x : CellSt) (t : Nat) : CellSt :=
  { x with cores := x.cores.map fun k => if k.slot = some t then { k with slot := none } else k }

/-- A change of a slot's state, with the tick of its entry (R298). -/
def CellSt.enter (x : CellSt) (t : Nat) (st : ThState) : CellSt :=
  { x with threads := modAt t (fun th => { th with state := st, entered := x.tick, starved := false, readyTicks := 0 }) x.threads }

/-- A thread leaves its core for a state. -/
def CellSt.leave (x : CellSt) (t : Nat) (st : ThState) : CellSt := (x.releaseCore t).enter t st

/-- A slot becomes FREE (R304). -/
def CellSt.freeSlot (x : CellSt) (t : Nat) : CellSt :=
  let x := x.leave t .free
  { x with threads := modAt t (fun th => { th with fence := none, timed := false, wake := none, reason := 0 }) x.threads }

/-- Whether flags satisfy a wait (R282). -/
def flagsMeet (all : Bool) (mask flags : W32) : Bool :=
  if all then flags &&& mask == mask else flags &&& mask != 0

/-- Flags ORed into a slot (R308, R309). A FREE or FAILED slot is left as it is; a WAITING thread whose mask they first satisfy
keeps the flags as they stand for its rd, and clear-on-wake acts at once. -/
def Thread.orFlags (t : Thread) (m : W32) : Thread :=
  match t.state with
  | .free => t
  | .failed => t
  | .waiting =>
    let f := t.flags ||| m
    if t.wake.isNone && flagsMeet t.modeAll t.mask f then
      { t with flags := if t.clr then f &&& ~~~t.mask else f, wake := some f }
    else { t with flags := f }
  | _ => { t with flags := t.flags ||| m }

/-- Whether a slot takes flags: 0 delivered, 1 when it is FREE or FAILED (R284). -/
def Thread.deaf (t : Thread) : Bool := t.state == .free || t.state == .failed

/-- A parked cell is unparked, as the event that unparks it takes effect (R470). -/
def State.unpark (s : State) (c : Nat) : State :=
  s.modCell c fun x => if x.parked then { x with parked := false, idleSince := s.timebase } else x

/-- Flags reach a slot: a flag set on one of its threads unparks a cell (R470). -/
def State.flagThread (s : State) (c t : Nat) (m : W32) : State :=
  if (s.thread c t).deaf then s else (s.unpark c).modThread c t fun th => th.orFlags m

/-- Flags set on a slot for a thread that may have left it: dropped unless the token is that thread's (R287, R339). -/
def State.flagToken (s : State) (c t tok : Nat) (m : W32) : State :=
  if (s.thread c t).token = tok then s.flagThread c t m else s

/-- The wait statistics of R317 at a wake or a timeout. -/
def State.endEventWait (s : State) (c t : Nat) : State :=
  let x := s.cell c
  let w : W32 := x.tick - (x.thread t).entered
  (((s.modThread c t fun th => { th with evwait := w }).countC c cEvWaits 1).countC c cEvWaitTicks w.toNat).maxReg (rCell c 0x340) w.toNat

/-- The class and kind that a cell reports for poisoned data consumed (R480), with INFO as R372 gives it (log entry 79, DESIGN CHOICE). -/
def State.reportPoison (s : State) (c info : Nat) : State := (s.seeClass 1).raise (srcCell c) kError 0x0040 1 info

/-- A thread fault (R315): the slot becomes FAILED with REASON 1, its code, FAULT_INFO and PC recorded, and the cell reports it. -/
def State.threadFault (s : State) (c t code info : Nat) : State :=
  let pc := (s.thread c t).pc.toNat
  let s := s.modCell c fun x =>
    let x := x.leave t .failed
    let mark (th : Thread) : Thread :=
      { th with reason := 1, faultCode := BitVec.ofNat 16 code, faultInfo := BitVec.ofNat 64 info, fence := none, timed := false }
    { x with threads := modAt t mark x.threads }
  let s := if code = 0x0040 then s.reportPoison c info else s
  s.report { source := srcCell c, kind := kThreadFault, code := code, cls := 5, data := recData code t info pc }

/-- Fault codes (R296). -/
def fUndef : Nat := 0x0001
def fClassEngine : Nat := 0x0002
def fBadOperand : Nat := 0x0003
def fMisaligned : Nat := 0x0004
def fOpmemProt : Nat := 0x0005
def fLoopDepth : Nat := 0x0006
def fBadDesc : Nat := 0x0007
def fBadHandle : Nat := 0x0010
def fBadIndex : Nat := 0x0011
def fWriteProt : Nat := 0x0012
def fRedirectLimit : Nat := 0x0013
def fRemoteDenied : Nat := 0x0014
def fHaulDst : Nat := 0x0015
def fCsrFormat : Nat := 0x0016
def fSegRange : Nat := 0x0017
def fPairFormat : Nat := 0x0018
def fCapacity : Nat := 0x0019
def fChuteUndeclared : Nat := 0x0020
def fChuteShape : Nat := 0x0021
def fDecoupleStall : Nat := 0x0022
def fFormatBad : Nat := 0x0030
def fWbankEmpty : Nat := 0x0031
def fBadShape : Nat := 0x0032
def fTileKind : Nat := 0x0033
def fTileInvalid : Nat := 0x0034
def fScaleMismatch : Nat := 0x0035
def fSegShape : Nat := 0x0036
def fPoisoned : Nat := 0x0040
def fBarrierSkew : Nat := 0x0050

end Sys2Proof.Machine
end

