-- ==== Sys2Proof/Machine/Packet.lean ====
section
/-! DEFINITION. Machine/Packet.lean: fabric packets, their types, virtual channels and units (R389 to R393), and the placement
map entry as 16 bytes (R62). -/

namespace Sys2Proof.Machine

/-! ## Packet types (R392) and membership codes (R393) -/

def pkLoad : Nat := 0x01
def pkStore : Nat := 0x02
def pkAdd : Nat := 0x03
def pkWalk : Nat := 0x04
def pkData : Nat := 0x10
def pkWalkResp : Nat := 0x11
def pkAck : Nat := 0x12
def pkRedirect : Nat := 0x13
def pkHomeLost : Nat := 0x14
def pkFenced : Nat := 0x15
def pkMove : Nat := 0x20
def pkMgmt : Nat := 0x30
def pkBarrier : Nat := 0x31
def pkMemb : Nat := 0x38

def mbLinkDown : Nat := 1
def mbProbe : Nat := 2
def mbProbeResp : Nat := 3
def mbEpoch : Nat := 4
def mbJoin : Nat := 5
def mbJoinResp : Nat := 6
def mbRecover : Nat := 7
def mbRecoverResp : Nat := 8

/-- The virtual channel of a packet type; none for a reserved type (R389). -/
def vcOf (t : Nat) : Option Nat :=
  if t = pkLoad ∨ t = pkWalk then some 0
  else if t = pkStore ∨ t = pkAdd then some 1
  else if t = pkData ∨ t = pkWalkResp then some 2
  else if t = pkAck ∨ t = pkRedirect ∨ t = pkHomeLost ∨ t = pkFenced then some 3
  else if t = pkMove then some 4
  else if t = pkBarrier then some 5
  else if t = pkMgmt then some 6
  else if t = pkMemb then some 7
  else none

/-! ## Units -/

/-- Byte fields of a unit as a number: bytes `[lo + n - 1 : lo]`. -/
def uBytes (u : BitVec 128) (lo n : Nat) : Nat := u.toNat / 2 ^ (8 * lo) % 2 ^ (8 * n)

/-- A unit with values at byte offsets: (offset, bytes, value). -/
def unitOf (l : List (Nat × Nat × Nat)) : BitVec 128 :=
  BitVec.ofNat 128 (l.foldl (fun acc x => acc + x.2.2 % 2 ^ (8 * x.2.1) * 2 ^ (8 * x.1)) 0)

/-- Unit `i` of the units after the route unit. -/
def pkUnit (p : Packet) (i : Nat) : BitVec 128 := p.body.getD i 0

/-- A packet's length in units with its route unit (R391). -/
def pkUnits (p : Packet) : Nat := 1 + p.body.length

/-- The route unit (R391). -/
def pkRoute (p : Packet) : BitVec 128 :=
  unitOf [(0, 2, p.dst), (2, 2, p.src), (4, 4, p.epoch.toNat), (8, 1, p.typ), (9, 1, p.hops + (if p.poison then 16 else 0)),
    (10, 1, pkUnits p), (12, 4, p.tag.toNat)]

/-- The packet of a route unit and the units after it. -/
def packetOf (r : BitVec 128) (body : List (BitVec 128)) : Packet :=
  { dst := uBytes r 0 2, src := uBytes r 2 2, epoch := BitVec.ofNat 32 (uBytes r 4 4), typ := uBytes r 8 1,
    hops := uBytes r 9 1 % 16, poison := (uBytes r 9 1).testBit 4, tag := BitVec.ofNat 32 (uBytes r 12 4), body := body }

/-- The address unit of LOAD, STORE, ADD and MOVE (R391). -/
def addrUnit (h p gen lnd frame off : Nat) : BitVec 128 :=
  unitOf [(0, 3, h), (3, 5, p), (8, 2, gen), (10, 1, lnd % 16), (11, 2, frame % 2 ^ 15), (13, 3, off % 2 ^ 21)]

/-- The four units of 64 bytes, and back. -/
def dataUnits (d : BitVec 512) : List (BitVec 128) :=
  (List.range 4).map fun i => BitVec.ofNat 128 (d.toNat / 2 ^ (128 * i))

def unitsData (l : List (BitVec 128)) : BitVec 512 :=
  BitVec.ofNat 512 ((List.range 4).foldl (fun acc i => acc + (l.getD i 0).toNat * 2 ^ (128 * i)) 0)

/-! ## Map entries (R62) -/

/-- A placement map entry as 16 bytes. The replica triples stand in the steward's replica table at REPIDX and do not travel with it (log entry
21, DESIGN CHOICE). -/
def entryBits (e : MapEntry) : BitVec 128 :=
  BitVec.ofNat 128 (e.dev + e.lnd * 2 ^ 16 + e.frame * 2 ^ 20 + e.gen.toNat * 2 ^ 36 + e.pstate * 2 ^ 52 +
    e.nrep * 2 ^ 56 + e.repIdx * 2 ^ 64)

def entryOf (u : BitVec 128) : MapEntry :=
  { dev := fld u 15 0, lnd := fld u 19 16, frame := fld u 34 20, gen := BitVec.ofNat 16 (fld u 51 36), pstate := fld u 54 52,
    nrep := fld u 59 56, repIdx := fld u 95 64, reps := [] }

/-! ## Sending -/

/-- A packet from this device. -/
def State.packet (s : State) (dst typ : Nat) (tag : W32) (body : List (BitVec 128)) (poison : Bool := false) : Packet :=
  { dst := dst, src := s.dev, epoch := s.fab.epoch, typ := typ, hops := 0, poison := poison, tag := tag, body := body }

/-- Hands a packet to the router. -/
def State.send (s : State) (p : Packet) : State := s.modFab fun f => { f with router := f.router ++ [p] }

/-- The state of a device in the membership table: 0 ABSENT, 1 MEMBER, 2 LOST (R401). -/
def FabSt.member (f : FabSt) (d : Nat) : Nat := (tblGet f.absent d f.members).toNat

/-- The devices of the membership table that are MEMBER. -/
def FabSt.memberList (f : FabSt) : List Nat := (f.members.filter fun x => x.2 == 1).map (·.1)

/-! ## Events (R416, R480) -/

/-- The CODE and CLASS of an event bit, and whether it is always reported; none where the spec gives no CODE. -/
def fabCode (bit : Nat) : Option (Nat × Nat × Bool) :=
  if bit < 2 then some (0x0131, 4, false)
  else if bit = 2 then some (0x0132, 1, true)
  else if bit = 4 then some (0x0133, 1, true)
  else if bit = 6 ∨ bit = 7 ∨ bit = 8 then some (0x0134, 1, false)
  else none

/-- An event of the fabric: its bit of FAB_EVENT and its record. INFO, and a CODE that the spec does not give, are free values. -/
def State.fabEvent (s : State) (source bit : Nat) : State :=
  let s := s.setBits rFabEvent (BitVec.ofNat 32 (2 ^ bit))
  let en := s.regBit rFabEventEn bit
  match fabCode bit with
  | some (code, cls, always) =>
    let s := s.seeClass cls
    if always || en then let (v, s) := s.fresh; s.raise source kFabric code cls v.toNat else s
  | none =>
    if en then
      let (u, s) := s.fresh
      let (v, s) := s.fresh
      s.raise source kFabric (u.toNat % 65536) 4 v.toNat
    else s

/-- Sends a MGMT message (R392). -/
def State.tell (s : State) (d : Nat) (m : MgmtMsg) : State := s.modFab fun f => { f with mgmtOut := f.mgmtOut ++ [(d, m)] }

/-- The other member devices. -/
def State.others (s : State) : List Nat := s.fab.memberList.filter (· != s.dev)

def State.tellAll (s : State) (m : MgmtMsg) : State := s.others.foldl (fun s d => s.tell d m) s

/-- The routing entry of a device (R395). -/
def FabSt.route (f : FabSt) (d : Nat) : W32 := tblGet 0 d f.routes

end Sys2Proof.Machine
end

