-- ==== Sys2Proof/Machine/Landing.lean ====
section
/-! DEFINITION. Machine/Landing.lean: the device's memory and its landings (R360 to R379): granules, banks, ECC and poison,
near-memory adds, retirement, frame and forwarding records, and the service of one request. -/

namespace Sys2Proof.Machine

/-! ## Device addresses (R343, R362) -/

/-- The line address of a granule: device address bits [39:6]. -/
def laOf (l frame off : Nat) : Nat := (l * 2 ^ 36 + frame * 2 ^ 21 + off) / 64
def laLanding (la : Nat) : Nat := la / 2 ^ 30
def laFrame (la : Nat) : Nat := la / 2 ^ 15 % 2 ^ 15
def laOff (la : Nat) : Nat := la % 2 ^ 15 * 64

/-- The landing address A of a granule. -/
def laA (la : Nat) : Nat := la % 2 ^ 30 * 64
def pcOf (a : Nat) : Nat := natBits a 13 8 ^^^ natBits a 27 22
def bgOf (a : Nat) : Nat := natBits a 15 14 ^^^ natBits a 29 28
/-- The bank of a granule within its landing: PC × 4 + BG. -/
def bankOf (la : Nat) : Nat := pcOf (laA la) * 4 + bgOf (laA la)
/-- The DRAM bank that holds a granule, and the page open there when it is served. -/
def dramOf (la : Nat) : Nat := bankOf la * 4 + natBits (laA la) 17 16
def pageOf (la : Nat) : Nat := natBits (laA la) 35 20

/-- Frames from here up form the system area (R363). -/
def systemFrame : Nat := 32512

/-! ## Granules -/

def State.granule (s : State) (la : Nat) : BitVec 512 := BitVec.ofNat 512 (leNat (memRead s.mem (64 * la) 64))
def State.granulePoison (s : State) (la : Nat) : Bool := tblGet false la s.memPoison
def granBytes (d : BitVec 512) : List Byte := leBytes 64 d.toNat
def granOf (b : List Byte) : BitVec 512 := BitVec.ofNat 512 (leNat (b.take 64))

/-- `new` where a byte enable is set, `old` elsewhere. -/
def mergeBytes (old new : BitVec 512) (en : BitVec 64) : BitVec 512 :=
  BitVec.ofNat 512 (leNat (((granBytes old).zip (granBytes new)).zipIdx.map fun x => if en.getLsbD x.2 then x.1.2 else x.1.1))

/-- A granule written whole, with its marker; fresh check bits replace any error (R371, R377). -/
def State.putGranule (s : State) (la : Nat) (d : BitVec 512) (poison : Bool) : State :=
  { s with mem := memWrite s.mem (64 * la) (granBytes d), memPoison := tblSet false la poison s.memPoison,
           memUpset := tblSet 0 la 0 s.memUpset }

/-! ## ECC (R370) -/

/-- The symbol that holds the 8 bits which a data pin carries in beats 0 to 7 of a granule (half 0) or in beats 8 to 15. Symbols 0 to
63 are data, 64 is metadata bits [31:24], 65 to 67 the check bits. -/
def pinSymbol (pin half : Nat) : Nat := pin + 32 * half

/-- The data symbol of a pin and half: beat b of a granule carries its bits 32b to 32b + 31 (log entry 70, DESIGN CHOICE). -/
def dataSymbol (d : BitVec 512) (pin half : Nat) : Byte :=
  BitVec.ofNat 8 ((List.range 8).foldl (fun n j => n + (if d.getLsbD (32 * (8 * half + j) + pin) then 2 ^ j else 0)) 0)

/-- The symbols in error of a data pin that fails for the whole granule. -/
def pinError (pin : Nat) : Nat := 2 ^ pinSymbol pin 0 + 2 ^ pinSymbol pin 1

/-- How many symbols an error touches. -/
def badSymbols (e : Nat) : Nat := ((List.range 68).filter fun i => e.testBit i).length

/-- The metadata bits of a granule: check bits [23:0], the poison marker, and zeros. -/
def State.metadata (s : State) (la : Nat) : W32 :=
  (Config.eccCheck (s.granule la) (s.granulePoison la)).zeroExtend 32 ||| (if s.granulePoison la then 0x1000000 else 0)

/-! ## Bank statistics (R379) -/

/-- A granule request is served by a bank. -/
def State.countBank (s : State) (la : Nat) : State := s.count (kLndReq (laLanding la) (bankOf la)) 1

/-- The page of a granule is open. -/
def State.pageOpen (s : State) (la : Nat) : Bool := tblGet none (dramOf la) (s.landing (laLanding la)).page == some (pageOf la)

/-- The page of a granule is opened, and counted unless it was open. -/
def State.touchPage (s : State) (la : Nat) : State :=
  let l := laLanding la
  let s := if s.pageOpen la then s else s.count (kLndPmiss l (bankOf la)) 1
  s.modLanding l fun x => { x with page := tblSet none (dramOf la) (some (pageOf la)) x.page }

/-- A granule of a bank is served: the bank's counters, and the page it leaves open. -/
def State.touchBank (s : State) (la : Nat) : State := (s.countBank la).touchPage la

/-! ## Retirement and failure (R374 to R376) -/

def Landing.isRetired (x : Landing) (f : Nat) : Bool := x.failed || x.retired.contains f

/-- A PLACEMENT event of the Scaler (R112, R480, R534): bit, and the handle or work-set number that its record names. -/
def State.plcEvent (s : State) (bit info : Nat) : State :=
  let s := s.setBits rPlcEvent (BitVec.ofNat 32 (2 ^ bit))
  if s.regBit rPlcEventEn bit then s.raise srcPlc kPlacement 0x0140 4 (bit + info * 256) else s

/-- A plot's entry is RETIRED and queued for its move (R110). -/
def State.queueRetire (s : State) (h p : Nat) : State :=
  s.modScaler fun z =>
    match tblGet none (h * 2 ^ 40 + p) z.pmap with
    | some e => { z with pmap := tblSet none (h * 2 ^ 40 + p) (some { e with pstate := 2 }) z.pmap,
                         retire := if z.retire.contains (h, p) then z.retire else z.retire ++ [(h, p)] }
    | none => z

/-- The state in which an entry stands once no move of it runs: RETIRED while its retirement is due, else VALID (R86, R89). -/
def restState (z : ScalerSt) (h p : Nat) : Nat := if z.retire.contains (h, p) then 2 else 0

/-- A frame leaves use: it is invalidated in the cell caches and zero-filled before it is used again (R52, R88). -/
def Landing.release (x : Landing) (f : Nat) : Landing :=
  { x with zero := if x.zero.contains f then x.zero else x.zero ++ [f],
           inval := (f, []) :: x.inval.filter fun y => y.1 != f }

/-- What each device does when a move is cut short (R89): the steward's entry rests again, the target's frame is released, or after
the flip the source's, and the requests held for the move go on. -/
def State.endMove (s : State) (m : MoveReq) : State :=
  let key := m.handle * 2 ^ 40 + m.plot
  let after := s.scaler.moves.any fun x => x.req == m && x.phase == .flipped
  let drop (s : State) (t : Nat × Nat × Nat) : State :=
    s.modLanding t.2.1 fun x => { x.release t.2.2 with reserved := x.reserved.filter (· != t.2.2) }
  let s := s.modScaler fun z => { z with moves := z.moves.filter fun x => !(x.req.handle == m.handle && x.req.plot == m.plot) }
  let s :=
    if m.steward = s.dev then
      (s.modScaler fun z =>
        match tblGet none key z.pmap with
        | some e =>
          if e.pstate = 1 ∨ e.pstate = 2 then { z with pmap := tblSet none key (some { e with pstate := restState z m.handle m.plot }) z.pmap } else z
        | none => z).count (kPlc 2) 1
    else s
  let s := if after then (if m.src.1 = s.dev then drop s m.src else s) else (if m.dst.1 = s.dev then drop s m.dst else s)
  let free (r : Req) : Bool := r.handle == m.handle && r.plot == m.plot &&
    (match r.stage with | .heldWindow _ => true | .heldWrite _ => true | _ => false)
  { s with reqs := s.reqs.map fun r => if free r then { r with stage := .landing r.lnd } else r }

/-- The devices of a move other than this one. -/
def State.moveParties (s : State) (m : MoveReq) : List Nat := ([m.steward, m.src.1, m.dst.1].filter (· != s.dev)).eraseDups

/-- A move is abandoned here, and its other parties are told (R89). -/
def State.abandonMove (s : State) (m : MoveReq) : State :=
  (s.moveParties m).foldl (fun s d => s.tell d (.moveEnd m false)) (s.endMove m)

/-- No frame named yet. -/
def noFrame : Nat := 2 ^ 15

/-- The replica of a plot at a triple whose frame is retired is queued for its move to another frame of its device (R93, R110). -/
def State.queueReplica (s : State) (h p : Nat) (e : MapEntry) (t : Nat × Nat × Nat) : State :=
  let m : MoveReq := { handle := h, plot := p, cls := 5, steward := s.dev, src := t, dst := (t.1, 12, noFrame), gen := e.gen,
                       nrep := e.nrep, repIdx := e.repIdx }
  s.modScaler fun z => if z.queue.any fun x => x.cls == 5 && x.handle == h && x.plot == p && x.src == t then z else { z with queue := z.queue ++ [m] }

/-- A move whose target region has retired waits for another target of the same device (R89). -/
def State.requeueMove (s : State) (m : MoveReq) : State :=
  let lnd := match tblGet none m.handle s.scaler.objs with | some d => if d.policy / 4 % 4 = 2 then d.pinLnd else 12 | none => 12
  s.modScaler fun z => { z with queue := z.queue ++ [{ m with dst := (m.dst.1, lnd, noFrame) }] }

/-- Frames of landing `l` that meet `p` are retired: entries of this steward that are homed there become RETIRED and are queued, and so are
the replicas there; the stewards of the others are told, and moves to such a frame are abandoned and made again to another (R89, R93, R110,
R374). -/
def State.markRetired (s : State) (l : Nat) (p : Nat → Bool) : State :=
  let hit (e : MapEntry) : Bool := e.dev == s.dev && e.lnd == l && p e.frame && (e.pstate == 0 || e.pstate == 1)
  let keys := (s.scaler.pmap.filter fun x => match x.2 with | some e => hit e | none => false).map (·.1)
  let copies := s.scaler.pmap.flatMap fun x => match x.2 with
    | some e => (e.reps.filter fun t => t.1 == s.dev && t.2.1 == l && p t.2.2).map fun t => (x.1, e, t)
    | none => []
  let s := keys.foldl (fun s k => s.queueRetire (k / 2 ^ 40) (k % 2 ^ 40)) s
  let s := copies.foldl (fun s x => s.queueReplica (x.1 / 2 ^ 40) (x.1 % 2 ^ 40) x.2.1 x.2.2) s
  let recs := (s.landing l).frames.filterMap fun x => if p x.1 then x.2.map fun r => (x.1, r) else none
  let s := recs.foldl (fun s x =>
    match tblGet none x.2.handle s.scaler.objs with
    | some d => if d.steward = s.dev then s else s.tell d.steward (.retired x.2.handle x.2.plot l x.1)
    | none => s) s
  let ms := s.scaler.moves.filter fun m => m.req.dst.1 == s.dev && m.req.dst.2.1 == l && p m.req.dst.2.2 && m.phase != .flipped
  ms.foldl (fun s m =>
    let s := s.abandonMove m.req
    if m.req.steward = s.dev then s.requeueMove m.req else s.tell m.req.steward (.moveAgain m.req)) s

/-- A landing fails as a whole, for pseudo-channel `pc` or for its full retirement log; one that has failed loses a further
pseudo-channel (R376). -/
def State.failLanding (s : State) (l : Nat) (pc : Option Nat) : State :=
  let add (x : Landing) : Landing :=
    match pc with
    | some k => { x with failed := true, failedPcs := if x.failedPcs.contains k then x.failedPcs else x.failedPcs ++ [k] }
    | none => { x with failed := true }
  let was := (s.landing l).failed
  let s := s.modLanding l add
  if was then s
  else
    let s := (s.setBits (rLnd l 0x10) 8).seeClass 1
    let s := s.raise (srcLnd l) kError 0x0103 1 l
    s.markRetired l fun _ => true

/-- How many frames the retirement log of a landing holds (R375). -/
def retireLog : Nat := 1024

/-- A frame is retired (R374). When that fills the log, the landing retires itself (R375, R376). -/
def State.retireFrame (s : State) (l f : Nat) : State :=
  let x := s.landing l
  if x.isRetired f then s
  else
    let s := s.modLanding l fun x => { x with retired := x.retired ++ [f] }
    let s := s.modFlash fun y => { y with retired := y.retired ++ [(l, f)] }
    let s := ((s.errBump (rLnd l 0x28)).setBits (rLnd l 0x10) 4).seeClass 1
    let h := match tblGet none f x.frames with | some r => r.handle | none => 0
    let s := s.raise (srcLnd l) kPlacement 0x0102 1 (l * 2 ^ 36 + f * 2 ^ 21 + h * 2 ^ 40)
    let s := s.markRetired l (· == f)
    if retireLog ≤ x.retired.length + 1 then s.failLanding l none else s

/-! ## Scrub periods (R373, R374) -/

/-- Nanoseconds of the scrub period of a landing. -/
def State.scrubNs (s : State) (l : Nat) : Nat := s.regF (rLnd l 0x4) 7 0 * 3600000000000

/-- The number of the scrub period: periods of LND_SCRUB.HOURS follow each other from timebase 0 on (log entry 76, DEDUCED). -/
def State.scrubPeriod (s : State) (l : Nat) : Nat := s.timebase.toNat / s.scrubNs l

/-! ## Reads and writes (R371, R372) -/

/-- A corrected error of a granule. -/
def State.correctedError (s : State) (la : Nat) : State :=
  let l := laLanding la
  let f := laFrame la
  let s := { s with memUpset := tblSet 0 la 0 s.memUpset }
  let s := ((s.errBump (rLnd l 0x20)).setBits (rLnd l 0x10) 1).seeClass 0
  let s := if s.regBit (rLnd l 0x14) 0 then s.raise (srcLnd l) kError 0x0100 0 (64 * la) else s
  let k := s.scrubPeriod l
  let s := s.modLanding l fun x =>
    let old := if x.cePeriod = k then x.ce else []
    { x with cePeriod := k, ce := tblSet 0 f (tblGet 0 f old + 1) old }
  if s.regF (rLnd l 0x8) 7 0 ≤ tblGet 0 f (s.landing l).ce then s.retireFrame l f else s

/-- An uncorrectable error of a granule. -/
def State.uncorrectable (s : State) (la : Nat) : State :=
  let l := laLanding la
  let s := { s with memUpset := tblSet 0 la 0 s.memUpset, memPoison := tblSet false la true s.memPoison }
  let s := (s.setReg (rLnd l 0x18) (BitVec.ofNat 32 (laA la))).setReg (rLnd l 0x1C) (BitVec.ofNat 32 (laA la / 2 ^ 32))
  let s := ((s.errBump (rLnd l 0x24)).setBits (rLnd l 0x10) 2).seeClass 1
  let s := s.raise (srcLnd l) kError 0x0101 1 (64 * la)
  s.retireFrame l (laFrame la)

/-- An error beyond what the code is promised to detect, undetected: the granule reads as a free value. -/
def State.undetected (s : State) (la : Nat) : State :=
  let d := (List.range 8).foldl (fun n j => n + (Config.freeWord (s.free + j)).toNat * 2 ^ (64 * j)) 0
  { s.putGranule la (BitVec.ofNat 512 d) false with free := s.free + 8 }

/-- What a physical error of a granule does when the granule is read: one symbol in error is corrected, two are detected, and of more
it is open whether they are (R370, R371). A granule whose marker is set delivers poison and counts nothing. -/
def State.checkGranule (s : State) (la : Nat) : State :=
  if s.granulePoison la then s
  else match badSymbols (tblGet 0 la s.memUpset) with
    | 0 => s
    | 1 => s.correctedError la
    | 2 => s.uncorrectable la
    | _ =>
      let (v, s) := s.fresh
      if v.toNat % 2 = 0 then s.uncorrectable la else s.undetected la

/-- A granule lies in a pseudo-channel that has failed (R376). -/
def State.deadPc (s : State) (la : Nat) : Bool := (s.landing (laLanding la)).failedPcs.contains (pcOf (laA la))

/-- A granule leaves the add buffer of its landing: it is written back (R367, R379). -/
def State.addFlush (s : State) (la : Nat) : State :=
  let l := laLanding la
  if (s.landing l).adds.contains la then
    (s.modLanding l fun x => { x with adds := x.adds.filter (· != la) }).count (kLnd l 1) 1
  else s

/-- The add buffers of every landing are written back (R367). -/
def State.addFlushAll (s : State) : State := (s.landings.flatMap (·.adds)).foldl State.addFlush s

/-- A granule read: its data and poison. A failed pseudo-channel delivers poison (R376). -/
def State.readGranule (s : State) (la : Nat) : (BitVec 512 × Bool) × State :=
  let s := ((s.addFlush la).checkGranule la).count (kLnd (laLanding la) 0) 1
  ((s.granule la, s.granulePoison la || s.deadPc la), s)

/-- Bytes of a granule written: a poisoned write marks it, an unpoisoned write of the whole granule clears its marker, and an
unpoisoned write of part leaves the marker (R372). -/
def State.writeGranule (s : State) (la : Nat) (d : BitVec 512) (en : BitVec 64) (poison : Bool) : State :=
  let whole := en == BitVec.allOnes 64
  let s := s.addFlush la
  let s := if whole then s else s.checkGranule la
  let mark := poison || (!whole && s.granulePoison la)
  (s.putGranule la (mergeBytes (s.granule la) d en) mark).count (kLnd (laLanding la) 1) 1

/-! ## Near-memory adds (R367 to R369) -/

/-- One FP32 lane: the sum, whether a finite result overflowed, and whether the result is NaN. -/
def addF32 (x a : W32) : W32 × Bool × Bool :=
  let r := f32Add x a
  (r, (f32Val x).isFinite && (f32Val a).isFinite && !(f32Val r).isFinite && !f32IsNan r, f32IsNan r)

/-- An add of enabled lanes to a granule: the result with the lanes that overflowed and became NaN. -/
def addLanes (int : Bool) (old d : BitVec 512) (en : BitVec 64) : BitVec 512 × Nat × Nat :=
  let lane (v : BitVec 512) (i : Nat) : W32 := BitVec.ofNat 32 (v.toNat / 2 ^ (32 * i))
  let r := (List.range 16).map fun i =>
    if en.getLsbD (4 * i) then (if int then (lane old i + lane d i, false, false) else addF32 (lane old i) (lane d i))
    else (lane old i, false, false)
  (BitVec.ofNat 512 (pack 32 (r.map (·.1.toNat))), (r.filter (·.2.1)).length, (r.filter (·.2.2)).length)

/-- Granules of the add buffer. -/
def addDepth : Nat := 256

/-- A granule that an add has read stays in the add buffer, from which the oldest leaves when it is full. What the buffer will write
back stands in memory at once, which no request can tell apart (R367; log entry 30, DEDUCED). -/
def State.addKeep (s : State) (la : Nat) : State :=
  let l := laLanding la
  let s := s.modLanding l fun x => { x with adds := if x.adds.contains la then x.adds else x.adds ++ [la] }
  match (s.landing l).adds with
  | a :: _ => if addDepth < (s.landing l).adds.length then s.addFlush a else s
  | [] => s

/-- An add request applied (R367 to R369). One that carries poison marks its granule instead (log entry 30, DEDUCED). -/
def State.addGranule (s : State) (la : Nat) (int : Bool) (d : BitVec 512) (en : BitVec 64) (poison : Bool) : State :=
  let l := laLanding la
  let s := if (s.landing l).adds.contains la then s else ((s.touchPage la).checkGranule la).count (kLnd l 0) 1
  if s.granulePoison la || s.deadPc la then s.count (kLnd l 5) 1
  else if poison then (s.putGranule la (s.granule la) true).addKeep la
  else
    let (v, ovf, nan) := addLanes int (s.granule la) d en
    ((((s.putGranule la v false).addKeep la).count (kLnd l 2) 1).count (kLnd l 3) ovf).count (kLnd l 4) nan

/-! ## Frames (R63, R69) -/

def Landing.recAt (x : Landing) (f : Nat) : Option FrameRec := tblGet none f x.frames
def Landing.setRec (x : Landing) (f : Nat) (r : Option FrameRec) : Landing := { x with frames := tblSet none f r x.frames }

/-- A frame that may be given to a plot: of the objects' area, holding none, not retired, not awaiting its zero-fill, not
reserved for a move. -/
def Landing.frameFree (x : Landing) (f : Nat) : Bool :=
  decide (f < systemFrame) && (x.recAt f).isNone && !x.isRetired f && !x.zero.contains f && !x.reserved.contains f

/-- The lowest-numbered free frame. -/
def Landing.freeFrame (x : Landing) : Option Nat := lowest x.frameFree systemFrame 0

/-- How many frames are free. -/
def Landing.freeCount (x : Landing) : Nat := ((List.range systemFrame).filter x.frameFree).length

/-- Keeps a forwarding record, evicting the oldest of 4,096 (R69). -/
def Landing.addFwd (x : Landing) (r : FwdRec) : Landing :=
  let l := (x.fwd.filter fun y => !(y.handle == r.handle && y.plot == r.plot)) ++ [r]
  { x with fwd := if 4096 < l.length then l.drop 1 else l }

/-- A frame of a plot leaves use: it has no record any more (R52, R88). -/
def State.releaseFrame (s : State) (l f : Nat) : State := s.modLanding l fun x => (x.setRec f none).release f

/-- Every cell that is up has acknowledged the invalidate of a released frame (R88, R353). -/
def State.invalDone (s : State) (l f : Nat) : Bool :=
  match (s.landing l).inval.find? fun y => y.1 == f with
  | some y => (List.range 192).all fun c => y.2.contains c || !s.cellUp c
  | none => true

/-- Writes zero to every byte of a frame and clears its poison (R366). -/
def State.zeroFrame (s : State) (l f : Nat) : State :=
  let lo := l * 2 ^ 36 + f * 2 ^ 21
  let out (k n : Nat) : Bool := decide (k < lo / n) || decide (lo / n + 2 ^ 21 / n ≤ k)
  { s with mem := s.mem.filter fun x => out x.1 1, memPoison := s.memPoison.filter fun x => out x.1 64,
           memUpset := s.memUpset.filter fun x => out x.1 64,
           landings := modAt l (fun x => { x with adds := x.adds.filter fun a => out a 64 }) s.landings }

/-! ## Traffic (R81) -/

def bumpTraffic (op : ReqOp) (t : Traffic) : Traffic :=
  match op with
  | .store => { t with stores := t.stores + 1 }
  | .add => { t with adds := t.adds + 1 }
  | _ => { t with loads := t.loads + 1 }

def Traffic.total (t : Traffic) : Nat := t.loads + t.stores + t.adds

/-- A request of device `d` counted to its plot. -/
def countTraffic (h p d : Nat) (op : ReqOp) (l : List Traffic) : List Traffic :=
  let same (t : Traffic) : Bool := t.handle == h && t.plot == p && t.dev == d
  if l.any same then l.map fun t => if same t then bumpTraffic op t else t
  else l ++ [bumpTraffic op { handle := h, plot := p, dev := d, loads := 0, stores := 0, adds := 0 }]

/-! ## Requests -/

def State.req (s : State) (id : Nat) : Option Req := s.reqs.find? (·.id == id)
def State.modReq (s : State) (id : Nat) (f : Req → Req) : State :=
  { s with reqs := s.reqs.map fun r => if r.id = id then f r else r }
def State.dropReq (s : State) (id : Nat) : State := { s with reqs := s.reqs.filter (·.id != id) }

def Req.isWrite (r : Req) : Bool := r.op == .store || r.op == .add
/-- The line address that a request was translated to. -/
def Req.la (r : Req) : Nat := laOf r.lnd r.frame r.off

/-- The device that a request comes from. -/
def State.reqDev (s : State) (r : Req) : Nat := match r.who with | .dev d _ => d | _ => s.dev

/-- An answer to a request: a packet to the device that sent it, or the request's last stage. A remote requester learns of a
released frame by a REDIRECT without an entry, since no packet says BAD_HANDLE (log entry 22, DEDUCED). No one waits for the answer to
a write-back. The acknowledgement of a remote add leaves after the add buffer holds its granule no longer (R367). -/
def State.answer (s : State) (r : Req) (a : Answer) : State :=
  if r.wb then s.dropReq r.id
  else match r.who with
  | .dev d tag =>
    let s := s.dropReq r.id
    let s := if r.op = .add then s.addFlush r.la else s
    match a with
    | .data v p => s.send (s.packet d pkData tag (dataUnits v) p)
    | .ack => s.send (s.packet d pkAck tag [])
    | .redirect (some e) => s.send (s.packet d pkRedirect tag [entryBits e])
    | .redirect none => s.send (s.packet d pkRedirect tag [])
    | .homeLost => s.send (s.packet d pkHomeLost tag [])
    | .badHandle => s.send (s.packet d pkRedirect tag [])
    | .fenced => s.send (s.packet d pkFenced tag [])
  | _ => s.modReq r.id fun r => { r with stage := .answered a }

/-- A descriptor of the device's table (R56). -/
def State.desc (s : State) (h : Nat) : Option Desc := tblGet none h s.scaler.objs

/-- The move whose source, or whose target, is a frame of this device. -/
def State.moveFrom (s : State) (l f : Nat) : Option Move := s.scaler.moves.find? fun m => m.req.src == (s.dev, l, f)
def State.moveTo (s : State) (l f : Nat) : Option Move := s.scaler.moves.find? fun m => m.req.dst == (s.dev, l, f)

/-- A move copies no writes to its source: those it meets are marked by sub-blocks of 4 KiB (R84, step 1). -/
def State.markWritten (s : State) (l f off : Nat) : State :=
  s.modScaler fun z => { z with moves := z.moves.map fun m =>
    if m.req.src == (s.dev, l, f) && decide (m.req.cls < 4) && m.phase != .flipped && !m.written.contains (off / 4096) then
      { m with written := m.written ++ [off / 4096] } else m }

/-- A request applied at the frame that accepts it (R63, R323): the read, the store or the add, its statistics and its answer. -/
def State.apply (s : State) (r : Req) : State :=
  let s := (s.countBank r.la).modLanding r.lnd fun x => { x with served := x.served + 1 }
  let d := s.reqDev r
  let s := s.modScaler fun z => { z with traffic := countTraffic r.handle r.plot d r.op z.traffic }
  match r.op with
  | .store => (((s.touchPage r.la).writeGranule r.la r.data r.en r.poison).markWritten r.lnd r.frame r.off).answer r .ack
  | .add => ((s.addGranule r.la r.int r.data r.en r.poison).markWritten r.lnd r.frame r.off).answer r .ack
  | _ =>
    let ((v, p), s) := (s.touchPage r.la).readGranule r.la
    s.answer r (.data v p)

/-- Holds a request at its landing (R70, R85). -/
def State.hold (s : State) (r : Req) (st : Stage) : State :=
  (s.modReq r.id fun r => { r with stage := st }).count (kPlc 6) 1

/-- The entry of a plot that a landing's forwarding records hold (R69). -/
def Landing.forward (x : Landing) (h p : Nat) : Option MapEntry :=
  (x.fwd.find? fun y => y.handle == h && y.plot == p).map (·.entry)

/-- A request that no frame record of its landing accepts (R55, R69). -/
def State.refuse (s : State) (r : Req) : State :=
  match s.desc r.handle with
  | none => s.answer r .badHandle
  | some d =>
    if d.state = .freeing then s.answer r .badHandle else s.answer r (.redirect ((s.landing r.lnd).forward r.handle r.plot))

/-- The service of a request at its landing (R63, R69, R70, R85, R89): one of generation g + 1 that comes to the target of a move before
the flip is held. -/
def State.serve (s : State) (r : Req) : State :=
  match (s.landing r.lnd).recAt r.frame with
  | some f =>
    if f.handle = r.handle ∧ f.plot = r.plot ∧ f.gen = r.gen then
      match s.moveFrom r.lnd r.frame, s.moveTo r.lnd r.frame with
      | some m, _ => if m.phase = .window ∧ m.req.cls < 4 then s.hold r (.heldWindow r.lnd) else s.apply r
      | none, some m => if m.phase = .flipped ∧ r.isWrite then s.hold r (.heldWrite r.lnd) else s.apply r
      | none, none => s.apply r
    else s.answer r (.redirect ((s.landing r.lnd).forward r.handle r.plot))
  | none =>
    match s.moveTo r.lnd r.frame with
    | some m =>
      if m.req.handle = r.handle ∧ m.req.plot = r.plot ∧ r.gen = m.req.gen + 1 then
        s.hold r (if r.isWrite then .heldWrite r.lnd else .heldWindow r.lnd)
      else s.refuse r
    | none => s.refuse r

/-- How many requests a landing holds for moves (R87). -/
def State.heldAt (s : State) (l : Nat) : Nat :=
  (s.reqs.filter fun r => r.stage == .heldWindow l || r.stage == .heldWrite l).length

/-- A request may be taken ahead of an older one (R364): it goes to an open page, the older to another page of the same bank, and the
older has not waited 2,048 landing cycles. -/
def State.mayPass (s : State) (r q : Req) : Bool :=
  bankOf q.la == bankOf r.la && (dramOf q.la != dramOf r.la || pageOf q.la != pageOf r.la) && s.pageOpen r.la &&
  decide (s.timebase.toNat < q.born.toNat + 2048)

/-- A request at landing `l` may be served next (R364, R87): in order of arrival, but for the requests that it may pass, and while the
landing is not full of held requests. -/
def State.mayServe (s : State) (l : Nat) (r : Req) : Bool :=
  let older := (s.reqs.takeWhile fun q => q.id != r.id).filter fun q => q.stage == .landing l
  decide (s.heldAt l < 4096) && older.all (s.mayPass r)

/-- A request arrives at a landing of this device: it stands last in `reqs`, and the occupancy of its bank is recorded. -/
def State.arriveAt (s : State) (r : Req) : State :=
  let s : State := { s with reqs := (s.reqs.filter (·.id != r.id)) ++ [{ r with stage := .landing r.lnd, born := s.timebase }] }
  let occ := (s.reqs.filter fun q => q.stage == .landing r.lnd && bankOf q.la == bankOf r.la).length
  s.modLanding r.lnd fun x => { x with occMax := tblSet 0 (bankOf r.la) (Nat.max occ (tblGet 0 (bankOf r.la) x.occMax)) x.occMax }

end Sys2Proof.Machine
end

