-- ==== Sys2Proof/Machine/Space.lean ====
section
/-! DEFINITION. Machine/Space.lean: objects, object addresses and their translation (R56 to R68): descriptors, the placement
translation cache of a cell, and walks of the steward's map. -/

namespace Sys2Proof.Machine

/-! ## Descriptors and addresses (R56 to R60) -/

def plotBytes : Nat := 2097152
/-- Elements per plot. -/
def eppOf (d : Desc) : Nat := plotBytes / d.esize
/-- Plots of the object. -/
def plotsOf (d : Desc) : Nat := ceilDiv d.count (eppOf d)
def addrHandle (a : W64) : Nat := fld a 63 40
def addrIndex (a : W64) : Nat := fld a 39 0
def mkAddr (h i : Nat) : W64 := BitVec.ofNat 64 (h % 2 ^ 24 * 2 ^ 40 + i % 2 ^ 40)
/-- The vertex word that names no vertex (R50). -/
def noVertex : Nat := 0xFFFFFFFFFF
/-- The plot of an element and its byte offset there (R59). -/
def plotOf (d : Desc) (i : Nat) : Nat := i / eppOf d
def plotOff (d : Desc) (i : Nat) : Nat := i % eppOf d * d.esize
/-- The key of a plot in the Scaler's tables. -/
def plotKey (h p : Nat) : Nat := h * 2 ^ 40 + p

/-- The state in which an object serves translations (R54). -/
def Desc.serves (d : Desc) : Bool := d.state == .live || d.state == .sealed || d.state == .orphaned

/-- A descriptor that translation accepts: present and not CREATING or FREEING (R64). -/
def State.liveDesc (s : State) (h : Nat) : Option Desc := (s.desc h).filter fun d => d.state != .creating && d.state != .freeing

/-! ## The placement translation cache (R64) -/

/-- The set of the entry for a handle and a plot. -/
def ptcSet (h p : Nat) : Nat :=
  natBits p 9 0 ^^^ natBits p 19 10 ^^^ natBits p 29 20 ^^^ natBits p 39 30 ^^^ natBits h 9 0 ^^^ natBits h 19 10 ^^^ natBits h 23 20

def CellSt.ptcAt (x : CellSt) (set way : Nat) : Option PtcEntry := tblGet none (4 * set + way) x.ptc
def CellSt.ptcPut (x : CellSt) (set way : Nat) (e : Option PtcEntry) : CellSt :=
  { x with ptc := tblSet none (4 * set + way) e x.ptc }

/-- The way that holds a plot's entry. -/
def CellSt.ptcWay (x : CellSt) (h p : Nat) : Option Nat :=
  lowest (fun w => match x.ptcAt (ptcSet h p) w with
    | some e => e.handle == h && e.plot == p
    | none => false) 4 0

/-- The entry of a plot. -/
def CellSt.ptcFind (x : CellSt) (h p : Nat) : Option MapEntry :=
  (x.ptcWay h p).bind fun w => (x.ptcAt (ptcSet h p) w).map (·.entry)

/-- Marks a way used. When that would leave every way of the set used, the others are marked unused (not-recently-used
replacement; log entry 23, DEDUCED). -/
def CellSt.ptcTouch (x : CellSt) (set way : Nat) : CellSt :=
  let all := (List.range 4).all fun w => w == way || (match x.ptcAt set w with | some e => e.used | none => false)
  (List.range 4).foldl (fun x w =>
    match x.ptcAt set w with
    | some e => x.ptcPut set w (some { e with used := w == way || (e.used && !all) })
    | none => x) x

/-- Installs an entry, in the way that holds the plot, the lowest free way, or the lowest way not recently used. -/
def CellSt.ptcInstall (x : CellSt) (e : PtcEntry) : CellSt :=
  let set := ptcSet e.handle e.plot
  let free := lowest (fun w => (x.ptcAt set w).isNone) 4 0
  let old := lowest (fun w => match x.ptcAt set w with | some e => !e.used | none => true) 4 0
  let way := ((x.ptcWay e.handle e.plot).or (free.or old)).getD 0
  (x.ptcPut set way (some e)).ptcTouch set way

/-- The replica that a cell has chosen for a plot. -/
def CellSt.ptcPick (x : CellSt) (h p : Nat) : Option (Nat × Nat × Nat) :=
  (x.ptcWay h p).bind fun w => (x.ptcAt (ptcSet h p) w).bind (·.pick)

/-- Invalidates the entry of a plot. -/
def CellSt.ptcDrop (x : CellSt) (h p : Nat) : CellSt :=
  match x.ptcWay h p with
  | some w => x.ptcPut (ptcSet h p) w none
  | none => x

/-- Invalidates every entry of a handle (R55, R90). -/
def CellSt.ptcSweep (x : CellSt) (h : Nat) : CellSt :=
  { x with ptc := x.ptc.filter fun e => match e.2 with | some y => y.handle != h | none => false }

/-- Every translation entry and forwarding record of a handle leaves this device (R55, R90). -/
def State.sweepHandle (s : State) (h : Nat) : State :=
  { s with cells := s.cells.map fun x => x.ptcSweep h,
           landings := s.landings.map fun x => { x with fwd := x.fwd.filter (·.handle != h) } }

/-! ## Walks (R64, R65) -/

/-- The entry of the map that this device stewards. -/
def State.mapEntry (s : State) (h p : Nat) : Option MapEntry := tblGet none (plotKey h p) s.scaler.pmap

/-- The index of a plot's replica record: the one it has, or the lowest free one (R62). -/
def ScalerSt.repIndex (z : ScalerSt) (key : Nat) : Nat :=
  match z.repTab.find? fun x => x.2 == key + 1 with
  | some x => x.1
  | none => (lowest (fun i => tblGet 0 i z.repTab == 0) (z.repTab.length + 1) 0).getD 0

/-- Writes an entry of the map, with NREP and REPIDX as its replica record stands (R62). -/
def State.setMap (s : State) (h p : Nat) (e : Option MapEntry) : State :=
  s.modScaler fun z =>
    let key := plotKey h p
    let i := z.repIndex key
    match e with
    | some m =>
      if m.reps = [] then
        { z with pmap := tblSet none key (some { m with nrep := 0, repIdx := 0 }) z.pmap, repTab := z.repTab.filter fun x => x.2 != key + 1 }
      else
        { z with pmap := tblSet none key (some { m with nrep := m.reps.length, repIdx := i }) z.pmap, repTab := tblSet 0 i (key + 1) z.repTab }
    | none => { z with pmap := tblSet none key none z.pmap, repTab := z.repTab.filter fun x => x.2 != key + 1 }

/-- A TAG of a request or walk of a unit (the cell's number, or 0xFF): the lowest slot number from `lo` that no request or walk
of the unit in flight uses (R391). -/
def State.freeTag (s : State) (unit lo : Nat) : W32 :=
  let used (t : W32) : Bool := s.reqs.any (fun r => r.tag == t && r.stage == .remote) || s.walks.any (·.tag == t)
  let tag (k : Nat) : W32 := BitVec.ofNat 32 (unit + 256 * k)
  tag ((lowest (fun k => !used (tag k)) 2048 lo).getD lo)

/-- A device that this device can send a request to: not LOST, with a routing entry that has a path (R398, R406). -/
def State.reachable (s : State) (d : Nat) : Bool := s.fab.member d != 2 && fld (s.fab.route d) 23 20 != 0

/-- A request not sent because its device's routing entry has no path (R398). -/
def State.noRoute (s : State) (d : Nat) : State :=
  if s.fab.member d != 2 && fld (s.fab.route d) 23 20 == 0 then
    (s.count (kFab 3) 1).fabEvent (srcLink 0) 6
  else s

/-- Starts the walk of a plot for a cell (192 for the lookout), at most one at a time for a plot. A walk whose steward is not
reachable stands with no packet sent, and ends HOME-LOST. A walk that a REDIRECT or the loss of a home brings about (R71, R74) counts a
miss with the walk, as any other (log entry 23, DEDUCED). -/
def State.startWalk (s : State) (c : Nat) (d : Desc) (p : Nat) : State :=
  if s.walks.any fun w => w.cell == c && w.handle == d.handle && w.plot == p then s
  else
    let unit := if c = 192 then 0xFF else c
    let tag := s.freeTag unit 2048
    let s : State := { s with walks := s.walks ++ [{ cell := c, handle := d.handle, plot := p, tag := tag }] }
    let s := if c < 192 then (s.countC c (cPtc 1) 1).countC c (cPtc 2) 1 else s
    if d.steward = s.dev then s
    else if d.state ≠ .orphaned ∧ s.reachable d.steward then
      s.send (s.packet d.steward pkWalk tag [unitOf [(0, 3, d.handle), (3, 5, p)]])
    else s.noRoute d.steward

/-! ## Targets (R64, R73) -/

/-- The replica on this device of a plot homed elsewhere: by the replica record where this device holds it, else by its own frame
records, since the record of a replica does not travel with an entry (log entry 21, DESIGN CHOICE). -/
def State.replicaHere (s : State) (h p : Nat) (e : MapEntry) : Option (Nat × Nat × Nat) :=
  if e.nrep = 0 ∨ e.dev = s.dev then none
  else (e.reps.find? fun t => t.1 == s.dev).or
    (s.landings.zipIdx.findSome? fun x => x.1.frames.findSome? fun f => match f.2 with
      | some r => if r.handle = h ∧ r.plot = p ∧ r.gen = e.gen then some (s.dev, x.2, f.1) else none
      | none => none)

/-- An entry installed in a cell's cache, with the descriptor's fields and the replica chosen (R64). -/
def State.ptcInstall (s : State) (c h p : Nat) (e : MapEntry) : State :=
  match s.desc h with
  | none => s
  | some d => s.modCell c fun x => x.ptcInstall
      { handle := h, plot := p, entry := e, epp := eppOf d, esizeM1 := d.esize - 1, count := d.count, typ := d.typ,
        pick := s.replicaHere h p e, used := false }

/-- Where a request goes: a load to the replica chosen, everything else to the home. -/
def targetOf (e : MapEntry) (pick : Option (Nat × Nat × Nat)) (load : Bool) : Nat × Nat × Nat :=
  match (if load then pick else none) with
  | some t => t
  | none => (e.dev, e.lnd, e.frame)

/-- A request to this target completes HOME-LOST at issue: PSTATE LOST, or a target device that is LOST or has no path (R73, R398). -/
def State.targetLost (s : State) (e : MapEntry) (dev : Nat) : Bool :=
  e.pstate == 3 || (dev != s.dev && !s.reachable dev)

/-- The outcome of looking up a plot for a cell. -/
inductive Look where
  | entry (e : MapEntry)
  | walking
  deriving DecidableEq, Repr

/-- A cell looks up a plot: a hit, or a walk started or joined (R64, R65). -/
def State.lookup (s : State) (c : Nat) (d : Desc) (p : Nat) : Look × State :=
  let x := s.cell c
  match x.ptcWay d.handle p with
  | some w =>
    match x.ptcAt (ptcSet d.handle p) w with
    | some e => (.entry e.entry, (s.setCell c (x.ptcTouch (ptcSet d.handle p) w)).countC c (cPtc 0) 1)
    | none => (.walking, s)
  | none => (.walking, s.startWalk c d p)

/-- The entry that a local steward's map gives a walk: none where the plot is beyond the map. -/
def State.localWalk (s : State) (h p : Nat) : Option MapEntry := s.mapEntry h p

end Sys2Proof.Machine
end

