-- ==== Sys2Proof/Machine/Cache.lean ====
section
/-! DEFINITION. Machine/Cache.lean: the cell cache (R343 to R358): lines, replacement, fills, stores, errors, and the lines that
a range-maintenance operation covers. -/

namespace Sys2Proof.Machine

/-! ## Requests of a cell and its sort window (R144) -/

def Req.ofCell (r : Req) (c : Nat) : Bool := r.who == .cell c

/-- Puts a request at the end of `reqs`, in place of the one of its number. -/
def State.putReq (s : State) (r : Req) : State := { s with reqs := s.reqs.filter (·.id != r.id) ++ [r] }

/-- A new request number. -/
def State.newId (s : State) : Nat × State := (s.nextReq, { s with nextReq := s.nextReq + 1 })

def windowSize : Nat := 256

/-- Requests of a cell in a stage. -/
def State.atStage (s : State) (c : Nat) (st : Stage) : Nat := (s.reqs.filter fun r => r.ofCell c && r.stage == st).length

/-- A new request may be made: the window has room for it besides those on their way into it. -/
def State.windowRoom (s : State) (c : Nat) : Bool :=
  decide (s.atStage c .window + s.atStage c .walking + s.atStage c .queued < windowSize)

/-- A translated request enters the window, or waits until there is room. -/
def State.enterWindow (s : State) (c : Nat) (r : Req) : State :=
  let room := decide (s.atStage c .window < windowSize) && s.atStage c .queued == 0
  s.putReq { r with stage := if room then .window else .queued, born := s.timebase }

/-- Requests that waited for room enter the window, oldest first. -/
def State.letIn (s : State) (c : Nat) : State :=
  (s.reqs.filter fun r => r.ofCell c && r.stage == .queued).foldl (fun s r =>
    if (s.atStage c .window) < windowSize then s.modReq r.id fun r => { r with stage := .window, born := s.timebase } else s) s

/-- A write has not reached its landing yet, or waits there. -/
def Req.unapplied (r : Req) : Bool :=
  match r.stage with
  | .answered .ack => false | .answered .homeLost => false | .answered .badHandle => false | _ => true

/-- A write enters the window; loads of its granule that are still under way install nothing afterwards (R146). -/
def State.enterWrite (s : State) (c : Nat) (r : Req) : State :=
  let s : State := { s with reqs := s.reqs.map fun q =>
    if (q.who == Who.cell c) && !q.isWrite && q.dev == r.dev && q.la == r.la && q.noFill == 0 then { q with noFill := 2 } else q }
  s.enterWindow c r

/-! ## Lines and replacement (R344, R347) -/

/-- The set of a line address. -/
def ccSet (la : Nat) : Nat := natBits la 10 0 ^^^ natBits la 21 11 ^^^ natBits la 32 22 ^^^ natBits la 33 33

def CacheSt.at (x : CacheSt) (set way : Nat) : Option Line := tblGet none (16 * set + way) x.lines
def CacheSt.put (x : CacheSt) (set way : Nat) (l : Option Line) : CacheSt :=
  { x with lines := tblSet none (16 * set + way) l x.lines }

/-- The way that holds a line. -/
def CacheSt.way (x : CacheSt) (la : Nat) : Option Nat :=
  lowest (fun w => match x.at (ccSet la) w with | some l => l.la == la && decide (l.upset < 4) | none => false) 16 0

def CacheSt.find (x : CacheSt) (la : Nat) : Option Line := (x.way la).bind (x.at (ccSet la))

/-- The tree of a set with its nodes on the path to a way pointing away from it: node i has children 2i + 1 (lower ways) and
2i + 2; a set bit points to the higher ways (log entry 24, DEDUCED). -/
def plruTouchGo : Nat → Nat → Nat → Nat → BitVec 15 → BitVec 15
  | 0, _, _, _, t => t
  | n + 1, node, half, way, t =>
    let up := decide (half ≤ way)
    let t := if up then t &&& ~~~(BitVec.ofNat 15 (2 ^ node)) else t ||| BitVec.ofNat 15 (2 ^ node)
    plruTouchGo n (2 * node + (if up then 2 else 1)) (half / 2) (if up then way - half else way) t

def plruTouch (way : Nat) (t : BitVec 15) : BitVec 15 := plruTouchGo 4 0 8 way t

/-- The way that the tree points to, with locked ways excluded: at a node one of whose subtrees holds only locked ways, the
walk takes the other. -/
def plruPick (locked : Nat → Bool) : Nat → Nat → Nat → Nat → BitVec 15 → Nat
  | 0, _, _, lo, _ => lo
  | n + 1, node, half, lo, t =>
    let allL (a : Nat) : Bool := (List.range half).all fun i => locked (a + i)
    let up := if allL lo then true else if allL (lo + half) then false else t.getLsbD node
    plruPick locked n (2 * node + (if up then 2 else 1)) (half / 2) (if up then lo + half else lo) t

def CacheSt.touch (x : CacheSt) (set way : Nat) : CacheSt :=
  { x with plru := tblSet 0 set (plruTouch way (tblGet 0 set x.plru)) x.plru }

/-- The victim of a set (R347). A dirty line whose tag has failed waits for the restart of the cell (R356). -/
def CacheSt.victim (x : CacheSt) (set : Nat) : Nat :=
  match lowest (fun w => (x.at set w).isNone) 16 0 with
  | some w => w
  | none => plruPick (fun w => match x.at set w with | some l => l.lock || l.upset == 4 | none => false) 4 0 8 0 (tblGet 0 set x.plru)

def CacheSt.locked (x : CacheSt) (set : Nat) : Nat :=
  ((List.range 16).filter fun w => match x.at set w with | some l => l.lock | none => false).length

/-- Every valid line. -/
def CacheSt.all (x : CacheSt) : List Line := x.lines.filterMap (·.2)

def State.modCc (s : State) (c : Nat) (f : CacheSt → CacheSt) : State := s.modCell c fun x => { x with cc := f x.cc }
def State.cc (s : State) (c : Nat) : CacheSt := (s.cell c).cc

/-- Changes the line of an address where it stands. -/
def CacheSt.modLine (x : CacheSt) (la : Nat) (f : Line → Option Line) : CacheSt :=
  match x.way la with
  | some w => match x.at (ccSet la) w with
    | some l => x.put (ccSet la) w (f l)
    | none => x
  | none => x

/-- A dirty line goes to its landing with its poison, as a store of the cell (R347, R355): the request follows the earlier writes of the
cell to the granule. A frame that holds no plot any more takes nothing. -/
def State.writeBack (s : State) (c : Nat) (l : Line) : State :=
  match (s.landing (laLanding l.la)).recAt (laFrame l.la) with
  | none => s
  | some f =>
    let before := (s.reqs.filter fun q => q.ofCell c && q.isWrite && q.dev == s.dev && q.la == l.la && q.unapplied).map (·.id)
    let (id, s) := s.newId
    s.enterWrite c
      { id := id, who := .cell c, op := .store, handle := f.handle, plot := f.plot, off := laOff l.la, gen := f.gen, dev := s.dev,
        lnd := laLanding l.la, frame := laFrame l.la, data := l.data, en := BitVec.allOnes 64, int := false, poison := l.poison,
        cache := false, addr := 0, prog := 0, owner := 2 ^ 64, redirects := 0, keys := before, rem := false, born := 0, tag := 0,
        noFill := 0, slot := true, wb := true, stage := .window }

/-- A line written to its landing at once, where the cell or the Scaler does not go on before it has been: at a restart, a lower rung
or the opening of a move window (log entry 25, DESIGN CHOICE). Earlier writes of the cell to the granule that are still under way
change no byte of it afterwards. -/
def State.writeNow (s : State) (c : Nat) (l : Line) : State :=
  match (s.landing (laLanding l.la)).recAt (laFrame l.la) with
  | none => s
  | some _ =>
    let s : State := { s with reqs := s.reqs.map fun q =>
      if (q.ofCell c) && q.isWrite && q.dev == s.dev && q.la == l.la then { q with en := 0 } else q }
    ((s.touchBank l.la).writeGranule l.la l.data (BitVec.allOnes 64) l.poison).markWritten (laLanding l.la) (laFrame l.la) (laOff l.la)

/-- The write-backs of a cell under way to lines for which `p` holds. -/
def State.backsOut (s : State) (c : Nat) (p : Nat → Bool) : List Req := s.reqs.filter fun r => r.wb && r.ofCell c && p r.la

/-- Those write-backs are carried out at once. -/
def State.backsNow (s : State) (c : Nat) (p : Nat → Bool) : State :=
  (s.backsOut c p).foldl (fun s r =>
    (s.dropReq r.id).writeNow c { la := r.la, dirty := true, lock := false, poison := r.poison, data := r.data, upset := 0 }) s

/-! ## Errors (R355, R356) -/

/-- Meets a parity error in the tag of a way: a clean line is invalidated; a dirty one is cell-fatal: it is reported, and CELL_RESTART
follows. -/
def State.checkTag (s : State) (c set way : Nat) : State :=
  match (s.cc c).at set way with
  | none => s
  | some l =>
    if l.upset ≠ 3 then s
    else if l.dirty then
      (((s.modCc c fun x => x.put set way (some { l with upset := 4 })).errBump (rCell c 0x224)).seeClass 2).raise (srcCell c) kError
        0x0113 2 (64 * l.la)
    else ((s.modCc c fun x => x.put set way none).errBump (rCell c 0x224)).seeClass 0

/-- The tags of a set are read. -/
def State.checkSet (s : State) (c set : Nat) : State := (List.range 16).foldl (fun s w => s.checkTag c set w) s

/-- Reads a line: the tags of its set, then its data, of whose error 1 is one bit and 2 two bits of a word. -/
def State.checkLine (s : State) (c la : Nat) : State :=
  let s := s.checkSet c (ccSet la)
  match (s.cc c).find la with
  | none => s
  | some l =>
    match l.upset with
    | 1 => ((s.modCc c fun x => x.modLine la fun l => some { l with upset := 0 }).errBump (rCell c 0x21C)).seeClass 0
    | 2 =>
      if l.dirty then
        (((s.modCc c fun x => x.modLine la fun l => some { l with upset := 0, poison := true }).errBump (rCell c 0x220)).seeClass
          1).raise (srcCell c) kError 0x0111 1 (64 * la)
      else ((s.modCc c fun x => x.modLine la fun _ => none).errBump (rCell c 0x220)).seeClass 0
    | _ => s

/-- The victim of a set makes room: a dirty one is read and written back (R347, R355). -/
def State.evict (s : State) (c set way : Nat) : State :=
  match (s.cc c).at set way with
  | none => s
  | some v =>
    if v.dirty then
      let s := s.checkLine c v.la
      match (s.cc c).find v.la with
      | some v => (s.writeBack c v).countC c (cCc 2) 1
      | none => s
    else s

/-- Installs a line in the victim way of its set. -/
def State.install (s : State) (c : Nat) (l : Line) : State :=
  let set := ccSet l.la
  let s := s.checkSet c set
  let w := (s.cc c).victim set
  (s.evict c set w).modCc c fun x => (x.put set w (some l)).touch set w

/-! ## Range maintenance: which lines (R350, R351) -/

/-- A line of this device holds a byte of elements `i0` to `i0 + n − 1` of an object: its frame holds one of the object's
plots, whose elements in the granule meet the range. -/
def State.lineInRange (s : State) (h i0 n la : Nat) : Bool :=
  match (s.landing (laLanding la)).recAt (laFrame la), s.desc h with
  | some r, some d =>
    let lo := r.plot * eppOf d + laOff la / d.esize
    let hi := r.plot * eppOf d + Nat.min (eppOf d - 1) ((laOff la + 63) / d.esize)
    r.handle == h && decide (laOff la < eppOf d * d.esize) && decide (lo < i0 + n) && decide (i0 ≤ hi)
  | _, _ => false

/-- The software operation in progress in a cell acts on a line. -/
def State.maintHas (s : State) (c la : Nat) : Bool :=
  let m := (s.cc c).maint
  m.busy && (m.all || s.lineInRange (addrHandle m.addr) (addrIndex m.addr) m.count la)

/-- An invalidating operation, of software or of the Scaler, is running over a line (R353). -/
def State.invalidating (s : State) (c la : Nat) : Bool :=
  ((s.cc c).maint.begun && ((s.cc c).maint.op == 1 || (s.cc c).maint.op == 2) && s.maintHas c la) ||
  (s.cell c).scInv.any fun f => f.1 == laLanding la && f.2.1 == laFrame la

/-- A frame whose lines the cells of this device hold clean: from the opening of its move window until its invalidate is
acknowledged (R84, step 2). -/
def State.heldClean (s : State) (la : Nat) : Bool :=
  s.scaler.moves.any fun m =>
    m.req.src == (s.dev, laLanding la, laFrame la) && (m.phase == .window || m.phase == .flipped) && decide (m.req.cls < 4)

/-! ## Loads, fills and stores (R142, R143, R345, R346) -/

/-- Looks a granule up: a hit gives its data and poison and marks its way most recent. -/
def State.ccLookup (s : State) (c la : Nat) : Option (BitVec 512 × Bool) × State :=
  let s := s.checkLine c la
  match (s.cc c).way la with
  | some w =>
    match (s.cc c).at (ccSet la) w with
    | some l => (some (l.data, l.poison), s.modCc c fun x => x.touch (ccSet la) w)
    | none => (none, s)
  | none => (none, s)

/-- A fill returns: installed when its request is marked for it and nothing forbids (R345, R353). -/
def State.fill (s : State) (c la : Nat) (d : BitVec 512) (poison wanted : Bool) (noFill : Nat) : State :=
  if !wanted then s
  else if s.invalidating c la || noFill == 1 then s.countC c (cCc 1) 1
  else if noFill == 2 || ((s.cc c).way la).isSome then s
  else (s.install c { la := la, dirty := false, lock := false, poison := poison, data := d, upset := 0 }).countC c (cCc 0) 1

/-- A store that goes to the landing takes the cell's own copy with it: the copy is invalidated, its bytes merged into the
store when it is dirty (R143, R346). The answer is the write as it leaves: data, enables, poison. -/
def State.takeCopy (s : State) (c la : Nat) (d : BitVec 512) (en : BitVec 64) (poison : Bool) :
    (BitVec 512 × BitVec 64 × Bool) × State :=
  let s := s.checkLine c la
  match (s.cc c).find la with
  | none => ((d, en, poison), s)
  | some l =>
    let s := s.modCc c fun x => x.modLine la fun _ => none
    if l.dirty then
      ((mergeBytes l.data d en, BitVec.allOnes 64, poison || (l.poison && en != BitVec.allOnes 64)), s)
    else ((d, en, poison), s)

/-- An add sends the cell's own dirty copy to the landing before it, and invalidates it (R143, R346). -/
def State.dropCopy (s : State) (c la : Nat) : State :=
  let s := s.checkLine c la
  match (s.cc c).find la with
  | none => s
  | some l => (if l.dirty then s.writeBack c l else s).modCc c fun x => x.modLine la fun _ => none

/-- A store with CACHE set that the cache takes: a hit, or a miss that writes all 64 bytes (R346). None when it must go to the
landing. -/
def State.ccStore (s : State) (c la : Nat) (d : BitVec 512) (en : BitVec 64) (poison : Bool) : Option State :=
  let s := s.checkLine c la
  if s.invalidating c la || s.heldClean la then none
  else
    match (s.cc c).way la with
    | some w =>
      some (s.modCc c fun x => (x.modLine la fun l =>
        some { l with dirty := true, data := mergeBytes l.data d en,
                      poison := poison || (l.poison && en != BitVec.allOnes 64) }).touch (ccSet la) w)
    | none =>
      if en == BitVec.allOnes 64 then
        some (s.install c { la := la, dirty := true, lock := false, poison := poison, data := d, upset := 0 })
      else none

/-! ## Operations on many lines -/

/-- The sets of the lines for which `p` holds are probed. -/
def State.probe (s : State) (c : Nat) (p : Nat → Bool) : State :=
  (((s.cc c).all.filter fun l => p l.la).map fun l => ccSet l.la).eraseDups.foldl (fun s k => s.checkSet c k) s

/-- The dirty lines for which `p` holds, once their sets have been probed. -/
def State.dirtyLines (s : State) (c : Nat) (p : Nat → Bool) : List Line :=
  (s.cc c).all.filter fun l => l.dirty && l.upset != 4 && p l.la

/-- Every dirty line for which `p` holds is sent out by `f` and kept clean. -/
def State.cleanBy (s : State) (c : Nat) (p : Nat → Bool) (f : State → Line → State) : State :=
  let s := s.probe c p
  (s.dirtyLines c p).foldl (fun s l =>
    let s := s.checkLine c l.la
    match (s.cc c).find l.la with
    | some l => (f s l).modCc c fun x => x.modLine l.la fun l => some { l with dirty := false }
    | none => s) s

/-- Every dirty line for which `p` holds is written back and kept clean; the answer counts them. -/
def State.cleanLines (s : State) (c : Nat) (p : Nat → Bool) : Nat × State :=
  (((s.probe c p).dirtyLines c p).length, s.cleanBy c p fun s l => s.writeBack c l)

/-- The same, with nothing left under way (R84, step 2). -/
def State.cleanNow (s : State) (c : Nat) (p : Nat → Bool) : State := (s.backsNow c p).cleanBy c p fun s l => s.writeNow c l

/-- Every line for which `p` holds is invalidated and unlocked. -/
def State.dropLines (s : State) (c : Nat) (p : Nat → Bool) : State :=
  (s.probe c p).modCc c fun x =>
    { x with lines := x.lines.filter fun e => match e.2 with | some l => !p l.la || l.upset == 4 | none => false }

/-- Every line goes; those still dirty are lost and counted. -/
def State.emptyCache (s : State) (c : Nat) : State :=
  let lost := ((s.cc c).all.filter (·.dirty)).length
  (s.modCc c fun x => { x with lines := [] }).countC c (cCc 3) lost

/-- The cache as a restart leaves it: dirty lines whose tag passes parity and whose data is correctable are written back, the others
lost and counted, and every line is invalidated (R357). -/
def State.flushCache (s : State) (c : Nat) : State :=
  let s := s.backsNow c fun _ => true
  let bad := (s.cc c).all.filter fun l => l.upset == 3
  let s := bad.foldl (fun s _ => s.errBump (rCell c 0x224)) s
  let s := ((s.cc c).all.filter fun l => l.dirty && decide (l.upset < 2)).foldl (fun s l =>
    let s := if l.upset = 1 then (s.errBump (rCell c 0x21C)).seeClass 0 else s
    (s.writeNow c l).modCc c fun x => x.modLine l.la fun l => some { l with dirty := false }) s
  s.emptyCache c

/-- The cache is written back and turned off (R464). -/
def State.turnOffCache (s : State) (c : Nat) : State := (s.cleanNow c fun _ => true).emptyCache c

/-- The lines of a frame. -/
def inFrame (l f la : Nat) : Bool := laLanding la == l && laFrame la == f

end Sys2Proof.Machine
end

