-- ==== Sys2Proof/Machine/Operands.lean ====
section
/-! DEFINITION. Machine/Operands.lean: the operand fields of a Retil word (R269 to R295) and the decode checks of R271. A word
is read in place: each meaning takes its fields from the word it is given. -/

namespace Sys2Proof.Machine

/-! ## Class and opcode (R269, R270) -/

def wCls (w : W64) : Nat := fld w 63 60
def wOp (w : W64) : Nat := fld w 59 54

/-- The units that decode words (R270). -/
inductive Unit' where
  | core | access | execute
  deriving DecidableEq, Repr

/-- The class is executed by the unit. -/
def Unit'.takes (u : Unit') (c : Nat) : Bool :=
  match u with
  | .core => c == 1 || c == 2
  | .access => c == 3
  | .execute => c == 4 || c == 5 || c == 6 || c == 7

/-! ## S and Y fields (R276, R280) -/

def wRd (w : W64) : Nat := fld w 53 49
def wRa (w : W64) : Nat := fld w 48 44
def wRb (w : W64) : Nat := fld w 43 39
def wSz (w : W64) : Nat := 2 ^ fld w 38 37
/-- IMM sign-extended to 64 bits. -/
def wImm (w : W64) : W64 := (w.truncate 32).signExtend 64
def wImm32 (w : W64) : W32 := w.truncate 32
def wScope (w : W64) : Nat := fld w 33 32
def wKind (w : W64) : Bool := w.getLsbD 34
def wWaitAll (w : W64) : Bool := w.getLsbD 32
def wWaitClr (w : W64) : Bool := w.getLsbD 33
def wChan (w : W64) : Nat := fld w 38 32

/-! ## A fields (R288, R289) -/

def wCh (w : W64) : Nat := fld w 53 51
def wD1 (w : W64) : Nat := 32 * fld w 50 36
def wD2 (w : W64) : Nat := 32 * fld w 35 21
def wAa (w : W64) : Nat := fld w 20 17
def wAb (w : W64) : Nat := fld w 16 13
def wNr (w : W64) : Nat := fld w 12 10
def wIchS (w : W64) : Nat := fld w 9 7
def wIchE (w : W64) : Option Nat := if fld w 6 3 = 0xF then none else some (fld w 6 3)
def wEdgeMode (w : W64) : Bool := w.getLsbD 2
def wForm (w : W64) : Nat := fld w 1 0
def wAddInt (w : W64) : Bool := w.getLsbD 0
def wReg (w : W64) : Nat := fld w 53 50
def wNReg (w : W64) : Nat := fld w 52 50
def wNj (w : W64) : Nat := fld w 18 16
def wSc (w : W64) : Nat := fld w 15 0
def wLen (w : W64) : Nat := fld w 7 0

/-! ## M fields (R290, R291) -/

def wQ (w : W64) : Nat := fld w 53 52
def wT (w : W64) : Nat := fld w 51 51
def wFmt (w : W64) : Nat := fld w 50 47
def wR0 (w : W64) : Nat := fld w 46 40
def wM (w : W64) : Nat := fld w 39 33 + 1
def wMd (w : W64) : Nat := fld w 32 31
def wPe (w : W64) : Bool := w.getLsbD 30
def wPl (w : W64) : Bool := w.getLsbD 29
def wPb (w : W64) : Nat := fld w 28 24
def wP1 (w : W64) : Nat := fld w 23 20
def wP2 (w : W64) : Nat := fld w 19 16
def wP3 (w : W64) : Nat := fld w 15 12
def wBank (w : W64) : Nat := fld w 11 11
def wX10 (w : W64) : Bool := w.getLsbD 10
def wFf (w : W64) : Nat := fld w 11 10
def wRed (w : W64) : Nat := fld w 9 8
def wRw (w : W64) : Nat := fld w 7 0

/-! ## V, C and X fields (R292 to R295) -/

/-- A source operand (R226). -/
inductive Src where
  | tile (vt : Nat)
  | acc (t s0 : Nat)
  | row (vt r : Nat)
  | col (vt c : Nat)
  | scalar (vt : Nat)
  deriving DecidableEq, Repr

/-- A source field of 11 bits; none when its form or a bit of it is reserved (R292). -/
def srcOf (v : Nat) : Option Src :=
  match v / 256 with
  | 0 => if natBits v 7 3 = 0 then some (.tile (v % 8)) else none
  | 1 => if natBits v 7 5 = 0 then some (.acc (natBits v 4 4) (v % 16)) else none
  | 2 => some (.row (natBits v 7 5) (v % 32))
  | 3 => some (.col (natBits v 7 5) (v % 32))
  | 4 => if natBits v 7 3 = 0 then some (.scalar (v % 8)) else none
  | _ => none

def wVd (w : W64) : Nat := fld w 53 51
def wSaRaw (w : W64) : Nat := fld w 50 40
def wSbRaw (w : W64) : Nat := fld w 39 29
def wScRaw (w : W64) : Nat := fld w 28 18
def wSa (w : W64) : Src := (srcOf (wSaRaw w)).getD (.tile 0)
def wSb (w : W64) : Src := (srcOf (wSbRaw w)).getD (.tile 0)
def wScs (w : W64) : Src := (srcOf (wScRaw w)).getD (.tile 0)
def wCnt (w : W64) : Nat := fld w 17 6
def wVlsel (w : W64) : Bool := w.getLsbD 5
def wMsk (w : W64) : Nat := fld w 4 2
def wZ (w : W64) : Bool := w.getLsbD 1
def wSfmt (w : W64) : Nat := fld w 28 25
def wDfmt (w : W64) : Nat := fld w 24 21
def wRoww (w : W64) : Nat := 32 * 2 ^ fld w 20 18
def wPort (w : W64) : Nat := fld w 32 29
def wKj (w : W64) : Nat := fld w 53 51

/-! ## Ports (R274) -/

def isSrcPort (p : Nat) : Bool := decide (p ≤ 7) || decide (12 ≤ p)
def isDstPort (p : Nat) : Bool := decide (8 ≤ p)
/-- An optional port that is not in use must be 0. -/
def optPort (used : Bool) (ok : Nat → Bool) (p : Nat) : Bool := if used then ok p else p == 0

/-! ## Reserved bits and values (step 3 of R271) -/

/-- Bits `[hi : lo]` as a mask. -/
def bitMask (hi lo : Nat) : Nat := (2 ^ (hi + 1 - lo) - 1) * 2 ^ lo

/-- The operand bits that an opcode of a class uses; none when the opcode table does not assign it (R277, R280, R289, R291,
R293, R294, R295). -/
def usedBits (cls op : Nat) : Option Nat :=
  let rd := bitMask 53 49
  let ra := bitMask 48 44
  let rb := bitMask 43 39
  let sz := bitMask 38 37
  let imm := bitMask 31 0
  let ch := bitMask 53 51
  let d1 := bitMask 50 36
  let d2 := bitMask 35 21
  let aa := bitMask 20 17
  let ab := bitMask 16 13
  let nn := bitMask 12 10
  let pred := bitMask 30 24
  let vd := bitMask 53 51
  let vm := bitMask 52 51
  let sa := bitMask 50 40
  let sb := bitMask 39 29
  let cnt := bitMask 17 1
  match cls with
  | 1 =>
    if op = 0 then some 0
    else if op ≤ 0xE then some (rd + ra + rb)
    else if 0x10 ≤ op ∧ op ≤ 0x17 then some (rd + ra + imm)
    else if 0x20 ≤ op ∧ op ≤ 0x25 then some (ra + rb + imm)
    else match op with
      | 0x26 => some (rd + imm)
      | 0x27 => some (rd + ra + imm)
      | 0x30 => some (rd + ra + imm + sz)
      | 0x31 => some (rd + ra + imm + sz)
      | 0x32 => some (rb + ra + imm + sz)
      | 0x38 => some (rd + ra + imm)
      | 0x39 => some (rb + ra + imm)
      | 0x3A => some rd
      | 0x3B => some rd
      | 0x3C => some (rd + ra + rb)
      | 0x3D => some (rd + ra)
      | 0x3E => some (rd + ra)
      | 0x3F => some (rd + ra)
      | _ => none
  | 2 =>
    match op with
    | 0 => some (bitMask 34 32)
    | 1 => some (rd + rb + imm + bitMask 33 32)
    | 2 => some ra
    | 3 => some 0
    | 4 => some (rd + ra + imm)
    | 5 => some (rd + imm)
    | 6 => some rd
    | 7 => some (ra + imm + bitMask 38 32)
    | 8 => some ra
    | 9 => some (ra + imm)
    | 10 => some 0
    | _ => none
  | 3 =>
    match op with
    | 0 => some 0
    | 1 => some (bitMask 53 50 + imm)
    | 2 => some (bitMask 53 50 + bitMask 18 0)
    | 3 => some (bitMask 52 50 + imm)
    | 4 => some (bitMask 52 50 + imm)
    | 5 => some (bitMask 52 50 + bitMask 7 0)
    | 0x10 => some (ch + d1 + d2 + aa + nn)
    | 0x11 => some (ch + d1 + d2 + aa + nn + bitMask 9 2)
    | 0x12 => some (ch + d1 + aa + nn)
    | 0x13 => some (ch + d1 + aa + nn)
    | 0x14 => some (d1 + d2 + aa + nn)
    | 0x15 => some (d1 + aa + nn)
    | 0x20 => some (bitMask 52 51 + d1 + aa + nn)
    | 0x21 => some (bitMask 52 51 + d1 + aa + nn + bitMask 1 0)
    | 0x22 => some (bitMask 52 51 + d1 + d2 + aa + nn + bitMask 0 0)
    | 0x23 => some (d1 + d2 + aa + ab + nn)
    | _ => none
  | 4 =>
    match op with
    | 0 => some (bitMask 10 10)
    | 1 => some (bitMask 53 52 + bitMask 50 47 + pred + bitMask 23 16 + bitMask 11 11)
    | 2 => some (bitMask 53 51 + bitMask 32 31 + pred + bitMask 23 20 + bitMask 10 10)
    | 3 => some (bitMask 53 16 + bitMask 11 10)
    | 4 => some (bitMask 53 0)
    | _ => none
  | 5 =>
    if op = 0 then some (vd + sa + cnt)
    else if op ≤ 3 then some (vd + sa + sb + cnt)
    else if op = 4 then some (vd + sa + sb + bitMask 28 18 + cnt)
    else if op ≤ 6 then some (vd + sa + sb + cnt)
    else if op ≤ 8 then some (vd + sa + cnt)
    else if op ≤ 0x13 then some (vd + sa + sb + cnt)
    else if op = 0x14 then some (vm + sa + sb + bitMask 21 18 + cnt)
    else if op = 0x15 then some (vd + sa + sb + bitMask 19 18 + cnt)
    else if op ≤ 0x18 then some (vm + bitMask 41 40 + bitMask 30 29 + cnt)
    else if op = 0x19 then some (vm + bitMask 41 40 + cnt)
    else if op = 0x1A then some (vm + bitMask 28 18)
    else if op ≤ 0x1C then some (vd + sa + sb + bitMask 18 18 + cnt)
    else if op ≤ 0x20 then some (vd + sa + cnt)
    else if op = 0x21 then some (vd + sa + sb + cnt)
    else if op = 0x22 then some (vd + sa + bitMask 25 18 + cnt)
    else if op = 0x23 then some (vd + sa + bitMask 17 2)
    else if op = 0x24 then some (vd + sa + cnt)
    else if op ≤ 0x27 then some (vd + sa + bitMask 19 18 + cnt)
    else match op with
      | 0x28 => some (sa + bitMask 39 31 + bitMask 28 22 + bitMask 19 18 + bitMask 17 6)
      | 0x29 => some (vd + bitMask 32 29 + cnt)
      | 0x2A => some (sa + bitMask 32 29 + cnt)
      | 0x2B => some (sa + bitMask 22 18)
      | 0x2C => some (vd + sa + bitMask 32 29 + bitMask 22 18)
      | _ => none
  | 6 =>
    match op with
    | 0 => some (vd + sa + sb + bitMask 28 18 + cnt)
    | 1 => some (vd + sa + sb + bitMask 24 21 + cnt)
    | 2 => some (vd + sa + sb + bitMask 28 25 + cnt)
    | _ => none
  | 7 =>
    match op with
    | 0 => some 0
    | 1 => some (bitMask 53 51 + imm)
    | 2 => some (bitMask 53 51 + imm)
    | 3 => some (bitMask 53 51 + bitMask 7 0)
    | 4 => some (bitMask 53 13)
    | 5 => some (bitMask 53 50 + bitMask 14 0)
    | _ => none
  | _ => none

def isSome' (o : Option Src) : Bool := o.isSome
def notAcc (o : Option Src) : Bool := match o with | some (.acc _ _) => false | some _ => true | none => false
def isTile (o : Option Src) : Bool := match o with | some (.tile _) => true | _ => false

/-- The encoded values of an assigned word that its layout does not reserve (R271 to R274, R289 to R295). -/
def valuesOk (cls op : Nat) (w : W64) : Bool :=
  match cls with
  | 2 => if op = 0 then wScope w != 3 else if op = 7 then decide (wChan w < 80) else true
  | 3 =>
    if op = 5 then wLen w != 0
    else if op = 0x11 then fld w 6 3 == 15 || decide (fld w 6 3 < 8)
    else if op = 0x21 then wForm w != 3
    else true
  | 4 =>
    if op = 0 then true
    else
      let scaled := fmtIsScaled (wFmt w)
      (wPe w || (!wPl w && wPb w == 0)) &&
      (if op = 2 then true else decide (wFmt w < 12)) &&
      (if op = 1 then isSrcPort (wP1 w) && optPort scaled isSrcPort (wP2 w)
       else if op = 2 then wMd w != 3 && optPort (wMd w != 0) isSrcPort (wP1 w)
       else if op = 3 then wMd w != 3 && isSrcPort (wP1 w) && optPort scaled isSrcPort (wP2 w)
       else wMd w != 3 && isDstPort (wP1 w) && optPort (wMd w != 0) isSrcPort (wP2 w) &&
         optPort (scaled || wRed w != 0) isDstPort (wP3 w) && decide (wRw w ≤ 128))
  | 5 =>
    let sa := srcOf (wSaRaw w)
    let sb := srcOf (wSbRaw w)
    let sc := srcOf (wScRaw w)
    let two := decide ((1 ≤ op ∧ op ≤ 6) ∨ (9 ≤ op ∧ op ≤ 0x15) ∨ op = 0x1B ∨ op = 0x1C)
    let raw := decide ((0x16 ≤ op ∧ op ≤ 0x1A) ∨ op = 0x29)
    (raw || isSome' sa) && (!two || notAcc sb) && (op != 4 || notAcc sc) &&
    (op == 0x28 || ((wMsk w == 0 || decide (4 ≤ wMsk w)) && (!wVlsel w || wCnt w == 0))) &&
    (match op with
     | 0x14 => decide (fld w 20 18 ≤ 5)
     | 0x1A => decide (fld w 28 18 ≤ 1024)
     | 0x21 => isTile sb
     | 0x22 => decide (fld w 20 18 ≤ 3)
     | 0x28 => fld w 19 18 != 3 && decide (fld w 32 31 * (32 * 2 ^ fld w 19 18) < 128) && isDstPort (fld w 14 11) &&
         (match sa with | some (.tile _) => true | some (.acc _ s0) => s0 == 0 | _ => false)
     | 0x29 => isSrcPort (wPort w)
     | 0x2A => isDstPort (wPort w)
     | 0x2B => isTile sa
     | 0x2C => isTile sa && decide (12 ≤ wPort w)
     | _ => true)
  | 6 =>
    let scaled := (op != 1 && fmtIsScaled (wSfmt w)) || (op != 2 && fmtIsScaled (wDfmt w))
    isSome' (srcOf (wSaRaw w)) && (if scaled then isTile (srcOf (wSbRaw w)) else wSbRaw w == 0) &&
    (wMsk w == 0 || decide (4 ≤ wMsk w)) && (!wVlsel w || wCnt w == 0) && decide (wSfmt w < 12) && decide (wDfmt w < 12)
  | 7 =>
    if op = 3 then wLen w != 0
    else if op = 4 then decide (fld w 15 13 ≤ 4)
    else if op = 5 then (if w.getLsbD 53 then fld w 14 0 == 0 else fld w 52 50 == 0)
    else true
  | _ => true

/-- The decode steps 1 to 3 of R271 for a unit: the fault code of the first that fails, none when the word decodes. -/
def decodeFault (u : Unit') (w : W64) : Option Nat :=
  let c := wCls w
  if c = 0 ∨ 8 ≤ c then some fUndef
  else if !u.takes c then some fClassEngine
  else match usedBits c (wOp w) with
    | none => some fUndef
    | some m => if (w.toNat % 2 ^ 54) &&& (2 ^ 54 - 1 - m) = 0 ∧ valuesOk c (wOp w) w then none else some fUndef

/-- The word is the assigned instruction of class `c` and opcode `o`, and decodes. -/
def isOp (u : Unit') (c o : Nat) (w : W64) : Bool := wCls w == c && wOp w == o && (decodeFault u w).isNone

end Sys2Proof.Machine
end

