-- ==== Sys2Proof/Machine/Prog.lean ====
section
/-! DEFINITION. Machine/Prog.lean: engine programs and chutes (R119 to R130): loops, summaries, faults, completion and abort. -/

namespace Sys2Proof.Machine

/-! ## Chutes (R125 to R127) -/

/-- A chute by its code of R130: 0 to 7 for ich0 to ich7, 8 to 11 for och0 to och3. -/
def CellSt.chute (x : CellSt) (k : Nat) : Chute :=
  if k < 8 then x.ich.getD k Chute.empty else x.och.getD (k - 8) Chute.empty

def CellSt.modChute (x : CellSt) (k : Nat) (f : Chute → Chute) : CellSt :=
  if k < 8 then { x with ich := modAt k f x.ich } else { x with och := modAt (k - 8) f x.och }

def chuteDepth : Nat := 8
def slotBytes : Nat := 2048

/-- Free slots, each a credit of the producer. -/
def CellSt.credits (x : CellSt) (k : Nat) : Nat := chuteDepth - (x.chute k).slots.length

/-- Pushes a slot; a slot that moves returns the watchdog to 0 (R130). -/
def CellSt.push (x : CellSt) (k : Nat) (v : Slot) : CellSt :=
  { x.modChute k fun h => { h with slots := h.slots ++ [v] } with wd := 0 }

/-- A slot of bytes, each with its poison: a mark per 64 bytes (R372). -/
def slotOf (l : List (Byte × Bool)) : Slot :=
  { bytes := l.map (·.1), poison := (chunks 64 l.length l).map fun b => b.any (·.2) }

/-- The unread bytes of a chute as one stream, each with the poison of its 64 bytes (R140, R228). -/
def Chute.stream (h : Chute) : List (Byte × Bool) :=
  (h.slots.flatMap fun v => v.bytes.zipIdx.map fun b => (b.1, v.poison.getD (b.2 / 64) false)).drop h.rd

/-- Reads `n` bytes on: a slot is popped when its last byte has been read. -/
def Chute.skipGo : Nat → Nat → List Slot → List Slot × Nat
  | 0, n, l => (l, n)
  | _, n, [] => ([], n)
  | fuel + 1, n, v :: t => if v.bytes.length ≤ n then Chute.skipGo fuel (n - v.bytes.length) t else (v :: t, n)

def Chute.skip (h : Chute) (n : Nat) : Chute :=
  let r := Chute.skipGo (h.slots.length + 1) (h.rd + n) h.slots
  { slots := r.1, rd := r.2 }

/-- Takes `n` bytes of a chute. -/
def CellSt.take (x : CellSt) (k n : Nat) : CellSt :=
  let h := x.chute k
  let h' := h.skip n
  let x := x.modChute k fun _ => h'
  if h'.slots.length < h.slots.length then { x with wd := 0 } else x

/-- The chute is declared by a program (R127). -/
def Prog.declares (p : Prog) (k : Nat) : Bool := if k < 8 then p.ichUse.getLsbD k else p.ochUse.getLsbD (k - 8)

/-! ## Programs -/

def CellSt.prog (x : CellSt) (e : Engine) : Option Prog := match e with | .access => x.ae.prog | .execute => x.xe.prog

def CellSt.modProg (x : CellSt) (e : Engine) (f : Prog → Prog) : CellSt :=
  match e with
  | .access => { x with ae := { x.ae with prog := x.ae.prog.map f } }
  | .execute => { x with xe := { x.xe with prog := x.xe.prog.map f } }

def otherEngine (e : Engine) : Engine := match e with | .access => .execute | .execute => .access

/-- The unit of R270 that an engine is. -/
def engineUnit (e : Engine) : Unit' := match e with | .access => .access | .execute => .execute

/-- Bits of the summary's FLAGS (R123). -/
def sDone : Nat := 0
def sFault : Nat := 1
def sAborted : Nat := 2
def sHomeLost : Nat := 3
def sCvtSat : Nat := 4
def sCvtFlush : Nat := 5
def sCvtNan : Nat := 6
def sOvfSat : Nat := 7
def sLongsum : Nat := 8
def sNanIn : Nat := 9
def sEmpty : Nat := 10
def sFallback : Nat := 11
def sLenient : Nat := 12
def sPoison : Nat := 13

/-- Sets a summary flag of an engine's program. -/
def State.sumFlag (s : State) (c : Nat) (e : Engine) (b : Nat) : State :=
  s.modCell c fun x => x.modProg e fun p => { p with flags := p.flags ||| BitVec.ofNat 32 (2 ^ b) }

def State.sumFlagIf (s : State) (c : Nat) (e : Engine) (b : Nat) (on : Bool) : State := if on then s.sumFlag c e b else s

/-- After the instruction of index `i`: the next one, with every loop that ends at or before `i` repeated or left (R134). -/
def Prog.afterGo (i : Nat) : List Loop → Nat × List Loop
  | [] => (i + 1, [])
  | l :: t =>
    if l.last ≤ i then
      (if 1 < l.left then (l.first, { l with left := l.left - 1, iter := l.iter + 1 } :: t) else Prog.afterGo i t)
    else (i + 1, l :: t)

def Prog.after (p : Prog) (i : Nat) : Prog :=
  let r := Prog.afterGo i p.loops
  { p with pc := r.1, loops := r.2 }

/-- The instruction at issue retires. -/
def Prog.next (p : Prog) : Prog := p.after p.pc

/-- A loop over the next `len` instructions, `n` times (R134, R295). A body that runs past the program's end is what there is
of it (log entry 26, DEDUCED). -/
def Prog.loop (p : Prog) (len n : Nat) : Prog :=
  let last := Nat.min (p.pc + len) (p.text.length - 1)
  if n = 0 ∨ last ≤ p.pc then p.after (Nat.max last p.pc)
  else { p with pc := p.pc + 1, loops := { first := p.pc + 1, last := last, left := n, iter := 0 } :: p.loops }

/-- The deepest nesting of loops. -/
def loopDepth : Nat := 4

/-- The instruction held by the execute engine had issued earlier and waited under R188. -/
def CellSt.heldLate (x : CellSt) : Option LateM := x.xe.hold.bind (·.own)

/-- The engine's instruction has retired: the watchdog returns to 0 and the program goes on, unless it has gone on already. -/
def State.retire (s : State) (c : Nat) (e : Engine) : State :=
  s.modCell c fun x =>
    let x := if e = .execute ∧ x.heldLate.isSome then x else x.modProg e Prog.next
    match e with
    | .access => { x with wd := 0, ae := { x.ae with op := none, wait := none } }
    | .execute => { x with wd := 0, xe := { x.xe with hold := none, wait := none } }

/-- An engine program faults: its code, the index of the instruction and FAULT_INFO are recorded for its summary, and the
engine issues nothing more until R124 has been carried out. A fault that the cell does not report is counted (R480). -/
def State.engineFault (s : State) (c : Nat) (e : Engine) (code : Nat) (info : W64) : State :=
  let s := s.modCell c fun x =>
    let at_ (p : Prog) : Nat := match e, x.heldLate with | .execute, some l => l.pc | _, _ => p.pc
    let x := x.modProg e fun p => { p with fault := some (BitVec.ofNat 16 code, at_ p, info) }
    match e with
    | .access => { x with ae := { x.ae with op := none, wait := none } }
    | .execute => { x with xe := { x.xe with hold := none, wait := none, late := [] } }
  if code = fPoisoned then s.reportPoison c info.toNat
  else if code = fDecoupleStall then s
  else s.errBump (rErrEngFault c)

/-- The summary record (R123). -/
def Prog.summary (p : Prog) : List Byte :=
  let (code, fpc, info) := p.fault.getD (0, 0, 0)
  let fl := (p.flags.toNat ||| 1) ||| (if p.fault.isSome then 2 else 0) ||| (if p.aborted then 4 else 0)
  leBytes 4 fl ++ leBytes 2 code.toNat ++ leBytes 2 0 ++ leBytes 4 fpc ++ leBytes 4 0 ++ leBytes 8 info.toNat ++ leBytes 8 p.cycles

/-- The program of an engine ends: its summary is written, then its completion flag is set, and the engine is idle (R123). -/
def State.endProg (s : State) (c : Nat) (e : Engine) : State :=
  match (s.cell c).prog e with
  | none => s
  | some p =>
    let s := s.modCell c fun x =>
      let x := x.opWrite p.sum p.summary
      match e with
      | .access => { x with ae := { x.ae with prog := none, op := none, wait := none } }
      | .execute => { x with xe := { x.xe with prog := none, hold := none, wait := none, late := [] } }
    s.flagToken c p.launcher p.token (BitVec.ofNat 32 (2 ^ p.evt))

/-- Empties the chutes of two use masks. -/
def CellSt.emptyChutes (x : CellSt) (ich : Byte) (och : BitVec 4) : CellSt :=
  { x with ich := x.ich.zipIdx.map fun h => if ich.getLsbD h.2 then Chute.empty else h.1,
           och := x.och.zipIdx.map fun h => if och.getLsbD h.2 then Chute.empty else h.1 }

/-- Requests of a cell that have not left it and only read: a program that ends early issues none of them. -/
def State.dropUnissued (s : State) (c : Nat) : State :=
  { s with reqs := s.reqs.filter fun r =>
    !(r.ofCell c && !r.isWrite && (r.stage == .queued || r.stage == .window || r.stage == .walking)) }

/-- The handling of a fault (R124): the other program, if it has not faulted itself, is aborted; the chutes that either declares
are emptied; both summaries are written and both flags set. -/
def State.abortPrograms (s : State) (c : Nat) : State :=
  let x := s.cell c
  let use (e : Engine) : Byte × BitVec 4 := match x.prog e with | some p => (p.ichUse, p.ochUse) | none => (0, 0)
  let s := s.modCell c fun x =>
    let mark (p : Prog) : Prog := { p with aborted := p.fault.isNone }
    ((x.modProg .access mark).modProg .execute mark).emptyChutes ((use .access).1 ||| (use .execute).1)
      ((use .access).2 ||| (use .execute).2)
  ((s.dropUnissued c).endProg c .access).endProg c .execute

/-- Where an engine can carry its instruction on: its cell runs in an ACTIVE device and is not parked, and its program has not faulted. -/
def State.engineRuns (s : State) (c : Nat) (e : Engine) : Option Prog :=
  if s.active && s.cellUp c && !(s.cell c).parked then
    ((s.cell c).prog e).filter fun p => p.fault.isNone
  else none

/-- The program of an engine has faulted. -/
def CellSt.faulted (x : CellSt) (e : Engine) : Bool := match x.prog e with | some p => p.fault.isSome | none => false

/-- Where an engine can issue the next instruction, or complete: the program of the other has not faulted either (R124). -/
def State.engineIssues (s : State) (c : Nat) (e : Engine) : Option Prog :=
  if (s.cell c).faulted (otherEngine e) then none else s.engineRuns c e

/-- The program of an engine stands at an instruction boundary, at which R124 aborts it: no instruction of it is in flight but what the
array runs after its issue (R217), or the one in flight waits on a chute, which no abort could end otherwise (log entry 72, DEDUCED). -/
def CellSt.atBoundary (x : CellSt) (e : Engine) : Bool :=
  match e with
  | .access => x.ae.op.isNone || x.ae.wait.isSome
  | .execute => (x.xe.hold.isNone || x.xe.wait.isSome) && x.vec.busy.isNone

end Sys2Proof.Machine
end

