-- ==== Sys2Proof/Machine/AReq.lean ====
section
/-! DEFINITION. Machine/AReq.lean: the request path of the access engine (R131, R142 to R151): translation, merging, the sort
window, caps and slots, and what each answer does. -/

namespace Sys2Proof.Machine

/-! ## Cell cycles (R469) -/

/-- Cycles of a cell per 40 ns at each setpoint: 2.1, 1.6, 1.05 and 0.525 GHz. -/
def cellRate (sp : Nat) : Nat := match sp with | 0 => 84 | 1 => 64 | 2 => 42 | _ => 21
/-- The setpoint at which a cell runs. -/
def State.setpoint (s : State) (c : Nat) : Nat := s.power.cur.getD c 0
/-- Cell cycles in `ns` nanoseconds. -/
def State.cyclesIn (s : State) (c ns : Nat) : Nat := ns * cellRate (s.setpoint c) / 40

/-! ## Requests of a cell -/

/-- The request holds a slot: a load or prefetch from issue until it is delivered (R131). A store or add needs a free slot to issue, and
leaves the cell as it issues (log entry 85, DEDUCED). -/
def Req.holdsSlot (r : Req) : Bool :=
  r.slot && !r.isWrite && (match r.stage with | .queued => false | .window => false | .walking => false | _ => true)

def State.slotsHeld (s : State) (c : Nat) (p : Req → Bool) : Nat :=
  (s.reqs.filter fun r => r.ofCell c && r.holdsSlot && p r).length

/-- The request belongs to the access program that now runs. -/
def CellSt.owns (x : CellSt) (r : Req) : Bool := match x.ae.prog with | some p => p.number == r.prog | none => false

/-- What a granule is asked for, as the low three bits of its number: the parts of the main chute or of operand memory and the bytes of
blocks (0), edge values (2), and index lists, row pointers and columns (others). Only parts and blocks carry their poison on (R166). -/
def keyStream (k : Nat) : Nat := k % 8
def carries (k : Nat) : Bool := keyStream k == 0 || keyStream k == 2

/-- What the arrival of a granule sets off: the flag of a lost home, the flag and the count of poison carried (R73, R166). -/
def State.granuleMark (s : State) (c : Nat) (keys : List Nat) (poison lost : Bool) : State :=
  let s := s.sumFlagIf c .access sHomeLost lost
  if poison && keys.any carries then (s.countC c (cAe 10) 1).sumFlag c .access sPoison else s

/-- A granule reaches the instruction in flight (R139). What it sets off waits while every number it serves was asked for ahead of
credit (R151). -/
def State.deliverAs (s : State) (c : Nat) (keys : List Nat) (d : BitVec 512) (poison lost : Bool) (fault : Option (Nat × W64)) : State :=
  match (s.cell c).ae.op with
  | none => s
  | some o =>
    let early := keys.all o.ahead.contains
    let new : List Granule := keys.zipIdx.map fun k =>
      { key := k.1, data := d, poison := poison, lost := lost, fault := fault, due := if early && k.2 == 0 then keys else [] }
    let s := s.modCell c fun x => { x with ae := { x.ae with op := some { o with got := o.got ++ new } } }
    if early then s else s.granuleMark c keys poison lost

def State.deliver (s : State) (c : Nat) (keys : List Nat) (d : BitVec 512) (poison : Bool) : State :=
  s.deliverAs c keys d poison false none

/-- A load of the same granule that waits or is in flight, and may take another part (R145). -/
def State.mergeWith (s : State) (c : Nat) (r : Req) : Option Req :=
  if !s.regBit (rCell c 0x100) 24 then none
  else s.reqs.find? fun q => q.who == .cell c && !q.isWrite && q.slot && q.dev == r.dev && q.la == r.la &&
    q.noFill == 0 && decide ((if q.prog = r.prog then q.keys.length else 0) + r.keys.length ≤ 64) &&
    (match q.stage with | .answered _ => false | .walking => false | _ => true)

/-- How many merge entries a cell uses, of 512. -/
def State.mergeEntries (s : State) (c : Nat) : Nat :=
  (s.reqs.filter fun q => q.who == .cell c && !q.isWrite && q.stage != .walking).length

/-- An entry that a request joins: it serves the parts of both. One left by a program that has ended serves only the new one's. A
prefetch that a load joins is a load from then on. -/
def Req.join (q r : Req) : Req :=
  if q.prog = r.prog then
    { q with op := if r.op = .load then .load else q.op, keys := q.keys ++ r.keys, cache := q.cache || r.cache, rem := q.rem || r.rem }
  else
    { q with op := r.op, keys := r.keys, cache := q.cache || r.cache, rem := r.rem, prog := r.prog, owner := r.owner, addr := r.addr }

/-- A load joins an entry, or enters the window. It will install nothing when a later write of the cell to the granule is already on its
way (R146). -/
def State.enterLoad (s : State) (c : Nat) (r : Req) : State :=
  let later := s.reqs.any fun q => q.ofCell c && q.isWrite && decide (r.id < q.id) && q.dev == r.dev && q.la == r.la && q.unapplied
  let r := { r with noFill := if later then 2 else 0 }
  match s.mergeWith c r with
  | some q =>
    if s.mergeEntries c ≤ 512 then ((s.dropReq r.id).modReq q.id fun q => q.join r).countC c (cAe 3) 1 else s.enterWindow c r
  | none => s.enterWindow c r

/-- A fault that a request raises in the program that issued it: a code with the object address. -/
abbrev ReqFault := Option (Nat × W64)

/-- A prefetch that is dropped without a request (R150). -/
def State.dropPref (s : State) (c : Nat) (r : Req) : State := (s.dropReq r.id).countC c (cAe 6) 1

/-- A request completes HOME-LOST before it has been sent (R73, R398); a prefetch is dropped, and counted as one besides. -/
def State.loseAtIssue (s : State) (c : Nat) (r : Req) : State :=
  if r.op = .pref then (s.dropPref c r).count (kPlc 13) 1 else s.putReq { r with stage := .answered .homeLost }

/-- A load of a sealed plot that has a replica, by the entry that names its lost home: the map is walked again (R74). -/
def State.hasReplica (s : State) (r : Req) (e : MapEntry) : Bool :=
  !r.isWrite && r.op != .pref && e.nrep != 0 && e.pstate != 3 &&
  (match s.desc r.handle with
   | some d => d.state == .sealed && (d.steward == s.dev || s.reachable d.steward)
   | none => false)

/-- The request waits for a walk that is made anew (R71, R74). -/
def State.rewalk (s : State) (c : Nat) (r : Req) : State :=
  let s := s.modCell c fun x => x.ptcDrop r.handle r.plot
  match s.liveDesc r.handle with
  | some d => (s.putReq { r with stage := .walking }).startWalk c d r.plot
  | none => s.putReq { r with stage := .answered .badHandle }

/-- The frame that a request was translated to holds its plot. -/
def State.frameHolds (s : State) (r : Req) : Bool :=
  (s.landing r.lnd).recAt r.frame == some { handle := r.handle, plot := r.plot, gen := r.gen }

/-- Sends a request by a map entry (R64, R142, R143, R73): a cache hit is delivered, a cached store is done, a lost target
completes HOME-LOST, a device that the descriptor does not allow is denied, and everything else enters the window. A cached store by a
translation that has gone stale goes to the landing, which redirects it (R71; log entry 19, DEDUCED). -/
def State.routeReq (s : State) (c : Nat) (r : Req) (e : MapEntry) : State × ReqFault :=
  let (dev, lnd, frame) := targetOf e ((s.cell c).ptcPick r.handle r.plot) (!r.isWrite)
  let r := { r with dev := dev, lnd := lnd, frame := frame, gen := e.gen, noFill := 0 }
  if r.op = .pref ∧ (e.pstate = 1 ∨ e.pstate = 2) then (s.dropPref c r, none)
  else if s.targetLost e dev then
    if s.hasReplica r e then (s.rewalk c r, none) else ((s.noRoute dev).loseAtIssue c r, none)
  else if dev ≠ s.dev then
    if r.op = .pref then ((if r.rem then s.dropReq r.id else s.dropPref c r), none)
    else if !r.rem then (s.dropReq r.id, some (fRemoteDenied, r.addr))
    else if r.isWrite then (s.enterWrite c r, none)
    else (s.enterLoad c r, none)
  else
    match r.op with
    | .add => ((s.dropCopy c r.la).enterWrite c r, none)
    | .store =>
      match (if r.cache && s.frameHolds r then s.ccStore c r.la r.data r.en r.poison else none) with
      | some s => (s.dropReq r.id, none)
      | none =>
        let ((d, en, p), s) := s.takeCopy c r.la r.data r.en r.poison
        (s.enterWrite c { r with data := d, en := en, poison := p }, none)
    | _ =>
      let (hit, s) := s.ccLookup c r.la
      match hit with
      | some (d, p) =>
        if r.op = .pref then (s.dropReq r.id, none)
        else (((s.dropReq r.id).countC c (cAe 2) 1).deliver c r.keys d p, none)
      | none => (s.enterLoad c r, none)

/-- The geyser row table's copy of a granule, for a gather of a sealed object (R106). -/
def State.geyserRow (s : State) (c : Nat) (d : Desc) (r : Req) : Option (BitVec 512 × Bool) :=
  let gathers := match (s.cell c).ae.op with
    | some o => wOp o.word == 0x10 || wOp o.word == 0x11
    | none => false
  if gathers && r.op == .load && d.state == .sealed then
    (s.scaler.rows.find? fun x => x.1 == (r.handle, r.plot, r.off)).map (·.2)
  else none

/-- A plot is homed on this device: by the map of a local steward, else by a frame record of this device (R150). -/
def State.homedHere (s : State) (d : Desc) (p : Nat) : Bool :=
  if d.steward = s.dev then (match s.mapEntry d.handle p with | some e => e.dev == s.dev | none => false)
  else s.landings.any fun x => x.frames.any fun f => match f.2 with
    | some r => r.handle == d.handle && r.plot == p
    | none => false

/-- Translates a new request of the access program and sends it, or leaves it waiting for a walk (R64). -/
def State.startReq (s : State) (c : Nat) (d : Desc) (r : Req) : State × ReqFault :=
  let (id, s) := s.newId
  let r := { r with id := id }
  match s.geyserRow c d r with
  | some (v, p) => (s.deliver c r.keys v p, none)
  | none =>
  if r.op = .pref ∧ !r.rem ∧ ((s.cell c).ptcFind r.handle r.plot).isNone ∧ !s.homedHere d r.plot then
    (s.countC c (cAe 6) 1, none)
  else
    match s.lookup c d r.plot with
    | (.entry e, s) => s.routeReq c r e
    | (.walking, s) => (s.putReq { r with stage := .walking }, none)

/-! ## Issue (R144, R146 to R148) -/

/-- The request may not issue now for the cap of its bank or destination device (R147). -/
def State.capped (s : State) (c : Nat) (r : Req) : Bool :=
  if r.dev = s.dev then
    decide (s.regF (rCell c 0x100) 11 0 ≤ s.slotsHeld c fun q => q.dev == s.dev && q.lnd == r.lnd && bankOf q.la == bankOf r.la)
  else decide (s.regF (rCell c 0x100) 23 12 ≤ s.slotsHeld c fun q => q.dev == r.dev)

/-- A slot of the needed kind is free; prefetches take no more than 600 local slots (R131, R150). -/
def State.slotFree (s : State) (c : Nat) (r : Req) : Bool :=
  if r.dev = s.dev then
    decide (s.slotsHeld c (fun q => q.dev == s.dev) < 2400) &&
      (r.op != .pref || decide (s.slotsHeld c (fun q => q.dev == s.dev && q.op == .pref) < 600))
  else decide (s.slotsHeld c (fun q => q.dev != s.dev) < 2048)

/-- A write that `r` must follow stands ahead of it at the same landing, or has been applied. -/
def Req.ahead (q r : Req) : Bool :=
  match q.stage with
  | .landing l => l == r.lnd && q.la == r.la
  | _ => !q.unapplied

/-- Earlier writes of the program to the granule, and write-backs of its line, do not stand in the way (R146). A write-back follows
the writes that were under way when its line left. -/
def State.inOrder (s : State) (c : Nat) (r : Req) : Bool :=
  r.dev != s.dev || s.reqs.all fun q =>
    q.ahead r || !(q.ofCell c && q.isWrite && q.id != r.id) ||
    !(if r.wb then r.keys.contains q.id
      else if q.wb then q.la == r.la && !q.keys.contains r.id
      else q.prog == r.prog && decide (q.id < r.id) && q.handle == r.handle && q.plot == r.plot && q.off == r.off)

def State.mayIssue (s : State) (c : Nat) (r : Req) : Bool :=
  !s.capped c r && s.slotFree c r && s.inOrder c r

/-- The request goes where the last one went: to the page that the last request to its bank opened or, for another device, to the
device of the last request sent out (R144). -/
def State.samePage (s : State) (c : Nat) (r : Req) : Bool :=
  if r.dev = s.dev then tblGet 0 (256 * r.lnd + bankOf r.la) (s.cell c).lastPage == pageOf r.la + 1
  else (s.cell c).lastDev == some r.dev

/-- The requests of the sort window, oldest first. -/
def State.windowOf (s : State) (c : Nat) : List Req := s.reqs.filter fun r => r.ofCell c && r.stage == .window

/-- Every request of the window goes to one bank, or to one other device (R148). -/
def State.oneTarget (s : State) (c : Nat) : Bool :=
  match s.windowOf c with
  | [] => false
  | r :: t => t.all fun q => q.dev == r.dev && (q.dev != s.dev || (q.lnd == r.lnd && bankOf q.la == bankOf r.la))

/-- The next request to issue (R144): one that has waited 1,024 cell cycles, oldest first; else one to an open page; else the
oldest. With SORT_EN 0, and while the window stands under the cap of one bank (R148), the oldest. -/
def State.pickIssue (s : State) (c : Nat) : Option Req :=
  let ok := (s.windowOf c).filter (s.mayIssue c)
  if s.regBit (rCell c 0x100) 25 && !((s.cell c).capWait && s.oneTarget c) then
    ((ok.find? fun r => decide (1024 ≤ s.cyclesIn c (s.timebase.toNat - r.born.toNat))).or (ok.find? (s.samePage c))).or ok.head?
  else ok.head?

/-- The packet of a request to another device (R391, R392). -/
def State.reqPacket (s : State) (r : Req) (tag : W32) : Packet :=
  let a := addrUnit r.handle r.plot r.gen.toNat r.lnd r.frame r.off
  match r.op with
  | .store => s.packet r.dev pkStore tag (a :: dataUnits r.data ++ [unitOf [(0, 8, r.en.toNat)]]) r.poison
  | .add =>
    let lanes := (List.range 16).foldl (fun n i => if r.en.getLsbD (4 * i) then n + 2 ^ i else n) 0
    s.packet r.dev pkAdd tag (a :: dataUnits r.data ++ [unitOf [(0, 2, lanes), (2, 1, if r.int then 1 else 0)]]) r.poison
  | _ => s.packet r.dev pkLoad tag [a]

/-- A request leaves the window for its landing or for the fabric. -/
def State.issueReq (s : State) (c : Nat) (r : Req) : State :=
  let s := if r.op = .pref then s.countC c (cAe 5) 1 else s
  if r.dev = s.dev then
    let s := s.countC c (cAe 0) 1
    let s := s.modCell c fun x => { x with lastPage := tblSet 0 (256 * r.lnd + bankOf r.la) (pageOf r.la + 1) x.lastPage }
    s.arriveAt r
  else if !s.reachable r.dev then (s.noRoute r.dev).loseAtIssue c r
  else
    let tag := s.freeTag c 0
    let s := s.modCell c fun x => { x with lastDev := some r.dev }
    ((s.countC c (cAe 1) 1).putReq { r with stage := .remote, tag := tag, born := s.timebase }).send (s.reqPacket r tag)

/-- AE_CAP_HOT for a capped request (R148, R169). -/
def State.capHot (s : State) (c : Nat) (r : Req) : State :=
  let v := if r.dev = s.dev then 1 + r.lnd * 4 + bankOf r.la * 64 else 3 + r.dev * 2 ^ 14
  s.setReg (rCell c 0x108) (BitVec.ofNat 32 v)

/-- The oldest request of the window is held by a cap (R148, R169). -/
def State.oldestCapped (s : State) (c : Nat) : Option Req := (s.windowOf c).head?.filter (s.capped c)

/-- Notes whether the window stands under the cap of one bank (R148). -/
def State.noteCap (s : State) (c : Nat) : State :=
  let one := s.oneTarget c
  let hit := (s.oldestCapped c).isSome
  if (s.cell c).capWait = (one && (hit || (s.cell c).capWait)) then s
  else s.modCell c fun x => { x with capWait := one && (hit || x.capWait) }

/-- `n` cell cycles with the oldest request held by a cap (R148, R170). -/
def State.capCycles (s : State) (c n : Nat) : State :=
  match s.oldestCapped c with
  | some r => if n = 0 then s else (s.capHot c r).countC c (cAe 4) n
  | none => s

/-- One cell cycle of the sort window: up to four requests issue. -/
def State.issueUpTo (s : State) (c : Nat) : Nat → State
  | 0 => s
  | n + 1 =>
    match s.pickIssue c with
    | some r => (s.issueReq c r).issueUpTo c n
    | none => s

def State.issueCycle (s : State) (c : Nat) : State := ((((s.letIn c).noteCap c).issueUpTo c 4).letIn c).noteCap c

/-! ## Answers (R71 to R73, R139, R325) -/

/-- The data of a load that was dropped for want of an object or a home: zeros marked poisoned (log entry 27, DEDUCED). -/
def State.deliverLost (s : State) (c : Nat) (r : Req) (lost : Bool) : State :=
  if (s.cell c).owns r && r.op == .load then s.deliverAs c r.keys 0 true lost none else s

/-- A load is answered with data (R139, R142, R345). -/
def State.takeData (s : State) (c : Nat) (r : Req) (d : BitVec 512) (p : Bool) : State :=
  let s := s.dropReq r.id
  let s := if r.dev = s.dev then s.fill c r.la d p r.cache r.noFill else s
  if (s.cell c).owns r && r.op == .load then s.deliver c r.keys d p else s

/-- A request completes HOME-LOST (R73, R150, R151): a load's flag is set with its data, and a prefetch sets none. -/
def State.takeLost (s : State) (c : Nat) (r : Req) : State :=
  let s := (s.dropReq r.id).count (kPlc 13) 1
  if r.op = .pref then s.countC c (cAe 6) 1
  else if r.isWrite then s.sumFlagIf c .access sHomeLost ((s.cell c).owns r)
  else s.deliverLost c r true

/-- The entry by which a redirected request goes on (R71): the one it carries when it is newer than what the cell holds or, with
nothing held, than the one used; else the one held; none to walk again. At a distance of 32,768 both are invalid (R67). -/
def pickEntry (used : BitVec 16) (held carried : Option MapEntry) : Option MapEntry :=
  match carried with
  | none => none
  | some e =>
    let ref := match held with | some h => h.gen | none => used
    if newer 16 e.gen.toNat ref.toNat then some e
    else if newer 16 ref.toNat e.gen.toNat || e.gen == ref then held
    else none

/-- A request is redirected (R71, R72, R150). The answer is the fault of the issuing program, if any. The entry of a handle that has been
freed meanwhile is not installed (R55). -/
def State.takeRedirect (s : State) (c : Nat) (r : Req) (e : Option MapEntry) : State × ReqFault :=
  let s := s.count (kPlc 12) 1
  let r := { r with redirects := r.redirects + 1 }
  if r.op = .pref then (s.dropPref c r, none)
  else if r.redirects = 16 then (s.dropReq r.id, some (fRedirectLimit, r.addr))
  else if (s.liveDesc r.handle).isNone then (s.putReq { r with stage := .answered .badHandle }, none)
  else
    match pickEntry r.gen ((s.cell c).ptcFind r.handle r.plot) e with
    | some m => (s.ptcInstall c r.handle r.plot m).routeReq c r m
    | none => (s.rewalk c r, none)

/-- What a request must not do to its issuer because its program has ended or because it ran ahead (R151), or the fault it raises. -/
def State.reqFault (s : State) (c : Nat) (r : Req) (f : ReqFault) : State :=
  match f with
  | none => s
  | some (code, info) =>
    if !(s.cell c).owns r then s
    else match (s.cell c).ae.op with
      | some o =>
        if r.op = .load ∧ r.keys ≠ [] ∧ r.keys.all o.ahead.contains then s.deliverAs c r.keys 0 true false f
        else s.engineFault c .access code info
      | none => s.engineFault c .access code info

/-- A write is acknowledged: it has reached its point of visibility (R325); one that met no object is counted (R55). -/
def State.takeAck (s : State) (r : Req) (bad : Bool) : State :=
  let s := s.dropReq r.id
  if bad then s.count (kPlc 14) 1 else s

/-- What a completed walk answers: the entry, or that it ends HOME-LOST, or that the object is gone; none while it has not
ended (R64, R73). -/
inductive WalkEnd where
  | entry (e : MapEntry)
  | lost
  | gone
  deriving DecidableEq, Repr

def State.walkEnd (s : State) (w : Walk) : Option WalkEnd :=
  match s.liveDesc w.handle with
  | none => some .gone
  | some d =>
    if d.steward = s.dev then
      match s.localWalk w.handle w.plot with
      | some e => some (.entry e)
      | none => some .gone
    else if d.state = .orphaned ∨ !s.reachable d.steward then some .lost
    else
      match s.fab.arrived.find? fun p => (p.typ == pkWalkResp || p.typ == pkHomeLost) && p.tag == w.tag with
      | some p => if p.typ = pkWalkResp then some (.entry (entryOf (pkUnit p 0))) else some .lost
      | none => none

/-- Removes a walk, with the answer packet that it consumed. -/
def State.endWalk (s : State) (w : Walk) : State :=
  let s : State := { s with walks := s.walks.filter (· != w) }
  s.modFab fun f => { f with arrived := f.arrived.filter fun p => !((p.typ == pkWalkResp || p.typ == pkHomeLost) && p.tag == w.tag) }

/-- The requests that waited for a plot go on in the order in which they asked. -/
def State.resume (s : State) (c : Nat) (e : WalkEnd) : List Req → State
  | [] => s
  | r :: t =>
    match e with
    | .entry m => match s.routeReq c r m with | (s, f) => (s.reqFault c r f).resume c e t
    | .lost => (s.loseAtIssue c r).resume c e t
    | .gone => (if r.op = .pref then s.dropPref c r else s.putReq { r with stage := .answered .badHandle }).resume c e t

end Sys2Proof.Machine
end

