-- ==== Sys2Proof/Machine/Block.lean ====
section
/-! DEFINITION. Machine/Block.lean: stored blocks (R157 to R162, R258): headers, sizes, the three forms, and their checks. -/

namespace Sys2Proof.Machine

/-- The formats that a stored block may have (R157). -/
def blockFmt (f : Nat) : Bool := decide (f ≤ 8) && f != 5

/-- Bytes of one packed group of 8, and of one element rounded up (R158). -/
def blkV (f : Nat) : Nat := fmtBits f
def blkW (f : Nat) : Nat := ceilDiv (fmtBits f) 8

/-- A block header (R158); `rsv` is its reserved bytes. -/
structure BlkHdr where
  form : Nat
  fmt : Nat
  rows : Nat
  groups : Nat
  nnzg : Nat
  rsv : Nat
  size : Nat
  deriving DecidableEq, Repr

def blkHdr (b : List Byte) : BlkHdr :=
  { form := leAt b 0 1, fmt := leAt b 1 1, rows := leAt b 2 2, groups := leAt b 4 2, nnzg := leAt b 6 4, rsv := leAt b 10 2,
    size := leAt b 12 4 }

def BlkHdr.bytes (h : BlkHdr) : List Byte :=
  leBytes 1 h.form ++ leBytes 1 h.fmt ++ leBytes 2 h.rows ++ leBytes 2 h.groups ++ leBytes 4 h.nnzg ++ leBytes 2 h.rsv ++ leBytes 4 h.size

def up8 (n : Nat) : Nat := ceilDiv n 8 * 8

/-- SIZE of a form (R159). -/
def plainSize (f r g : Nat) : Nat := 16 + r * g * blkV f
def gcsrSize (f r nnzg : Nat) : Nat := up8 (16 + 4 * (r + 1) + 2 * nnzg) + nnzg * blkV f
def pairSize (f r g : Nat) : Nat := 16 + r * g * (1 + 2 * blkW f)

def BlkHdr.sizeOf (h : BlkHdr) : Nat :=
  match h.form with
  | 0 => plainSize h.fmt h.rows h.groups
  | 1 => gcsrSize h.fmt h.rows h.nnzg
  | _ => pairSize h.fmt h.rows h.groups

/-- The header conditions of R162 other than the comparison with CAP. -/
def BlkHdr.ok (h : BlkHdr) : Bool :=
  decide (h.form ≤ 2) && blockFmt h.fmt && decide (1 ≤ h.rows ∧ h.rows ≤ 128) && decide (1 ≤ h.groups ∧ h.groups ≤ 512) &&
  h.rsv == 0 && (if h.form = 1 then decide (h.nnzg ≤ h.rows * h.groups) else h.nnzg == 0) && h.size == h.sizeOf

/-! ## Groups -/

/-- An element is zero: ±0, a NaN is not (R157). -/
def elemZero (f b : Nat) : Bool :=
  match fmtF f with
  | some ff => b % 2 ^ (ff.width - 1) == 0
  | none => if fmtIsL f then (fmtL f).code b == 0 else b == 0

/-- The elements of packed groups, each a list of 8 encodings. -/
def groupsOf (f : Nat) (b : List Byte) : List (List Nat) :=
  (chunks (blkV f) b.length b).map fun g => unpack (fmtBits f) 8 (leNat g)

def groupBytes (f : Nat) (g : List Nat) : List Byte := leBytes (blkV f) (pack (fmtBits f) g)
def groupNz (f : Nat) (g : List Nat) : Bool := g.any fun e => !elemZero f e
/-- The positions of a group's non-zero elements, ascending. -/
def groupPos (f : Nat) (g : List Nat) : List Nat := (g.zipIdx.filter fun e => !elemZero f e.1).map (·.2)

/-! ## The three forms (R159, R160) -/

def plainBody (f : Nat) (gs : List (List Nat)) : List Byte := gs.flatMap (groupBytes f)

/-- Row pointers, column indices and values of the non-zero groups, `g` groups to a row. -/
def gcsrBody (f g : Nat) (gs : List (List Nat)) : List Byte :=
  let rows := chunks g gs.length gs
  let nz := rows.map fun r => r.zipIdx.filter fun e => groupNz f e.1
  let ptrs := nz.foldl (fun (acc : List Nat) r => acc ++ [acc.getLastD 0 + r.length]) [0]
  let cols := nz.flatMap fun r => r.map (·.2)
  let head := ptrs.flatMap (leBytes 4) ++ cols.flatMap (leBytes 2)
  head ++ List.replicate (up8 (16 + head.length) - (16 + head.length)) 0 ++ nz.flatMap fun r => r.flatMap fun e => groupBytes f e.1

/-- A PAIR slot: mask, then the lower and the higher non-zero element. -/
def pairSlot (f : Nat) (g : List Nat) : List Byte :=
  let ps := groupPos f g
  leBytes 1 (ps.foldl (fun n p => n + 2 ^ p) 0) ++
    leBytes (blkW f) (match ps[0]? with | some p => g.getD p 0 | none => 0) ++
    leBytes (blkW f) (match ps[1]? with | some p => g.getD p 0 | none => 0)

def pairBody (f : Nat) (gs : List (List Nat)) : List Byte := gs.flatMap (pairSlot f)

/-- A dense block as A.STOREC writes it: the requested form when it can hold the block within CAP; else GCSR when that fits;
else PLAIN (R160). With it, the form written. -/
def storeBlock (f r g form cap : Nat) (body : List Byte) : List Byte × Nat :=
  let gs := groupsOf f body
  let nnz := (gs.filter (groupNz f)).length
  let hdr (fm n sz : Nat) : List Byte := BlkHdr.bytes { form := fm, fmt := f, rows := r, groups := g, nnzg := n, rsv := 0, size := sz }
  let gcsrOk := decide (gcsrSize f r nnz ≤ cap)
  let pairOk := decide (pairSize f r g ≤ cap) && gs.all fun x => decide ((groupPos f x).length ≤ 2)
  let plain := (hdr 0 0 (plainSize f r g) ++ plainBody f gs, 0)
  let gcsr := (hdr 1 nnz (gcsrSize f r nnz) ++ gcsrBody f g gs, 1)
  match form with
  | 0 => plain
  | 1 => if gcsrOk then gcsr else plain
  | _ => if pairOk then (hdr 2 0 (pairSize f r g) ++ pairBody f gs, 2) else if gcsrOk then gcsr else plain

/-! ## PAIR checks (R162) -/

def popCount8 (m : Nat) : Nat := ((List.range 8).filter fun i => m.testBit i).length

/-- The index of the first slot whose mask has three or more bits. -/
def pairBad (f n : Nat) (body : List Byte) : Option Nat :=
  lowest (fun i => decide (2 < popCount8 (leAt body (i * (1 + 2 * blkW f)) 1))) n 0

/-- A mask with all but its two lowest set bits cleared. -/
def lowTwo (m : Nat) : Nat :=
  let bits := (List.range 8).filter fun i => m.testBit i
  (bits.take 2).foldl (fun n p => n + 2 ^ p) 0

/-- The slots of a PAIR body with their masks cut to two bits, and how many bits were cleared. -/
def pairClean (f : Nat) (body : List (Byte × Bool)) : List (Byte × Bool) × Nat :=
  let step := 1 + 2 * blkW f
  let out := body.zipIdx.map fun b =>
    if b.2 % step = 0 then ((BitVec.ofNat 8 (lowTwo b.1.1.toNat), b.1.2), popCount8 b.1.1.toNat - popCount8 (lowTwo b.1.1.toNat))
    else (b.1, 0)
  (out.map (·.1), (out.map (·.2)).sum)

/-! ## Expansion (R257, R258) -/

/-- A GCSR body that R258 accepts: first row pointer 0, last NNZG, none less than the one before, column indices below GROUPS and
strictly ascending within each row. -/
def gcsrOk (h : BlkHdr) (body : List Byte) : Bool :=
  let ptr (i : Nat) : Nat := leAt body (4 * i) 4
  let col (i : Nat) : Nat := leAt body (4 * (h.rows + 1) + 2 * i) 2
  ptr 0 == 0 && ptr h.rows == h.nnzg &&
  (List.range h.rows).all fun r => decide (ptr r ≤ ptr (r + 1)) &&
    (List.range (ptr (r + 1) - ptr r)).all fun k =>
      decide (col (ptr r + k) < h.groups) && (k == 0 || decide (col (ptr r + k - 1) < col (ptr r + k)))

/-- The groups of a block, row after row, and which of them its form marks non-zero. -/
def blkGroups (h : BlkHdr) (body : List Byte) : List (List Nat × Bool) :=
  let f := h.fmt
  match h.form with
  | 0 => (groupsOf f (body.take (h.rows * h.groups * blkV f))).map fun g => (g, groupNz f g)
  | 1 =>
    let ptr (i : Nat) : Nat := leAt body (4 * i) 4
    let col (i : Nat) : Nat := leAt body (4 * (h.rows + 1) + 2 * i) 2
    let vals := up8 (16 + 4 * (h.rows + 1) + 2 * h.nnzg) - 16
    (List.range h.rows).flatMap fun r => (List.range h.groups).map fun g =>
      match (List.range (ptr (r + 1) - ptr r)).find? (fun k => col (ptr r + k) == g) with
      | some k => (unpack (fmtBits f) 8 (leAt body (vals + (ptr r + k) * blkV f) (blkV f)), true)
      | none => (List.replicate 8 0, false)
  | _ =>
    (List.range (h.rows * h.groups)).map fun i =>
      let a := i * (1 + 2 * blkW f)
      let m := leAt body a 1
      let ps := (List.range 8).filter fun k => m.testBit k
      let v (j : Nat) : Nat := leAt body (a + 1 + j * blkW f) (blkW f) % 2 ^ fmtBits f
      ((List.range 8).map fun k => if ps[0]? = some k then v 0 else if ps[1]? = some k then v 1 else 0, m != 0)

end Sys2Proof.Machine
end

