-- ==== Sys2Proof/Machine/APlan.lean ====
section
/-! DEFINITION. Machine/APlan.lean: what an access instruction in flight reads, and what it has delivered so far (R135 to R141,
R152 to R162). Every value here is a function of the instruction's registers and of the granules that have arrived. -/

namespace Sys2Proof.Machine

/-! ## Access descriptors (R135, R136) -/

/-- The descriptor at an operand-memory address. -/
def readADesc (x : CellSt) (a : Nat) : ADesc :=
  let b := x.op a 32
  { addr := a, base := BitVec.ofNat 64 (leAt b 0 8), extent := leAt b 8 5, kind := leAt b 13 1, flags := leAt b 14 1,
    runahead := leAt b 15 1, off := leAt b 16 2, len := leAt b 18 2 + 1, cap := leAt b 20 4, block := leAt b 24 4, rsv := leAt b 28 4 }

/-- No descriptor. -/
def ADesc.blank : ADesc :=
  { addr := 0, base := 0, extent := 0, kind := 0, flags := 0, runahead := 0, off := 0, len := 1, cap := 0, block := 0, rsv := 0 }

/-- The `i`-th descriptor of the instruction in flight, as it was read at issue. -/
def AOp.desc (o : AOp) (i : Nat) : ADesc := o.descs.getD i ADesc.blank

def ADesc.cache (d : ADesc) : Bool := natBit d.flags 0
def ADesc.remote (d : ADesc) : Bool := natBit d.flags 1
/-- Granules that the instruction may hold ahead of chute credit (R149). -/
def ADesc.ahead (d : ADesc) : Nat := if natBit d.flags 2 then d.runahead * 16 else 0
def ADesc.handle (d : ADesc) : Nat := addrHandle d.base
def ADesc.i0 (d : ADesc) : Nat := addrIndex d.base
/-- R, G and the format of a BLOCK field (R135). -/
def ADesc.blkR (d : ADesc) : Nat := natBits d.block 7 0 + 1
def ADesc.blkG (d : ADesc) : Nat := natBits d.block 19 8
def ADesc.blkF (d : ADesc) : Nat := natBits d.block 23 20

/-- What an operand allows of its descriptor. -/
inductive Role where
  | obj | list | opmem | storec | streamc
  deriving DecidableEq, Repr

/-- The conditions of BAD_DESC (R136, R157). -/
def ADesc.bad (d : ADesc) (r : Role) : Bool :=
  decide (1 < d.kind) || decide (8 ≤ d.flags) || d.rsv != 0 ||
  (d.kind == 1 && (decide (2 ^ 20 ≤ d.base.toNat) || decide (opSoft < d.base.toNat + d.extent))) ||
  (d.cap != 0 && r != .storec && r != .streamc) || (d.block != 0 && r != .storec) ||
  (r == .storec && (natBits d.block 31 24 != 0 || decide (128 ≤ natBits d.block 7 0) || d.blkG == 0 || decide (512 < d.blkG) || !blockFmt d.blkF)) ||
  (match r with | .opmem => d.kind != 1 | .list => false | _ => d.kind != 0)

/-- Descriptors of an instruction, in the order of its operands. -/
def aRoles (op : Nat) (w : W64) : List (Nat × Role) :=
  match op with
  | 0x10 => [(wD1 w, .obj), (wD2 w, .list)]
  | 0x11 => [(wD1 w, .obj), (wD2 w, .obj), (wD2 w + 32, .obj)] ++ (match wIchE w with | some _ => [(wD2 w + 64, .obj)] | none => [])
  | 0x13 => [(wD1 w, .streamc)]
  | 0x14 => [(wD1 w, .obj), (wD2 w, .opmem)]
  | 0x21 => [(wD1 w, .storec)]
  | 0x22 => [(wD1 w, .obj), (wD2 w, .list)]
  | 0x23 => [(wD1 w, .obj), (wD2 w, .obj)]
  | _ => [(wD1 w, .obj)]

/-! ## Elements and granules -/

/-- An address register advanced by `n` elements: bits [63:40] stay (R134). -/
def advAddr (a : W64) (n : Int) : W64 := mkAddr (addrHandle a) (((addrIndex a : Int) + n) % (2 ^ 40 : Nat)).toNat

/-- A bad index of a KIND 0 operand (R137). -/
def idxBad (q : ADesc) (d : Desc) (handle idx : Nat) : Bool :=
  handle != q.handle || decide (idx < q.i0) || decide (q.i0 + q.extent ≤ idx) || decide (d.count ≤ idx) ||
  decide (d.esize < q.off + q.len)

/-- A granule that an instruction asks for: `ahead` of chute credit (R149), or as a prefetch. -/
structure Ask where
  key : Nat
  d : Desc
  q : ADesc
  pref : Bool
  ahead : Bool
  idx : Nat
  plot : Nat
  off : Nat
  deriving DecidableEq, Repr

/-- The granule offsets in its plot of bytes `off` to `off + len − 1` of an element. -/
def elemGrans (d : Desc) (idx off len : Nat) : List Nat :=
  let b := plotOff d idx + off
  (List.range ((b + len - 1) / 64 + 1 - b / 64)).map fun j => (b / 64 + j) * 64

/-- The number of granule `j` at place `pos` of a stream. -/
def mkKey (stream pos j : Nat) : Nat := (pos * 2048 + j) * 8 + stream

/-- The granules of bytes `lo` to `lo + len − 1` of a part that begins at byte `off` of an element: the place of each among the granules of
the part, and its offset in the plot. -/
def spanGrans (d : Desc) (idx off lo len : Nat) : List (Nat × Nat) :=
  let b := plotOff d idx + off
  (elemGrans d idx (off + lo) len).map fun g => (g / 64 - b / 64, g)

def spanAsks (stream pos : Nat) (d : Desc) (q : ADesc) (idx off lo len : Nat) (ahead : Bool) : List Ask :=
  (spanGrans d idx off lo len).map fun g =>
    { key := mkKey stream pos g.1, d := d, q := q, pref := false, ahead := ahead, idx := idx, plot := plotOf d idx, off := g.2 }

def elemAsks (stream pos : Nat) (d : Desc) (q : ADesc) (idx off len : Nat) (ahead : Bool) : List Ask :=
  spanAsks stream pos d q idx off 0 len ahead

def AOp.have (o : AOp) (k : Nat) : Option Granule := o.got.find? (·.key == k)

/-- Bytes of granules, once they have all arrived, each byte with the poison of its granule. -/
def AOp.granBytes (o : AOp) (keys : List Nat) : Option (List (Byte × Bool)) :=
  let gs := keys.map o.have
  if gs.all Option.isSome then
    some (gs.flatMap fun g => match g with | some g => (Machine.granBytes g.data).map fun b => (b, g.poison) | none => [])
  else none

/-- Bytes `lo` to `lo + len − 1` of a part of an element, once they have arrived. -/
def spanBytes (o : AOp) (stream pos : Nat) (d : Desc) (idx off lo len : Nat) : Option (List (Byte × Bool)) :=
  (o.granBytes ((spanGrans d idx off lo len).map fun g => mkKey stream pos g.1)).map fun all =>
    (all.drop ((plotOff d idx + off + lo) % 64)).take len

def elemBytes (o : AOp) (stream pos : Nat) (d : Desc) (idx off len : Nat) : Option (List (Byte × Bool)) :=
  spanBytes o stream pos d idx off 0 len

/-- A value that the engine uses to form requests. -/
inductive Word where
  | unknown
  | val (v : Nat)
  | pois
  | bad (idx : Nat)
  deriving DecidableEq, Repr

/-- A word of an element (R33, R137): the part that the descriptor declares, of which the first five bytes count when it is longer, and all
there are when it is shorter (log entry 83, DESIGN CHOICE: R33 gives a word five bytes and says nothing of another element size). -/
def elemWord (o : AOp) (stream pos : Nat) (q : ADesc) (d : Desc) (handle idx : Nat) : Word :=
  if idxBad q d handle idx then .bad idx
  else match elemBytes o stream pos d idx q.off (Nat.min q.len 5) with
    | none => .unknown
    | some b => if b.any (·.2) then .pois else .val (leNat (b.map (·.1)))

def wordAsks (stream pos : Nat) (q : ADesc) (d : Desc) (handle idx : Nat) (ahead : Bool) : List Ask :=
  if idxBad q d handle idx then [] else elemAsks stream pos d q idx q.off (Nat.min q.len 5) ahead

/-! ## Items of a stream -/

/-- What stands at one place of a stream of parts: an element to load, an element of an object that cannot be translated, zeros for a
skipped entry, zeros for a bad index or a malformed edge in a lenient program, zeros marked poisoned. -/
inductive Item where
  | part (idx : Nat)
  | dead (a : W64)
  | zero
  | badIdx (idx : Nat)
  | badEdge
  | pois
  deriving DecidableEq, Repr

/-- Why a list of items ends where it does. -/
inductive Stop where
  | more
  | done
  | badIndex (idx pos : Nat)
  | fault (code : Nat) (info : W64)
  deriving DecidableEq, Repr

/-- The item that a vertex word names in the feature operand (R60, R137, R153, R166): `d` is none where the operand's object cannot be
translated, which a skipped entry does not ask. -/
def wordItem (q : ADesc) (d : Option Desc) (w : Word) : Option Item :=
  match w with
  | .unknown => none
  | .pois => some .pois
  | .bad i => some (.badIdx i)
  | .val v =>
    if v = noVertex then some .zero
    else match d with
      | none => some (.dead (mkAddr q.handle v))
      | some d => if idxBad q d q.handle v then some (.badIdx v) else some (.part v)

/-- The items of a list of words up to the first that is unknown, or that faults a program that is not lenient. -/
def itemsGo (lenient : Bool) (f : Nat → Option Item) : Nat → Nat → List Item × Stop
  | 0, _ => ([], .done)
  | n + 1, k =>
    match f k with
    | none => ([], .more)
    | some (.dead a) => ([], .fault fBadHandle a)
    | some (.badIdx i) =>
      if lenient then
        let r := itemsGo lenient f n (k + 1)
        (.badIdx i :: r.1, r.2)
      else ([], .badIndex i k)
    | some it =>
      let r := itemsGo lenient f n (k + 1)
      (it :: r.1, r.2)

/-- Parts of `b` bytes that one slot holds, and slots that one part fills (R139). -/
def perSlot (b : Nat) : Nat := Nat.max 1 (slotBytes / b)
def slotsPer (b : Nat) : Nat := ceilDiv b slotBytes

/-- The pieces of a part of `b` bytes, each of which lies in one slot: first byte and length. -/
def piecesOf (b : Nat) : List (Nat × Nat) :=
  if b ≤ slotBytes then [(0, b)]
  else (List.range (slotsPer b)).map fun j => (j * slotBytes, Nat.min slotBytes (b - j * slotBytes))

/-- The bytes of a piece of an item, once they are there. -/
def itemBytes (o : AOp) (stream pos : Nat) (d : Option Desc) (q : ADesc) (it : Item) (p : Nat × Nat) : Option (List (Byte × Bool)) :=
  match it, d with
  | .part i, some d => spanBytes o stream pos d i q.off p.1 p.2
  | .pois, _ => some (List.replicate p.2 (0, true))
  | _, _ => some (List.replicate p.2 (0, false))

/-- The pieces of a list's items up to the first that has not arrived. -/
def partsGo (o : AOp) (stream : Nat) (d : Option Desc) (q : ADesc) : List ((Item × Nat) × (Nat × Nat)) → List (List (Byte × Bool))
  | [] => []
  | ((it, k), p) :: t =>
    match itemBytes o stream k d q it p with
    | some b => b :: partsGo o stream d q t
    | none => []

/-- The pieces of a list of items, in order. -/
def pieceList (q : ADesc) (items : List Item) : List ((Item × Nat) × (Nat × Nat)) :=
  items.zipIdx.flatMap fun it => (piecesOf q.len).map fun p => (it, p)

/-! ## Packing into slots (R139) -/

/-- The slots that are complete: the pieces that have arrived, whole slots of them, and the short last slot once the stream has
ended with every piece arrived. -/
def packSlots (b : Nat) (parts : List (List (Byte × Bool))) (last : Bool) : List (List (Byte × Bool)) :=
  if b ≤ slotBytes then
    ((chunks (perSlot b) parts.length parts).filter fun c => last || c.length == perSlot b).map List.flatten
  else parts

/-- How many parts of `b` bytes have room, if only for their beginning, in `n` slots: those pushed and those free. -/
def roomParts (b n : Nat) : Nat := if b ≤ slotBytes then n * perSlot b else ceilDiv n (slotsPer b)

/-! ## Index lists (R137) -/

/-- Entry `k` of an index list. -/
def listWord (x : CellSt) (o : AOp) (q : ADesc) (d : Option Desc) (cur : W64) (k : Nat) : Word :=
  if q.kind = 1 then
    let a := cur.toNat + 5 * k
    if 2 ^ 20 ≤ cur.toNat ∨ a < q.base.toNat ∨ q.base.toNat + q.extent < a + 5 then .bad (a % 2 ^ 40)
    else if (x.opPoisoned a 5).isSome then .pois
    else .val (x.opNat a 5)
  else match d with
    | some d => elemWord o 1 k q d (addrHandle cur) (addrIndex (advAddr cur k))
    | none => .unknown

def listAsks (q : ADesc) (d : Option Desc) (cur : W64) (k : Nat) : List Ask :=
  if q.kind = 1 then []
  else match d with
    | some d => wordAsks 1 k q d (addrHandle cur) (addrIndex (advAddr cur k)) false
    | none => []

/-- A list's cursor after `n` entries. -/
def listNext (q : ADesc) (cur : W64) (n : Nat) : W64 :=
  if q.kind = 1 then cur + BitVec.ofNat 64 (5 * n) else advAddr cur n

/-! ## Delta-coded columns (R155, R156) -/

/-- The number of the granule that holds byte `i` of a delta-coded object. -/
def deltaKey (i : Nat) : Nat := mkKey 5 (i / 64) 0

/-- A byte of a delta-coded object: its value and poison. Its elements are single bytes, so byte i of a plot lies at offset i. -/
def deltaByte (o : AOp) (i : Nat) : Option (Nat × Bool) :=
  (o.have (deltaKey i)).map fun g => (((Machine.granBytes g.data).getD (i % 64) 0).toNat, g.poison)

def deltaAsk (d : Desc) (q : ADesc) (i : Nat) (ahead : Bool) : Ask :=
  { key := deltaKey i, d := d, q := q, pref := false, ahead := ahead, idx := i, plot := plotOf d i, off := plotOff d i / 64 * 64 }

/-- What decoding met: a value and the byte after it, a byte that has not arrived, a poisoned one, a malformed one (R156), or one that the
operand does not declare (R137). -/
inductive Dec where
  | val (v next : Nat)
  | want (i : Nat)
  | pois
  | bad (at_ : Nat)
  | out (i : Nat)
  deriving DecidableEq, Repr

/-- A delta-coded operand: the instruction, its descriptor, its object. -/
structure DeltaSrc where
  o : AOp
  q : ADesc
  d : Desc

/-- A byte of the operand, to go on with. -/
def DeltaSrc.byte (x : DeltaSrc) (i : Nat) (f : Nat → Dec) : Dec :=
  if x.d.count ≤ i then .bad i
  else if idxBad x.q x.d x.q.handle i then .out i
  else match deltaByte x.o i with
    | none => .want i
    | some (b, p) => if p then .pois else f b

/-- A varint from byte `i`: up to six bytes of seven bits, least significant group first. -/
def varintGo (x : DeltaSrc) : Nat → Nat → Nat → Nat → Dec
  | 0, i, _, _ => .bad (i - 1)
  | n + 1, i, sh, acc =>
    x.byte i fun b =>
      let acc := acc + b % 128 * 2 ^ sh
      if b < 128 then .val acc (i + 1) else varintGo x n (i + 1) (sh + 7) acc

def varint (x : DeltaSrc) (i : Nat) : Dec := varintGo x 6 i 0 0

/-- zigzag(x) is 2x for x ≥ 0 and −2x − 1 for x < 0. -/
def unzigzag (v : Nat) : Int := if v % 2 = 0 then (v / 2 : Nat) else -((v / 2 : Nat) : Int) - 1

/-- The column of edge `k` of a block, from byte `i`; `prev` is the column before it, none for the block's first. -/
def deltaGo (x : DeltaSrc) : Nat → Nat → Option Int → Dec
  | k, i, prev =>
    match varint x i with
    | .val v nx =>
      let col : Int := match prev with | none => v | some p => p + unzigzag v
      if col < 0 ∨ (2 ^ 40 : Int) ≤ col then .bad i
      else match k with
        | 0 => .val col.toNat nx
        | k' + 1 => deltaGo x k' nx (some col)
    | r => r

/-- A little-endian number of `n` bytes of the object from byte `i`. -/
def deltaNatGo (x : DeltaSrc) : Nat → Nat → Nat → Nat → Dec
  | 0, i, _, acc => .val acc i
  | n + 1, i, m, acc => x.byte i fun b => deltaNatGo x n (i + 1) (m * 256) (acc + b * m)

def deltaNat (x : DeltaSrc) (n i : Nat) : Dec := deltaNatGo x n i 1 0

/-- The column of edge `j`. -/
def deltaCol (x : DeltaSrc) (j : Nat) : Dec :=
  match deltaNat x 5 (8 + 5 * (j / 256)) with
  | .val a _ => deltaGo x (j % 256) a none
  | r => r

/-! ## Segments of A.GATHERCSR (R141) -/

/-- One vertex's edges: the first, their number, and whether a row pointer was poisoned. `bad` is the index of a row pointer
counted as a bad index in a lenient program. -/
structure Seg where
  first : Nat
  len : Nat
  pois : Bool
  bad : Option Nat
  deriving DecidableEq, Repr

/-- The segments of the vertices from number `k` on. `edges` is the number of edges before, which is the position of a bad row
pointer; `limit` is E of a delta-coded operand, once it is known, with the address of element 0. -/
def segsGo (lenient : Bool) (cur : W64) (ptr : Nat → Word) (limit : Option (Option Nat × W64)) : Nat → Nat → Nat → List Seg × Stop
  | 0, _, _ => ([], .done)
  | n + 1, k, edges =>
    let go (g : Seg) : List Seg × Stop :=
      let r := segsGo lenient cur ptr limit n (k + 1) (edges + g.len)
      (g :: r.1, r.2)
    let bad (i : Nat) : List Seg × Stop :=
      if lenient then go { first := 0, len := 0, pois := false, bad := some i } else ([], .badIndex i edges)
    match ptr k, ptr (k + 1) with
    | .unknown, _ => ([], .more)
    | .bad i, _ => bad i
    | _, .unknown => ([], .more)
    | _, .bad i => bad i
    | .pois, _ => go { first := 0, len := 0, pois := true, bad := none }
    | _, .pois => go { first := 0, len := 0, pois := true, bad := none }
    | .val b, .val e =>
      if e < b then ([], .fault fCsrFormat (advAddr cur (k + 1)))
      else if 2 ^ 32 ≤ e - b then ([], .fault fSegRange (BitVec.ofNat 64 (addrIndex (advAddr cur k))))
      else
        let g : Seg := { first := b, len := e - b, pois := false, bad := none }
        match limit with
        | none => go g
        | some (none, _) => ([], .more)
        | some (some lim, a) => if lim < e ∧ !lenient then ([], .fault fCsrFormat a) else go g

/-- The edges of segments in order. -/
def segEdges (l : List Seg) : List Nat := l.flatMap fun g => (List.range g.len).map (g.first + ·)

end Sys2Proof.Machine
end

