-- ==== Sys2Proof/Machine/ARun.lean ====
section
/-! DEFINITION. Machine/ARun.lean: how an access instruction goes on: asking for granules, filling chute slots and operand memory,
and taking bytes from an output chute to write them (R138 to R166). -/

namespace Sys2Proof.Machine

/-! ## Events (R152, R153, R166) -/

/-- The first bad index of a program, recorded until the next launch (R153, R169). -/
def State.recordBad (s : State) (c idx pos : Nat) : State :=
  if s.regBit (rCell c 0x114) 31 then s
  else
    let pc := match (s.cell c).ae.prog with | some p => p.pc | none => 0
    ((s.setReg (rCell c 0x10C) (BitVec.ofNat 32 idx)).setReg (rCell c 0x110)
      (BitVec.ofNat 32 (idx / 2 ^ 32 % 256 + pos % 2 ^ 24 * 256))).setReg (rCell c 0x114) (BitVec.ofNat 32 (pc % 4096 + 2 ^ 31))

def State.countLenient (s : State) (c n : Nat) : State :=
  if n = 0 then s else (s.countC c (cAe 7) n).sumFlag c .access sLenient

def State.countItem (s : State) (c pos : Nat) (it : Item) : State :=
  match it with
  | .badIdx i => (s.recordBad c i pos).countLenient c 1
  | .badEdge => s.countLenient c 1
  | .pois => (s.countC c (cAe 10) 1).sumFlag c .access sPoison
  | _ => s

/-- A bad index of a program that is not lenient (R152). -/
def State.badIndexFault (s : State) (c idx pos : Nat) : State :=
  (s.recordBad c idx pos).engineFault c .access fBadIndex (BitVec.ofNat 64 (idx % 2 ^ 40 + pos % 2 ^ 24 * 2 ^ 40))

/-! ## Reading instructions -/

/-- Where a stream of a round goes. -/
inductive Dest where
  | chute (k : Nat)
  | memory (base : Nat)
  deriving DecidableEq, Repr

/-- A stream of a round: its place in `AOp.pushed`, where it goes, the slots (or pieces) that are ready, each byte with its poison, whether
they are all, and whether it has anything to send. -/
structure Strm where
  no : Nat
  dest : Dest
  ready : List (List (Byte × Bool))
  ended : Bool
  some' : Bool
  deriving DecidableEq, Repr

/-- What a reading instruction wants and has, at one moment. `evs` are items with their positions whose events have not been
counted, `ready` and `segs` how many items and segments have then been, and `drops` the mask bits cleared in new blocks. -/
structure Plan where
  strms : List Strm
  asks : List Ask
  evs : List (Nat × Item)
  ready : Nat
  segs : Nat
  stop : Stop
  drops : Nat
  deriving DecidableEq, Repr

def Plan.only (st : Stop) : Plan := { strms := [], asks := [], evs := [], ready := 0, segs := 0, stop := st, drops := 0 }

/-- The items of a list that are not counted yet, with their positions. -/
def AOp.newItems (o : AOp) (l : List Item) : List (Nat × Item) := (l.zipIdx.drop o.done).map fun e => (e.2, e.1)

def AOp.pushedAt (o : AOp) (i : Nat) : Nat := o.pushed.getD i 0

/-- The stop of a list that was cut at a limit: more is to come. -/
def Stop.cut (st : Stop) (all : Bool) : Stop := if st = .done ∧ !all then .more else st

/-- The stop of a list of `n` items of which only `credit` have chute credit: what run-ahead meets beyond them stops nothing yet (R151). -/
def Stop.within (st : Stop) (n credit : Nat) : Stop :=
  match st with
  | .badIndex _ _ => if n < credit then st else .more
  | .fault _ _ => if n < credit then st else .more
  | _ => st

/-- Slots of a stream that have been pushed or are free. -/
def AOp.slots (o : AOp) (x : CellSt) (no chute : Nat) : Nat := o.pushedAt no + x.credits chute

/-- The asks of the parts of a list, as far as `slots` slots and `more` parts ahead of them reach. -/
def partAsks (stream : Nat) (d : Option Desc) (q : ADesc) (slots more : Nat) (l : List Item) : List Ask :=
  match d with
  | none => []
  | some d =>
    (pieceList q l).zipIdx.flatMap fun it =>
      let credit := if q.len ≤ slotBytes then slots * perSlot q.len else slots
      let far := if q.len ≤ slotBytes then more else more * slotsPer q.len
      match it.1.1.1 with
      | .part i =>
        if it.2 < credit + far then spanAsks stream it.1.1.2 d q i q.off it.1.2.1 it.1.2.2 (decide (credit ≤ it.2)) else []
      | _ => []

/-- A stream of parts that go to a chute. -/
def chuteStrm (o : AOp) (no chute stream : Nat) (d : Option Desc) (q : ADesc) (items : List Item) (ended some' : Bool) : Strm :=
  let all := pieceList q items
  let parts := partsGo o stream d q all
  { no := no, dest := .chute chute, ready := packSlots q.len parts (ended && parts.length == all.length), ended := ended, some' := some' }

def planGather (s : State) (x : CellSt) (lenient : Bool) (o : AOp) : Plan :=
  let q := o.desc 0
  let qi := o.desc 1
  let cur := o.areg.getD (wAa o.word) 0
  let di := if qi.kind = 1 then none else s.liveDesc qi.handle
  let d := s.liveDesc q.handle
  let slots := o.slots x 0 (wCh o.word)
  let lim := Nat.min o.n (roomParts q.len slots)
  if o.n = 0 then Plan.only .done
  else if qi.kind = 0 ∧ di.isNone then Plan.only (.fault fBadHandle cur)
  else
    let (items, st) := itemsGo lenient (fun k => wordItem q d (listWord x o qi di cur k)) lim 0
    let st := st.cut (lim == o.n)
    { strms := [chuteStrm o 0 (wCh o.word) 0 d q items (st == .done) true],
      asks := (List.range lim).flatMap (listAsks qi di cur) ++ partAsks 0 d q slots 0 items,
      evs := o.newItems items, ready := items.length, segs := 0, stop := st, drops := 0 }

/-- The items of consecutive elements. -/
def runItem (q : ADesc) (d : Desc) (cur : W64) (k : Nat) : Option Item :=
  let i := addrIndex (advAddr cur k)
  if idxBad q d (addrHandle cur) i then some (.badIdx i) else some (.part i)

def granPer (q : ADesc) : Nat := ceilDiv q.len 64

def planStream (s : State) (x : CellSt) (lenient : Bool) (o : AOp) : Plan :=
  let q := o.desc 0
  let cur := o.areg.getD (wAa o.word) 0
  if o.n = 0 then Plan.only .done
  else match s.liveDesc q.handle with
    | none => Plan.only (.fault fBadHandle cur)
    | some d =>
      let slots := o.slots x 0 (wCh o.word)
      let credit := roomParts q.len slots
      let more := q.ahead / granPer q
      let lim := Nat.min o.n (credit + more)
      let (items, st) := itemsGo lenient (runItem q d cur) lim 0
      let st := (st.within items.length credit).cut (lim == o.n)
      { strms := [chuteStrm o 0 (wCh o.word) 0 (some d) q items (st == .done) true], asks := partAsks 0 (some d) q slots more items,
        evs := o.newItems (items.take credit), ready := Nat.min items.length credit, segs := 0, stop := st, drops := 0 }

/-- A.LOAD goes as A.STREAM does, with operand memory in the place of a chute: it reads the parts of the 2,048 bytes that it writes next, and
ahead of them as RUNAHEAD allows (R149; log entry 17, DEDUCED). -/
def planLoad (s : State) (lenient : Bool) (o : AOp) : Plan :=
  let q := o.desc 0
  let qo := o.desc 1
  let cur := o.areg.getD (wAa o.word) 0
  if o.n = 0 then Plan.only .done
  else if qo.extent < o.n * q.len then Plan.only (.fault fBadDesc (BitVec.ofNat 64 qo.addr))
  else match s.liveDesc q.handle with
    | none => Plan.only (.fault fBadHandle cur)
    | some d =>
      let slots := (if q.len ≤ slotBytes then o.pushedAt 0 / perSlot q.len else o.pushedAt 0) + 1
      let credit := roomParts q.len slots
      let more := q.ahead / granPer q
      let lim := Nat.min o.n (credit + more)
      let (items, st) := itemsGo lenient (runItem q d cur) lim 0
      let st := (st.within items.length credit).cut (lim == o.n)
      { strms := [{ no := 0, dest := .memory qo.base.toNat, ready := partsGo o 0 (some d) q (pieceList q items), ended := st == .done,
                    some' := true }],
        asks := partAsks 0 (some d) q slots more items, evs := o.newItems (items.take credit), ready := Nat.min items.length credit,
        segs := 0, stop := st, drops := 0 }

/-- The columns of A.GATHERCSR: whether they are delta-coded, E once it is known and the byte by which it could not be read (R137), the operand's
object, and the handle of the edges' addresses. -/
structure ColSrc where
  delta : Bool
  limit : Option Nat
  out : Option Nat
  q : ADesc
  d : Option Desc
  handle : Nat

/-- The delta-coded granules by which an edge within credit was decoded, for `settleAhead`: those of its block up to byte `nx`, or all that
were asked for ahead where decoding met no value. -/
def deltaTouch (x : DeltaSrc) (j : Nat) (r : Dec) : List Ask :=
  let dir := 8 + 5 * (j / 256)
  let ask (i : Nat) : Ask := deltaAsk x.d x.q i false
  match r, deltaNat x 5 dir with
  | .val _ nx, .val a _ => ask dir :: ask (dir + 4) :: (List.range ((nx - 1) / 64 + 1 - a / 64)).map fun k => ask ((a / 64 + k) * 64)
  | _, _ => (x.o.ahead.filter fun k => keyStream k == 5).map fun k => { ask 0 with key := k }

/-- The item of column `j`, the `pos`-th edge of the instruction. -/
def colItem (o : AOp) (lenient : Bool) (c : ColSrc) (q : ADesc) (d : Option Desc) (credit j pos : Nat) :
    Option Item × List Ask × Option (Nat × W64) :=
  let early := decide (credit ≤ pos)
  match c.d with
  | none => (none, [], some (fBadHandle, mkAddr c.handle j))
  | some dc =>
    if c.delta then
      let fault (a : Nat) : Option (Nat × W64) := some (fCsrFormat, mkAddr c.q.handle a)
      if c.handle ≠ c.q.handle then (some (.badIdx j), [], none)
      else match c.out, c.limit with
      | some i, _ => (some (.badIdx i), [], none)
      | none, some lim =>
        if lim ≤ j then (if lenient then (some .badEdge, [], none) else (none, [], fault 0))
        else
          let x : DeltaSrc := { o := o, q := c.q, d := dc }
          let r := deltaCol x j
          let touch := if early then [] else deltaTouch x j r
          match r with
          | .val v _ => (wordItem q d (.val v), touch, none)
          | .want i => (none, [deltaAsk dc c.q i early], none)
          | .pois => (some .pois, touch, none)
          | .bad a => if lenient then (some .badEdge, touch, none) else (none, touch, fault a)
          | .out i => (some (.badIdx i), touch, none)
      | none, none => (none, [], none)
    else (wordItem q d (elemWord o 4 pos c.q dc c.handle j), wordAsks 4 pos c.q dc c.handle j early, none)

/-- The edges' items in order up to the first unknown, with the asks of all of them. -/
def colsGo (lenient : Bool) (f : Nat → Nat → Option Item × List Ask × Option (Nat × W64)) :
    Nat → List Nat → List Item × List Ask × Stop
  | _, [] => ([], [], .done)
  | pos, j :: t =>
    match f j pos with
    | (_, asks, some (code, info)) => ([], asks, .fault code info)
    | (none, asks, none) => ([], asks ++ t.zipIdx.flatMap fun e => (f e.1 (pos + 1 + e.2)).2.1, .more)
    | (some (.dead a), asks, none) => ([], asks, .fault fBadHandle a)
    | (some (.badIdx i), asks, none) =>
      if lenient then
        let r := colsGo lenient f (pos + 1) t
        (.badIdx i :: r.1, asks ++ r.2.1, r.2.2)
      else ([], asks, .badIndex i pos)
    | (some it, asks, none) =>
      let r := colsGo lenient f (pos + 1) t
      (it :: r.1, asks ++ r.2.1, r.2.2)

/-- The items of edge values: element `j` of dE for edge `j`, up to the first that faults. -/
def valsGo (lenient : Bool) (q : ADesc) (d : Option Desc) : Nat → List Nat → List Item × Stop
  | _, [] => ([], .done)
  | pos, j :: t =>
    match d with
    | none => ([], .fault fBadHandle (mkAddr q.handle j))
    | some e =>
      if idxBad q e q.handle j then
        if lenient then
          let r := valsGo lenient q d (pos + 1) t
          (.badIdx j :: r.1, r.2)
        else ([], .badIndex j pos)
      else
        let r := valsGo lenient q d (pos + 1) t
        (.part j :: r.1, r.2)

/-- Bad indices among edge values that are not counted yet. -/
def AOp.newVals (o : AOp) (l : List Item) : List (Nat × Item) :=
  (o.newItems l).filter fun e => match e.2 with | .badIdx _ => true | _ => false

/-- The events of segments not counted yet, of those within `n` whose edges before have all been dealt with: each stands at the position of
the next edge. -/
def AOp.newSegs (o : AOp) (segs : List Seg) (n cols : Nat) : Nat × List (Nat × Item) :=
  let before (k : Nat) : Nat := ((segs.take k).map (·.len)).sum
  let upTo := ((List.range (Nat.min n segs.length)).takeWhile fun k => decide (before k ≤ cols)).length
  (upTo, ((segs.zipIdx.take upTo).drop (o.pushedAt 3)).flatMap fun g =>
    match g.1.bad with
    | some i => [(before g.2, Item.badIdx i)]
    | none => if g.1.pois then [(before g.2, Item.pois)] else [])

def planGatherCsr (s : State) (x : CellSt) (lenient : Bool) (o : AOp) : Plan :=
  let q := o.desc 0
  let qr := o.desc 1
  let qc := o.desc 2
  let qe := o.desc 3
  let cur := o.areg.getD (wAa o.word) 0
  let vert := !wEdgeMode o.word
  let d := s.liveDesc q.handle
  let dc := s.liveDesc qc.handle
  let de := s.liveDesc qe.handle
  if o.n = 0 ∧ vert then Plan.only .done
  else match (if vert then s.liveDesc qr.handle else dc) with
    | none => Plan.only (.fault fBadHandle cur)
    | some dr =>
      let delta := match dc with | some e => e.esize == 1 | none => false
      let e := match dc with | some e => if delta then deltaNat { o := o, q := qc, d := e } 5 0 else .pois | none => .pois
      -- E poisoned limits nothing and is counted nowhere (log entry 83, DESIGN CHOICE: R166 names rows, vertices and block bytes)
      let limit : Option Nat := match e with | .val v _ => some v | .bad _ => some 0 | .want _ => none | _ => some (2 ^ 40)
      let out : Option Nat := match e with | .out i => some i | _ => none
      let headAsk := match dc with | some e => if delta && out.isNone then [deltaAsk e qc 0 false] else [] | none => []
      let creditS := o.slots x 1 (wIchS o.word) * 512
      let rows := if vert then Nat.min (o.n + 1) (creditS + 12 * qr.ahead + 1) else 0
      let idx (k : Nat) : Nat := addrIndex (advAddr cur k)
      let ptr (k : Nat) : Word := if k < rows then elemWord o 3 k qr dr (addrHandle cur) (idx k) else .unknown
      let ptrAsks := (List.range rows).flatMap fun k => wordAsks 3 k qr dr (addrHandle cur) (idx k) (decide (creditS < k))
      let (segs, sst) :=
        if vert then segsGo lenient cur ptr (if delta then some (limit, mkAddr qc.handle 0) else none) o.n 0 0
        else ([{ first := addrIndex cur, len := o.n, pois := false, bad := none }], .done)
      let sst := if vert then sst.within segs.length creditS else sst
      let slots := o.slots x 0 (wCh o.word)
      let slotsE := match wIchE o.word with | some k => o.slots x 2 k | none => 0
      let room := roomParts q.len slots
      let room := if (wIchE o.word).isSome then Nat.min room (roomParts qe.len slotsE) else room
      let edges := segEdges segs
      let credit := if vert then Nat.min room (segEdges (segs.take creditS)).length else room
      let cut := edges.take (credit + 12 * qc.ahead)
      let src : ColSrc := { delta := delta, limit := limit, out := out, q := qc, d := dc, handle := if vert then qc.handle else addrHandle cur }
      let (cols, colAsks, cst) := colsGo lenient (colItem o lenient src q d credit) 0 cut
      let mine := cols.take credit
      let (vals, vst) := if (wIchE o.word).isSome then valsGo lenient qe de 0 (cut.take mine.length) else ([], .done)
      let all := decide (edges.length ≤ credit) && cols.length == edges.length
      let stop : Stop := match vst with
        | .done => (match cst.within cols.length credit with
          | .done => if all then sst else .more
          | st => st)
        | st => st
      let sent := stop == .done
      let lens := segs.map fun g => (leBytes 4 g.len).map fun b => (b, g.pois)
      let (seen, segEvs) := o.newSegs segs (if vert then creditS else 1) mine.length
      { strms := [chuteStrm o 0 (wCh o.word) 0 d q mine sent (!edges.isEmpty),
                  { no := 1, dest := .chute (wIchS o.word), ready := packSlots 4 lens (sst == .done), ended := sst == .done, some' := true }] ++
          (match wIchE o.word with
           | some k => [chuteStrm o 2 k 2 de qe vals sent (!edges.isEmpty)]
           | none => []),
        asks := headAsk ++ ptrAsks ++ colAsks ++ partAsks 0 d q slots 0 mine ++ partAsks 2 de qe slotsE 0 vals,
        evs := (segEvs ++ o.newItems mine ++ o.newVals vals).mergeSort fun a b => decide (a.1 ≤ b.1), ready := mine.length, segs := seen,
        stop := stop, drops := 0 }

/-! ### A.STREAMC (R161, R162) -/

/-- The elements of a block that hold bytes `lo` to `hi − 1`: number within the block, first byte, bytes. -/
def blkSpans (e lo hi : Nat) : List (Nat × Nat × Nat) :=
  ((List.range (ceilDiv hi e - lo / e)).map fun j =>
    let i := lo / e + j
    let a := Nat.max lo (i * e)
    (i, a - i * e, Nat.min hi ((i + 1) * e) - a)).filter fun p => p.2.2 != 0

/-- The granule at plot offset `g` that holds bytes of element `idx`, the `pos`-th of the instruction, of a block that begins at element
`first`: a granule is asked for once, with the number of the block's first element that reaches into it. -/
def blkKey (d : Desc) (first idx pos g : Nat) : Nat :=
  let n := idx % eppOf d
  let lo := if plotOf d first = plotOf d idx then first % eppOf d else 0
  let n0 := Nat.max lo (g / d.esize)
  mkKey 0 (pos - (n - n0)) (g / 64 - n0 * d.esize / 64)

/-- Bytes `lo` to `hi − 1` of the block whose first element is at `base`, the `pos`-th of the instruction, and their asks. A bad
element gives zeros. -/
def blkBytes (o : AOp) (pos : Nat) (q : ADesc) (d : Desc) (base : W64) (lo hi : Nat) : Option (List (Byte × Bool)) × List Ask :=
  let parts := (blkSpans d.esize lo hi).map fun p =>
    let i := addrIndex (advAddr base p.1)
    if idxBad q d (addrHandle base) i then (some (List.replicate p.2.2 (0, false)), [])
    else
      let key (g : Nat) : Nat := blkKey d (addrIndex base) i (pos + p.1) g
      let gs := elemGrans d i p.2.1 p.2.2
      ((o.granBytes (gs.map key)).map fun all => (all.drop ((plotOff d i + p.2.1) % 64)).take p.2.2,
       gs.map fun g => { key := key g, d := d, q := q, pref := false, ahead := false, idx := i, plot := plotOf d i, off := g })
  let got := parts.map (·.1)
  (if got.all Option.isSome then some (got.flatMap fun g => g.getD []) else none, parts.flatMap (·.2))

/-- The slots that a block of `n` bytes fills. -/
def blkSlots (n : Nat) : Nat := ceilDiv n slotBytes

/-- Blocks from number `k` on, with `slots` slots filled by those before and room for `room`. A block whose header is poisoned is its header:
the 16 bytes go to the chute with their poison, and no byte of its body is read (log entry 83, DESIGN CHOICE). The granules of a block are
asked for once there is room for its first slot. -/
def blocksGo (lenient : Bool) (o : AOp) (q : ADesc) (d : Desc) (cur : W64) (per room : Nat) : Nat → Nat → Nat → Plan
  | 0, _, _ => Plan.only .done
  | n + 1, k, slots =>
    if room ≤ slots then Plan.only .more
    else
      let base := advAddr cur (k * per)
      let bads := ((List.range per).map fun (i : Nat) => (addrIndex (advAddr base i), k * per + i)).filter fun e => idxBad q d (addrHandle base) e.1
      let evs := if o.pushedAt 3 ≤ k then bads.map fun e => (e.2, Item.badIdx e.1) else []
      let wait (p : Plan) : Plan := { p with evs := evs, segs := k + 1 }
      let strm (l : List (List (Byte × Bool))) : List Strm :=
        [{ no := 0, dest := .chute (wCh o.word), ready := l, ended := false, some' := true }]
      match (if lenient then none else bads.head?) with
      | some (i, pos) => Plan.only (.badIndex i pos)
      | none =>
        let (hb, hAsks) := blkBytes o (k * per) q d base 0 16
        match hb with
        | none => wait { Plan.only .more with asks := hAsks }
        | some hb =>
          let h := blkHdr (hb.map (·.1))
          let bad := hb.any (·.2)
          if !bad && (!h.ok || decide (q.cap < h.size)) then wait { Plan.only (.fault fCsrFormat base) with asks := hAsks }
          else
            let size := if bad then 16 else h.size
            let (bb, bAsks) := blkBytes o (k * per) q d base 16 size
            let r := blocksGo lenient o q d cur per room n (k + 1) (slots + blkSlots size)
            match bb with
            | none => wait { Plan.only .more with asks := hAsks ++ bAsks ++ r.asks }
            | some bb =>
              match (if h.form = 2 ∧ !lenient ∧ !bad then pairBad h.fmt (h.rows * h.groups) (bb.map (·.1)) else none) with
              | some i => wait { Plan.only (.fault fPairFormat (BitVec.ofNat 64 (i + k * 2 ^ 32))) with asks := hAsks ++ bAsks }
              | none =>
                let (body, cleared) := if h.form = 2 ∧ lenient ∧ !bad then pairClean h.fmt bb else (bb, 0)
                let all := hb ++ body
                { strms := strm (chunks slotBytes all.length all ++ r.strms.flatMap (·.ready)),
                  asks := hAsks ++ bAsks ++ r.asks, evs := evs ++ r.evs,
                  ready := Nat.max (k + 1) r.ready, segs := Nat.max (k + 1) r.segs, stop := r.stop,
                  drops := (if o.done ≤ k then cleared else 0) + r.drops }

def planStreamc (s : State) (x : CellSt) (lenient : Bool) (o : AOp) : Plan :=
  let q := o.desc 0
  let cur := o.areg.getD (wAa o.word) 0
  if o.n = 0 then Plan.only .done
  else match s.liveDesc q.handle with
  | none => Plan.only (.fault fBadHandle cur)
  | some d =>
    if q.cap = 0 ∨ q.cap % d.esize ≠ 0 ∨ q.off ≠ 0 ∨ q.len ≠ d.esize then Plan.only (.fault fBadDesc (BitVec.ofNat 64 q.addr))
    else
      let p := blocksGo lenient o q d cur (q.cap / d.esize) (o.slots x 0 (wCh o.word)) o.n 0 0
      { p with strms := [{ no := 0, dest := .chute (wCh o.word), ready := p.strms.flatMap (·.ready), ended := p.stop == .done, some' := true }] }

/-! ### One round of a reading instruction -/

/-- The request of an ask. -/
def Ask.req (c : Nat) (p : Prog) (a : Ask) : Req :=
  { id := 0, who := .cell c, op := if a.pref then .pref else .load, handle := a.d.handle, plot := a.plot, off := a.off, gen := 0, dev := 0,
    lnd := 0, frame := 0, data := 0, en := 0, int := false, poison := false, cache := a.q.cache, addr := mkAddr a.d.handle a.idx,
    prog := p.number, owner := p.launcher + 64 * p.token, redirects := 0, keys := [a.key], rem := a.q.remote, born := 0, tag := 0,
    noFill := 0, slot := true, wb := false, stage := .window }

def CellSt.modOp (x : CellSt) (f : AOp → AOp) : CellSt := { x with ae := { x.ae with op := x.ae.op.map f } }

/-- Asks for what has not been asked for, as far as the window has room. The answer says whether anything was asked, and the fault of a
request that did not run ahead (R151). -/
def State.askAll (s : State) (c : Nat) (p : Prog) : List Ask → Bool → State × ReqFault × Bool
  | [], went => (s, none, went)
  | a :: t, went =>
    match (s.cell c).ae.op with
    | none => (s, none, went)
    | some o =>
      if o.asked.contains a.key then s.askAll c p t went
      else if !s.windowRoom c then (s, none, went)
      else
        let s := s.modCell c fun x => x.modOp fun o =>
          { o with asked := o.asked ++ [a.key], ahead := if a.ahead then o.ahead ++ [a.key] else o.ahead }
        match s.startReq c a.d (a.req c p) with
        | (s, some f) => if a.ahead then (s.reqFault c (a.req c p) (some f)).askAll c p t true else (s, some f, true)
        | (s, none) => s.askAll c p t true

/-- Writes bytes with their poison to operand memory: a block that gets a poisoned byte is marked (R372). -/
def CellSt.opWriteP (x : CellSt) (a : Nat) (v : List (Byte × Bool)) : CellSt :=
  (v.zipIdx.filter fun b => b.1.2).foldl (fun x b => x.opMark (a + b.2)) (x.opWrite a (v.map (·.1)))

/-- Sends on the slots of a stream that have not gone: into the chute while it has room, or into operand memory, end to end. -/
def CellSt.sendStrm (x : CellSt) (t : Strm) (done : Nat) : CellSt × Nat :=
  let new := t.ready.drop done
  match t.dest with
  | .chute k =>
    let now := new.take (x.credits k)
    (now.foldl (fun x v => x.push k (slotOf v)) x, now.length)
  | .memory base => (x.opWriteP (base + ((t.ready.take done).map List.length).sum) new.flatten, new.length)

def setAt (i v : Nat) (l : List Nat) : List Nat := (l ++ List.replicate (i + 1 - l.length) 0).set i v

def State.sendAll (s : State) (c : Nat) : List Strm → Bool → State × Bool
  | [], went => (s, went)
  | t :: r, went =>
    match (s.cell c).ae.op with
    | none => (s, went)
    | some o =>
      let (x, n) := (s.cell c).sendStrm t (o.pushedAt t.no)
      let s := s.setCell c (x.modOp fun o => { o with pushed := setAt t.no (o.pushedAt t.no + n) o.pushed })
      s.sendAll c r (went || decide (0 < n))

/-- How a round ends. -/
inductive Round where
  | again
  | wait (k : Option Nat)
  | fault (code : Nat) (info : W64)
  | badIndex (idx pos : Nat)
  | retire
  deriving DecidableEq, Repr

/-- An ask is still without its granule. -/
def AOp.waits (o : AOp) : Bool := o.asked.any fun k => (o.have k).isNone

/-- A chute of a plan that is not declared by the program (R127). -/
def Plan.undeclared (pl : Plan) (p : Prog) : Option Nat :=
  pl.strms.findSome? fun t => match t.dest with
    | .chute k => if t.some' && !p.declares k then some k else none
    | .memory _ => none

/-- What run-ahead granules set off that now have chute credit is carried out (R151); the answer is the fault of one of them. -/
def State.settleAhead (s : State) (c : Nat) (asks : List Ask) : State × ReqFault :=
  match (s.cell c).ae.op with
  | none => (s, none)
  | some o =>
    let now := o.ahead.filter fun k => asks.any fun a => a.key == k && !a.ahead
    if now.isEmpty then (s, none)
    else
      let left := o.ahead.filter fun k => !now.contains k
      let hit := o.got.filter fun g => g.due.any now.contains
      let s := s.modCell c fun x => x.modOp fun o =>
        { o with ahead := left, got := o.got.map fun g => if g.due.any now.contains then { g with due := [] } else g }
      (hit.foldl (fun s g => s.granuleMark c g.due (g.poison && g.fault.isNone) g.lost) s, hit.findSome? (·.fault))

/-- One round of a reading instruction by its plan. -/
def State.readRound (s : State) (c : Nat) (p : Prog) (pl : Plan) : State × Round :=
  match s.settleAhead c pl.asks with
  | (s, some (code, info)) => (s, .fault code info)
  | (s, none) =>
  let s := pl.evs.foldl (fun s e => s.countItem c e.1 e.2) s
  let s := if pl.drops = 0 then s else (s.countC c (cAe 8) pl.drops).sumFlag c .access sLenient
  let s := s.modCell c fun x => x.modOp fun o =>
    { o with done := Nat.max o.done pl.ready, pushed := setAt 3 (Nat.max (o.pushedAt 3) pl.segs) o.pushed }
  match pl.undeclared p with
  | some k => (s, .fault fChuteUndeclared (BitVec.ofNat 64 k))
  | none =>
    let (s, sent) := s.sendAll c pl.strms false
    match pl.stop with
    | .fault code info => (s, .fault code info)
    | .badIndex i pos => (s, .badIndex i pos)
    | _ =>
      let (s, f, asked) := s.askAll c p pl.asks false
      match f with
      | some (code, info) => (s, .fault code info)
      | none =>
        if sent || asked then (s, .again)
        else match (s.cell c).ae.op with
          | none => (s, .wait none)
          | some o =>
            let ahead (t : Strm) : Bool := decide (o.pushedAt t.no < t.ready.length)
            if pl.stop == .done && pl.strms.all (fun t => t.ended && !ahead t) && !o.waits then (s, .retire)
            else if o.waits then (s, .wait none)
            else
              let full := pl.strms.findSome? fun t => match t.dest with
                | .chute k => if (s.cell c).credits k = 0 ∧ (ahead t ∨ !t.ended) then some k else none
                | .memory _ => none
              (s, .wait full)

end Sys2Proof.Machine
end

