-- ==== Sys2Proof/Machine/APump.lean ====
section
/-! DEFINITION. Machine/APump.lean: the writing access instructions and prefetch, the round of each access instruction, and the
drive that carries the instruction in flight as far as it can go (R122, R138, R140, R150, R160 to R165). -/

namespace Sys2Proof.Machine

/-! ## Writing -/

/-- One granule of a write, or a bad index met on the way. -/
inductive WStep where
  | put (d : Desc) (q : ADesc) (idx off : Nat) (data : BitVec 512) (en : BitVec 64) (poison : Bool)
  | bad (idx pos : Nat)
  deriving DecidableEq, Repr

/-- The granules of bytes written to an element from byte `off` on. A granule is poisoned when any byte written to it is (R166). -/
def elemWrites (d : Desc) (q : ADesc) (idx off : Nat) (b : List (Byte × Bool)) : List WStep :=
  let start := plotOff d idx + off
  (elemGrans d idx off b.length).map fun g =>
    let lo := Nat.max g start
    let part := (b.drop (lo - start)).take (g + 64 - lo)
    .put d q idx g (BitVec.ofNat 512 (leNat (part.map (·.1)) * 2 ^ (8 * (lo - g))))
      (BitVec.ofNat 64 ((2 ^ part.length - 1) * 2 ^ (lo - g))) (part.any (·.2))

/-- A part, row, block or element to write: how many bytes it takes from the chute, its writes, whether to record a fallback form,
and an event of its index. -/
structure WUnit where
  need : Nat
  steps : List WStep
  fallback : Bool
  ev : Option Item
  deriving DecidableEq, Repr

/-- What stands in the way of a unit. -/
inductive WGet where
  | ready (u : WUnit)
  | want (asks : List Ask)
  | need (n : Nat)
  | fault (code : Nat) (info : W64)
  deriving DecidableEq, Repr

/-- A program of the cell may write an element of the object: one of a PARTIAL object only where it is the slot of a geyser part that
the cell has taken, to which the Scaler has directed the drain (R49, R104; log entry 77, DESIGN CHOICE). -/
def CellSt.drains (x : CellSt) (d : Desc) (idx : Nat) : Bool :=
  d.typ != 9 || x.taken.any fun k => k.it.kind == 1 && k.it.pslot == idx

/-- The writes of an element, or its bad index; a SEALED object is refused before its index is looked at (R64), an element that the cell
does not drain into after (log entry 77, DESIGN CHOICE). -/
def writeElem (x : CellSt) (q : ADesc) (d : Desc) (handle idx off pos : Nat) (b : List (Byte × Bool)) : Sum (List WStep) (Nat × W64) :=
  if d.state = .sealed then .inr (fWriteProt, mkAddr handle idx)
  else if idxBad q d handle idx then .inl [.bad idx pos]
  else if !x.drains d idx then .inr (fWriteProt, mkAddr handle idx)
  else .inl (elemWrites d q idx off b)

def AOp.full (o : AOp) (n : Nat) : Bool := decide (n ≤ o.taken.length)

def unitStore (s : State) (x : CellSt) (o : AOp) (k : Nat) : WGet :=
  let q := o.desc 0
  let cur := advAddr (o.areg.getD (wAa o.word) 0) k
  match s.liveDesc q.handle with
  | none => .fault fBadHandle cur
  | some d =>
    if !o.full q.len then .need q.len
    else match writeElem x q d (addrHandle cur) (addrIndex cur) q.off k (o.taken.take q.len) with
      | .inr f => .fault f.1 f.2
      | .inl st => .ready { need := q.len, steps := st, fallback := false, ev := none }

def unitScadd (s : State) (x : CellSt) (o : AOp) (k : Nat) : WGet :=
  let q := o.desc 0
  let qi := o.desc 1
  let cur := o.areg.getD (wAa o.word) 0
  let di := if qi.kind = 1 then none else s.liveDesc qi.handle
  let d := s.liveDesc q.handle
  let odd := match d with | some d => decide (d.esize % 4 ≠ 0) | none => false
  if qi.kind = 0 ∧ di.isNone then .fault fBadHandle cur
  else if q.off % 4 != 0 || q.len % 4 != 0 || odd then .fault fBadDesc (BitVec.ofNat 64 q.addr)
  else if !o.full q.len then .need q.len
  else
    let u (st : List WStep) (ev : Option Item) : WGet := .ready { need := q.len, steps := st, fallback := false, ev := ev }
    match listWord x o qi di cur k with
    | .unknown => .want ((List.range (Nat.min (o.n - k) 64)).flatMap fun (j : Nat) => listAsks qi di cur (k + j))
    | .pois => u [] (some .pois)
    | .bad i => u [.bad i k] none
    | .val v =>
      if v = noVertex then u [] none
      else match d with
        | none => .fault fBadHandle (mkAddr q.handle v)
        | some d =>
          match writeElem x q d q.handle v q.off k (o.taken.take q.len) with
          | .inr f => .fault f.1 f.2
          | .inl st => u st none

def unitStorec (s : State) (x : CellSt) (o : AOp) (k : Nat) : WGet :=
  let q := o.desc 0
  let cur := o.areg.getD (wAa o.word) 0
  let need := q.blkR * q.blkG * blkV q.blkF
  match s.liveDesc q.handle with
  | none => .fault fBadHandle cur
  | some d =>
    let first := advAddr cur (k * (q.cap / d.esize))
    let shut := (List.range (q.cap / d.esize)).any fun (i : Nat) =>
      let idx := addrIndex (advAddr first i)
      !idxBad q d (addrHandle cur) idx && !x.drains d idx
    if d.state = .sealed ∨ shut then .fault fWriteProt first
    else if !o.full need then .need need
    else
      let per := q.cap / d.esize
      let body := o.taken.take need
      let (bytes, form) := storeBlock q.blkF q.blkR q.blkG (wForm o.word) q.cap (body.map (·.1))
      let any := body.any (·.2)
      let img := bytes.zipIdx.map fun b =>
        (b.1, if form = 0 then decide (16 ≤ b.2) && (body.getD (b.2 - 16) (0, false)).2 else any)
      let steps := (List.range per).flatMap fun (i : Nat) =>
        let idx := addrIndex (advAddr cur (k * per + i))
        if idxBad q d (addrHandle cur) idx then [.bad idx (k * per + i)]
        else
          let part := (img.drop (i * d.esize)).take d.esize
          if part.isEmpty then [] else elemWrites d q idx 0 part
      .ready { need := need, steps := steps, fallback := form != wForm o.word, ev := none }

/-- CAP breaks R160 or R161. -/
def storecBad (s : State) (o : AOp) : Option Nat :=
  let q := o.desc 0
  let odd := match s.liveDesc q.handle with
    | some d => decide (q.cap % d.esize ≠ 0 ∨ q.off ≠ 0 ∨ q.len ≠ d.esize)
    | none => false
  if decide (q.cap < plainSize q.blkF q.blkR q.blkG) || q.cap % 64 != 0 || odd then some q.cap else none

def unitHaul (s : State) (x : CellSt) (lenient : Bool) (o : AOp) (k : Nat) : WGet :=
  let q := o.desc 0
  let qd := o.desc 1
  let src := advAddr (o.areg.getD (wAa o.word) 0) k
  let dst := advAddr (o.areg.getD (wAb o.word) 0) k
  match s.liveDesc q.handle, s.liveDesc qd.handle with
  | none, _ => .fault fBadHandle src
  | _, none => .fault fBadHandle dst
  | some d, some dd =>
    let u (st : List WStep) : WGet := .ready { need := 0, steps := st, fallback := false, ev := none }
    if idxBad q d (addrHandle src) (addrIndex src) then u [.bad (addrIndex src) k]
    else if lenient && idxBad qd dd (addrHandle dst) (addrIndex dst) then u [.bad (addrIndex dst) k]
    else match elemBytes o 0 k d (addrIndex src) q.off q.len with
      | none =>
        .want ((List.range (Nat.min (o.n - k) 256)).flatMap fun (j : Nat) =>
          let i := addrIndex (advAddr src j)
          if idxBad q d (addrHandle src) i then [] else elemAsks 0 (k + j) d q i q.off q.len false)
      | some b =>
        match writeElem x { qd with flags := qd.flags / 2 * 2 } dd (addrHandle dst) (addrIndex dst) qd.off k b with
        | .inr f => .fault f.1 f.2
        | .inl st => u st

/-- A.HAUL before its first request: the destination object is LIVE and each plot of the range is homed here (R165). The plots
looked up so far are counted in `pushed` at 1. The answer is none once all are. -/
def State.haulCheck (s : State) (c : Nat) (o : AOp) : State × Option Round :=
  let q := o.desc 0
  let qd := o.desc 1
  let cur := o.areg.getD (wAb o.word) 0
  if q.len ≠ qd.len then (s, some (.fault fBadDesc (BitVec.ofNat 64 qd.addr)))
  else if o.n = 0 then (s, none)
  else match s.desc qd.handle with
    | none => (s, some (.fault fHaulDst cur))
    | some d =>
      if d.state ≠ .live then (s, some (.fault fHaulDst cur))
      else
        let i0 := addrIndex cur
        let p0 := plotOf d i0
        let plots := if d.count ≤ i0 then 0 else plotOf d (Nat.min (i0 + o.n - 1) (d.count - 1)) + 1 - p0
        let j := o.pushedAt 1
        if plots ≤ j then (s, none)
        else match s.lookup c d (p0 + j) with
          | (.walking, s) => (s, some (.wait none))
          | (.entry e, s) =>
            if e.dev ≠ s.dev then (s, some (.fault fHaulDst (mkAddr qd.handle (Nat.max i0 ((p0 + j) * eppOf d)))))
            else (s.modCell c fun x => x.modOp fun o => { o with pushed := setAt 1 (j + 1) o.pushed }, some .again)

/-- The write request of a step. -/
def State.putStep (s : State) (c : Nat) (p : Prog) (add int : Bool) (st : WStep) : State × ReqFault :=
  match st with
  | .bad _ _ => (s, none)
  | .put d q idx off data en poison =>
    s.startReq c d
      { id := 0, who := .cell c, op := if add then .add else .store, handle := d.handle, plot := plotOf d idx, off := off, gen := 0,
        dev := 0, lnd := 0, frame := 0, data := data, en := en, int := int, poison := poison, cache := q.cache,
        addr := mkAddr d.handle idx, prog := p.number, owner := p.launcher + 64 * p.token, redirects := 0, keys := [],
        rem := q.remote, born := 0, tag := 0, noFill := 0, slot := true, wb := false, stage := .window }

/-- Writes of the program that have not left the cell. -/
def State.writesInside (s : State) (c : Nat) (p : Prog) : Bool :=
  s.reqs.any fun r => r.ofCell c && r.isWrite && !r.wb && r.prog == p.number &&
    (r.stage == .queued || r.stage == .window || r.stage == .walking)

/-- Reads of the program that have not been delivered. -/
def State.readsOut (s : State) (c : Nat) (p : Prog) : Bool :=
  s.reqs.any fun r => r.ofCell c && !r.isWrite && r.slot && r.prog == p.number

/-- The unit that a writing instruction is at. -/
def State.unitAt (s : State) (c : Nat) (p : Prog) (o : AOp) : WGet :=
  let x := s.cell c
  match wOp o.word with
  | 0x20 => unitStore s x o o.done
  | 0x21 => unitStorec s x o o.done
  | 0x22 => unitScadd s x o o.done
  | _ => unitHaul s x p.lenient o o.done

/-- Takes bytes from the output chute for the unit, as many as there are. -/
def State.takeFor (s : State) (c : Nat) (o : AOp) (n : Nat) : State × Round :=
  let k := 8 + wCh o.word
  let got := ((s.cell c).chute k).stream.take (n - o.taken.length)
  if got.isEmpty then (s, .wait (some k))
  else
    (s.modCell c fun x => (x.take k got.length).modOp fun o => { o with taken := o.taken ++ got }, .again)

/-- A step of the unit ready. -/
def State.stepUnit (s : State) (c : Nat) (p : Prog) (o : AOp) (u : WUnit) : State × Round :=
  let j := o.pushedAt 0
  match u.steps[j]? with
  | some (.bad i pos) =>
    if p.lenient then
      ((s.countItem c pos (.badIdx i)).modCell c fun x => x.modOp fun o => { o with pushed := setAt 0 (j + 1) o.pushed }, .again)
    else (s, .badIndex i pos)
  | some st =>
    if !s.windowRoom c then (s, .wait none)
    else
      match s.putStep c p (wOp o.word == 0x22) (wAddInt o.word) st with
      | (s, some (code, info)) => (s, .fault code info)
      | (s, none) => (s.modCell c fun x => x.modOp fun o => { o with pushed := setAt 0 (j + 1) o.pushed }, .again)
  | none =>
    let s := match u.ev with | some it => s.countItem c o.done it | none => s
    let s := if u.fallback then (s.countC c (cAe 9) 1).sumFlag c .access sFallback else s
    (s.modCell c fun x => x.modOp fun o =>
      { o with done := o.done + 1, taken := o.taken.drop u.need, pushed := setAt 0 0 o.pushed }, .again)

def State.writeRound (s : State) (c : Nat) (p : Prog) (o : AOp) : State × Round :=
  if o.n ≤ o.done then
    (s, if s.writesInside c p then .wait none else .retire)
  else
    let chute := wOp o.word != 0x23
    if chute && !p.declares (8 + wCh o.word) then (s, .fault fChuteUndeclared (BitVec.ofNat 64 (8 + wCh o.word)))
    else match s.unitAt c p o with
      | .fault code info => (s, .fault code info)
      | .need n => s.takeFor c o n
      | .want asks =>
        match s.askAll c p asks false with
        | (s, some (code, info), _) => (s, .fault code info)
        | (s, none, went) => (s, if went then .again else .wait none)
      | .ready u => s.stepUnit c p o u

/-! ## Prefetch (R150, R151) -/

/-- One element of A.PREF. An element that it cannot name is dropped and counted. The instruction retires once what it asked for has been
delivered to the cell cache or dropped (R138). -/
def State.prefRound (s : State) (c : Nat) (p : Prog) (o : AOp) : State × Round :=
  if o.n ≤ o.done then (s, if s.readsOut c p then .wait none else .retire)
  else
    let q := o.desc 0
    let cur := advAddr (o.areg.getD (wAa o.word) 0) o.done
    let next (s : State) : State × Round :=
      (s.modCell c fun x => x.modOp fun o => { o with done := o.done + 1 }, .again)
    match s.liveDesc q.handle with
    | none => next (s.countC c (cAe 6) 1)
    | some d =>
      if idxBad q d (addrHandle cur) (addrIndex cur) then next (s.countC c (cAe 6) 1)
      else
        let asks := (elemAsks 7 o.done d q (addrIndex cur) q.off q.len false).map fun a => { a with pref := true }
        match s.askAll c p asks false with
        | (s, _, _) =>
          match (s.cell c).ae.op with
          | none => (s, .wait none)
          | some o' => if asks.all fun a => o'.asked.contains a.key then next s else (s, .wait none)

/-! ## The drive -/

def State.aRound (s : State) (c : Nat) (p : Prog) (o : AOp) : State × Round :=
  let x := s.cell c
  match wOp o.word with
  | 0x10 => s.readRound c p (planGather s x p.lenient o)
  | 0x11 => s.readRound c p (planGatherCsr s x p.lenient o)
  | 0x12 => s.readRound c p (planStream s x p.lenient o)
  | 0x13 => s.readRound c p (planStreamc s x p.lenient o)
  | 0x14 => s.readRound c p (planLoad s p.lenient o)
  | 0x15 => s.prefRound c p o
  | 0x21 =>
    match storecBad s o with
    | some cap => (s, .fault fCapacity (BitVec.ofNat 64 cap))
    | none => s.writeRound c p o
  | 0x23 =>
    match s.haulCheck c o with
    | (s, some r) => (s, r)
    | (s, none) => s.writeRound c p o
  | _ => s.writeRound c p o

/-- The address registers that an instruction advances as it retires (R138): register and value. A.PREF advances none. -/
def State.aAdvance (s : State) (o : AOp) : List (Nat × W64) :=
  let a (i : Nat) : W64 := o.areg.getD i 0
  let q := o.desc 0
  let qi := o.desc 1
  let per := match s.desc q.handle with | some d => q.cap / d.esize | none => 0
  match wOp o.word with
  | 0x10 => [(wAa o.word, listNext qi (a (wAa o.word)) o.n)]
  | 0x22 => [(wAa o.word, listNext qi (a (wAa o.word)) o.n)]
  | 0x13 => [(wAa o.word, advAddr (a (wAa o.word)) (o.n * per))]
  | 0x21 => [(wAa o.word, advAddr (a (wAa o.word)) (o.n * per))]
  | 0x15 => []
  | 0x23 => [(wAa o.word, advAddr (a (wAa o.word)) o.n), (wAb o.word, advAddr (a (wAb o.word)) o.n)]
  | _ => [(wAa o.word, advAddr (a (wAa o.word)) o.n)]

def State.writeARegs (s : State) (c : Nat) (l : List (Nat × W64)) : State :=
  s.modCell c fun x => { x with ae := { x.ae with a := l.foldl (fun r v => r.set v.1 v.2) x.ae.a } }

def State.pumpGo (c : Nat) : Nat → State → State
  | 0, s => s
  | n + 1, s =>
    match s.engineRuns c .access, (s.cell c).ae.op with
    | some p, some o =>
      match s.aRound c p o with
      | (s, .again) => State.pumpGo c n s
      | (s, .wait k) => s.modCell c fun x => { x with ae := { x.ae with wait := k } }
      | (s, .fault code info) => s.engineFault c .access code info
      | (s, .badIndex i pos) => s.badIndexFault c i pos
      | (s, .retire) => (s.writeARegs c (s.aAdvance o)).retire c .access
    | _, _ => s

/-- Carries the access instruction in flight as far as it can go now. Each round asks for a granule, sends one, or ends the
drive, so that the bound is never reached. -/
def State.pumpA (s : State) (c : Nat) : State := s.pumpGo c (2 ^ 60)

end Sys2Proof.Machine
end

