-- ==== Sys2Proof/Machine/CMaint.lean ====
section
/-! DEFINITION. Machine/CMaint.lean: range maintenance of the cell cache (R348 to R354): the engine's operations, their translations and
fetches, and the Scaler's frame invalidates. -/

namespace Sys2Proof.Machine

def rMaintCtrl (c : Nat) : Nat := rCell c 0x208
def rMaintStatus (c : Nat) : Nat := rCell c 0x218

def State.modMaint (s : State) (c : Nat) (f : Maint → Maint) : State := s.modCc c fun x => { x with maint := f x.maint }

/-! ## Starting (R350) -/

/-- GO written. PRELOAD_LOCK with ALL is refused with ERR 2; a COUNT of 0 completes at once. -/
def State.maintStart (s : State) (c : Nat) : State :=
  let m := (s.cc c).maint
  let op := s.regF (rMaintCtrl c) 2 0
  let all := s.regBit (rMaintCtrl c) 3
  let count := (s.reg (rCell c 0x214)).toNat
  if m.busy ∨ 5 ≤ op then s.setBits (rMaintStatus c) 2
  else if op = 3 ∧ all then s.modMaint c fun m => { m with err := 2 }
  else if count = 0 ∧ !all then s.modMaint c fun m => { m with err := 0 }
  else
    let addr := BitVec.ofNat 64 ((s.reg (rCell c 0x20C)).toNat + (s.reg (rCell c 0x210)).toNat * 2 ^ 32)
    s.modMaint c fun _ => { Maint.idle with busy := true, op := op, all := all, addr := addr, count := count }

/-- The range of the operation in progress: 1 its object cannot be translated, 2 it reaches beyond the object (R351). -/
def State.maintErr (s : State) (m : Maint) : Nat :=
  if m.all then 0
  else match s.liveDesc (addrHandle m.addr) with
    | none => 1
    | some d => if d.count < addrIndex m.addr + m.count then 2 else 0

/-! ## Locks (R348) -/

/-- A present line is locked, unless its set already holds LOCK_MAX locked lines. -/
def State.lockLine (s : State) (c la : Nat) : State :=
  match (s.cc c).find la with
  | none => s
  | some l =>
    if l.lock then s
    else if s.regF (rCell c 0x200) 3 0 ≤ (s.cc c).locked (ccSet la) then (s.countC c (cCc 5) 1).setBits (rMaintStatus c) 0x10
    else s.modCc c fun x => x.modLine la fun l => some { l with lock := true }

/-! ## Outstanding requests (R353) -/

/-- The fills of a cell that are outstanding. -/
def State.fillsOut (s : State) (c : Nat) : List Nat :=
  (s.reqs.filter fun r => (r.ofCell c || r.who == .maint c) && r.holdsSlot && r.cache && r.dev == s.dev).map (·.id)

/-! ## One frame of the range (R349, R351) -/

/-- The granules of a frame that hold elements `i0` to `i0 + n − 1` of the object, where the frame holds its plot `p`. -/
def frameRange (d : Desc) (l f p i0 n : Nat) : List Nat :=
  let lo := Nat.max i0 (p * eppOf d) - p * eppOf d
  let hi := Nat.min (i0 + n) ((p + 1) * eppOf d) - p * eppOf d
  if lo < hi then
    let b := lo * d.esize / 64
    (List.range ((hi * d.esize - 1) / 64 + 1 - b)).map fun (j : Nat) => laOf l f (64 * (b + j))
  else []

/-- The fetch of a line to be locked. -/
def State.maintFetch (s : State) (c la : Nat) : State :=
  match (s.landing (laLanding la)).recAt (laFrame la) with
  | none => s
  | some f =>
    let (id, s) := s.newId
    (s.modMaint c fun m => { m with fills := m.fills ++ [id] }).arriveAt
      { id := id, who := .maint c, op := .load, handle := f.handle, plot := f.plot, off := laOff la, gen := f.gen, dev := s.dev,
        lnd := laLanding la, frame := laFrame la, data := 0, en := 0, int := false, poison := false, cache := true, addr := 0, prog := 0,
        owner := 0, redirects := 0, keys := [], rem := false, born := s.timebase, tag := 0, noFill := 0, slot := true, wb := false,
        stage := .window }

def State.maintCount (s : State) (c : Nat) (has : Nat → Bool) : State :=
  s.countC c (cCc 4) ((s.cc c).all.filter fun l => has l.la).length

/-- The write-backs under way to lines for which `has` holds are waited for. -/
def State.maintAwait (s : State) (c : Nat) (has : Nat → Bool) : State :=
  let ids := (s.backsOut c has).map (·.id)
  s.modMaint c fun m => { m with fills := m.fills ++ ids }

/-- CLEAN of the lines for which `has` holds. -/
def State.maintClean (s : State) (c : Nat) (has : Nat → Bool) : State :=
  ((s.maintCount c has).cleanLines c has).2.maintAwait c has

/-- INVALIDATE: dirty lines are lost and counted. -/
def State.maintInvalidate (s : State) (c : Nat) (has : Nat → Bool) : State :=
  let lost := ((s.cc c).all.filter fun l => l.dirty && has l.la).length
  ((s.maintCount c has).countC c (cCc 3) lost).dropLines c has

def State.maintCleanInv (s : State) (c : Nat) (has : Nat → Bool) : State := (s.maintClean c has).dropLines c has

/-- PRELOAD_LOCK of granules: a line present is locked, another fetched. -/
def State.maintPreload (s : State) (c : Nat) (las : List Nat) : State :=
  las.foldl (fun s la =>
    let s := (s.checkLine c la).countC c (cCc 4) 1
    if ((s.cc c).find la).isSome then s.lockLine c la else s.maintFetch c la) s

def State.maintUnlock (s : State) (c : Nat) (has : Nat → Bool) : State :=
  (s.maintCount c has).modCc c fun x => { x with lines := x.lines.map fun e =>
    (e.1, e.2.map fun l => if has l.la then { l with lock := false } else l) }

/-- An operation carried out on the lines for which `has` holds, PRELOAD_LOCK on granules. -/
def State.maintAct (s : State) (c op : Nat) (has : Nat → Bool) (las : List Nat) : State :=
  match op with
  | 0 => s.maintClean c has
  | 1 => s.maintInvalidate c has
  | 2 => s.maintCleanInv c has
  | 3 => s.maintPreload c las
  | _ => s.maintUnlock c has

/-! ## The operation over its plots (R351) -/

/-- The Scaler invalidates a frame in the cell: one that a move has left (R84, step 4), or one that has been released (R88). -/
def State.scalerBusy (s : State) (c : Nat) : Bool :=
  (s.scaler.moves.any fun m => m.phase == .flipped && decide (m.req.cls < 4) && m.req.src.1 == s.dev && !m.acks.contains c) ||
  s.landings.any fun x => x.inval.any fun f => !f.2.contains c

/-- The operation of CC_MAINT_CTRL that waits or goes on is `op`. -/
def State.maintReady (s : State) (c op : Nat) : Bool :=
  let m := (s.cc c).maint
  s.active && s.cellUp c && m.busy && !m.done && m.op == op && (m.begun || !s.scalerBusy c)

/-- The operation begins: its range is checked, the fills outstanding are noted when it invalidates and the write-backs under way when it
cleans, and it starts at the first plot. -/
def State.maintBegin (s : State) (c : Nat) : State :=
  let m := (s.cc c).maint
  if m.begun then s
  else
    let e := s.maintErr m
    if e ≠ 0 then s.modMaint c fun m => { m with begun := true, done := true, err := e }
    else
      let first := match s.liveDesc (addrHandle m.addr) with | some d => plotOf d (addrIndex m.addr) | none => 0
      let fills := if m.op = 1 ∨ m.op = 2 then s.fillsOut c else []
      let s := s.modMaint c fun m => { m with begun := true, plot := first, fills := fills }
      if m.op = 0 ∨ m.op = 2 then s.maintAwait c (s.maintHas c) else s

/-- The engine has the next plot's entry, or none for a plot that it skips; the answer is none while it waits for a walk. -/
def State.maintLook (s : State) (c : Nat) (d : Desc) (p : Nat) : Option (Option MapEntry) × State :=
  match (s.cc c).maint.got with
  | some e => (some e, s.modMaint c fun m => { m with got := none })
  | none =>
    if (s.cc c).maint.await then (none, s)
    else match s.lookup c d p with
      | (.entry e, s) => (some (some e), s)
      | (.walking, s) => (none, s.modMaint c fun m => { m with await := true })

def State.maintNext (s : State) (c : Nat) : State :=
  s.modMaint c fun m => { m with plot := m.plot + 1, tries := 0 }

/-- A translation whose frame does not hold the plot is answered REDIRECT by its landing (R71, R351). The answer is false while a walk is
awaited. -/
def State.maintRetry (s : State) (c : Nat) (d : Desc) (p : Nat) (e : MapEntry) (l : Nat) : State × Bool :=
  let s := (s.count (kPlc 12) 1).modMaint c fun m => { m with tries := m.tries + 1 }
  if 16 ≤ (s.cc c).maint.tries then ((s.modMaint c fun m => { m with err := 3 }).maintNext c, true)
  else match pickEntry e.gen ((s.cell c).ptcFind d.handle p) ((s.landing l).forward d.handle p) with
    | some n => ((s.ptcInstall c d.handle p n).modMaint c fun m => { m with got := some (some n) }, true)
    | none =>
      (((s.modCell c fun x => x.ptcDrop d.handle p).startWalk c d p).modMaint c fun m => { m with await := true }, false)

/-- One plot of the range: its home frame, or its replica frame when that lies on this device. The answer is false when the operation stops
here for now, or has come to its end. -/
def State.maintPlot (s : State) (c : Nat) : State × Bool :=
  let m := (s.cc c).maint
  let h := addrHandle m.addr
  let i0 := addrIndex m.addr
  let fin (s : State) : State × Bool := (s.modMaint c fun m => { m with done := true }, false)
  match s.liveDesc h with
  | none => fin s
  | some d =>
    if i0 + m.count ≤ m.plot * eppOf d then fin s
    else match s.maintLook c d m.plot with
      | (none, s) => (s, false)
      | (some none, s) => (s.maintNext c, true)
      | (some (some e), s) =>
        match (if e.pstate = 3 then none else if e.dev = s.dev then some (s.dev, e.lnd, e.frame) else s.replicaHere h m.plot e) with
        | none => (s.maintNext c, true)
        | some (_, l, f) =>
          if (s.landing l).recAt f = some { handle := h, plot := m.plot, gen := e.gen } then
            let has (la : Nat) : Bool := inFrame l f la && s.lineInRange h i0 m.count la
            ((s.maintAct c m.op has (frameRange d l f m.plot i0 m.count)).maintNext c, true)
          else s.maintRetry c d m.plot e l

/-- Carries the operation on over its plots. -/
def State.maintGo (c : Nat) : Nat → State → State
  | 0, s => s
  | n + 1, s =>
    match s.maintPlot c with
    | (s, true) => State.maintGo c n s
    | (s, false) => s

/-- The engine carries an operation on as far as it can: over every line at once, or plot by plot until a walk is awaited (log entry 19,
DEDUCED). Each plot takes at most 17 rounds, so that the bound is never reached. -/
def State.maintRun (s : State) (c op : Nat) : State :=
  if s.maintReady c op then
    let s := s.maintBegin c
    let m := (s.cc c).maint
    if m.done then s
    else if m.all then (s.maintAct c op (fun _ => true) []).modMaint c fun m => { m with done := true }
    else State.maintGo c (17 * (m.count + 2)) s
  else s

/-- BUSY clears once every set has been probed and every request waited for has returned (R350, R353). -/
def State.maintComplete (s : State) (c : Nat) : State :=
  let m := (s.cc c).maint
  if m.busy && m.done && m.fills.all (fun id => (s.req id).isNone) then
    s.modMaint c fun m => { m with busy := false, begun := false, done := false, fills := [] }
  else s

/-! ## Answers to the fetches of PRELOAD_LOCK (R348, R351, R354) -/

def State.maintData (s : State) (c : Nat) (r : Req) (d : BitVec 512) (p : Bool) : State :=
  let s := s.dropReq r.id
  if r.noFill = 1 || s.invalidating c r.la then s.countC c (cCc 1) 1
  else
    let s := if ((s.cc c).find r.la).isSome then s
      else (s.install c { la := r.la, dirty := false, lock := false, poison := p, data := d, upset := 0 }).countC c (cCc 0) 1
    s.lockLine c r.la

/-- A fetch goes on by an entry; a plot that has left the device is skipped. -/
def State.maintSend (s : State) (c : Nat) (r : Req) (e : MapEntry) : State :=
  match (if e.pstate = 3 then none else if e.dev = s.dev then some (s.dev, e.lnd, e.frame) else (s.cell c).ptcPick r.handle r.plot) with
  | some (_, l, f) => s.arriveAt { r with lnd := l, frame := f, gen := e.gen, noFill := 0 }
  | none => s.dropReq r.id

/-- A fetch redirected, under R71; one redirected 16 times ends with ERR 3. -/
def State.maintRedirect (s : State) (c : Nat) (r : Req) (e : Option MapEntry) : State :=
  let s := s.count (kPlc 12) 1
  let r := { r with redirects := r.redirects + 1 }
  if r.redirects = 16 then (s.dropReq r.id).modMaint c fun m => { m with err := 3 }
  else match s.liveDesc r.handle with
    | none => s.dropReq r.id
    | some d =>
      match pickEntry r.gen ((s.cell c).ptcFind r.handle r.plot) e with
      | some m => (s.ptcInstall c r.handle r.plot m).maintSend c r m
      | none =>
        ((s.modCell c fun x => x.ptcDrop r.handle r.plot).putReq { r with stage := .walking }).startWalk c d r.plot

/-- A walk of the cell has ended: the fetches that waited for it go on, and the operation has its answer. -/
def State.maintWalked (s : State) (c h p : Nat) (e : WalkEnd) : State :=
  let entry := match e with | .entry m => some m | _ => none
  let s := (s.reqs.filter fun r => r.who == .maint c && r.stage == .walking && r.handle == h && r.plot == p).foldl (fun s r =>
    match entry with
    | some m => s.maintSend c r m
    | none => if e = .lost then (s.dropReq r.id).count (kPlc 13) 1 else s.dropReq r.id) s
  let m := (s.cc c).maint
  if m.await && addrHandle m.addr == h && m.plot == p then s.modMaint c fun m => { m with await := false, got := some entry } else s

/-! ## Scaler invalidates (R84, R88, R348, R353) -/

/-- The Scaler wants a frame invalidated in a cell that has not acknowledged it. -/
def State.frameDue (s : State) (c l f : Nat) : Bool :=
  (s.scaler.moves.any fun m =>
    m.phase == .flipped && decide (m.req.cls < 4) && m.req.src == (s.dev, l, f) && !m.acks.contains c) ||
  (s.landing l).inval.any fun y => y.1 == f && !y.2.contains c

/-- The cell has acknowledged the invalidate of a frame. -/
def State.frameAck (s : State) (c l f : Nat) : State :=
  let s := s.modScaler fun z => { z with moves := z.moves.map fun m =>
    if (m.phase == .flipped) && m.req.src == (s.dev, l, f) && !m.acks.contains c then { m with acks := m.acks ++ [c] } else m }
  s.modLanding l fun x => { x with inval := x.inval.map fun y => if (y.1 == f) && !y.2.contains c then (y.1, y.2 ++ [c]) else y }

/-- The cell begins to invalidate a frame: every line of it goes, and the fills outstanding are noted. -/
def State.frameBegin (s : State) (c l f : Nat) : State :=
  let locks := ((s.cc c).all.filter fun x => x.lock && inFrame l f x.la).length
  let s := if locks = 0 then s else (s.countC c (cCc 6) locks).setBits (rMaintStatus c) 0x20
  let fills := s.fillsOut c
  (s.dropLines c (inFrame l f)).modCell c fun x => { x with scInv := x.scInv ++ [(l, f, fills)] }

/-- SCALER_FRAME_INVALIDATE: the invalidate begins, and is acknowledged once every fill that was outstanding then has returned. -/
def State.frameInvalidate (s : State) (c l f : Nat) : State :=
  if !s.frameDue c l f then s
  else
    let s := if (s.cell c).scInv.any fun x => x.1 == l && x.2.1 == f then s else s.frameBegin c l f
    if ((s.cell c).scInv.filter fun x => x.1 == l && x.2.1 == f).all fun x => x.2.2.all fun id => (s.req id).isNone then
      (s.frameAck c l f).modCell c fun x => { x with scInv := x.scInv.filter fun y => !(y.1 == l && y.2.1 == f) }
    else s

/-! ## The commands -/

def execCcClean (c : Nat) (s : State) : Host.Outcome State Fault Refusal := .next (s.maintRun c 0)
def execCcInvalidate (c : Nat) (s : State) : Host.Outcome State Fault Refusal := .next (s.maintRun c 1)
def execCcCleanInv (c : Nat) (s : State) : Host.Outcome State Fault Refusal := .next (s.maintRun c 2)
def execCcPreloadLock (c : Nat) (s : State) : Host.Outcome State Fault Refusal := .next (s.maintRun c 3)
def execCcUnlock (c : Nat) (s : State) : Host.Outcome State Fault Refusal := .next (s.maintRun c 4)
def execCcMaintComplete (c : Nat) (s : State) : Host.Outcome State Fault Refusal := .next (s.maintComplete c)

/-- SCALER_FRAME_INVALIDATE (R353). -/
def execScalerFrameInvalidate (c lnd frame : Nat) (s : State) : Host.Outcome State Fault Refusal :=
  .next (if c < 192 && !(s.cell c).parked then s.frameInvalidate c lnd frame else s)

end Sys2Proof.Machine
end

