-- ==== Sys2Proof/Machine/Access.lean ====
section
/-! DEFINITION. Machine/Access.lean: the access-class commands (R133 to R168), the life of their requests in the cell, and the
end of engine programs (R122 to R124, R130). -/

namespace Sys2Proof.Machine

/-! ## Issue (R121, R271) -/

/-- The word at issue of an engine's program is `w`. -/
def Prog.at_ (p : Prog) (w : W64) : Bool := p.text[p.pc]? == some w

/-- The operand-memory address of the block that the word at issue came from. -/
def Prog.wordBlock (p : Prog) : Nat := (p.textAddr + 8 * p.pc) / 64 * 64

/-- An engine issues the word `w`: a poisoned word faults POISONED, a word that does not decode faults as R271 says, and
otherwise the instruction of class `cls` and opcode `op` is carried out. -/
def State.engineIssue (s : State) (c : Nat) (e : Engine) (free : Bool) (cls op : Nat) (w : W64) (f : Prog → State) : State :=
  match s.engineIssues c e with
  | none => s
  | some p =>
    if !free || !p.at_ w then s
    else if p.textPoison.getD p.pc false then s.engineFault c e fPoisoned (BitVec.ofNat 64 p.wordBlock)
    else match decodeFault (engineUnit e) w with
      | some code => s.engineFault c e code w
      | none => if wCls w = cls ∧ wOp w = op then f p else s

/-- The access engine issues when it has no instruction in flight. -/
def State.aIssue (s : State) (c op : Nat) (w : W64) (f : Prog → State) : State :=
  s.engineIssue c .access (s.cell c).ae.op.isNone 3 op w f

/-! ## Support instructions (R134) -/

def State.setA (s : State) (c i : Nat) (v : W64) : State :=
  s.modCell c fun x => { x with ae := { x.ae with a := x.ae.a.set i v } }
def State.setN (s : State) (c i : Nat) (v : W32) : State :=
  s.modCell c fun x => { x with ae := { x.ae with n := x.ae.n.set i v } }
def CellSt.aReg (x : CellSt) (i : Nat) : W64 := x.ae.a.getD i 0
def CellSt.nReg (x : CellSt) (i : Nat) : W32 := x.ae.n.getD i 0

def State.aAdda (s : State) (c : Nat) (w : W64) : State :=
  s.aIssue c 1 w fun _ => (s.setA c (wReg w) (advAddr ((s.cell c).aReg (wReg w)) (wImm w).toInt)).retire c .access

def State.aAddan (s : State) (c : Nat) (w : W64) : State :=
  s.aIssue c 2 w fun _ =>
    (s.setA c (wReg w) (advAddr ((s.cell c).aReg (wReg w)) (((s.cell c).nReg (wNj w)).toNat * (wSc w + 1) : Nat))).retire c .access

def State.aSetn (s : State) (c : Nat) (w : W64) : State :=
  s.aIssue c 3 w fun _ => (s.setN c (wNReg w) (wImm32 w)).retire c .access

def State.aAddn (s : State) (c : Nat) (w : W64) : State :=
  s.aIssue c 4 w fun _ => (s.setN c (wNReg w) ((s.cell c).nReg (wNReg w) + wImm32 w)).retire c .access

/-- A loop opens over the next instructions, unless four are open (R134, R229). -/
def State.openLoop (s : State) (c : Nat) (e : Engine) (p : Prog) (len n : Nat) : State :=
  if p.loops.length = loopDepth then s.engineFault c e fLoopDepth 0
  else
    s.modCell c fun x =>
      let x : CellSt := { x with wd := 0 }
      x.modProg e fun p => p.loop len n

def State.aLoop (s : State) (c : Nat) (w : W64) : State :=
  s.aIssue c 5 w fun p => s.openLoop c .access p (wLen w) ((s.cell c).nReg (wNReg w)).toNat

def State.aNop (s : State) (c : Nat) (w : W64) : State := s.aIssue c 0 w fun _ => s.retire c .access

/-! ## Memory instructions (R136, R138) -/

/-- The first descriptor of an instruction that faults it: the code and the address (R117, R136, R372). -/
def descFault (x : CellSt) : List (Nat × Role) → Option (Nat × Nat)
  | [] => none
  | (a, r) :: t =>
    if opSoft < a + 32 then some (fBadDesc, a)
    else match x.opPoisoned a 32 with
      | some b => some (fPoisoned, b)
      | none => if (readADesc x a).bad r then some (fBadDesc, a) else descFault x t

/-- A memory instruction issues: its descriptors are checked, its registers read, and it goes as far as it can. -/
def State.aMemory (s : State) (c op : Nat) (w : W64) : State :=
  s.aIssue c op w fun _ =>
    match descFault (s.cell c) (aRoles op w) with
    | some (code, a) => s.engineFault c .access code (BitVec.ofNat 64 a)
    | none =>
      let op (x : CellSt) : AOp :=
        { word := w, descs := (aRoles op w).map fun d => readADesc x d.1, areg := x.ae.a, n := (x.nReg (wNr w)).toNat, got := [],
          asked := [], ahead := [], pushed := [], taken := [], done := 0 }
      let s := s.modCell c fun x => { x with ae := { x.ae with op := some (op x) } }
      s.pumpA c

/-! ## Requests (R71, R73, R139, R144, R325) -/

/-- REQUEST_ISSUE: one cell cycle of the window; the instruction in flight goes on where it waited for room. The stores and adds that a
cell had sent before it restarted, and that were redirected, go on too (R167, R319). -/
def State.requestIssue (s : State) (c : Nat) : State :=
  if s.active && decide (c < 192) then (s.issueCycle c).pumpA c else s

/-- The request `id` of cell `c`, with its answer. -/
def State.answered (s : State) (c id : Nat) : Option (Req × Answer) :=
  (s.req id).bind fun r =>
    match r.stage with
    | .answered a => if r.who == .cell c || r.who == .maint c then some (r, a) else none
    | _ => none

def State.granuleDelivery (s : State) (c id : Nat) : State :=
  match s.answered c id with
  | some (r, .data d p) =>
    if r.who == .maint c then s.maintData c r d p else (s.takeData c r d p).pumpA c
  | some (r, .badHandle) =>
    if r.isWrite then s
    else if r.who == .maint c then s.dropReq id
    else (if r.op = .pref then s.dropPref c r else (s.dropReq id).deliverLost c r false).pumpA c
  | _ => s

def State.redirectReceive (s : State) (c id : Nat) : State :=
  match s.answered c id with
  | some (r, .redirect e) =>
    if r.who == .maint c then s.maintRedirect c r e
    else
      let (s, f) := s.takeRedirect c r e
      (s.reqFault c r f).pumpA c
  | _ => s

def State.homeLostReceive (s : State) (c id : Nat) : State :=
  match s.answered c id with
  | some (r, .homeLost) =>
    if r.who == .maint c then (s.dropReq id).count (kPlc 13) 1 else (s.takeLost c r).pumpA c
  | _ => s

def State.requestAck (s : State) (c id : Nat) : State :=
  match s.answered c id with
  | some (r, .ack) => if r.isWrite then (s.takeAck r false).pumpA c else s
  | some (r, .badHandle) => if r.isWrite then (s.takeAck r true).pumpA c else s
  | _ => s

/-- WALK_COMPLETE for a cell: the entry is installed, and the requests that waited go on (R64, R65). -/
def State.cellWalk (s : State) (c h p : Nat) : State :=
  match s.walks.find? fun w => w.cell == c && w.handle == h && w.plot == p with
  | none => s
  | some w =>
    match s.walkEnd w with
    | none => s
    | some e =>
      let s := s.endWalk w
      let s := match e with
        | .entry m => s.ptcInstall c h p m
        | _ => s
      let waiting := s.reqs.filter fun r => r.ofCell c && r.stage == .walking && r.handle == h && r.plot == p
      ((s.resume c e waiting).maintWalked c h p e).pumpA c

/-! ## The end of programs (R122 to R124, R130) -/

/-- Everything that completion waits for is done (R122). -/
def State.progDone (s : State) (c : Nat) (e : Engine) (p : Prog) : Bool :=
  let x := s.cell c
  decide (p.text.length ≤ p.pc) &&
  (match e with
   | .access => x.ae.op.isNone && !s.writesInside c p
   | .execute => x.xe.hold.isNone && x.xe.late.isEmpty && x.arr.mops.isEmpty && x.arr.replays.isEmpty && x.vec.busy.isNone)

def State.programComplete (s : State) (c : Nat) (e : Engine) : State :=
  match s.engineIssues c e with
  | some p => if s.progDone c e p then s.endProg c e else s
  | none => s

/-- What an abort clears in the execute engine: the array and its banks, the vector engine, XPRED and the density window (R171,
R173, R192, R217, R220, R242, R250, R266). What a tile's status says stays until the next MPRE (R183), but for its CLASS. -/
def CellSt.abortUnits (x : CellSt) : CellSt :=
  { x with
    arr := { ArraySt.reset with acc := x.arr.acc, stat := x.arr.stat.map fun q => { q with cls := 0 } },
    vec := VecSt.reset, pred := { PredSt.launch with hist := x.pred.hist } }

/-- PROGRAM_ABORT: a program has faulted, and the other, if one runs and has not faulted, stands at an instruction boundary. -/
def State.programAbort (s : State) (c : Nat) : State :=
  let x := s.cell c
  let ends (e : Engine) : Bool := (x.prog e).isNone || x.faulted e || x.atBoundary e
  if s.active && s.cellUp c && (x.faulted .access || x.faulted .execute) && ends .access && ends .execute then
    let s := s.modCell c fun x => { x with ae := { x.ae with op := none, wait := none }, xe := { x.xe with hold := none, wait := none, late := [] } }
    (s.abortPrograms c).modCell c CellSt.abortUnits
  else s

/-- The watchdog's count at which it acts (R130). -/
def wdLimit : Nat := 2 ^ 20

/-- DECOUPLE_STALL: the programs that wait on a chute fault, and the stall is counted and reported (R130). WD_COUNT returns to 0 with the
fault, for which the spec names no value (log entry 78, DESIGN CHOICE). -/
def State.decoupleStall (s : State) (c : Nat) : State :=
  let x := s.cell c
  if s.active && s.cellUp c && s.regBit (rCell c 0x10) 0 && decide (wdLimit ≤ x.wd) &&
      (x.ae.wait.isSome || x.xe.wait.isSome) then
    let info := x.ae.wait.getD 0xFF + 256 * x.xe.wait.getD 0xFF
    let s := if x.ae.wait.isSome then s.engineFault c .access fDecoupleStall (BitVec.ofNat 64 info) else s
    let s := if x.xe.wait.isSome then s.engineFault c .execute fDecoupleStall (BitVec.ofNat 64 info) else s
    let s := s.modCell c fun x => { x with wd := 0 }
    (s.errBump (rCell c 0x14)).raise (srcCell c) kError 0x0022 4 info
  else s

/-! ## The commands -/

def execAAdda (c : Nat) (w : W64) (s : State) : Host.Outcome State Fault Refusal := .next (s.aAdda c w)
def execAAddan (c : Nat) (w : W64) (s : State) : Host.Outcome State Fault Refusal := .next (s.aAddan c w)
def execASetn (c : Nat) (w : W64) (s : State) : Host.Outcome State Fault Refusal := .next (s.aSetn c w)
def execAAddn (c : Nat) (w : W64) (s : State) : Host.Outcome State Fault Refusal := .next (s.aAddn c w)
def execALoop (c : Nat) (w : W64) (s : State) : Host.Outcome State Fault Refusal := .next (s.aLoop c w)
def execANop (c : Nat) (w : W64) (s : State) : Host.Outcome State Fault Refusal := .next (s.aNop c w)
def execAGather (c : Nat) (w : W64) (s : State) : Host.Outcome State Fault Refusal := .next (s.aMemory c 0x10 w)
def execAGathercsr (c : Nat) (w : W64) (s : State) : Host.Outcome State Fault Refusal := .next (s.aMemory c 0x11 w)
def execAStream (c : Nat) (w : W64) (s : State) : Host.Outcome State Fault Refusal := .next (s.aMemory c 0x12 w)
def execAStreamc (c : Nat) (w : W64) (s : State) : Host.Outcome State Fault Refusal := .next (s.aMemory c 0x13 w)
def execALoad (c : Nat) (w : W64) (s : State) : Host.Outcome State Fault Refusal := .next (s.aMemory c 0x14 w)
def execAPref (c : Nat) (w : W64) (s : State) : Host.Outcome State Fault Refusal := .next (s.aMemory c 0x15 w)
def execAStore (c : Nat) (w : W64) (s : State) : Host.Outcome State Fault Refusal := .next (s.aMemory c 0x20 w)
def execAStorec (c : Nat) (w : W64) (s : State) : Host.Outcome State Fault Refusal := .next (s.aMemory c 0x21 w)
def execAScadd (c : Nat) (w : W64) (s : State) : Host.Outcome State Fault Refusal := .next (s.aMemory c 0x22 w)
def execAHaul (c : Nat) (w : W64) (s : State) : Host.Outcome State Fault Refusal := .next (s.aMemory c 0x23 w)
def execRequestIssue (c : Nat) (s : State) : Host.Outcome State Fault Refusal := .next (s.requestIssue c)
def execGranuleDelivery (c id : Nat) (s : State) : Host.Outcome State Fault Refusal := .next (s.granuleDelivery c id)
def execRedirectReceive (c id : Nat) (s : State) : Host.Outcome State Fault Refusal := .next (s.redirectReceive c id)
def execHomeLostReceive (c id : Nat) (s : State) : Host.Outcome State Fault Refusal := .next (s.homeLostReceive c id)
def execRequestAck (c id : Nat) (s : State) : Host.Outcome State Fault Refusal := .next (s.requestAck c id)
def execProgramComplete (c : Nat) (e : Engine) (s : State) : Host.Outcome State Fault Refusal := .next (s.programComplete c e)
def execProgramAbort (c : Nat) (s : State) : Host.Outcome State Fault Refusal := .next (s.programAbort c)
def execDecoupleStall (c : Nat) (s : State) : Host.Outcome State Fault Refusal := .next (s.decoupleStall c)

end Sys2Proof.Machine
end

