-- ==== Sys2Proof/Machine/Barrier.lean ====
section
/-! DEFINITION. Machine/Barrier.lean: barrier channels (R334 to R341): arrivals, the tree, completion, breaks, and enabling. -/

namespace Sys2Proof.Machine

/-! ## Registers -/

def rBarExp (c n : Nat) : Nat := rCell c (0x400 + 4 * n)
/-- EXP of a cell on a channel. -/
def State.barExp (s : State) (c n : Nat) : Nat := s.regF (rBarExp c n) 6 0
def isSpaceChan (n : Nat) : Bool := decide (64 ≤ n)
def State.barParent (s : State) (n : Nat) : Nat := s.regF (rFabTree (n - 64)) 4 0
def State.barRoot (s : State) (n : Nat) : Bool := s.regBit (rFabTree (n - 64)) 5
def State.barLocal (s : State) (n : Nat) : Bool := s.regBit (rFabTree (n - 64)) 6
def State.barChild (s : State) (n l : Nat) : Bool := s.regBit (rFabChild (n - 64)) l
def State.barChildren (s : State) (n : Nat) : List Nat := (List.range 32).filter (s.barChild n)

/-- A barrier event: its bit of SCH_BAR_EVENT, and its notice when enabled (R341, R480). -/
def State.barEvent (s : State) (source bit code info : Nat) : State :=
  let s := s.setBits rBarEvent (BitVec.ofNat 32 (2 ^ bit))
  if s.regBit rBarEventEn bit then
    s.lookoutReport { source := source, kind := kError, code := code, cls := 4, data := recData code 4 info 0 }
  else s

/-- An arrival or tree message dropped on a channel (R338, R339). -/
def State.barDrop (s : State) (n : Nat) : State := (s.count (kBar 1) 1).barEvent 0 1 0x0122 n

/-! ## The tree (R334, R336) -/

/-- The parity bit of an episode: set when an odd number of its bits is (log entry 28, DEDUCED). -/
def parityOf (e : Byte) : Bool := ((List.range 8).filter fun i => e.getLsbD i).length % 2 == 1

/-- The episode that the device's channel is at. -/
def State.barEpisode (s : State) (n : Nat) : Byte := (s.bar n).done

def State.barSend (s : State) (l n : Nat) (e : Byte) (brk : Nat) : State :=
  { s with barOut := s.barOut ++ [{ link := l, chan := n, episode := e, parity := parityOf e, brk := brk }] }

/-- The cells that take part in a channel. -/
def State.barCells (s : State) (n : Nat) : List Nat := (List.range 192).filter fun c => s.barExp c n != 0

/-- Every taking-part cell of the device has completed the present episode: die root (R334, steps 1 to 3). -/
def State.barDie (s : State) (n : Nat) : Bool :=
  let cs := s.barCells n
  !cs.isEmpty && cs.all fun c => (s.barCell c n).up

/-- The device's subtree has completed (R334, step 4). -/
def State.barSubtree (s : State) (n : Nat) : Bool :=
  if isSpaceChan n then
    (!s.barLocal n || s.barDie n) && (s.barLocal n || !(s.barChildren n).isEmpty) &&
      (s.barChildren n).all fun l => (s.bar n).kids.contains l
  else s.barDie n

/-- Passes completion on: to the parent, or, at the root or on a device channel, to the whole tree. -/
def State.barUp (s : State) (n : Nat) : State :=
  let b := s.bar n
  if b.en && !b.broken && !b.sentUp && !b.reached && s.barSubtree n then
    if isSpaceChan n && !s.barRoot n then
      (s.barSend (s.barParent n) n b.done 0).setBar n { b with sentUp := true }
    else s.setBar n { b with reached := true }
  else s

/-! ## Breaks (R339) -/

/-- A channel breaks with a cause; on a space channel the break goes to the rest of the tree. -/
def State.barBreak (s : State) (n cause : Nat) : State :=
  let b := s.bar n
  if !b.en || b.broken then s
  else
    let s := (s.setBar n { b with broken := true, cause := cause }).barEvent 0 2 0x0123 n
    if isSpaceChan n then
      let out := (if s.barRoot n then [] else [s.barParent n]) ++ s.barChildren n
      out.foldl (fun s l => s.barSend l n b.done cause) s
    else s

/-! ## Arrivals (R335) -/

/-- The outcome of an arrival: taken, dropped, or a skew with the episode expected. -/
inductive Arrival where
  | counted
  | dropped
  | skew (e : Byte)
  deriving DecidableEq, Repr

def State.arrival (s : State) (c n : Nat) (x : Byte) : Arrival :=
  let b := s.bar n
  if !b.en || b.broken || s.barExp c n == 0 then .dropped
  else
    let e := (s.barCell c n).episode
    if x = e ∨ x = e + 1 then .counted else .skew e

/-- Counts an arrival of a slot for an episode. -/
def State.barCount (s : State) (c n t flag : Nat) (x : Byte) : State :=
  let b := s.barCell c n
  let a := (t, (s.thread c t).token, flag)
  if x = b.episode then
    let now := b.now ++ [a]
    (s.setBarCell c n { b with now := now, up := decide (s.barExp c n ≤ now.length) }).barUp n
  else s.setBarCell c n { b with early := b.early ++ [a] }

/-! ## Completion (R334) -/

/-- One cell at the end of an episode: the flags of its arrivals, then the next episode. -/
def State.barCellDone (s : State) (n c : Nat) : State :=
  let b := s.barCell c n
  let s := b.now.foldl (fun s a => s.flagToken c a.1 a.2.1 (BitVec.ofNat 32 (2 ^ a.2.2))) s
  s.setBarCell c n
    { episode := b.episode + 1, now := b.early, early := [], up := decide (s.barExp c n ≤ b.early.length) }

/-- BARRIER_EPISODE_COMPLETE. -/
def State.barComplete (s : State) (n : Nat) : State :=
  let b := s.bar n
  if n < 80 ∧ b.en ∧ !b.broken ∧ b.reached then
    let s := (s.barCells n).foldl (fun s c => s.barCellDone n c) s
    let s := s.setBar n { b with done := b.done + 1, kids := b.kidsNext, kidsNext := [], sentUp := false, reached := false }
    let s := s.count (kBar 0) 1
    let s := if isSpaceChan n then (s.barChildren n).foldl (fun s l => s.barSend l n b.done 0) s else s
    s.barUp n
  else s

/-! ## Messages (R336) -/

/-- BARRIER_MESSAGE. -/
def State.barMessage (s : State) (m : BarMsg) : State :=
  let b := s.bar m.chan
  if m.chan < 64 ∨ 80 ≤ m.chan then s
  else if !b.en || b.broken then s.barDrop m.chan
  else if m.parity ≠ parityOf m.episode then s.barBreak m.chan 3
  else if m.brk ≠ 0 then s.barBreak m.chan m.brk
  else if s.barChild m.chan m.link then
    if m.episode = b.done then
      (s.setBar m.chan { b with kids := if b.kids.contains m.link then b.kids else b.kids ++ [m.link] }).barUp m.chan
    else if m.episode = b.done + 1 then
      s.setBar m.chan { b with kidsNext := if b.kidsNext.contains m.link then b.kidsNext else b.kidsNext ++ [m.link] }
    else s.barDrop m.chan
  else if !s.barRoot m.chan ∧ m.link = s.barParent m.chan ∧ m.episode = b.done ∧ b.sentUp then
    s.setBar m.chan { b with reached := true }
  else s.barDrop m.chan

/-! ## Enabling (R338, R339) -/

/-- EN written from 0 to 1. -/
def State.barEnable (s : State) (n : Nat) : State :=
  if (s.bar n).en then s
  else
    let s : State := { s with cells := s.cells.map fun x => { x with bars := tblSet BarCell.reset n BarCell.reset x.bars } }
    s.setBar n { BarChan.reset with en := true }

/-- How many arrivals of a channel are pending. -/
def State.barPending (s : State) (n : Nat) : Nat :=
  (s.cells.map fun x => let b := tblGet BarCell.reset n x.bars; b.now.length + b.early.length).sum

/-- EN written 0. -/
def State.barDisable (s : State) (n : Nat) : State :=
  let b := s.bar n
  if !b.en then s
  else
    let k := s.barPending n
    let clear (c : BarCell) : BarCell := { c with now := [], early := [], up := false }
    let s : State := { s with cells := s.cells.map fun x => { x with bars := tblSet BarCell.reset n (clear (tblGet BarCell.reset n x.bars)) x.bars } }
    let s := s.setBar n { b with en := false, kids := [], kidsNext := [], sentUp := false, reached := false }
    if k = 0 then s else (s.count (kBar 1) k).barEvent 0 1 0x0122 n

/-- A cell that takes part restarts: each of its channels breaks, and its counts are cleared (R339, R513). -/
def State.barCellRestart (s : State) (c : Nat) : State :=
  let ns := (List.range 80).filter fun n => s.barExp c n != 0
  let s := ns.foldl (fun s n => s.barBreak n 2) s
  (List.range 80).foldl (fun s n => let b := s.barCell c n; s.setBarCell c n { b with now := [], early := [], up := false }) s

/-! ## The commands -/

def execBarrierMessage (m : BarMsg) (s : State) : Host.Outcome State Fault Refusal := .next (if s.active then s.barMessage m else s)
def execBarrierEpisodeComplete (chan : Nat) (s : State) : Host.Outcome State Fault Refusal := .next (s.barComplete chan)
def execBarrierChannelEnable (chan : Nat) (s : State) : Host.Outcome State Fault Refusal := .next (if chan < 80 then s.barEnable chan else s)
def execBarrierChannelDisable (chan : Nat) (s : State) : Host.Outcome State Fault Refusal := .next (if chan < 80 then s.barDisable chan else s)

end Sys2Proof.Machine
end

