-- ==== Sys2Proof/Machine/Host.lean ====
section
/-! DEFINITION. Machine/Host.lean: the Quojor command transport (R422 to R432) as far as commands and completions go, and the
requests that the lookout makes for them. -/

namespace Sys2Proof.Machine

/-! ## Status codes (R430) -/

def stOk : Nat := 0
def stBadParam : Nat := 1
def stNoSpace : Nat := 2
def stHandleBusy : Nat := 3
def stSlotBusy : Nat := 4
def stNoSlot : Nat := 5
def stBadOpc : Nat := 6
def stNoSession : Nat := 7
def stBusy : Nat := 8
def stHomeLost : Nat := 9
def stDenied : Nat := 10
def stPoisoned : Nat := 11

/-! ## Sending on the port (R418, R420) -/

/-- The priority of QCT frames, ETH_VLAN.PCP. -/
def State.qctPri (s : State) : Nat := s.regF rEthVlan 14 12

/-- Keys of the secure associations: 2 · direction + association number, direction 0 transmit (R421). -/
def State.saKey (s : State) (k : Nat) : Option SaKey := tblGet none k s.eth.keys

/-- A frame leaves the port. MACsec protects it with the transmit key in use, and a frame for which there is no key is not sent;
enabling takes effect at the next frame (R421). -/
def State.emit (s : State) (o : NetOut) : State :=
  let on := s.eth.macsecNow
  let s' := s.modEth fun e => { e with macsecNow := s.regBit rEthCfg 12 }
  if !on then (s'.modEth fun e => { e with out := e.out ++ [(o, false)] }).count (kEth 1) 1
  else match s.saKey s.eth.txAn with
    | none => s'
    | some k =>
      let k' : SaKey := { k with nextPn := k.nextPn + 1 }
      (s'.modEth fun e => { e with out := e.out ++ [(o, true)], keys := tblSet none e.txAn (some k') e.keys }).count (kEth 1) 1

/-- A frame is sent; at a paused priority it waits; while the port is not UP nothing is sent. -/
def State.transmit (s : State) (pri : Nat) (o : NetOut) : State :=
  if s.eth.link ≠ 2 then s
  else if s.eth.paused.getLsbD pri then s.modEth fun e => { e with txq := e.txq ++ [(pri, o)] }
  else s.emit o

/-- A QCT packet to the host of a session. -/
def State.qctSend (s : State) (x : Session) (flags qid opc : Nat) (seq ackno : W32) (status : Nat) (tag : W32) (payload : List Byte) :
    State :=
  s.transmit s.qctPri (.qct x.ip x.port flags qid opc seq ackno x.num s.dev status tag s.flash.incarn payload)

/-! ## Queues and completions (R425, R426) -/

def Session.queue (x : Session) (q : Nat) : QSt := x.queues.getD q (QSt.start 0)

def State.modQueue (s : State) (q : Nat) (f : QSt → QSt) : State :=
  s.modEth fun e => { e with session := e.session.map fun x => { x with queues := modAt q f x.queues } }

/-- A completion is sent: flags SYN for open and close, RETX for a resend. -/
def State.sendCompletion (s : State) (q : Nat) (c : Completion) (retx : Bool) : State :=
  match s.eth.session with
  | none => s
  | some x =>
    let flags := (if c.opc = 1 ∨ c.opc = 2 then 1 else 0) + (if retx then 8 else 0)
    (s.modQueue q fun y => { y with ackDue := false }).qctSend x flags q c.opc c.seq (x.queue q).rxNext c.status c.tag c.payload

/-- A command of session `sess` completes on queue `q`. The last W completions are held. A completion of a session that has closed is
discarded (R428, R434). -/
def State.complete (s : State) (q : Nat) (sess : W32) (cmd : QCmd) (status : Nat) (payload : List Byte) : State :=
  match s.eth.session with
  | none => s
  | some x =>
    if x.num ≠ sess then s
    else
      let rto := s.regF rQctTimers 31 16
      let c : Completion := { seq := (x.queue q).txNext, cmdSeq := cmd.seq, opc := cmd.opc, tag := cmd.tag, status := status,
                              payload := payload, acked := false, sentAt := s.timebase, rto := rto }
      let s := s.modQueue q fun y =>
        let h := y.held ++ [c]
        { y with held := h.drop (h.length - x.w), txNext := y.txNext + 1 }
      s.sendCompletion q c false

/-! ## Jobs -/

def State.job (s : State) (j : Nat) : Option HostWait := s.eth.jobs.find? (·.job == j)
def State.modJob (s : State) (j : Nat) (f : HostWait → HostWait) : State :=
  s.modEth fun e => { e with jobs := e.jobs.map fun w => if w.job = j then f w else w }
def State.dropJob (s : State) (j : Nat) : State := s.modEth fun e => { e with jobs := e.jobs.filter (·.job != j) }

/-- A job begins. -/
def State.newJob (s : State) (what : HostJob) (handle stage : Nat) : Nat × State :=
  let j := s.eth.nextJob
  (j, s.modEth fun e => { e with nextJob := j + 1, jobs := e.jobs ++ [{
    job := j, what := what, ids := [], got := [], poison := false, lost := false, tired := false, handle := handle, maps := [],
    items := [], stage := stage, rows := [], geysers := 0, excess := false }] })

/-- A job that is a command completes. -/
def State.completeJob (s : State) (w : HostWait) (status : Nat) (payload : List Byte) : State :=
  match w.what with
  | .qct q sess cmd => (s.dropJob w.job).complete q sess cmd status payload
  | _ => s.dropJob w.job

/-- The job of a command of code `opc` that waits on handle `h`, the youngest when several do: only it can be refused at once. -/
def State.jobOn (s : State) (opc h : Nat) : Option HostWait :=
  s.eth.jobs.reverse.find? fun w => w.handle == h && w.stage == 0 && (match w.what with | .qct _ _ c => c.opc == opc | _ => false)

def State.completeOn (s : State) (opc h status : Nat) : State :=
  match s.jobOn opc h with
  | some w => s.completeJob w status []
  | none => s

/-- A command of a queue has started and not completed. -/
def State.queueBusy (s : State) (q : Nat) (sess : W32) : Bool :=
  s.eth.jobs.any fun w => match w.what with | .qct q' n _ => q' == q && n == sess | _ => false

/-- The command that queue `q` starts next: the oldest one buffered, when it has arrived in order and the one before it has
completed (R426). -/
def State.nextCmd (s : State) (q : Nat) : Option (W32 × QCmd) :=
  match s.eth.session with
  | none => none
  | some x =>
    if q < x.q ∧ !s.queueBusy q x.num then
      match (x.queue q).buf with
      | [] => none
      | c :: _ => if newer 32 (x.queue q).rxNext.toNat c.seq.toNat then some (x.num, c) else none
    else none

/-! ## Which commands wake the device (R467) -/

/-- A block whose registers the lookout serves without waking the device. -/
def quietBlock (a : Nat) : Bool :=
  match blockOf a with | .power => true | .sec => true | .eth => true | .fab => true | _ => false

/-- A command that the lookout serves in every rung. POWER_SET at scope 0 sees to its own wake (R465, R466). -/
def QCmd.quiet (c : QCmd) : Bool :=
  c.opc == 1 || c.opc == 2 || c.opc == 3 || c.opc == 0x30 || (c.opc == 0x28 && byteAt c.payload 0 == 0) ||
  ((c.opc == 8 || c.opc == 9) &&
    (List.range (Nat.min 256 (leAt c.payload 4 2))).all fun i => quietBlock (leAt c.payload 0 4 + 4 * i))

/-- A command may start now: the device is in service, and in ACTIVE with no change in progress unless the lookout serves it. -/
def State.mayStart (s : State) (c : QCmd) : Bool :=
  s.power.phase == .running && (c.quiet || (s.power.rung == 0 && !s.power.busy))

/-- A command row: when the queue's next command is of code `opc` with these payload bytes, it starts, and `f` carries it
out. -/
def State.hostRow (s : State) (q opc : Nat) (payload : List Byte) (f : State → W32 → QCmd → State) : State :=
  match s.nextCmd q with
  | none => s
  | some (sess, c) =>
    if c.opc = opc ∧ c.payload = payload ∧ s.mayStart c then
      f ((s.modQueue q fun y => { y with buf := y.buf.drop 1 }).count (kEth 8) 1) sess c
    else s

/-! ## Requests of the lookout -/

/-- Sends a request of the lookout by a map entry (R64, R73, R74). -/
def State.hostRoute (s : State) (r : Req) (e : MapEntry) : State :=
  let go (s : State) (t : Nat × Nat × Nat) : State :=
    let r := { r with dev := t.1, lnd := t.2.1, frame := t.2.2, gen := e.gen }
    if t.1 = s.dev then s.arriveAt r
    else
      let tag := s.freeTag 0xFF 0
      (s.putReq { r with stage := .remote, tag := tag, born := s.timebase }).send (s.reqPacket r tag)
  let t := targetOf e (s.replicaHere r.handle r.plot e) (!r.isWrite)
  if s.targetLost e t.1 then
    match (if r.isWrite then none else e.reps.find? fun t => t.1 == s.dev || s.reachable t.1), s.desc r.handle with
    | some t, _ => go s t
    | none, some d =>
      if s.hasReplica r e && d.steward != s.dev then (s.putReq { r with stage := .walking }).startWalk 192 d r.plot
      else (s.noRoute t.1).putReq { r with stage := .answered .homeLost }
    | none, none => (s.noRoute t.1).putReq { r with stage := .answered .homeLost }
  else go s t

/-- Translates a request of the lookout (R64). An ORPHANED object has no map to walk (R54). -/
def State.hostTranslate (s : State) (r : Req) : State :=
  match s.liveDesc r.handle with
  | none => s.putReq { r with stage := .answered .badHandle }
  | some d =>
    if d.steward = s.dev then
      match s.mapEntry r.handle r.plot with
      | some e => s.hostRoute r e
      | none => s.putReq { r with stage := .answered .badHandle }
    else if d.state = .orphaned ∨ !s.reachable d.steward then s.putReq { r with stage := .answered .homeLost }
    else (s.putReq { r with stage := .walking }).startWalk 192 d r.plot

/-- A part of an access that lies in one granule: plot, the granule's offset, the first byte in it, how many, and where these
bytes stand in the access. -/
structure Piece where
  plot : Nat
  off : Nat
  lo : Nat
  n : Nat
  k : Nat
  deriving DecidableEq, Repr

/-- The pieces of `len` bytes from byte `b` of an object's elements taken end to end (R431). -/
def piecesGo (d : Desc) (b len : Nat) : Nat → Nat → List Piece
  | 0, _ => []
  | fuel + 1, k =>
    if len ≤ k then []
    else
      let i := (b + k) / d.esize
      let o := plotOff d i + (b + k) % d.esize
      let n := Nat.min (len - k) (Nat.min (64 - o % 64) (eppOf d * d.esize - o))
      { plot := plotOf d i, off := o / 64 * 64, lo := o % 64, n := n, k := k } :: piecesGo d b len fuel (k + n)

def pieces (d : Desc) (b len : Nat) : List Piece := piecesGo d b len len 0

/-- The byte enables of a piece, and its bytes placed in a granule. -/
def Piece.en (p : Piece) : BitVec 64 := BitVec.ofNat 64 ((2 ^ p.n - 1) * 2 ^ p.lo)
def Piece.put (p : Piece) (b : List Byte) : BitVec 512 := BitVec.ofNat 512 (leNat ((b.drop p.k).take p.n) * 2 ^ (8 * p.lo))

/-- Makes the request of a piece for a job; its number among the job's pieces is its key. -/
def State.hostAsk (s : State) (j : Nat) (op : ReqOp) (h : Nat) (i : Nat) (p : Piece) (b : List Byte) : State :=
  let (id, s) := s.newId
  let s := s.modJob j fun w => { w with ids := w.ids ++ [id] }
  s.hostTranslate
    { id := id, who := .host j, op := op, handle := h, plot := p.plot, off := p.off, gen := 0, dev := s.dev, lnd := 0, frame := 0,
      data := p.put b, en := if op = .store then p.en else 0, int := false, poison := false, cache := false, addr := 0, prog := 0, owner := 0,
      redirects := 0, keys := [i], rem := true, born := s.timebase, tag := 0, noFill := 0, slot := true, wb := false,
      stage := .window }

/-- Makes every request of an access. -/
def State.hostAccess (s : State) (j : Nat) (op : ReqOp) (d : Desc) (b len : Nat) (data : List Byte) : State :=
  (pieces d b len).zipIdx.foldl (fun s x => s.hostAsk j op d.handle x.2 x.1 data) s

/-- The bytes that a job's granules give for an access. -/
def gatherBytes (ps : List Piece) (got : List Granule) : List Byte :=
  ps.zipIdx.flatMap fun x =>
    match got.find? fun g => g.key == x.2 with
    | some g => ((granBytes g.data).drop x.1.lo).take x.1.n
    | none => List.replicate x.1.n 0

/-- How often a request is redirected before it gives up (R72). -/
def redirectMax : Nat := 16

/-- An answer reaches the job that asked. -/
def State.hostTake (s : State) (j : Nat) (r : Req) (a : Answer) : State :=
  let fin (s : State) (f : HostWait → HostWait) : State :=
    (s.dropReq r.id).modJob j fun w => f { w with ids := w.ids.filter (· != r.id) }
  match a with
  | .data d p =>
    let keep : Bool := match s.job j with | some w => w.what == .rows | none => false
    let s := if keep then s.modScaler fun z => { z with rows := z.rows ++ [((r.handle, r.plot, r.off), d, p)] } else s
    fin s fun w => { w with got := w.got ++ r.keys.map fun k => { key := k, data := d, poison := p, lost := false, fault := none, due := [] }, poison := w.poison || p }
  | .ack => fin s id
  | .homeLost => fin (s.count (kPlc 13) 1) fun w => { w with lost := true }
  | .fenced => fin (s.count (kPlc 13) 1) fun w => { w with lost := true }
  | .badHandle => if r.isWrite then fin (s.count (kPlc 14) 1) id else fin s fun w => { w with poison := true }
  | .redirect e =>
    let s := s.count (kPlc 12) 1
    let r := { r with redirects := r.redirects + 1 }
    if r.redirects = redirectMax then fin s fun w => { w with tired := true }
    else
      match e with
      | some e => if newer 16 e.gen.toNat r.gen.toNat then s.hostRoute r e else s.hostTranslate r
      | none => s.hostTranslate r

/-- The first answered request of a job. -/
def State.hostAnswered (s : State) : Option (Nat × Req × Answer) :=
  s.reqs.findSome? fun r => match r.who, r.stage with
    | .host j, .answered a => some (j, r, a)
    | _, _ => none

/-- Takes every answer that waits. -/
def State.hostTakeAll (s : State) : Nat → State
  | 0 => s
  | fuel + 1 => match s.hostAnswered with
    | some (j, r, a) => (s.hostTake j r a).hostTakeAll fuel
    | none => s

/-- WALK_COMPLETE for the lookout (R64): its requests to the plot go on, and jobs that asked for the entry have it. -/
def State.hostWalk (s : State) (h p : Nat) : State :=
  match s.walks.find? fun w => w.cell == 192 && w.handle == h && w.plot == p with
  | none => s
  | some w =>
    match s.walkEnd w with
    | none => s
    | some e =>
      let s := s.endWalk w
      let waiting := s.reqs.filter fun r => (match r.who with | .host _ => true | _ => false) && r.stage == .walking && r.handle == h && r.plot == p
      let s := waiting.foldl (fun s r =>
        match e with
        | .entry m => s.hostRoute r m
        | .lost => s.putReq { r with stage := .answered .homeLost }
        | .gone => s.putReq { r with stage := .answered .badHandle }) s
      let m : MapEntry := match e with
        | .entry m => m
        | _ => { dev := s.dev, lnd := 0, frame := 0, gen := 0, pstate := 3, nrep := 0, repIdx := 0, reps := [] }
      let fill (j : HostWait) : HostWait := { j with maps := j.maps.map fun y => if y.1 == (h, p) then (y.1, some m) else y }
      s.modEth fun x => { x with jobs := x.jobs.map fill }

end Sys2Proof.Machine
end

