-- ==== Sys2Proof/Machine/Objects.lean ====
section
/-! DEFINITION. Machine/Objects.lean: objects (R48 to R57, R77 to R80): creation with initial placement, freeing, sealing, hints and
queries, as the steward and the other devices carry them out. -/

namespace Sys2Proof.Machine

/-! ## Descriptors (R56) -/

def objStateCode (x : ObjState) : Nat :=
  match x with | .creating => 0 | .live => 1 | .sealed => 2 | .freeing => 3 | .orphaned => 4

def descBytes (d : Desc) : List Byte :=
  leBytes 3 d.handle ++ leBytes 1 d.typ ++ leBytes 1 (objStateCode d.state) ++ leBytes 1 d.format ++ leBytes 2 (d.esize - 1) ++
  leBytes 5 d.count ++ leBytes 3 0 ++ leBytes 3 (eppOf d) ++ leBytes 5 (plotsOf d) ++ leBytes 2 d.steward ++ leBytes 2 d.affinity ++
  leBytes 2 d.pinDev ++ leBytes 1 d.pinLnd ++ leBytes 1 d.policy ++ leBytes 3 d.scale ++ leBytes 29 0

def pinMode (d : Desc) : Nat := d.policy / 4 % 4
def replMode (d : Desc) : Nat := d.policy % 4
def frozen (d : Desc) : Bool := d.policy.testBit 4

def State.setDesc (s : State) (h : Nat) (d : Option Desc) : State :=
  s.modScaler fun z => { z with objs := tblSet none h d z.objs }

def State.setObjState (s : State) (h : Nat) (st : ObjState) : State :=
  match s.desc h with
  | some d => s.setDesc h (some { d with state := st })
  | none => s

/-! ## The checks of OBJ_CREATE (R49 to R53, R57, R79, R431) -/

/-- The descriptor that a payload spells. -/
def createDesc (p : List Byte) (dev : Nat) : Desc :=
  { handle := leAt p 0 3, typ := leAt p 3 1, state := .creating, format := leAt p 4 1, esize := leAt p 6 2 + 1, count := leAt p 8 5,
    steward := if natBit (leAt p 5 1) 0 then leAt p 16 2 else dev, affinity := leAt p 18 2, pinDev := leAt p 20 2, pinLnd := leAt p 22 1,
    policy := leAt p 23 1, scale := leAt p 24 3 }

/-- The element size that a type allows (R49). -/
def esizeOk (typ e : Nat) : Bool :=
  if typ = 2 then e == 5 else if typ = 3 then e == 5 || e == 1 else if typ = 8 then e == 1 else decide (1 ≤ e ∧ e ≤ 65536)

/-- The SCALE object has the elements that the format needs (R51). -/
def State.scaleOk (s : State) (d : Desc) : Bool :=
  if d.format = 5 ∨ d.format = 6 then
    match s.liveDesc d.scale with
    | some x => x.typ == 8 && x.count == (if d.format = 5 then d.count else d.count * ceilDiv d.esize 32)
    | none => false
  else d.scale == 0

def handleOk (h : Nat) : Bool := h != 0 && h != 0xFFFFFF

/-- The parameters of a create are good. -/
def State.createOk (s : State) (p : List Byte) (d : Desc) : Bool :=
  p.length == 32 && zeroAt p 13 3 && zeroAt p 27 5 && decide (leAt p 5 1 < 2) && decide (d.policy < 32) && pinMode d != 3 && replMode d != 3 &&
  decide (1 ≤ d.typ ∧ d.typ ≤ 8) && esizeOk d.typ d.esize && decide (1 ≤ d.count) && handleOk d.handle &&
  (decide (d.format < 12) || d.format == 0xFF) && !(pinMode d != 0 && d.affinity != 0) && !(pinMode d == 2 && decide (12 ≤ d.pinLnd)) && s.scaleOk d &&
  (!natBit (leAt p 5 1) 0 || s.fab.member d.steward == 1)

/-! ## Frames for plots (R77) -/

/-- The landing for the next plot: the one pinned, or the next in rotation with a free frame. -/
def State.nextLanding (s : State) (lnd rot : Nat) : Option Nat :=
  if lnd < 12 then (if (s.landing lnd).freeFrame.isSome then some lnd else none)
  else ((List.range 12).map fun (i : Nat) => (rot + i) % 12).find? fun l => (s.landing l).freeFrame.isSome

/-- Gives frames of this device to `n` plots from plot `p`; none for want of frames. -/
def State.allocGo (h lnd : Nat) : Nat → Nat → Nat → List (Nat × Nat) → State → Option (List (Nat × Nat) × State)
  | 0, _, _, acc, s => some (acc.reverse, s)
  | n + 1, p, rot, acc, s =>
    match s.nextLanding lnd rot with
    | none => none
    | some l =>
      match (s.landing l).freeFrame with
      | none => none
      | some f => State.allocGo h lnd n (p + 1) (l + 1) ((l, f) :: acc)
          (s.modLanding l fun x => x.setRec f (some { handle := h, plot := p, gen := 0 }))

def State.alloc (s : State) (h first n lnd : Nat) : Option (List (Nat × Nat) × State) := State.allocGo h lnd n first 0 [] s

/-- Free frames of each landing of this device. -/
def State.freeList (s : State) : List Nat := s.landings.map Landing.freeCount

/-- The map entries of a run of plots. -/
def State.mapRun (s : State) (h dev first : Nat) (fs : List (Nat × Nat)) : State :=
  fs.zipIdx.foldl (fun s x => s.setMap h (first + x.2)
    (some { dev := dev, lnd := x.1.1, frame := x.1.2, gen := 0, pstate := 0, nrep := 0, repIdx := 0, reps := [] })) s

/-! ## Initial placement (R77 to R79) -/

/-- The length of each device's run: in proportion to its free frames, rounded down, and the remainder one plot each to those with
the most, ties to the lower number. -/
def runLengths (plots : Nat) (free : List (Nat × Nat)) : List (Nat × Nat) :=
  let total := (free.map (·.2)).sum
  let lens := free.map fun x => (x.1, plots * x.2 / total, x.2)
  let left := plots - (lens.map (·.2.1)).sum
  let better (a b : Nat × Nat × Nat) : Bool := decide (b.2.2 < a.2.2) || (a.2.2 == b.2.2 && decide (a.1 < b.1))
  lens.map fun x => (x.1, x.2.1 + (if (lens.filter fun y => better y x).length < left then 1 else 0))

/-- The device of an element in a division; beyond its end, the last device. -/
def divisionDev (div : List (Nat × Nat)) (i : Nat) : Nat :=
  match div.find? fun x => decide (i < x.2) with
  | some x => x.1
  | none => match div.getLast? with | some x => x.1 | none => 0

/-- Plots with their devices, as runs (device, first plot, plots). -/
def runsOf : List (Nat × Nat) → List (Nat × Nat × Nat)
  | [] => []
  | (dev, p) :: t =>
    match runsOf t with
    | (d, f, n) :: r => if d = dev ∧ f = p + 1 then (dev, p, n + 1) :: r else (dev, p, 1) :: (d, f, n) :: r
    | [] => [(dev, p, 1)]

/-- The free frames that a device reported for a create. -/
def Creating.freeOn (c : Creating) (dev : Nat) : Nat := ((c.free.find? fun x => x.1 == dev).map fun x => x.2.sum).getD 0

/-- The runs of an object, with the landing that each is pinned to (12 for none), or none when there is no space (R77 to R79, R104). -/
def State.planRuns (s : State) (c : Creating) : Option (List (Nat × Nat × Nat) × Nat) :=
  let d := c.desc
  let plots := plotsOf d
  let total := c.freeOn
  let fits (rs : List (Nat × Nat × Nat)) : Bool :=
    (rs.map (·.1)).eraseDups.all fun (dev : Nat) => decide (((rs.filter fun r => r.1 == dev).map (·.2.2)).sum ≤ total dev)
  if c.wset.isSome then (if fits c.runs then some (c.runs, 12) else none)
  else if pinMode d = 1 then (if plots ≤ total d.pinDev then some ([(d.pinDev, 0, plots)], 12) else none)
  else if pinMode d = 2 then
    let room := match c.free.find? fun x => x.1 == d.pinDev with | some x => x.2.getD d.pinLnd 0 | none => 0
    if plots ≤ room then some ([(d.pinDev, 0, plots)], d.pinLnd) else none
  else
    match (if d.affinity = 0 then none else (s.scaler.groups.find? fun g => g.1 == d.affinity)) with
    | some g =>
      let rs := runsOf ((List.range plots).map fun (p : Nat) => (divisionDev g.2 (p * eppOf d), p))
      if fits rs then some (rs, 12) else none
    | none =>
      let free := c.free.map fun x => (x.1, x.2.sum)
      if (free.map (·.2)).sum < plots then none
      else
        let ls := (runLengths plots free).filter fun x => x.2 != 0
        some ((ls.foldl (fun acc x => (acc.1 ++ [(x.1, acc.2, x.2)], acc.2 + x.2)) (([] : List (Nat × Nat × Nat)), 0)).1, 12)

/-! ## Creating (R52, R53, R56) -/

def State.creating (s : State) (h : Nat) : Option Creating := s.scaler.creates.find? fun c => c.desc.handle == h
def State.modCreate (s : State) (h : Nat) (f : Creating → Creating) : State :=
  s.modScaler fun z => { z with creates := z.creates.map fun c => if c.desc.handle = h then f c else c }

/-- The outcome of a create or free reaches the host that asked. -/
def State.answerAsk (s : State) (asker : Option Nat) (opc h status : Nat) : State :=
  match asker with
  | some a => s.tell a (.askDone opc h status)
  | none => s.completeOn opc h status

/-- A create ends. -/
def State.endCreate (s : State) (c : Creating) (status : Nat) : State :=
  let s := s.modScaler fun z => { z with creates := z.creates.filter fun x => x.desc.handle != c.desc.handle }
  if c.wset.isSome then s else s.answerAsk c.asker 0x10 c.desc.handle status

/-- The entries that this steward holds for a handle. -/
def State.entriesOf (s : State) (h : Nat) : List (Nat × MapEntry) :=
  s.scaler.pmap.filterMap fun x => if x.1 / 2 ^ 40 = h then x.2.map fun e => (x.1 % 2 ^ 40, e) else none

/-- The frames and the map entries that a create has made so far go. -/
def State.dropRuns (s : State) (c : Creating) : State :=
  let h := c.desc.handle
  (s.entriesOf h).foldl (fun s x =>
    let s := if x.2.dev = s.dev then s.releaseFrame x.2.lnd x.2.frame else s.tell x.2.dev (.frameRelease x.2.lnd x.2.frame h x.1 none)
    s.setMap h x.1 none) s

/-- The division of an affinity group, or none, as this device knows it. -/
def State.setGroup (s : State) (g : Nat) (div : List (Nat × Nat)) : State :=
  s.modScaler fun z =>
    let rest := z.groups.filter fun x => x.1 != g
    { z with groups := if div = [] then rest else rest ++ [(g, div)] }

/-- The division that the runs of an object make (R79). -/
def divisionOf (d : Desc) (runs : List (Nat × Nat × Nat)) : List (Nat × Nat) := runs.map fun r => (r.1, (r.2.1 + r.2.2) * eppOf d)

/-- The first object of a group fixes its division, as soon as its runs are planned, so that a create that overlaps it is placed by the same
division (R79). -/
def State.fixGroup (s : State) (d : Desc) (runs : List (Nat × Nat × Nat)) : State :=
  if d.affinity = 0 ∨ s.scaler.groups.any (fun g => g.1 == d.affinity) then s
  else (s.setGroup d.affinity (divisionOf d runs)).tellAll (.groupFix d.affinity (divisionOf d runs))

/-- A create that fails leaves no division behind, unless another object of the group stands. -/
def State.unfixGroup (s : State) (c : Creating) : State :=
  let d := c.desc
  let mine := s.scaler.groups.any fun g => g == (d.affinity, divisionOf d c.runs)
  let other := s.scaler.objs.any fun o => match o.2 with | some x => x.affinity == d.affinity && x.handle != d.handle | none => false
  if d.affinity = 0 ∨ !mine ∨ other then s else (s.setGroup d.affinity []).tellAll (.groupFix d.affinity [])

/-- A create fails: it leaves nothing behind (R52, R53). -/
def State.failCreate (s : State) (c : Creating) (status : Nat) : State :=
  let h := c.desc.handle
  let s := (((s.dropRuns c).unfixGroup c).setDesc h none).tellAll (.descDrop h s.dev)
  s.endCreate c status

/-- A create goes on once every device has answered its present step. -/
def State.createStep (s : State) (h : Nat) : State :=
  match s.creating h with
  | none => s
  | some c =>
    if c.waiting ≠ [] then s
    else if c.step = 0 then
      match s.planRuns c with
      | none => s.failCreate c stNoSpace
      | some (rs, lnd) =>
        let s := s.modCreate h fun c => { c with step := 1, runs := rs, waiting := (rs.map (·.1)).filter (· != s.dev) }
        let s := s.fixGroup c.desc rs
        rs.foldl (fun s r =>
          if r.1 = s.dev then
            match s.alloc h r.2.1 r.2.2 lnd with
            | some (fs, s) => s.mapRun h s.dev r.2.1 fs
            | none => s.modCreate h fun c => { c with step := 3 }
          else s.tell r.1 (.allocRun h r.2.1 r.2.2 lnd)) s
    else if c.step = 1 then
      (s.modCreate h fun c => { c with step := 2, waiting := s.others }).tellAll (.descInstall c.desc)
    else if c.step = 2 then
      ((s.setObjState h .live).tellAll (.descState h .live)).endCreate c stOk
    else s.failCreate c stNoSpace

def State.createGo (s : State) (h : Nat) : State := (((s.createStep h).createStep h).createStep h).createStep h

/-- The steward accepts a create. A device that is no member of a space has no device to place a plot on. -/
def State.startCreate (s : State) (d : Desc) (asker : Option Nat) (wset : Option Nat) (runs : List (Nat × Nat × Nat)) : State :=
  let c : Creating := { desc := d, asker := asker, step := 0, waiting := s.others, free := [(s.dev, s.freeList)], runs := runs, wset := wset }
  if s.fab.member s.dev ≠ 1 then s.endCreate c stNoSpace
  else
    let s := s.setDesc d.handle (some d)
    ((s.modScaler fun z => { z with creates := z.creates ++ [c] }).tellAll (.askFree d.handle)).createGo d.handle

/-- A device leaves the devices that a create waits for; a device of several runs answers once for each. -/
def State.createHeard (s : State) (h dev : Nat) : State := s.modCreate h fun c => { c with waiting := c.waiting.erase dev }

/-- A device that becomes a member while descriptors are being installed gets them too, and is waited for (R56). -/
def State.joinCreates (s : State) (dev : Nat) : State :=
  (s.scaler.creates.filter fun c => c.step == 2).foldl (fun s c =>
    (s.modCreate c.desc.handle fun c => { c with waiting := c.waiting ++ [dev] }).tell dev (.descInstall c.desc)) s

/-- A create begins again by a division that it did not know. -/
def State.replan (s : State) (c : Creating) : State :=
  let h := c.desc.handle
  let s := (s.dropRuns c).modCreate h fun c => { c with step := 0, runs := [], waiting := s.others, free := [(s.dev, s.freeList)] }
  (s.tellAll (.askFree h)).createGo h

/-- Another steward has fixed the division of a group, or taken it back. Of two that fixed one at overlapping times the lower device number
stands, as in R53, and what the other places begins again (R79; log entry 20, DEDUCED). -/
def State.onGroupFix (s : State) (src g : Nat) (div : List (Nat × Nat)) : State :=
  let mine := s.scaler.creates.filter fun c => c.desc.affinity == g && c.step != 0 && c.wset.isNone
  if div ≠ [] ∧ mine ≠ [] ∧ s.dev < src then s
  else
    let s := s.setGroup g div
    if div = [] then s else mine.foldl (fun s c => if divisionOf c.desc c.runs = div then s else s.replan c) s

/-! ## Creating, at the other devices -/

def State.onFreeFrames (s : State) (src h : Nat) (free : List Nat) : State :=
  match s.creating h with
  | some c =>
    if c.step = 0 ∧ c.waiting.contains src then
      let ins (l : List (Nat × List Nat)) : List (Nat × List Nat) :=
        (l.filter fun x => decide (x.1 < src)) ++ [(src, free)] ++ l.filter fun x => decide (src < x.1)
      ((s.modCreate h fun c => { c with free := ins c.free }).createHeard h src).createGo h
    else s
  | none => s

def State.onAllocRun (s : State) (src h first n lnd : Nat) : State :=
  match s.alloc h first n lnd with
  | some (fs, s) => s.tell src (.allocDone h first fs)
  | none => s.tell src (.allocDone h first [])

/-- Frames that a device gave for a create that wants them no more. -/
def State.giveBack (s : State) (src h first : Nat) (fs : List (Nat × Nat)) : State :=
  fs.zipIdx.foldl (fun s x => s.tell src (.frameRelease x.1.1 x.1.2 h (first + x.2) none)) s

def State.onAllocDone (s : State) (src h first : Nat) (fs : List (Nat × Nat)) : State :=
  match s.creating h with
  | some c =>
    if c.step = 1 ∧ c.waiting.contains src then
      let s := if fs = [] then s.modCreate h fun c => { c with step := 3 } else s.mapRun h src first fs
      (s.createHeard h src).createGo h
    else if c.step = 3 then ((s.mapRun h src first fs).createHeard h src).createGo h
    else if c.step = 0 then s.giveBack src h first fs
    else s
  | none => s.giveBack src h first fs

/-- A descriptor arrives for installation. Of two creates of one handle, the one whose steward has the lower number stands (R53). -/
def State.onDescInstall (s : State) (src : Nat) (d : Desc) : State :=
  let h := d.handle
  let take (s : State) : State := (s.setDesc h (some d)).tell src (.descAck h)
  match s.desc h with
  | none => take s
  | some x =>
    if x.state = .creating ∧ d.steward < x.steward then
      match s.creating h with
      | some c => take (s.failCreate c stHandleBusy)
      | none => take s
    else s.tell src (.descNack h)

def State.onDescAck (s : State) (src h : Nat) : State :=
  match s.creating h with
  | some c => if c.step = 2 then (s.createHeard h src).createGo h else s
  | none => s

def State.onDescNack (s : State) (h : Nat) : State :=
  match s.creating h with
  | some c => s.failCreate c stHandleBusy
  | none => s

def State.onDescDrop (s : State) (h steward : Nat) : State :=
  match s.desc h with
  | some d => if d.steward = steward ∨ d.state = .freeing then s.setDesc h none else s
  | none => s

def State.onFrameRelease (s : State) (lnd frame h p : Nat) (e : Option MapEntry) : State :=
  match (s.landing lnd).recAt frame with
  | some r =>
    if r.handle = h ∧ r.plot = p then
      let s := s.releaseFrame lnd frame
      match e with
      | some e => s.modLanding lnd fun x => x.addFwd { handle := h, plot := p, entry := e }
      | none => s
    else s
  | none => s

/-! ## Freeing (R54, R55, R89) -/

/-- What each device does of a free: moves of the object end, its frames are released, and its translations, forwarding records, geyser
rows and regions go. -/
def State.freeHere (s : State) (h : Nat) : State :=
  let s := s.setObjState h .freeing
  let ms := s.scaler.moves.filter fun m => m.req.handle == h
  let s := ms.foldl (fun s m => s.endMove m.req) s
  let fs := s.landings.zipIdx.flatMap fun x => x.1.frames.filterMap fun f =>
    match f.2 with | some r => if r.handle = h then some (x.2, f.1) else none | none => none
  let s := fs.foldl (fun s x => s.releaseFrame x.1 x.2) s
  let s := s.sweepHandle h
  let s := s.modScaler fun z => { z with
    rows := z.rows.filter fun r => r.1.1 != h, queue := z.queue.filter fun m => m.handle != h,
    retire := z.retire.filter fun r => r.1 != h, hints := tblSet 0 h 0 z.hints }
  s.modEth fun e => { e with mrs := e.mrs.map fun m => if addrHandle m.addr = h then { m with valid := false } else m }

/-- A free ends once every device that is not LOST has acknowledged: the handle is free. -/
def State.freeStep (s : State) (h : Nat) : State :=
  match s.scaler.frees.find? fun f => f.handle == h with
  | none => s
  | some f =>
    if f.waiting ≠ [] then s
    else
      let gone (k : Nat) : Bool := k / 2 ^ 40 == h
      let s := s.modScaler fun z => { z with
        frees := z.frees.filter fun x => x.handle != h, sweeps := z.sweeps.filter fun x => x.handle != h,
        objs := tblSet none h none z.objs, pmap := z.pmap.filter fun x => !gone x.1, repTab := z.repTab.filter fun x => !gone (x.2 - 1), base := z.base.filter fun x => !gone x.1,
        startGen := z.startGen.filter fun x => !gone x.1, moved := z.moved.filter fun x => !gone x.1,
        quiet := z.quiet.filter fun x => !gone x.1, quietRep := z.quietRep.filter fun x => x.1.1 != h,
        seals := z.seals.filter fun x => x.1 != h }
      let s := s.tellAll (.descDrop h s.dev)
      s.answerAsk f.asker 0x11 h stOk

def State.startFree (s : State) (h : Nat) (asker : Option Nat) : State :=
  let s := s.freeHere h
  let s := s.modScaler fun z => { z with frees := z.frees ++ [{ handle := h, waiting := s.others, asker := asker }] }
  (s.tellAll (.objFree h)).freeStep h

def State.onObjFree (s : State) (src h : Nat) : State := (s.freeHere h).tell src (.freeAck h)

def State.onFreeAck (s : State) (src h : Nat) : State :=
  (s.modScaler fun z => { z with frees := z.frees.map fun f =>
    if f.handle = h then { f with waiting := f.waiting.erase src } else f }).freeStep h

/-- An object may be freed. -/
def freeable (d : Desc) : Bool := d.state == .live || d.state == .sealed || d.state == .orphaned

/-- A free asked for at this device: it acts as the steward, or for a steward that is lost, or passes the request on. -/
def State.askFree (s : State) (h : Nat) (asker : Option Nat) : State :=
  match s.desc h with
  | some d =>
    if !freeable d then s.answerAsk asker 0x11 h stBadParam
    else if d.steward = s.dev ∨ d.state = .orphaned then s.startFree h asker
    else s.tell d.steward (.freeAsk h)
  | none => s.answerAsk asker 0x11 h stBadParam

/-! ## Sealing (R54, R89) -/

/-- Seals the objects that wait for it and that no move concerns. -/
def State.sealStep (s : State) : State :=
  s.scaler.seals.foldl (fun s x =>
    if s.scaler.moves.any (fun m => m.req.handle == x.1) then s
    else
      let s := s.modScaler fun z => { z with seals := z.seals.filter fun y => y.1 != x.1 }
      match s.desc x.1 with
      | some d =>
        if d.state = .live then ((s.setObjState x.1 .sealed).tellAll (.descState x.1 .sealed)).answerAsk x.2 0x12 x.1 stOk
        else s.answerAsk x.2 0x12 x.1 stBadParam
      | none => s.answerAsk x.2 0x12 x.1 stBadParam) s

def State.askSeal (s : State) (h : Nat) (asker : Option Nat) : State :=
  match s.desc h with
  | some d =>
    if d.state ≠ .live ∨ d.typ = 7 ∨ d.typ = 9 then s.answerAsk asker 0x12 h stBadParam
    else if d.steward = s.dev then
      (s.modScaler fun z => { z with seals := z.seals ++ [(h, asker)], queue := z.queue.filter fun m => m.handle != h }).sealStep
    else s.tell d.steward (.sealAsk h)
  | none => s.answerAsk asker 0x12 h stBadParam

/-! ## Hints (R80) -/

def State.askHint (s : State) (h hint : Nat) (asker : Option Nat) : State :=
  match s.liveDesc h with
  | some d =>
    if 3 < hint then s.answerAsk asker 0x14 h stBadParam
    else if d.steward = s.dev then (s.modScaler fun z => { z with hints := tblSet 0 h hint z.hints }).answerAsk asker 0x14 h stOk
    else if d.state = .orphaned then s.answerAsk asker 0x14 h stBadParam
    else s.tell d.steward (.hintAsk h hint)
  | none => s.answerAsk asker 0x14 h stBadParam

def State.hint (s : State) (h : Nat) : Nat := tblGet 0 h s.scaler.hints

/-! ## Queries of a plot (R114) -/

/-- The requests of one more entry added to those of its requester. -/
def addRequester (l : List (Nat × Nat)) (t : Traffic) : List (Nat × Nat) :=
  if l.any fun x => x.1 == t.dev then l.map fun x => if x.1 = t.dev then (x.1, x.2 + t.total) else x else l ++ [(t.dev, t.total)]

/-- Loads, stores, adds and the requesters of a plot in the last completed interval: each requester once, with all that it requested. -/
def State.plotFigures (s : State) (h p : Nat) : Nat × Nat × Nat × List (Nat × Nat) :=
  let ts := s.scaler.trafficLast.filter fun t => t.handle == h && t.plot == p
  let rs := (ts.foldl addRequester []).mergeSort fun a b => decide (b.2 ≤ a.2)
  ((ts.map (·.loads)).sum, (ts.map (·.stores)).sum, (ts.map (·.adds)).sum, rs.take 16)

/-- The completion payload of PLC_QUERY for a plot (R431). -/
def plotReply (e : MapEntry) (ld st ad : Nat) (rs : List (Nat × Nat)) : List Byte :=
  leBytes 16 (entryBits e).toNat ++ leBytes 8 ld ++ leBytes 8 st ++ leBytes 8 ad ++ leBytes 2 rs.length ++ leBytes 6 0 ++
    rs.flatMap fun r => leBytes 2 r.1 ++ leBytes 2 0 ++ leBytes 4 (Nat.min r.2 0xFFFFFFFF)

def State.onQueryAsk (s : State) (src h p : Nat) : State :=
  let (ld, st, ad, rs) := s.plotFigures h p
  s.tell src (.queryDone h p (s.mapEntry h p) ld st ad rs)

def State.onQueryDone (s : State) (h : Nat) (e : Option MapEntry) (ld st ad : Nat) (rs : List (Nat × Nat)) : State :=
  match s.jobOn 0x18 h with
  | some w =>
    match e with
    | some e => s.completeJob w stOk (plotReply e ld st ad rs)
    | none => s.completeJob w stBadParam []
  | none => s

end Sys2Proof.Machine
end

