-- ==== Sys2Proof/Machine/Moves.lean ====
section
/-! DEFINITION. Machine/Moves.lean: moves of plots (R84 to R89), generation sweeps (R90 to R92), and what a retirement and the loss of a
device do to the map (R110, R111). -/

namespace Sys2Proof.Machine

/-! ## Records of moves -/

def State.move (s : State) (h p : Nat) : Option Move := s.scaler.moves.find? fun m => m.req.handle == h && m.req.plot == p
def State.modMove (s : State) (h p : Nat) (f : Move → Move) : State :=
  s.modScaler fun z => { z with moves := z.moves.map fun m => if m.req.handle = h ∧ m.req.plot = p then f m else m }
def State.dropMove (s : State) (h p : Nat) : State :=
  s.modScaler fun z => { z with moves := z.moves.filter fun m => !(m.req.handle == h && m.req.plot == p) }
def State.putMove (s : State) (m : MoveReq) : State :=
  (s.dropMove m.handle m.plot).modScaler fun z => { z with moves := z.moves ++ [{
    req := m, phase := .copying, written := [], acks := [], tag := 0, unacked := 0 }] }

/-- A move whose bytes count against the budget (R82, R94). -/
def chargedMove (m : MoveReq) : Bool := decide (2 ≤ m.cls ∧ m.cls ≤ 4)

/-- A move whose source stays as it is: a replica made, or a replica moved (R93). -/
def replicaMove (m : MoveReq) : Bool := decide (4 ≤ m.cls)

/-! ## Sweeps (R90, R91) -/

/-- How far a generation has advanced since the last completed sweep of its object. -/
def State.advance (s : State) (h p : Nat) (g : BitVec 16) : Nat := (g - tblGet 0 (plotKey h p) s.scaler.base).toNat

def State.startSweep (s : State) (h : Nat) : State :=
  if s.scaler.sweeps.any fun x => x.handle == h then s
  else
    let es := s.entriesOf h
    let s := s.modScaler fun z => { z with
      sweeps := z.sweeps ++ [{ handle := h, waiting := s.others, asker := none }],
      startGen := es.foldl (fun t x => tblSet 0 (plotKey h x.1) x.2.gen t) (z.startGen.filter fun x => x.1 / 2 ^ 40 != h) }
    (s.sweepHandle h).tellAll (.sweep h)

/-- A sweep starts when the entry of a plot has advanced 16,384 generations. -/
def State.sweepCheck (s : State) (h p : Nat) : State :=
  match s.mapEntry h p with
  | some e => if 16384 ≤ s.advance h p e.gen then s.startSweep h else s
  | none => s

def State.onSweep (s : State) (src h : Nat) : State := (s.sweepHandle h).tell src (.sweepAck h)
def State.onSweepAck (s : State) (src h : Nat) : State :=
  s.modScaler fun z => { z with sweeps := z.sweeps.map fun x =>
    if x.handle = h then { x with waiting := x.waiting.erase src } else x }

/-- A flip would carry an entry too far from the last sweep (R91). -/
def State.flipStalled (s : State) (h p : Nat) (g : BitVec 16) : Bool := decide (32767 ≤ s.advance h p (g + 1))

/-- A flip waits on a sweep, which the event says once (R91, R112). -/
def State.noteStall (s : State) (h : Nat) : State := if s.regBit rPlcEvent 3 then s else s.plcEvent 3 h

/-! ## Frame records of an entry (R63, R93) -/

/-- A frame record at this device or another. -/
def State.installFrame (s : State) (t : Nat × Nat × Nat) (h p : Nat) (g : BitVec 16) : State :=
  if t.1 = s.dev then s.modLanding t.2.1 fun x => x.setRec t.2.2 (some { handle := h, plot := p, gen := g })
  else s.tell t.1 (.frameInstall t.2.1 t.2.2 h p g)

/-- The frames of an entry's home and replicas take its generation. -/
def State.bumpFrames (s : State) (h p : Nat) (e : MapEntry) : State :=
  ((e.dev, e.lnd, e.frame) :: e.reps).foldl (fun s t => s.installFrame t h p e.gen) s

/-- The frame of a replica that has gone is released, with a forwarding record of the entry as it now stands (R93). -/
def State.leaveFrame (s : State) (t : Nat × Nat × Nat) (h p : Nat) : State :=
  let e := s.mapEntry h p
  if t.1 = s.dev then s.onFrameRelease t.2.1 t.2.2 h p e else s.tell t.1 (.frameRelease t.2.1 t.2.2 h p e)

/-- Drops a replica: its frame is released with a forwarding record, and the generation rises (R93). -/
def State.dropReplica (s : State) (h p : Nat) (t : Nat × Nat × Nat) : State :=
  match s.mapEntry h p with
  | none => s
  | some e =>
    let e := { e with reps := e.reps.filter (· != t), gen := e.gen + 1 }
    let s := (s.setMap h p (some e)).bumpFrames h p e
    ((s.leaveFrame t h p).count (kPlc 4) 1).sweepCheck h p

/-! ## Copies (R84, step 1; R86) -/

/-- The source may copy that many more bytes for a move in this interval (R82). -/
def State.mayCopy (s : State) (m : MoveReq) (n : Nat) : Bool := !chargedMove m || decide (n ≤ s.scaler.left)

/-- Copies the granules of a plot whose offset meets `q` from the source frame to the target, errors and poison with them
(R371, R377), and charges them to the budget (R82). -/
def State.copyWhere (s : State) (m : MoveReq) (q : Nat → Bool) : State :=
  let (_, sl, sf) := m.src
  let (td, tl, tf) := m.dst
  let inSrc (la : Nat) : Bool := laLanding la == sl && laFrame la == sf && q (laOff la)
  let s := ((s.landing sl).adds.filter inSrc).foldl State.addFlush s
  let s := (s.memUpset.filter fun x => inSrc x.1).foldl (fun s x => s.checkGranule x.1) s
  let offs := ((List.range 32768).map (64 * ·)).filter q
  let s := (s.count (kLnd sl 0) offs.length).count (kPlc 1) (64 * offs.length)
  let s := if chargedMove m then s.modScaler fun z => { z with left := z.left - 64 * offs.length } else s
  let bad (la : Nat) : Bool := s.granulePoison la || s.deadPc la
  if td = s.dev then
    (offs.foldl (fun s o => s.putGranule (laOf tl tf o) (s.granule (laOf sl sf o)) (bad (laOf sl sf o))) s).count (kLnd tl 1) offs.length
  else
    let tag := match s.move m.handle m.plot with
      | some x => if x.unacked = 0 then s.freeTag 0xFF 0 else x.tag
      | none => 0
    let s := offs.foldl (fun s o =>
      let la := laOf sl sf o
      s.send (s.packet td pkMove tag (addrUnit m.handle m.plot m.gen.toNat tl tf o :: dataUnits (s.granule la)) (bad la))) s
    s.modMove m.handle m.plot fun x => { x with tag := tag, unacked := x.unacked + offs.length }

/-- The source begins to copy. -/
def State.beginCopy (s : State) (m : MoveReq) : State := (s.putMove m).copyWhere m fun _ => true

/-- Moves that run from this device, of other plots than that of `m`. -/
def State.runningFrom (s : State) (m : MoveReq) : Nat :=
  (s.scaler.moves.filter fun x =>
    x.req.src.1 == s.dev && x.phase != .queued && !(x.req.handle == m.handle && x.req.plot == m.plot)).length

/-- The source begins to copy, or keeps the move until fewer than eight run from it and the budget allows (R82). -/
def State.beginOrWait (s : State) (m : MoveReq) : State :=
  if s.runningFrom m < 8 ∧ s.mayCopy m plotBytes then s.beginCopy m
  else (s.putMove m).modMove m.handle m.plot fun x => { x with phase := .queued }

/-- The moves that wait at this source. -/
def State.resumeCopies (s : State) : State :=
  (s.scaler.moves.filter fun m => m.phase == .queued && m.req.src.1 == s.dev).foldl (fun s m => s.beginOrWait m.req) s

/-! ## Starting (R84, step 1; R110) -/

/-- The landing with the fewest requests in the last interval among those not failed that hold a free frame, `but` excluded. -/
def State.leastLanding (s : State) (but : Nat) : Option Nat :=
  let ok := (List.range 12).filter fun l => l != but && !(s.landing l).failed && (s.landing l).freeFrame.isSome
  ok.foldl (fun b l => match b with
    | none => some l
    | some k => if (s.landing l).servedLast < (s.landing k).servedLast then some l else some k) none

/-- The target of a move reserves a frame: on the landing asked for, else, for a retirement or where none was named, on the
least loaded one, which for class 3 is not the source's (R81). -/
def State.reserve (s : State) (m : MoveReq) : Option (MoveReq × State) :=
  let named := if m.dst.2.1 < 12 ∧ !(s.landing m.dst.2.1).failed ∧ (s.landing m.dst.2.1).freeFrame.isSome then some m.dst.2.1 else none
  let pick := match named with
    | some l => some l
    | none => if m.dst.2.1 < 12 ∧ m.cls ≠ 1 then none else s.leastLanding (if m.cls = 3 then m.src.2.1 else 12)
  match pick with
  | none => none
  | some l =>
    match (s.landing l).freeFrame with
    | none => none
    | some f => some ({ m with dst := (s.dev, l, f) }, s.modLanding l fun x => { x with reserved := x.reserved ++ [f] })

/-- A retirement has left its pin (R110). -/
def State.pinCheck (s : State) (m : MoveReq) : State :=
  match s.desc m.handle with
  | some d => if m.cls = 1 ∧ pinMode d = 2 ∧ m.dst.2.1 ≠ d.pinLnd then s.plcEvent 1 m.handle else s
  | none => s

/-- The steward learns that a move found no frame. -/
def State.noFrameFor (s : State) (m : MoveReq) : State :=
  let s := s.dropMove m.handle m.plot
  let s := match s.mapEntry m.handle m.plot with
    | some e => if e.pstate = 1 ∨ e.pstate = 2 then s.setMap m.handle m.plot (some { e with pstate := restState s.scaler m.handle m.plot }) else s
    | none => s
  if m.cls = 1 ∨ m.cls = 5 then s.plcEvent 4 m.handle else s

/-- The steward starts a move it has selected, from where the plot, or its replica, now lies. -/
def State.startMove (s : State) (m : MoveReq) : State :=
  match s.mapEntry m.handle m.plot, s.liveDesc m.handle with
  | some e, some _ =>
    if (e.pstate ≠ 0 ∧ e.pstate ≠ 2) ∨ (s.move m.handle m.plot).isSome ∨
        (m.cls = 4 ∧ (8 ≤ e.reps.length ∨ e.dev = m.dst.1 ∨ e.reps.any fun t => t.1 == m.dst.1)) ∨
        (m.cls = 5 ∧ !e.reps.contains m.src) then s
    else
      let m := { m with src := if m.cls = 5 then m.src else (e.dev, e.lnd, e.frame), gen := e.gen, nrep := e.nrep, repIdx := e.repIdx }
      let s := s.setMap m.handle m.plot (some { e with pstate := if e.pstate = 0 then 1 else e.pstate })
      if m.dst.1 = s.dev then
        match s.reserve m with
        | none => s.noFrameFor m
        | some (m, s) =>
          let s := (s.putMove m).pinCheck m
          if m.src.1 = s.dev then s.beginOrWait m else s.tell m.src.1 (.moveGo m)
      else (s.putMove m).tell m.dst.1 (.moveAsk m)
  | _, _ => s

/-- Placement is frozen (R83). -/
def State.placementFrozen (s : State) : Bool := s.regBit rPlcCtrl 2 || s.regF rPlcBudget 15 0 == 0

/-- A queued move may start: fewer than eight moves from its source are known, none of its plot (R82, R89), and one that the freeze
concerns waits while placement is frozen (R83). -/
def State.moveMayStart (s : State) (m : MoveReq) (src : Nat) : Bool :=
  decide ((s.scaler.moves.filter fun x => x.req.src.1 == src).length < 8) && (s.move m.handle m.plot).isNone &&
    !(chargedMove m && s.placementFrozen)

/-- Starts queued moves. One whose flip would wait for a sweep waits here when its source is another device, which does not know of the
sweep (R91). -/
def State.startQueued (s : State) : State :=
  let s := s.resumeCopies
  s.scaler.queue.foldl (fun s m =>
    let (src, far) := match s.mapEntry m.handle m.plot with
      | some e =>
        let src := if m.cls = 5 then m.src.1 else e.dev
        (src, src != s.dev && s.flipStalled m.handle m.plot e.gen)
      | none => (s.dev, false)
    if !s.moveMayStart m src then s
    else if far then s.noteStall m.handle
    else (s.modScaler fun z => { z with queue := z.queue.erase m }).startMove m) s

def State.onMoveAsk (s : State) (src : Nat) (m : MoveReq) : State :=
  match s.reserve m with
  | none => s.tell src (.moveEnd m false)
  | some (m, s) =>
    let s := (s.putMove m).tell src (.moveGo m)
    if m.src.1 = s.dev then s.beginOrWait m
    else if m.src.1 = src then s
    else s.tell m.src.1 (.moveGo m)

/-- The target's frame is known: the steward notes it, and the source copies. -/
def State.onMoveGo (s : State) (m : MoveReq) : State :=
  let s := if m.steward = s.dev then (s.putMove m).pinCheck m else s
  if m.src.1 = s.dev then
    match (s.landing m.src.2.1).recAt m.src.2.2 with
    | some r => if r.handle = m.handle ∧ r.plot = m.plot then s.beginOrWait m else s.abandonMove m
    | none => s.abandonMove m
  else s

/-- The target region of a move has retired at another device: the steward selects another target (R89). -/
def State.onMoveAgain (s : State) (m : MoveReq) : State := if m.steward = s.dev then (s.requeueMove m).startQueued else s

/-! ## Abandoning under R86 -/

/-- The steward's part: the event, and eight intervals in which classes 2 and 3 leave the plot alone. -/
def State.overMarked (s : State) (m : MoveReq) : State :=
  let s := s.plcEvent 0 m.handle
  if m.cls = 2 ∨ m.cls = 3 then
    s.modScaler fun z => { z with quiet := tblSet 0 (plotKey m.handle m.plot) (z.interval + 9) z.quiet }
  else s

def State.abandonOver (s : State) (m : MoveReq) : State :=
  let s := (s.moveParties m).foldl (fun s d => s.tell d (.moveEnd m true)) (s.endMove m)
  if m.steward = s.dev then s.overMarked m else s

def State.onMoveEnd (s : State) (m : MoveReq) (spent : Bool) : State :=
  if (s.move m.handle m.plot).isNone then s
  else
    let s := if m.dst.2.2 = noFrame then s.noFrameFor m else s.endMove m
    let s := if spent ∧ m.steward = s.dev then s.overMarked m else s
    s.sealStep.startQueued

/-! ## The end of the copy and the freeze (R84, step 2; R86) -/

def subBlock (w : List Nat) (o : Nat) : Bool := w.contains (o / 4096)

/-- The window opens: dirty lines of the frame are written back in every cell, and the marked sub-blocks copied again. -/
def State.openWindow (s : State) (m : Move) : State :=
  let (_, sl, sf) := m.req.src
  let s := s.modMove m.req.handle m.req.plot fun x => { x with phase := .window }
  let s := (List.range 192).foldl (fun s c => s.cleanNow c (inFrame sl sf)) s
  let w := match s.move m.req.handle m.req.plot with | some x => x.written | none => []
  (s.copyWhere m.req (subBlock w)).modMove m.req.handle m.req.plot fun x => { x with written := [] }

/-- MOVE_COPY_DONE: the copy is complete, and what it missed is copied again, once without freezing and then in the window, as far as the
budget allows (R82, R86). -/
def State.moveCopyDone (s : State) (h p : Nat) : State :=
  match s.move h p with
  | none => s
  | some m =>
    if m.req.src.1 ≠ s.dev ∨ m.unacked ≠ 0 ∨ !s.active then s
    else match m.phase with
      | .copying =>
        if replicaMove m.req then s.modMove h p fun x => { x with phase := .window }
        else if 128 < m.written.length then
          if s.mayCopy m.req (4096 * m.written.length) then
            (s.modMove h p fun x => { x with phase := .recopied, written := [] }).copyWhere m.req (subBlock m.written)
          else s
        else if s.mayCopy m.req plotBytes then s.openWindow m else s
      | .recopied =>
        if 128 < m.written.length then ((s.abandonOver m.req).sealStep).startQueued
        else if s.mayCopy m.req plotBytes then s.openWindow m else s
      | _ => s

/-! ## The flip (R84, step 3) -/

/-- The entry after a flip: its generation rises by one (R84, R93). -/
def flipped (z : ScalerSt) (e : MapEntry) (m : MoveReq) : MapEntry :=
  let rest := restState z m.handle m.plot
  if m.cls = 4 then { e with gen := e.gen + 1, pstate := rest, reps := e.reps ++ [m.dst] }
  else if m.cls = 5 then { e with gen := e.gen + 1, pstate := rest, reps := e.reps.map fun t => if t = m.src then m.dst else t }
  else { e with dev := m.dst.1, lnd := m.dst.2.1, frame := m.dst.2.2, gen := e.gen + 1, pstate := 0 }

/-- The steward's part. -/
def State.flipMap (s : State) (m : MoveReq) : State :=
  match s.mapEntry m.handle m.plot with
  | none => s
  | some e =>
    let new := flipped s.scaler e m
    let s := s.setMap m.handle m.plot (some new)
    let s := s.modScaler fun z => { z with
      moved := if replicaMove m then z.moved else tblSet 0 (plotKey m.handle m.plot) (z.interval + 1) z.moved,
      retire := if replicaMove m then z.retire else z.retire.filter (· != (m.handle, m.plot)) }
    let s := if replicaMove m ∨ e.gen ≠ m.gen then s.bumpFrames m.handle m.plot new
      else new.reps.foldl (fun s t => s.installFrame t m.handle m.plot new.gen) s
    let s := if m.cls = 4 then s.count (kPlc 3) 1 else if m.cls = 5 then s.leaveFrame m.src m.handle m.plot else s
    s.sweepCheck m.handle m.plot

/-- The target's part: its frame record, and the loads that it held for the flip are served. -/
def State.flipTarget (s : State) (m : MoveReq) : State :=
  let (_, tl, tf) := m.dst
  let s := s.modLanding tl fun x => { x.setRec tf (some { handle := m.handle, plot := m.plot, gen := m.gen + 1 }) with
    reserved := x.reserved.filter (· != tf) }
  let go (r : Req) : Bool := r.handle == m.handle && r.plot == m.plot && r.stage == .heldWindow tl && r.frame == tf && r.lnd == tl
  { s with reqs := s.reqs.map fun r => if go r then { r with stage := .landing tl } else r }

/-- The source's part: a forwarding record takes the frame record's place, and the requests it held are redirected. The frame stays
out of use until the invalidate is acknowledged. -/
def State.flipSource (s : State) (m : MoveReq) : State :=
  let (_, sl, sf) := m.src
  let new : MapEntry := { dev := m.dst.1, lnd := m.dst.2.1, frame := m.dst.2.2, gen := m.gen + 1, pstate := 0, nrep := m.nrep,
                          repIdx := m.repIdx, reps := [] }
  let e := if m.steward = s.dev then (s.mapEntry m.handle m.plot).getD new else new
  let s := s.modLanding sl fun x => { (x.setRec sf none).addFwd { handle := m.handle, plot := m.plot, entry := e } with
    reserved := x.reserved ++ [sf] }
  let held := s.reqs.filter fun r => r.handle == m.handle && r.plot == m.plot && r.stage == .heldWindow sl && r.lnd == sl && r.frame == sf
  held.foldl (fun s r => s.answer r (.redirect (some e))) s

def State.onMoveFlip (s : State) (m : MoveReq) : State :=
  let s := if m.dst.1 = s.dev then s.flipTarget m else s
  let s := if m.steward = s.dev then s.flipMap m else s
  if replicaMove m then (s.dropMove m.handle m.plot).sealStep.startQueued else s.modMove m.handle m.plot fun x => { x with phase := .flipped }

/-- The steward of a move here is this device, and its flip would wait for a sweep (R91). -/
def State.stalledHere (s : State) (m : MoveReq) : Bool :=
  m.steward == s.dev && match s.mapEntry m.handle m.plot with | some e => s.flipStalled m.handle m.plot e.gen | none => false

/-- MOVE_FLIP at the source: every party learns of the flip. -/
def State.moveFlip (s : State) (h p : Nat) : State :=
  match s.move h p with
  | none => s
  | some m =>
    if m.req.src.1 ≠ s.dev ∨ m.unacked ≠ 0 ∨ !s.active ∨ m.phase ≠ .window then s
    else if s.stalledHere m.req then s.noteStall h
    else
      let s := if replicaMove m.req then s.count (kPlc 0) 1 else s
      let s := ((s.moveParties m.req).foldl (fun s d => s.tell d (.moveFlip m.req)) s).onMoveFlip m.req
      if replicaMove m.req then s else s.flipSource m.req

/-! ## The invalidate (R84, step 4; R85, R88) -/

/-- The target applies the writes that it held, in arrival order, and the move is over. -/
def State.onMoveInv (s : State) (h p : Nat) : State :=
  let go (r : Req) : Bool := r.handle == h && r.plot == p && (match r.stage with | .heldWrite _ => true | _ => false)
  ((s.reqs.filter go).foldl State.serve (s.dropMove h p)).sealStep.startQueued

/-- Every cell has acknowledged: a cell that is restarting or OFFLINE holds no line. -/
def State.allAcked (s : State) (m : Move) : Bool := (List.range 192).all fun c => m.acks.contains c || !s.cellUp c

def State.moveInvalidateDone (s : State) (h p : Nat) : State :=
  match s.move h p with
  | none => s
  | some m =>
    if m.req.src.1 ≠ s.dev ∨ m.phase ≠ .flipped ∨ !s.allAcked m ∨ !s.active then s
    else
      let (_, sl, sf) := m.req.src
      let s := (s.releaseFrame sl sf).modLanding sl fun x =>
        { x with reserved := x.reserved.filter (· != sf), inval := x.inval.filter fun y => y.1 != sf }
      let s := (s.moveParties m.req).foldl (fun s d => s.tell d (.moveInv h p)) (s.count (kPlc 0) 1)
      s.onMoveInv h p

/-! ## Retirement heard from another device (R110) -/

def State.onRetired (s : State) (src h p lnd frame : Nat) : State :=
  match s.mapEntry h p with
  | some e =>
    if e.dev = src ∧ e.lnd = lnd ∧ e.frame = frame ∧ (e.pstate = 0 ∨ e.pstate = 1) then s.queueRetire h p
    else if e.reps.contains (src, lnd, frame) then s.queueReplica h p e (src, lnd, frame)
    else s
  | none => s

/-! ## The loss of a device (R74, R89, R111) -/

/-- An entry after the loss of device `x`: one homed there is LOST, with its generation raised; replicas there are dropped; and
a plot with a replica left is homed on it, with a new generation. -/
def lossEntry (e : MapEntry) (x : Nat) : MapEntry :=
  let reps := e.reps.filter fun t => t.1 != x
  if e.pstate = 3 then e
  else if e.dev = x then
    match reps with
    | t :: rest => { e with dev := t.1, lnd := t.2.1, frame := t.2.2, gen := e.gen + 2, pstate := 0, reps := rest }
    | [] => { e with gen := e.gen + 1, pstate := 3, reps := [] }
  else if reps.length ≠ e.reps.length then { e with gen := e.gen + 1, reps := reps }
  else e

/-- Moves that involve device `x` end. -/
def State.lossMoves (s : State) (x : Nat) : State :=
  (s.scaler.moves.filter fun m => m.req.src.1 == x || m.req.dst.1 == x || m.req.steward == x).foldl (fun s m => s.abandonMove m.req) s

/-- The entry of a plot after the loss of device `x`, with the replicas dropped counted. One that would come too far from the last sweep waits
for that sweep (R91; log entry 45, DEDUCED). -/
def State.lossPlot (s : State) (x h p : Nat) (e : MapEntry) : State :=
  let e' := lossEntry e x
  if e' = e then s
  else if 32767 ≤ s.advance h p e'.gen then (s.startSweep h).noteStall h
  else
    let s := (s.setMap h p (some e')).count (kPlc 4) (e.reps.filter fun t => t.1 == x).length
    ((if e'.pstate = 3 then s else s.bumpFrames h p e').sweepCheck h p)

/-- The entries of this steward's maps after the loss. -/
def State.lossMaps (s : State) (x : Nat) : State :=
  s.scaler.pmap.foldl (fun s y => match y.2 with | some e => s.lossPlot x (y.1 / 2 ^ 40) (y.1 % 2 ^ 40) e | none => s) s

/-- SWEEP_COMPLETE: every device that is not LOST has acknowledged. An entry that has come far again starts the next sweep, and what waited
for this one goes on (R90, R91). -/
def State.sweepComplete (s : State) (h : Nat) : State :=
  match s.scaler.sweeps.find? fun x => x.handle == h with
  | none => s
  | some x =>
    if x.waiting ≠ [] then s
    else
      let s := s.modScaler fun z => { z with
        sweeps := z.sweeps.filter fun y => y.handle != h,
        base := (z.startGen.filter fun y => y.1 / 2 ^ 40 == h).foldl (fun t y => tblSet 0 y.1 y.2 t) (z.base.filter fun y => y.1 / 2 ^ 40 != h),
        startGen := z.startGen.filter fun y => y.1 / 2 ^ 40 != h }
      let s := s.count (kPlc 5) 1
      let s := (s.entriesOf h).foldl (fun s y => s.sweepCheck h y.1) s
      let lost := s.fab.members.filterMap fun m => if m.2 = 2 then some m.1 else none
      (lost.foldl State.lossMaps s).startQueued

/-- Objects whose steward is lost are ORPHANED, and one that it was creating is gone (R54); creates, frees, sweeps and figures wait for the
device no longer. -/
def State.lossObjects (s : State) (x : Nat) : State :=
  let born := s.scaler.objs.filterMap fun o => o.2.bind fun d => if d.steward = x ∧ d.state = .creating then some o.1 else none
  let s := born.foldl (fun s h => (s.freeHere h).setDesc h none) s
  let s := s.modScaler fun z => { z with
    objs := z.objs.map fun o => (o.1, o.2.map fun d =>
      if d.steward = x ∧ (d.state = .live ∨ d.state = .sealed) then { d with state := .orphaned } else d),
    sweeps := z.sweeps.map fun w => { w with waiting := w.waiting.filter (· != x) },
    frees := z.frees.map fun w => { w with waiting := w.waiting.filter (· != x) },
    creates := z.creates.map fun c =>
      let hit := c.waiting.contains x || (c.step != 0 && c.runs.any fun r => r.1 == x)
      { c with waiting := c.waiting.filter (· != x), free := c.free.filter fun f => f.1 != x,
               step := if hit && c.step == 1 then 3 else c.step },
    peers := z.peers.filter fun y => y.1 != x, due := z.due.filter (· != x),
    queue := z.queue.filter fun m => m.dst.1 != x && !(m.cls == 5 && m.src.1 == x) }
  let s := s.scaler.frees.foldl (fun s f => s.freeStep f.handle) s
  s.scaler.creates.foldl (fun s c => s.createGo c.desc.handle) s

end Sys2Proof.Machine
end

