-- ==== Sys2Proof/Machine/Interval.lean ====
section
/-! DEFINITION. Machine/Interval.lean: re-placement (R81 to R83, R93, R94, R110): what the steward's Scaler selects at each interval. -/

namespace Sys2Proof.Machine

/-! ## Figures of the interval -/

/-- Requests to a plot in the last interval. -/
def ScalerSt.total (z : ScalerSt) (h p : Nat) : Nat :=
  ((z.trafficLast.filter fun t => t.handle == h && t.plot == p).map Traffic.total).sum

def ScalerSt.loadsBy (z : ScalerSt) (h p dev : Nat) : Nat :=
  ((z.trafficLast.filter fun t => t.handle == h && t.plot == p && t.dev == dev).map (·.loads)).sum

/-- A plot's weight in the ranking: HOT objects count double (R81). -/
def State.weight (s : State) (h p : Nat) : Nat := (if s.hint h = 1 then 2 else 1) * s.scaler.total h p

/-- Plots in descending order of weight. -/
def State.rank (s : State) (l : List (Nat × Nat)) : List (Nat × Nat) :=
  l.mergeSort fun a b => decide (s.weight b.1 b.2 ≤ s.weight a.1 a.2)

/-- What is known of a device's landings: free frames, requests served in the last interval, and the landings that have failed. -/
def State.landingsOf (s : State) (dev : Nat) : List Nat × List Nat × List Nat :=
  if dev = s.dev then
    (s.freeList, s.landings.map (·.servedLast), (List.range 12).filter fun l => (s.landing l).failed)
  else match s.scaler.peers.find? fun x => x.1 == dev with
    | some x => x.2
    | none => ([], [], [])

/-! ## The selection in progress -/

/-- Budget left per source device in bytes (R82), landing counts and free frames as the selection changes them, and the moves selected. -/
structure Picking where
  used : List (Nat × Nat)
  load : List (Nat × List Nat)
  free : List (Nat × List Nat)
  out : List MoveReq
  deriving DecidableEq, Repr

/-- Bytes that a device may copy in an interval (R82). -/
def State.budget (s : State) : Nat := 2457600 * (s.reg rPlcInterval).toNat * (s.reg rPlcBudget).toNat

def Picking.spent (k : Picking) (dev : Nat) : Nat := ((k.used.find? fun x => x.1 == dev).map (·.2)).getD 0

def State.affords (s : State) (k : Picking) (dev : Nat) : Bool := decide (k.spent dev + plotBytes ≤ s.budget)

def Picking.spend (k : Picking) (dev : Nat) : Picking :=
  { k with used := (dev, k.spent dev + plotBytes) :: k.used.filter fun x => x.1 != dev }

def Picking.has (k : Picking) (h p : Nat) : Bool := k.out.any fun m => m.handle == h && m.plot == p

def Picking.add (k : Picking) (m : MoveReq) : Picking := { k with out := k.out ++ [m] }

/-- A move of a plot, its target frame still open. -/
def State.moveOf (s : State) (h p cls dev lnd : Nat) : MoveReq :=
  { handle := h, plot := p, cls := cls, steward := s.dev, src := (s.dev, 0, 0), dst := (dev, lnd, noFrame), gen := 0, nrep := 0,
    repIdx := 0 }

/-- The selection begins with what the moves still waiting for their start will copy (R82). -/
def State.carriedOver (s : State) (k : Picking) : Picking :=
  (s.scaler.queue.filter chargedMove).foldl (fun k m => match s.mapEntry m.handle m.plot with | some e => k.spend e.dev | none => k) k

/-- The plot is busy: moving, or selected already and waiting. -/
def State.plotBusy (s : State) (k : Picking) (h p : Nat) : Bool :=
  (s.move h p).isSome || k.has h p || s.scaler.queue.any fun m => m.handle == h && m.plot == p

/-- A plot that moved within the last four intervals, or was abandoned within the last eight, is not selected (R81, R86). -/
def State.restless (s : State) (h p : Nat) : Bool :=
  let m := tblGet 0 (plotKey h p) s.scaler.moved
  (m != 0 && decide (s.scaler.interval + 1 ≤ m + 4)) || decide (s.scaler.interval < tblGet 0 (plotKey h p) s.scaler.quiet)

/-- The stewarded plots whose entry meets `q`, with their descriptors. -/
def State.plotsWhere (s : State) (q : Desc → MapEntry → Bool) : List (Nat × Nat) :=
  s.scaler.pmap.filterMap fun x =>
    match x.2, s.liveDesc (x.1 / 2 ^ 40) with
    | some e, some d => if q d e then some (x.1 / 2 ^ 40, x.1 % 2 ^ 40) else none
    | _, _ => none

/-! ## Class 1: retirements (R110) -/

def State.pickRetire (s : State) (k : Picking) : Picking :=
  (s.rank s.scaler.retire).foldl (fun k x =>
    match s.mapEntry x.1 x.2, s.desc x.1 with
    | some e, some d =>
      if s.plotBusy k x.1 x.2 then k
      else k.add (s.moveOf x.1 x.2 1 e.dev (if pinMode d = 2 then d.pinLnd else 12))
    | _, _ => k) k

/-! ## Class 2: a plot that another device uses most -/

/-- The device, other than the home, that issued more than half of a plot's requests, and 2^16 of them. -/
def State.mainUser (s : State) (h p home : Nat) : Option Nat :=
  let ts := s.scaler.trafficLast.filter fun t => t.handle == h && t.plot == p
  let all := s.scaler.total h p
  let by_ (dev : Nat) : Nat := ((ts.filter fun t => t.dev == dev).map Traffic.total).sum
  ((ts.map (·.dev)).eraseDups.filter (· != home)).find? fun dev => decide (all < 2 * by_ dev) && decide (2 ^ 16 ≤ by_ dev) && s.fab.member dev == 1

def State.pickUsers (s : State) (k : Picking) : Picking :=
  let c := s.plotsWhere fun d e => e.pstate == 0 && pinMode d == 0 && d.affinity == 0 && !frozen d
  (s.rank c).foldl (fun k x =>
    match s.mapEntry x.1 x.2 with
    | none => k
    | some e =>
      match s.mainUser x.1 x.2 e.dev with
      | none => k
      | some dev =>
        if s.plotBusy k x.1 x.2 || s.restless x.1 x.2 || !s.affords k e.dev then k
        else (k.spend e.dev).add (s.moveOf x.1 x.2 2 dev 12)) k

/-! ## Class 3: landings with more than their share -/

def Picking.loadOf (k : Picking) (dev l : Nat) : Nat := (((k.load.find? fun x => x.1 == dev).map (·.2)).getD []).getD l 0
def Picking.freeOf (k : Picking) (dev l : Nat) : Nat := (((k.free.find? fun x => x.1 == dev).map (·.2)).getD []).getD l 0

/-- The target landing: the least count among those not failed that hold a free frame, the source excluded. -/
def Picking.coolest (k : Picking) (dev src : Nat) (failed : List Nat) : Option Nat :=
  let ok := (List.range 12).filter fun l => l != src && !failed.contains l && k.freeOf dev l != 0
  ok.foldl (fun b l => match b with
    | none => some l
    | some m => if k.loadOf dev l < k.loadOf dev m then some l else some m) none

/-- The landing's count exceeds the mean of the device by more than 20 %. -/
def Picking.hot (k : Picking) (dev l : Nat) (failed : List Nat) : Bool :=
  let ok := (List.range 12).filter fun x => !failed.contains x
  let sum := (ok.map (k.loadOf dev)).sum
  decide (6 * sum < 5 * ok.length * k.loadOf dev l)

/-- Plots whose home landing is hot, in descending order of their requests over all landings. -/
def State.pickLandings (s : State) (k : Picking) : Picking :=
  let c := s.plotsWhere fun d e => e.pstate == 0 && pinMode d != 2 && !frozen d
  (s.rank c).foldl (fun k x =>
    match s.mapEntry x.1 x.2 with
    | none => k
    | some e =>
      let failed := (s.landingsOf e.dev).2.2
      if failed.contains e.lnd || !k.hot e.dev e.lnd failed || s.plotBusy k x.1 x.2 || s.restless x.1 x.2 || !s.affords k e.dev then k
      else match k.coolest e.dev e.lnd failed with
        | none => k
        | some t =>
          let n := s.scaler.total x.1 x.2
          let shift (y : List Nat) : List Nat := modAt t (· + n) (modAt e.lnd (· - n) y)
          let k := (k.spend e.dev).add (s.moveOf x.1 x.2 3 e.dev t)
          { k with load := k.load.map fun y => if y.1 = e.dev then (y.1, shift y.2) else y,
                   free := k.free.map fun y => if y.1 = e.dev then (y.1, modAt t (· - 1) y.2) else y }) k

/-! ## Replicas (R78, R93, R94) -/

/-- Objects whose plots may have replicas. -/
def State.mayReplicate (s : State) (d : Desc) (mode : Nat) : Bool := d.state == .sealed && replMode d == mode && s.hint d.handle != 3

/-- The devices for the replicas of REPLICATE 2: in ascending order from the home's number, wrapping, up to eight. -/
def State.everyDevice (s : State) (home : Nat) : List Nat :=
  let ms := s.fab.memberList
  (ms.filter (home < ·) ++ ms.filter (· < home)).take 8

def State.pickReplicas (s : State) (k : Picking) : Picking :=
  let holds (e : MapEntry) (dev : Nat) : Bool := e.dev == dev || e.reps.any fun t => t.1 == dev
  let waits (x : Nat × Nat) (dev : Nat) : Bool :=
    s.scaler.queue.any fun m => m.cls == 4 && m.handle == x.1 && m.plot == x.2 && m.dst.1 == dev
  let go (k : Picking) (x : Nat × Nat) (e : MapEntry) (dev : Nat) : Picking :=
    if holds e dev ∨ waits x dev ∨ !s.affords k e.dev ∨ (s.move x.1 x.2).isSome then k
    else (k.spend e.dev).add (s.moveOf x.1 x.2 4 dev 12)
  let one := if s.regBit rPlcCtrl 3 then s.plotsWhere fun d e => e.pstate == 0 && s.mayReplicate d 1 && decide (e.reps.length < 8) else []
  let k := (s.rank one).foldl (fun k x =>
    match s.mapEntry x.1 x.2 with
    | none => k
    | some e =>
      let devs := s.fab.memberList.filter fun dev => decide (2 ^ 16 ≤ s.scaler.loadsBy x.1 x.2 dev) && !holds e dev
      (devs.take (8 - e.reps.length)).foldl (fun k dev => go k x e dev) k) k
  let every := s.plotsWhere fun d e => e.pstate == 0 && s.mayReplicate d 2
  every.foldl (fun k x =>
    match s.mapEntry x.1 x.2 with
    | none => k
    | some e => (s.everyDevice e.dev).foldl (fun k dev => go k x e dev) k) k

/-- Replicas under REPLICATE 1 that served fewer than 2^10 loads in each of the last four intervals are dropped (R94), as far as R91 lets
them; the others wait for the sweep. -/
def State.coolReplicas (s : State) : State :=
  let ps := s.plotsWhere fun d e => e.pstate == 0 && e.reps != [] && d.state == .sealed && replMode d == 1
  let drops := ps.flatMap fun x =>
    match s.mapEntry x.1 x.2 with
    | none => []
    | some e => e.reps.map fun t =>
      let key := (x.1, x.2, t.1)
      let old := ((s.scaler.quietRep.find? fun y => y.1 == key).map (·.2)).getD 0
      (key, t, if s.scaler.loadsBy x.1 x.2 t.1 < 2 ^ 10 then Nat.min 4 (old + 1) else 0)
  let s := s.modScaler fun z => { z with quietRep := (drops.filter fun y => y.2.2 != 0).map fun y => (y.1, y.2.2) }
  (drops.filter fun y => y.2.2 == 4).foldl (fun s y =>
    match s.mapEntry y.1.1 y.1.2.1 with
    | some e =>
      if s.flipStalled y.1.1 y.1.2.1 e.gen then s.noteStall y.1.1
      else (s.dropReplica y.1.1 y.1.2.1 y.2.1).modScaler fun z => { z with quietRep := z.quietRep.filter fun w => w.1 != y.1 }
    | none => s) s

/-! ## The figures of an interval (R81) -/

/-- The counts of an entry added to those of its plot and requester. -/
def addTraffic (l : List Traffic) (t : Traffic) : List Traffic :=
  let same (u : Traffic) : Bool := u.handle == t.handle && u.plot == t.plot && u.dev == t.dev
  if l.any same then
    l.map fun u => if same u then { u with loads := u.loads + t.loads, stores := u.stores + t.stores, adds := u.adds + t.adds } else u
  else l ++ [t]

/-- The object of an entry is one of a steward. -/
def State.trafficOf (s : State) (dev : Nat) (t : Traffic) : Bool :=
  match s.desc t.handle with | some d => d.steward == dev && d.state != .orphaned | none => false

/-- A steward asks for this device's figures: the free frames, requests served and failures of its landings, and the traffic of the plots
that the steward is in charge of, which is counted from here anew. -/
def State.onReportAsk (s : State) (src : Nat) : State :=
  let ts := s.scaler.traffic.filter (s.trafficOf src)
  let failed := (List.range 12).filter fun l => (s.landing l).failed
  let s := s.modScaler fun z => { z with traffic := z.traffic.filter fun t => !s.trafficOf src t }
  s.tell src (.report s.freeList (s.landings.map (·.served)) failed (ts.map fun t => (t.handle, t.plot, t.dev, t.loads, t.stores, t.adds)))

/-- The figures of another device: of the requests that its landings have served, those since its figures came last are the interval's. -/
def State.takeReport (s : State) (src : Nat) (free served failed : List Nat) (ts : List (Nat × Nat × Nat × Nat × Nat × Nat)) : State :=
  s.modScaler fun z =>
    let old := ((z.peerServed.find? fun x => x.1 == src).map (·.2)).getD []
    { z with
      peers := (src, free, served.zipIdx.map fun x => x.1 - old.getD x.2 0, failed) :: z.peers.filter fun x => x.1 != src,
      peerServed := (src, served) :: z.peerServed.filter fun x => x.1 != src,
      due := z.due.erase src,
      gather := ts.foldl (fun l t => addTraffic l
        { handle := t.1, plot := t.2.1, dev := t.2.2.1, loads := t.2.2.2.1, stores := t.2.2.2.2.1, adds := t.2.2.2.2.2 }) z.gather }

/-! ## The interval -/

/-- What the Scaler selects from the figures of the interval just ended (R81, R94, R110). -/
def State.review (s : State) : State :=
  let s := s.modScaler fun z => { z with trafficLast := z.gather, gather := [], due := [] }
  let known := s.fab.memberList.map fun dev => (dev, s.landingsOf dev)
  let k : Picking := { used := [], load := known.map fun x => (x.1, x.2.2.1), free := known.map fun x => (x.1, x.2.1), out := [] }
  let k := s.pickRetire (s.carriedOver k)
  let k := if s.placementFrozen || !s.regBit rPlcCtrl 0 then k else s.pickLandings (s.pickUsers k)
  let k := if s.placementFrozen then k else s.pickReplicas k
  let s := if s.placementFrozen || !s.regBit rPlcCtrl 3 then s else s.coolReplicas
  (s.modScaler fun z => { z with queue := z.queue ++ k.out }).startQueued

/-- The review, once every device asked has answered or is lost. -/
def State.reviewWhenDue (s : State) (waited : Bool) : State := if waited ∧ s.scaler.due = [] then s.review else s

def State.onReport (s : State) (src : Nat) (free served failed : List Nat) (ts : List (Nat × Nat × Nat × Nat × Nat × Nat)) : State :=
  (s.takeReport src free served failed ts).reviewWhenDue (s.scaler.due.contains src)

/-- The interval just ended is closed here: this device's own figures stand, and its budget is filled again. -/
def State.closeInterval (s : State) : State :=
  let s : State := { s with landings := s.landings.map fun x => { x with servedLast := x.served - x.servedFrom, servedFrom := x.served } }
  let own (t : Traffic) : Bool := s.trafficOf s.dev t
  let kept (t : Traffic) : Bool := match s.desc t.handle with | some d => d.steward != s.dev && d.state != .orphaned | none => false
  let left := s.budget
  s.modScaler fun z => { z with gather := z.traffic.filter own, traffic := z.traffic.filter kept, interval := z.interval + 1, left := left }

/-- PLACEMENT_INTERVAL (R81). The figures of the other members are asked for, and the review follows when they have come. Of an interval whose
figures have not all come by the end of the next, the review is made with those that have (log entry 46, DEDUCED). -/
def State.placementInterval (s : State) : State :=
  if s.power.phase ≠ .running ∨ 3 ≤ s.power.rung ∨ s.power.busy then s
  else
    let s := if s.scaler.due = [] then s else s.review
    let s := s.closeInterval
    let others := s.others
    let s := (s.modScaler fun z => { z with due := others }).tellAll .reportAsk
    s.reviewWhenDue true

end Sys2Proof.Machine
end

