-- ==== Sys2Proof/Machine/Threads.lean ====
section
/-! DEFINITION. Machine/Threads.lean: the scalar and synchronisation classes of Retil (R276 to R287), the launch of engine programs
(R119 to R121), and the scheduler's events (R298 to R319). Register reads and writes stand in Machine/RegIo.lean, work items in
Machine/Work.lean. -/

namespace Sys2Proof.Machine

/-! ## Issue (R300, R303, R315) -/

/-- The thread runs on a core of a cell that acts, and waits on no FENCE. -/
def State.runs (s : State) (th : ThreadRef) : Bool :=
  let t := s.thread th.cell th.slot
  s.coresGo && s.cellUp th.cell && !(s.cell th.cell).parked && t.state == .running && t.fence.isNone &&
    (s.cell th.cell).cores.any fun k => k.slot == some th.slot

def State.pcOf (s : State) (th : ThreadRef) : Nat := (s.thread th.cell th.slot).pc.toNat
def State.sreg (s : State) (th : ThreadRef) (r : Nat) : W64 := (s.thread th.cell th.slot).reg r

def State.thFault (s : State) (th : ThreadRef) (code info : Nat) : State := s.threadFault th.cell th.slot code info

/-- A thread issues the word `w`: a fetch outside the software region faults OPMEM_PROT, a poisoned one POISONED, a word that does
not decode as R271 says, and otherwise the instruction of class `cls` and opcode `op` is carried out. -/
def State.thIssue (s : State) (th : ThreadRef) (cls op : Nat) (w : W64) (f : State) : State :=
  if !s.runs th then s
  else if opSoft < s.pcOf th + 8 then s.thFault th fOpmemProt (s.pcOf th)
  else match (s.cell th.cell).opPoisoned (s.pcOf th) 8 with
    | some b => s.thFault th fPoisoned b
    | none =>
      if (s.cell th.cell).opNat (s.pcOf th) 8 ≠ w.toNat then s
      else match decodeFault .core w with
        | some code => s.thFault th code w.toNat
        | none => if wCls w = cls ∧ wOp w = op then f else s

/-- The instruction retires: the slot changes by `f`, and PC := PC + 8 (R277). -/
def State.thNext (s : State) (th : ThreadRef) (f : Thread → Thread) : State :=
  s.modThread th.cell th.slot fun t => let t := f t; { t with pc := t.pc + 8 }

/-- The instruction retires with a value in rd. -/
def State.thRet (s : State) (th : ThreadRef) (r : Nat) (v : W64) : State := s.thNext th fun t => t.setReg r v

/-! ## Scalar class (R277, R278) -/

/-- A scalar instruction on registers. -/
def State.sAlu (s : State) (th : ThreadRef) (op : Nat) (w : W64) (f : W64 → W64 → W64) : State :=
  s.thIssue th 1 op w (s.thRet th (wRd w) (f (s.sreg th (wRa w)) (s.sreg th (wRb w))))

/-- A scalar instruction with an immediate. -/
def State.sAluImm (s : State) (th : ThreadRef) (op : Nat) (w : W64) (f : W64 → W64 → W64) : State :=
  s.thIssue th 1 op w (s.thRet th (wRd w) (f (s.sreg th (wRa w)) (wImm w)))

def sSub' (a b : W64) : W64 := a - b
def sMulhu' (a b : W64) : W64 := BitVec.ofNat 64 (a.toNat * b.toNat / 2 ^ 64)
def sDivu' (a b : W64) : W64 := if b = 0 then BitVec.allOnes 64 else BitVec.ofNat 64 (a.toNat / b.toNat)
def sRemu' (a b : W64) : W64 := if b = 0 then a else BitVec.ofNat 64 (a.toNat % b.toNat)
def sSll' (a b : W64) : W64 := a <<< (b.toNat % 64)
def sSrl' (a b : W64) : W64 := a >>> (b.toNat % 64)
def sSra' (a b : W64) : W64 := a.sshiftRight (b.toNat % 64)
def sSlt' (a b : W64) : W64 := if a.slt b then 1 else 0
def sSltu' (a b : W64) : W64 := if a.ult b then 1 else 0
/-- S.LIH: IMM × 2^32 + (ra mod 2^32). -/
def sLih' (a imm : W64) : W64 := BitVec.ofNat 64 (imm.toNat % 2 ^ 32 * 2 ^ 32 + a.toNat % 2 ^ 32)

/-- A jump to a target, or MISALIGNED. -/
def State.sJumpTo (s : State) (th : ThreadRef) (target : W64) (link : Option Nat) : State :=
  if target.toNat % 8 ≠ 0 then s.thFault th fMisaligned target.toNat
  else s.modThread th.cell th.slot fun t =>
    let t := match link with | some r => t.setReg r (t.pc + 8) | none => t
    { t with pc := target }

/-- PC + 8 × IMM. -/
def State.sTarget (s : State) (th : ThreadRef) (w : W64) : W64 := (s.thread th.cell th.slot).pc + 8 * wImm w

def State.sBranch (s : State) (th : ThreadRef) (op : Nat) (w : W64) (c : W64 → W64 → Bool) : State :=
  s.thIssue th 1 op w
    (if c (s.sreg th (wRa w)) (s.sreg th (wRb w)) then s.sJumpTo th (s.sTarget th w) none else s.thNext th id)

def State.sJal (s : State) (th : ThreadRef) (w : W64) : State :=
  s.thIssue th 1 0x26 w (s.sJumpTo th (s.sTarget th w) (some (wRd w)))

def State.sJalr (s : State) (th : ThreadRef) (w : W64) : State :=
  s.thIssue th 1 0x27 w (s.sJumpTo th (s.sreg th (wRa w) + 8 * wImm w) (some (wRd w)))

/-- The address of an access of `n` bytes, or the fault it meets (R117, R278). -/
def opAccess (a n : Nat) : Option (Nat × Nat) :=
  if a % n ≠ 0 then some (fMisaligned, a) else if opSoft < a + n then some (fOpmemProt, a) else none

/-- A load of `n` bytes at an address. -/
def State.sLoad (s : State) (th : ThreadRef) (op : Nat) (w : W64) (ext : Nat → Nat → W64) : State :=
  s.thIssue th 1 op w
    (let a := (s.sreg th (wRa w) + wImm w).toNat
     match opAccess a (wSz w) with
     | some (code, info) => s.thFault th code info
     | none => match (s.cell th.cell).opPoisoned a (wSz w) with
       | some b => s.thFault th fPoisoned b
       | none => s.thRet th (wRd w) (ext (wSz w) ((s.cell th.cell).opNat a (wSz w))))

def extZero (_ v : Nat) : W64 := BitVec.ofNat 64 v
def extSign (n v : Nat) : W64 := BitVec.ofInt 64 (signed (8 * n) v)

def State.sStore (s : State) (th : ThreadRef) (w : W64) : State :=
  s.thIssue th 1 0x32 w
    (let a := (s.sreg th (wRa w) + wImm w).toNat
     match opAccess a (wSz w) with
     | some (code, info) => s.thFault th code info
     | none =>
       (s.modCell th.cell fun x => x.opWrite a (leBytes (wSz w) (s.sreg th (wRb w)).toNat)).thNext th id)

def State.sTime (s : State) (th : ThreadRef) (w : W64) : State := s.thIssue th 1 0x3A w (s.thRet th (wRd w) s.timebase)
def State.sTick (s : State) (th : ThreadRef) (w : W64) : State :=
  s.thIssue th 1 0x3B w (s.thRet th (wRd w) ((s.cell th.cell).tick.zeroExtend 64))

/-! ## Launches (R119 to R121) -/

/-- A launch descriptor's bytes as fields. -/
structure Launch where
  text : Nat
  len : Nat
  evt : Nat
  lenient : Bool
  clr : Bool
  ich : Byte
  och : BitVec 4
  sum : Nat
  rsvOk : Bool
  deriving DecidableEq, Repr

def launchOf (b : List Byte) : Launch :=
  { text := leAt b 0 4, len := leAt b 4 2, evt := leAt b 6 1 % 32, lenient := natBit (leAt b 7 1) 0, clr := natBit (leAt b 7 1) 1,
    ich := byteAt b 8, och := BitVec.ofNat 4 (leAt b 9 1), sum := leAt b 12 4,
    rsvOk := decide (leAt b 6 1 < 32) && decide (leAt b 7 1 < 4) && decide (leAt b 9 1 < 16) && zeroAt b 10 2 && zeroAt b 16 16 &&
      zeroAt b 192 64 }

/-- The descriptor is well formed (value 3 of R120). -/
def Launch.ok (l : Launch) : Bool :=
  l.rsvOk && l.text % 8 == 0 && l.sum % 32 == 0 && decide (1 ≤ l.len ∧ l.len ≤ 4096) && decide (l.text + 8 * l.len ≤ opSoft) &&
  decide (l.sum + 32 ≤ opSoft)

/-- The program that a launch starts. -/
def launchProg (x : CellSt) (slot token : Nat) (l : Launch) : Prog :=
  { launcher := slot, token := token, number := x.launches,
    text := (List.range l.len).map fun (i : Nat) => BitVec.ofNat 64 (x.opNat (l.text + 8 * i) 8),
    textPoison := (List.range l.len).map fun (i : Nat) => (x.opPoisoned (l.text + 8 * i) 8).isSome,
    textAddr := l.text, pc := 0, evt := l.evt, lenient := l.lenient, ichUse := l.ich, ochUse := l.och, sum := l.sum, loops := [],
    flags := 0, fault := none, aborted := false, cycles := 0 }

/-- What the cell holds after an accepted launch of descriptor bytes `b`. -/
def CellSt.launch (x : CellSt) (e : Engine) (slot token : Nat) (b : List Byte) : CellSt :=
  let l := launchOf b
  let p := launchProg x slot token l
  let x := if l.clr then x.emptyChutes l.ich l.och else x
  let x := { x with launches := x.launches + 1 }
  match e with
  | .access =>
    { x with ae := { prog := some p, a := (List.range 16).map fun (i : Nat) => BitVec.ofNat 64 (leAt b (32 + 8 * i) 8),
                     n := (List.range 8).map fun (i : Nat) => BitVec.ofNat 32 (leAt b (160 + 4 * i) 4), op := none, wait := none } }
  | .execute =>
    { x with xe := { prog := some p, k := (List.range 8).map fun (i : Nat) => BitVec.ofNat 32 (leAt b (160 + 4 * i) 4),
                     ma := List.replicate 4 MaSlot.reset, wait := none, hold := none, late := [] },
             pred := { PredSt.launch with hist := x.pred.hist } }

/-- The other engine's running program declares a chute of two masks. -/
def CellSt.declaredBy (x : CellSt) (e : Engine) (ich : Byte) (och : BitVec 4) : Bool :=
  match x.prog e with
  | some p => p.ichUse &&& ich != 0 || p.ochUse &&& och != 0
  | none => false

/-- LAUNCH.A and LAUNCH.X. A descriptor at an address that value 3 of R120 excludes is not read, so its poison does not count, which the spec does
not say (log entry 78, DESIGN CHOICE). -/
def State.launch (s : State) (th : ThreadRef) (e : Engine) (w : W64) : State :=
  s.thIssue th 1 (match e with | .access => 0x3E | .execute => 0x3F) w
    (let x := s.cell th.cell
     let a := (s.sreg th (wRa w)).toNat
     if (x.prog e).isSome then s.thRet th (wRd w) 1
     else if a % 32 ≠ 0 ∨ opSoft < a + 256 then s.thRet th (wRd w) 3
     else match x.opPoisoned a 256 with
       | some b => s.thFault th fPoisoned b
       | none =>
         let b := x.op a 256
         let l := launchOf b
         if !l.ok then s.thRet th (wRd w) 3
         else if l.clr && x.declaredBy (otherEngine e) l.ich l.och then s.thRet th (wRd w) 2
         else
           let s := s.modCell th.cell fun x => x.launch e th.slot (x.thread th.slot).token b
           let s := match e with
             | .access => (((s.setReg (rCell th.cell 0x108) 0).setReg (rCell th.cell 0x10C) 0).setReg (rCell th.cell 0x110) 0).setReg
                 (rCell th.cell 0x114) 0
             | .execute => s
           s.thRet th (wRd w) 0)

/-! ## FENCE (R281, R325 to R329) -/

/-- The operations that a FENCE covers (R281): the writes of programs that the thread launched and that have completed. -/
def State.fenceCovers (s : State) (th : ThreadRef) (all : Bool) : List Nat :=
  let x := s.cell th.cell
  let me := th.slot + 64 * (x.thread th.slot).token
  (s.reqs.filter fun r => r.who == .cell th.cell && r.owner == me && (r.op == .store || (all && r.op == .add)) && !x.owns r).map (·.id)

/-- The dirty lines of a cell are written back for a FENCE, and counted (R327). -/
def State.fenceClean (s : State) (c : Nat) : State :=
  let (n, s) := s.cleanLines c fun _ => true
  s.countC c cFenceClean n

def State.fence (s : State) (th : ThreadRef) (w : W64) : State :=
  s.thIssue th 2 0 w
    (let s := if wScope w = 0 then s else s.fenceClean th.cell
     let f : FenceWait := { scope := wScope w, covers := s.fenceCovers th (wKind w) }
     s.modThread th.cell th.slot fun t => { t with fence := some f })

/-- An operation has reached the point of visibility of a scope, or is not covered by it (R325, R326). -/
def State.visible (s : State) (scope id : Nat) : Bool :=
  match s.req id with
  | none => true
  | some r =>
    (decide (scope < 2) && r.dev != s.dev) ||
    (match r.stage with
     | .answered .ack => true
     | .answered .homeLost => true
     | .answered .badHandle => true
     | _ => false)

/-- FENCE_COMPLETE: every operation covered has reached its point. One of device or space scope ends only when no line of the cell is dirty and
every line cleaned has been applied; a line that has become dirty since, as by a covered store that was redirected, is cleaned first (R327). The
add buffers are written back before it is acknowledged (R367). -/
def State.fenceComplete (s : State) (th : ThreadRef) : State :=
  let t := s.thread th.cell th.slot
  match t.fence with
  | some f =>
    if s.active && s.cellUp th.cell && f.covers.all (s.visible f.scope) then
      if f.scope ≠ 0 ∧ s.dirtyLines th.cell (fun _ => true) ≠ [] then s.fenceClean th.cell
      else if f.scope ≠ 0 ∧ s.backsOut th.cell (fun _ => true) ≠ [] then s
      else
        let s := if f.scope = 0 then s else s.addFlushAll
        (s.thNext th fun t => { t with fence := none }).countC th.cell cFence 1
    else s
  | none => s

/-! ## WAIT, SLEEP, YIELD (R282, R283, R309, R312) -/

def State.wait (s : State) (th : ThreadRef) (w : W64) : State :=
  s.thIssue th 2 1 w
    (let m := wImm32 w
     let n := (s.sreg th (wRb w)).toNat
     let t := s.thread th.cell th.slot
     if m = 0 then s.thFault th fBadOperand 0
     else if 2 ^ 31 ≤ n then s.thFault th fBadOperand n
     else
       let set (t : Thread) : Thread := { t with mask := m, modeAll := wWaitAll w, clr := wWaitClr w, waitRd := wRd w, wake := none }
       if flagsMeet (wWaitAll w) m t.flags then
         s.thNext th fun t =>
           let t := (set t).setReg (wRd w) (t.flags.zeroExtend 64)
           { t with flags := if wWaitClr w then t.flags &&& ~~~m else t.flags }
       else
         let tick := (s.cell th.cell).tick
         let s := s.thNext th fun t => { set t with timed := decide (n ≠ 0), deadline := if n = 0 then t.deadline else tick + BitVec.ofNat 32 n }
         s.modCell th.cell fun x => x.leave th.slot .waiting)

/-- A thread goes back to READY from its core. -/
def State.toReady (s : State) (th : ThreadRef) : State := (s.thNext th id).modCell th.cell fun x => x.leave th.slot .ready

def State.sleep (s : State) (th : ThreadRef) (w : W64) : State :=
  s.thIssue th 2 2 w
    (let n := (s.sreg th (wRa w)).toNat
     if n = 0 then s.toReady th
     else if 2 ^ 31 ≤ n then s.thFault th fBadOperand n
     else
       let tick := (s.cell th.cell).tick
       (s.thNext th fun t => { t with deadline := tick + BitVec.ofNat 32 n, timed := true }).modCell th.cell fun x => x.leave th.slot .sleeping)

def State.yield (s : State) (th : ThreadRef) (w : W64) : State := s.thIssue th 2 3 w (s.toReady th)

/-! ## Flags and mailboxes (R284, R285, R308) -/

/-- Flags sent to a slot of this device, and whether it took them (R284). -/
def State.signalTo (s : State) (c t : Nat) (m : W32) : Bool × State :=
  if (s.thread c t).deaf then (false, s) else (true, s.flagThread c t m)

def State.signal (s : State) (th : ThreadRef) (w : W64) : State :=
  s.thIssue th 2 4 w
    (let a := (s.sreg th (wRa w)).toNat
     if 2 ^ 14 ≤ a ∨ 192 ≤ a / 64 then s.thFault th fBadOperand a
     else
       let (ok, s) := s.signalTo (a / 64) (a % 64) (wImm32 w)
       s.thRet th (wRd w) (if ok then 0 else 1))

def State.flags (s : State) (th : ThreadRef) (w : W64) : State :=
  s.thIssue th 2 5 w (s.thNext th fun t => { t.setReg (wRd w) (t.flags.zeroExtend 64) with flags := t.flags &&& ~~~(wImm32 w) })

def State.mbox (s : State) (th : ThreadRef) (w : W64) : State :=
  s.thIssue th 2 6 w (s.thNext th fun t => { t.setReg (wRd w) t.mailbox with unread := false })

/-! ## BARRIER, SETPRI, POST, EXIT (R286, R287) -/

def State.barrier (s : State) (th : ThreadRef) (w : W64) : State :=
  s.thIssue th 2 7 w
    (let a := (s.sreg th (wRa w)).toNat
     let n := wChan w
     let imm := (wImm32 w).toNat
     if 256 ≤ a then s.thFault th fBadOperand a
     else if 32 ≤ imm then s.thFault th fBadOperand 0
     else
       let x : Byte := BitVec.ofNat 8 a
       match s.arrival th.cell n x with
       | .counted => (s.barCount th.cell n th.slot imm x).thNext th id
       | .dropped => (s.barDrop n).thNext th id
       | .skew e =>
         let info := n + a * 256 + e.toNat * 65536
         ((s.errBump (rCell th.cell 0x360)).barEvent (srcCell th.cell) 0 0x0050 info).thFault th fBarrierSkew info)

def State.setpri (s : State) (th : ThreadRef) (w : W64) : State :=
  s.thIssue th 2 8 w
    (let a := (s.sreg th (wRa w)).toNat
     if 8 ≤ a then s.thFault th fBadOperand a else s.thNext th fun t => { t with pri := BitVec.ofNat 3 a })

/-- An event of a cell to its field supervisor: its bit of SCH_EVENT, and its report when enabled (R320). -/
def State.schEvent (s : State) (c bit code info : Nat) : State :=
  let s := s.setBits (rCell c 0x308) (BitVec.ofNat 32 (2 ^ bit))
  if s.regBit (rCell c 0x30C) bit then s.raise (srcCell c) kError code 4 info else s

/-- POST. A record that the full buffer drops is a post that the lookout cannot accept, so both counters count it (R287, R432). The
spec gives the notice of a dropped POST no CODE: it is a free value (log entry 29, DESIGN CHOICE). -/
def State.post (s : State) (th : ThreadRef) (w : W64) : State :=
  s.thIssue th 2 9 w
    (let tag := (wImm32 w).toNat
     if 65536 ≤ tag then s.thFault th fBadOperand 0
     else
       let v := (s.sreg th (wRa w)).toNat
       let taken : Bool := decide (s.eth.events.length + (if s.eth.lost = 0 then 0 else 1) < eventDepth)
       let s := s.pushEvent kPost (srcCell th.cell) (BitVec.ofNat 160 (v + tag * 2 ^ 64))
       let s :=
         if taken then s
         else
           let (code, s) := s.fresh
           (s.countC th.cell cPostDrop 1).schEvent th.cell 1 (code.toNat % 65536) th.slot
       s.thNext th id)

def State.exitTh (s : State) (th : ThreadRef) (w : W64) : State :=
  s.thIssue th 2 10 w (s.modCell th.cell fun x => x.freeSlot th.slot)

/-! ## The scheduler (R306, R309, R313, R314) -/

/-- The READY threads of a cell, by slot. -/
def CellSt.ready (x : CellSt) : List Nat := (List.range 64).filter fun t => (x.thread t).state == .ready

/-- A core may take a slot (R306). -/
def CellSt.mayTake (x : CellSt) (core t : Nat) : Bool :=
  let top := (x.ready.map fun u => (x.thread u).pri.toNat).foldl Nat.max 0
  let best := x.ready.filter fun u => (x.thread u).pri.toNat == top
  let mine (u : Nat) : Bool := (x.thread u).lcv && (x.thread u).lastCore.toNat == core
  best.contains t && (mine t || !best.any mine)

/-- A core is free. -/
def CellSt.coreFree (x : CellSt) (core : Nat) : Bool := match x.cores[core]? with | some k => k.slot.isNone | none => false

/-- THREAD_DISPATCH. Free cores choose in ascending number (R306). -/
def State.dispatch (s : State) (c core t : Nat) : State :=
  let x := s.cell c
  if s.coresGo && s.cellUp c && !x.parked && decide (core < 4) &&
      x.coreFree core && !(List.range core).any x.coreFree && x.mayTake core t then
    let p := (x.thread t).pri.toNat
    let n := (x.tick - (x.thread t).entered).toNat
    let s := s.modCell c fun x =>
      let x := x.enter t .running
      { x with idleSince := s.timebase, cores := modAt core (fun k => { k with slot := some t }) x.cores,
               threads := modAt t (fun th => { th with lastCore := BitVec.ofNat 2 core, lcv := true }) x.threads }
    (((s.countC c (cDispatch p) 1).countC c (cRdyWait p) n).countC c (cSwitch core) 1).maxReg (rCell c (0x320 + 4 * p)) n
  else s

/-- A cell whose scheduler acts. Tick counters and deadlines go on below ACTIVE (R463); a parked cell's supervisor unparks it first. -/
def State.schedules (s : State) (c : Nat) : Bool :=
  s.power.phase == .running && s.cellUp c && !(s.cell c).parked

def State.threadWake (s : State) (th : ThreadRef) : State :=
  let t := s.thread th.cell th.slot
  match t.state, t.wake with
  | .waiting, some f =>
    if s.schedules th.cell then
      let s := s.endEventWait th.cell th.slot
      let s := s.modThread th.cell th.slot fun t => { t.setReg t.waitRd (f.zeroExtend 64) with wake := none, timed := false }
      s.modCell th.cell fun x => x.enter th.slot .ready
    else s
  | _, _ => s

/-- The deadline is due (R312). -/
def deadlineDue (now d : W32) : Bool := decide ((now - d).toNat < 2 ^ 31)

/-- A slot whose deadline is due becomes READY; a waiting thread times out unless its flags have satisfied its mask. -/
def State.deadlineOf (s : State) (c t : Nat) : State :=
  let th := s.thread c t
  if !th.timed || !deadlineDue (s.cell c).tick th.deadline then s
  else match th.state with
    | .sleeping => (s.modThread c t fun t => { t with timed := false }).modCell c fun x => x.enter t .ready
    | .waiting =>
      if th.wake.isSome then s
      else ((s.endEventWait c t).modThread c t fun t => { t.setReg t.waitRd 0 with timed := false }).modCell c fun x => x.enter t .ready
    | _ => s

def State.deadlinesDue (s : State) (c : Nat) : State :=
  if s.schedules c then (List.range 64).foldl (fun s t => s.deadlineOf c t) s else s

def State.starvation (s : State) (th : ThreadRef) : State :=
  let t := s.thread th.cell th.slot
  let limit := (s.reg (rCell th.cell 0x304)).toNat
  if s.active && s.cellUp th.cell && decide (th.slot < 64) && t.state == .ready && !t.starved && limit != 0 && decide (limit ≤ t.readyTicks) then
    let s := s.modThread th.cell th.slot fun t => { t with starved := true }
    let s := s.setBits (rCell th.cell (if th.slot < 32 then 0x310 else 0x314)) (BitVec.ofNat 32 (2 ^ (th.slot % 32)))
    (s.countC th.cell cStarve 1).schEvent th.cell 0 0x0120 th.slot
  else s

/-! ## The commands -/

def execLaunchA (th : ThreadRef) (w : W64) (s : State) : Host.Outcome State Fault Refusal := .next (s.launch th .access w)
def execLaunchX (th : ThreadRef) (w : W64) (s : State) : Host.Outcome State Fault Refusal := .next (s.launch th .execute w)
def execSNop (th : ThreadRef) (w : W64) (s : State) : Host.Outcome State Fault Refusal := .next (s.thIssue th 1 0 w (s.thNext th id))
def execSAdd (th : ThreadRef) (w : W64) (s : State) : Host.Outcome State Fault Refusal := .next (s.sAlu th 0x01 w (· + ·))
def execSSub (th : ThreadRef) (w : W64) (s : State) : Host.Outcome State Fault Refusal := .next (s.sAlu th 0x02 w sSub')
def execSMul (th : ThreadRef) (w : W64) (s : State) : Host.Outcome State Fault Refusal := .next (s.sAlu th 0x03 w (· * ·))
def execSMulhu (th : ThreadRef) (w : W64) (s : State) : Host.Outcome State Fault Refusal := .next (s.sAlu th 0x04 w sMulhu')
def execSDivu (th : ThreadRef) (w : W64) (s : State) : Host.Outcome State Fault Refusal := .next (s.sAlu th 0x05 w sDivu')
def execSRemu (th : ThreadRef) (w : W64) (s : State) : Host.Outcome State Fault Refusal := .next (s.sAlu th 0x06 w sRemu')
def execSAnd (th : ThreadRef) (w : W64) (s : State) : Host.Outcome State Fault Refusal := .next (s.sAlu th 0x07 w (· &&& ·))
def execSOr (th : ThreadRef) (w : W64) (s : State) : Host.Outcome State Fault Refusal := .next (s.sAlu th 0x08 w (· ||| ·))
def execSXor (th : ThreadRef) (w : W64) (s : State) : Host.Outcome State Fault Refusal := .next (s.sAlu th 0x09 w (· ^^^ ·))
def execSSll (th : ThreadRef) (w : W64) (s : State) : Host.Outcome State Fault Refusal := .next (s.sAlu th 0x0A w sSll')
def execSSrl (th : ThreadRef) (w : W64) (s : State) : Host.Outcome State Fault Refusal := .next (s.sAlu th 0x0B w sSrl')
def execSSra (th : ThreadRef) (w : W64) (s : State) : Host.Outcome State Fault Refusal := .next (s.sAlu th 0x0C w sSra')
def execSSlt (th : ThreadRef) (w : W64) (s : State) : Host.Outcome State Fault Refusal := .next (s.sAlu th 0x0D w sSlt')
def execSSltu (th : ThreadRef) (w : W64) (s : State) : Host.Outcome State Fault Refusal := .next (s.sAlu th 0x0E w sSltu')
def execSAddi (th : ThreadRef) (w : W64) (s : State) : Host.Outcome State Fault Refusal := .next (s.sAluImm th 0x10 w (· + ·))
def execSAndi (th : ThreadRef) (w : W64) (s : State) : Host.Outcome State Fault Refusal := .next (s.sAluImm th 0x11 w (· &&& ·))
def execSOri (th : ThreadRef) (w : W64) (s : State) : Host.Outcome State Fault Refusal := .next (s.sAluImm th 0x12 w (· ||| ·))
def execSXori (th : ThreadRef) (w : W64) (s : State) : Host.Outcome State Fault Refusal := .next (s.sAluImm th 0x13 w (· ^^^ ·))
def execSSlli (th : ThreadRef) (w : W64) (s : State) : Host.Outcome State Fault Refusal := .next (s.sAluImm th 0x14 w sSll')
def execSSrli (th : ThreadRef) (w : W64) (s : State) : Host.Outcome State Fault Refusal := .next (s.sAluImm th 0x15 w sSrl')
def execSSrai (th : ThreadRef) (w : W64) (s : State) : Host.Outcome State Fault Refusal := .next (s.sAluImm th 0x16 w sSra')
def execSLih (th : ThreadRef) (w : W64) (s : State) : Host.Outcome State Fault Refusal := .next (s.sAluImm th 0x17 w sLih')
def execSBeq (th : ThreadRef) (w : W64) (s : State) : Host.Outcome State Fault Refusal := .next (s.sBranch th 0x20 w fun a b => a == b)
def execSBne (th : ThreadRef) (w : W64) (s : State) : Host.Outcome State Fault Refusal := .next (s.sBranch th 0x21 w fun a b => a != b)
def execSBlt (th : ThreadRef) (w : W64) (s : State) : Host.Outcome State Fault Refusal := .next (s.sBranch th 0x22 w BitVec.slt)
def execSBge (th : ThreadRef) (w : W64) (s : State) : Host.Outcome State Fault Refusal := .next (s.sBranch th 0x23 w fun a b => !a.slt b)
def execSBltu (th : ThreadRef) (w : W64) (s : State) : Host.Outcome State Fault Refusal := .next (s.sBranch th 0x24 w BitVec.ult)
def execSBgeu (th : ThreadRef) (w : W64) (s : State) : Host.Outcome State Fault Refusal := .next (s.sBranch th 0x25 w fun a b => !a.ult b)
def execSJal (th : ThreadRef) (w : W64) (s : State) : Host.Outcome State Fault Refusal := .next (s.sJal th w)
def execSJalr (th : ThreadRef) (w : W64) (s : State) : Host.Outcome State Fault Refusal := .next (s.sJalr th w)
def execSLd (th : ThreadRef) (w : W64) (s : State) : Host.Outcome State Fault Refusal := .next (s.sLoad th 0x30 w extZero)
def execSLds (th : ThreadRef) (w : W64) (s : State) : Host.Outcome State Fault Refusal := .next (s.sLoad th 0x31 w extSign)
def execSSt (th : ThreadRef) (w : W64) (s : State) : Host.Outcome State Fault Refusal := .next (s.sStore th w)
def execSTime (th : ThreadRef) (w : W64) (s : State) : Host.Outcome State Fault Refusal := .next (s.sTime th w)
def execSTick (th : ThreadRef) (w : W64) (s : State) : Host.Outcome State Fault Refusal := .next (s.sTick th w)
def execFence (th : ThreadRef) (w : W64) (s : State) : Host.Outcome State Fault Refusal := .next (s.fence th w)
def execFenceComplete (th : ThreadRef) (s : State) : Host.Outcome State Fault Refusal := .next (s.fenceComplete th)
def execWait (th : ThreadRef) (w : W64) (s : State) : Host.Outcome State Fault Refusal := .next (s.wait th w)
def execSleep (th : ThreadRef) (w : W64) (s : State) : Host.Outcome State Fault Refusal := .next (s.sleep th w)
def execYield (th : ThreadRef) (w : W64) (s : State) : Host.Outcome State Fault Refusal := .next (s.yield th w)
def execSignal (th : ThreadRef) (w : W64) (s : State) : Host.Outcome State Fault Refusal := .next (s.signal th w)
def execFlags (th : ThreadRef) (w : W64) (s : State) : Host.Outcome State Fault Refusal := .next (s.flags th w)
def execMbox (th : ThreadRef) (w : W64) (s : State) : Host.Outcome State Fault Refusal := .next (s.mbox th w)
def execBarrier (th : ThreadRef) (w : W64) (s : State) : Host.Outcome State Fault Refusal := .next (s.barrier th w)
def execSetpri (th : ThreadRef) (w : W64) (s : State) : Host.Outcome State Fault Refusal := .next (s.setpri th w)
def execPost (th : ThreadRef) (w : W64) (s : State) : Host.Outcome State Fault Refusal := .next (s.post th w)
def execExit (th : ThreadRef) (w : W64) (s : State) : Host.Outcome State Fault Refusal := .next (s.exitTh th w)
def execThreadDispatch (c core slot : Nat) (s : State) : Host.Outcome State Fault Refusal := .next (s.dispatch c core slot)
def execThreadWake (th : ThreadRef) (s : State) : Host.Outcome State Fault Refusal := .next (s.threadWake th)
def execDeadlineDue (c : Nat) (s : State) : Host.Outcome State Fault Refusal := .next (s.deadlinesDue c)
def execStarvationLimit (th : ThreadRef) (s : State) : Host.Outcome State Fault Refusal := .next (s.starvation th)

end Sys2Proof.Machine
end

