-- ==== Sys2Proof/Machine/Work.lean ====
section
/-! DEFINITION. Machine/Work.lean: work placement (R96 to R109): cutting a work set, its assignment to devices and cells, taking and
reporting items, rebalancing, requeueing, and geysers. -/

namespace Sys2Proof.Machine

/-! ## Cutting (R96, R102, R103, R108) -/

/-- The settings that a WORK_SET reads (R112). -/
structure CutSet where
  deg : Nat
  part : Nat
  edges : Nat
  geysers : Bool
  thin : Bool
  thinK : Nat
  deriving DecidableEq, Repr

def State.cutSet (s : State) : CutSet :=
  { deg := (s.reg rPlcDeg).toNat, part := s.regF rPlcPart 23 0, edges := s.regF rPlcEdges 23 0, geysers := s.regBit rPlcCtrl 1,
    thin := s.regBit rPlcThin 0, thinK := s.regF rPlcThin 31 8 }

/-- A vertex with its first edge and its degree. -/
structure Vtx where
  v : Nat
  e0 : Nat
  d : Nat
  deriving DecidableEq, Repr

/-- The vertices of a range from its row pointers. -/
def vertices (v0 : Nat) : List Nat → List Vtx
  | a :: b :: t => { v := v0, e0 := a, d := b - a } :: vertices (v0 + 1) (b :: t)
  | _ => []

def geyserMax : Nat := 65536

/-- The geysers, highest degree first, lower number first among equals; and whether there were more than 65,536 (R102). -/
def geysersOf (c : CutSet) (vs : List Vtx) : List Vtx × Bool :=
  if c.geysers then
    let g := (vs.filter fun x => decide (c.deg ≤ x.d)).mergeSort fun a b => decide (b.d < a.d) || (a.d == b.d && decide (a.v ≤ b.v))
    (g.take geyserMax, decide (geyserMax < g.length))
  else ([], false)

def noIndex : Nat := 0xFFFFFFFFFF

/-- The parts of a geyser: first edge, edges or draws (R103, R108). -/
def partsOf (c : CutSet) (x : Vtx) : List (Nat × Nat) :=
  if c.thin then
    let n := ceilDiv c.thinK c.part
    (List.range n).map fun (j : Nat) => (x.e0, Nat.min c.part (c.thinK - j * c.part))
  else
    let p := if 65536 < ceilDiv x.d c.part then ceilDiv x.d 65536 else c.part
    (List.range (ceilDiv x.d p)).map fun (j : Nat) => (x.e0 + j * p, Nat.min p (x.d - j * p))

/-- The cut in progress: the items so far with their costs, latest first, the open range (first vertex, first edge, vertices, edges), and
how many partial slots are given. -/
structure Cut where
  out : List (WorkItem × Nat)
  run : Option (Nat × Nat × Nat × Nat)
  slots : Nat
  deriving DecidableEq, Repr

def Cut.push (k : Cut) (it : WorkItem) (cost : Nat) : Cut := { k with out := ({ it with item := k.out.length }, cost) :: k.out }

/-- Closes the open range item: its cost is its edges and a quarter of its vertices, rounded up. PSLOT of a RANGE record is 0, which the
spec does not say (log entry 81, DESIGN CHOICE). -/
def Cut.close (k : Cut) : Cut :=
  match k.run with
  | none => k
  | some (v, e, n, ne) =>
    { k with run := none }.push
      { kind := 0, thinned := false, rerun := false, wset := 0, item := 0, v0 := v, v1 := v + n, e0 := e, ne := ne, pslot := 0,
        deg := 0 }
      (ne + ceilDiv n 4)

/-- A geyser's parts and its combine item, whose THINNED is 0 (log entry 81, DESIGN CHOICE). Partial slots are numbered by parts until their
devices are known. -/
def Cut.geyser (k : Cut) (c : CutSet) (x : Vtx) : Cut :=
  let first := k.slots
  let ps := partsOf c x
  let base : WorkItem :=
    { kind := 1, thinned := c.thin, rerun := false, wset := 0, item := 0, v0 := x.v, v1 := noIndex, e0 := x.e0, ne := 0, pslot := first,
      deg := x.d }
  let k := ps.zipIdx.foldl (fun k p => k.push { base with e0 := p.1.1, ne := p.1.2, pslot := first + p.2 } (p.1.2 + 1)) k
  { k.push { base with kind := 2, thinned := false, ne := ps.length } ps.length with slots := first + ps.length }

/-- One vertex, in ascending order. -/
def Cut.vertex (c : CutSet) (gs : List Vtx) (k : Cut) (x : Vtx) : Cut :=
  if gs.contains x then k.close.geyser c x
  else if c.edges < x.d then { k.close with run := some (x.v, x.e0, 1, x.d) }.close
  else match k.run with
    | none => { k with run := some (x.v, x.e0, 1, x.d) }
    | some (v, e, n, ne) =>
      if c.edges < ne + x.d ∨ n = 65536 then { k.close with run := some (x.v, x.e0, 1, x.d) }
      else { k with run := some (v, e, n + 1, ne + x.d) }

/-- The items of a work set with their costs, in cutting order. -/
def cutItems (c : CutSet) (gs vs : List Vtx) : List (WorkItem × Nat) :=
  (vs.foldl (Cut.vertex c gs) { out := [], run := none, slots := 0 }).close.out.reverse

/-! ## Work sets -/

def State.wset (s : State) (n : Nat) : Option WSet := s.scaler.sets.find? fun w => w.num == n
def State.modSet (s : State) (n : Nat) (f : WSet → WSet) : State :=
  s.modScaler fun z => { z with sets := z.sets.map fun w => if w.num = n then f w else w }

/-- The seed of a cell's random generator: this device's PLC_THIN_SEED with the numbers of device and cell (R108). -/
def State.cellSeed (s : State) (c : Nat) : W64 :=
  BitVec.ofNat 64 ((s.reg rPlcSeedLo).toNat + 2 ^ 32 * (s.reg rPlcSeedHi).toNat) ^^^ BitVec.ofNat 64 (s.dev * 256 + c % 256) ^^^ BitVec.ofNat 64 (c / 256)

/-- The generator of every cell is seeded (R108). -/
def State.seedCells (s : State) : State :=
  { s with cells := s.cells.zipIdx.map fun x => { x.1 with seed := s.cellSeed x.2, drawn := 0 } }

/-- The device is informed of a work set, of row-pointer object `row` and column object `col` where it owns it. -/
def State.addSet (s : State) (n : Nat) (owned : Bool) (row col : Nat) (items : List WRec) (part : Option Nat) : State :=
  let w : WSet := { num := n, seq := s.scaler.setSeq, owned := owned, complete := false, row := row, col := col, items := items,
                    partialH := part, orders := [], cells := List.replicate 192 (0, 0) }
  s.seedCells.modScaler fun z => { z with sets := z.sets.filter (fun x => x.num != n) ++ [w], setSeq := z.setSeq + 1 }

/-- A status that says that a request was redirected 16 times: the spec gives none, so it is a free value, not OK. -/
def State.tiredStatus (s : State) : Nat × State := let (v, s) := s.fresh; (1 + v.toNat % 65535, s)

/-- A number that no known work set has. The spec does not say which: it is found from a free value. -/
def State.newSetNumber (s : State) : Nat × State :=
  let (v, s) := s.fresh
  let used (n : Nat) : Bool := (s.wset ((v.toNat + n) % 65536)).isSome
  ((v.toNat + (lowest (fun n => !used n) 65536 0).getD 0) % 65536, s)

/-! ## Queues (R97, R98) -/

/-- A cell's queue holds up to 1,024 items; more are held at the Scaler and enter as it drains. -/
def CellSt.refill (x : CellSt) : CellSt :=
  let n := 1024 - x.queue.length
  { x with queue := x.queue ++ x.held.take n, held := x.held.drop n }

def State.giveItem (s : State) (c : Nat) (q : QItem) : State :=
  let s := s.modCell c fun x => { x with held := x.held ++ [q] }.refill
  s.modSet q.it.wset fun w => { w with cells := modAt c (fun y => (y.1 + q.cost, y.2)) w.cells }

/-- The cells that the Scaler assigns items to: those not OFFLINE (R97, R100). -/
def State.workCells (s : State) : List Nat := (List.range 192).filter fun c => (s.cell c).mode != .offline

/-- The first of the cells with the least of a cost. -/
def leastCell (cost : Nat → Nat) : List Nat → Option Nat
  | [] => none
  | c :: t => match leastCell cost t with
    | some d => if cost d < cost c then some d else some c
    | none => some c

def costOf (l : List QItem) : Nat := (l.map (·.cost)).sum

/-- The items that this device receives go to its cells (R97): range items and parts in descending cost, then combine items, each
to the cell with the least cost of this set. -/
def State.assignHere (s : State) (n : Nat) (items : List (WorkItem × Nat)) : State :=
  let order (l : List (WorkItem × Nat)) : List (WorkItem × Nat) :=
    l.mergeSort fun a b => decide (b.2 < a.2) || (a.2 == b.2 && decide (a.1.item ≤ b.1.item))
  let sorted := order (items.filter fun x => x.1.kind != 2) ++ order (items.filter fun x => x.1.kind == 2)
  sorted.foldl (fun s x =>
    let cost (c : Nat) : Nat := match s.wset n with | some w => (w.cells.getD c (0, 0)).1 | none => 0
    match leastCell cost s.workCells with
    | some c => s.giveItem c { it := { x.1 with wset := n }, cost := x.2 }
    | none => s) s

/-- The cost of items moves with them. -/
def State.moveCost (s : State) (c : Nat) (q : QItem) : State :=
  s.modSet q.it.wset fun w => { w with cells := modAt c (fun y => (y.1 - q.cost, y.2)) w.cells }

/-- The last `k` of the items that may move, in their order, and the rest. -/
def takeLast (k : Nat) (l : List QItem) : List QItem × List QItem :=
  let r := l.reverse.foldl (fun (acc : Nat × List QItem × List QItem) q =>
    if q.it.kind ≠ 2 ∧ acc.1 ≠ 0 then (acc.1 - 1, q :: acc.2.1, acc.2.2) else (acc.1, acc.2.1, q :: acc.2.2)) (k, [], [])
  (r.2.1, r.2.2)

/-- The cell that gives items to an empty one: the greatest cost of untaken items that may move, ties to the lower number. -/
def State.donor (s : State) (c : Nat) : Option Nat :=
  let movable (d : Nat) : List QItem := ((s.cell d).queue ++ (s.cell d).held).filter fun q => q.it.kind != 2
  (s.workCells.filter fun d => d != c && s.cellUp d && movable d != []).foldl (fun b d =>
    match b with
    | none => some d
    | some e => if costOf (movable e) < costOf (movable d) then some d else some e) none

/-- WORK_ITEM_REBALANCE (R98). -/
def State.rebalance (s : State) (c : Nat) : State :=
  if !s.active ∨ !s.cellUp c ∨ (s.cell c).queue ≠ [] then s
  else match s.donor c with
    | none => s
    | some d =>
      let l := (s.cell d).queue ++ (s.cell d).held
      let (out, rest) := takeLast (ceilDiv (l.filter fun q => q.it.kind != 2).length 2) l
      let s := s.modCell d fun x => { x with queue := [], held := rest }.refill
      out.foldl (fun s q => (s.moveCost d q).giveItem c q) s

/-- The items of a cell that restarts or becomes OFFLINE go to other cells (R100). -/
def State.requeueCell (s : State) (c : Nat) : State :=
  let x := s.cell c
  let others := s.workCells.filter (· != c)
  if others = [] then s
  else
    let s := s.modCell c fun x => { x with queue := [], held := [], taken := [] }
    let again (q : QItem) : QItem := { q with it := { q.it with rerun := true } }
    (x.taken.map again ++ x.queue ++ x.held).foldl (fun s q =>
      let cost (d : Nat) : Nat := costOf (s.cell d).queue + costOf (s.cell d).held + costOf (s.cell d).taken
      match leastCell cost others with
      | some d => ((s.moveCost c q).giveItem d q).count (kPlc 11) 1
      | none => s) s

/-! ## Taking an item (R99, R105, R108) -/

/-- The 32-byte record of an item. -/
def workRecord (it : WorkItem) : List Byte :=
  leBytes 1 it.kind ++ leBytes 1 ((if it.thinned then 1 else 0) + (if it.rerun then 2 else 0)) ++ leBytes 2 it.wset ++ leBytes 4 it.item ++
  leBytes 5 it.v0 ++ leBytes 5 it.v1 ++ leBytes 5 it.e0 ++ leBytes 5 it.ne ++ leBytes 4 it.pslot

/-- The order in which the parts of a combine item's geyser reported. -/
def State.orderOf (s : State) (it : WorkItem) : List Nat :=
  match s.wset it.wset with
  | some w => ((w.orders.find? fun o => o.1 == it.v0).map (·.2)).getD []
  | none => []

/-- A combine item may be taken once every part of its geyser has reported. -/
def State.takeable (s : State) (it : WorkItem) : Bool := it.kind != 2 || (s.orderOf it).length == it.ne

/-- The item that a thread of cell `c` takes from the sets that meet `sel`: of the earliest set accepted, the first in the queue. -/
def State.nextItem (s : State) (c : Nat) (sel : Nat → Bool) : Option QItem :=
  let rank (q : QItem) : Nat := match s.wset q.it.wset with | some w => w.seq | none => 0
  ((s.cell c).queue.filter fun q => sel q.it.wset && s.takeable q.it).foldl (fun b q =>
    match b with
    | none => some q
    | some y => if rank q < rank y then some q else some y) none

/-- The draws of a thinned part: each picks an edge of its geyser's list (R108). -/
def CellSt.drawEdges (x : CellSt) (it : WorkItem) : CellSt :=
  { x with picks := (List.range it.ne).map fun i => (Config.random x.seed (x.drawn + i)).toNat * it.deg / 2 ^ 64, drawn := x.drawn + it.ne }

def State.wtake (s : State) (th : ThreadRef) (w : W64) : State :=
  s.thIssue th 1 0x3C w
    (let c := th.cell
     let a := (s.sreg th (wRa w)).toNat
     let rb := (s.sreg th (wRb w)).toNat
     let sel (n : Nat) : Bool := rb.testBit 16 || n == rb % 65536
     let sets := s.scaler.sets.filter fun x => sel x.num
     if opSize ≤ a then s.thFault th fOpmemProt a
     else if sets = [] then s.thRet th (wRd w) (if rb.testBit 16 then 1 else 3)
     else match s.nextItem c sel with
       | none => s.thRet th (wRd w) (if sets.all (·.complete) then 2 else 1)
       | some q =>
         let list := if q.it.kind = 2 then (s.orderOf q.it).flatMap (leBytes 5) else []
         if opSoft < a + 32 + list.length then s.thFault th fOpmemProt a
         else
           let s := s.modCell c fun x =>
             { x with queue := x.queue.erase q, taken := x.taken ++ [q] }.refill.opWrite a (workRecord q.it ++ list)
           let s := if q.it.thinned then (s.modCell c fun x => x.drawEdges q.it).count (kPlc 10) q.it.ne else s
           s.thRet th (wRd w) 0)

/-! ## Reporting an item (R99, R104, R105, R279) -/

/-- The device is informed that a set is complete. -/
def State.setComplete (s : State) (n : Nat) : State := s.modSet n fun w => { w with complete := true }

/-- The owner has every WDONE: the members are informed and the partial area is freed. -/
def State.ownerComplete (s : State) (n : Nat) : State :=
  match s.wset n with
  | none => s
  | some w =>
    if !w.owned ∨ w.complete ∨ w.items.any (fun r => !r.done) then s
    else
      let s := (s.setComplete n).tellAll (.workSetDone n)
      match w.partialH with
      | some h => match s.desc h with
        | some d => if d.typ = 9 ∧ freeable d then s.startFree h none else s
        | none => s
      | none => s

/-- WDONE of an item is heard: of a part, its place in the order; at the owner, the record. -/
def State.onItemDone (s : State) (it : WorkItem) : State :=
  let note (o : List (Nat × List Nat)) : List (Nat × List Nat) :=
    if it.kind ≠ 1 then o
    else if o.any fun y => y.1 == it.v0 then
      o.map fun y => if y.1 = it.v0 ∧ !y.2.contains it.pslot then (y.1, y.2 ++ [it.pslot]) else y
    else o ++ [(it.v0, [it.pslot])]
  let s := s.modSet it.wset fun w => { w with
    orders := note w.orders, items := w.items.map fun r => if r.it.item = it.item then { r with done := true } else r }
  s.ownerComplete it.wset

def State.wdone (s : State) (th : ThreadRef) (w : W64) : State :=
  s.thIssue th 1 0x3D w
    (let c := th.cell
     let a := (s.sreg th (wRa w)).toNat
     if opSoft < a + 32 then s.thFault th fOpmemProt a
     else match (s.cell c).opPoisoned a 8 with
       | some b => s.thFault th fPoisoned b
       | none =>
         let n := (s.cell c).opNat (a + 2) 2
         let i := (s.cell c).opNat (a + 4) 4
         match (s.cell c).taken.find? fun q => q.it.wset == n && q.it.item == i with
         | none => s.thRet th (wRd w) 1
         | some q =>
           let s := (s.modCell c fun x => { x with taken := x.taken.erase q }).count (kPlc 7) 1
           let s := s.modSet n fun y => { y with cells := modAt c (fun z => (z.1, z.2 + q.cost)) y.cells }
           ((s.onItemDone q.it).tellAll (.itemDone q.it)).thRet th (wRd w) 0)

/-! ## Messages of work sets -/

/-- A device copies the geyser rows of a set into its table when the FEATURE object is SEALED (R106). The rows of the set before
leave it. -/
def State.startRows (s : State) (feature : Nat) (rows : List Nat) : State :=
  match s.desc feature with
  | some d =>
    if d.state = .sealed then
      let s := s.modScaler fun z => { z with rows := [] }
      let (j, s) := s.newJob .rows feature 1
      (rows.take 4096).foldl (fun s v => if v < d.count then s.hostAccess j .load d (v * d.esize) d.esize [] else s) s
    else s
  | none => s

def State.onWorkSetNew (s : State) (n feature : Nat) (rows : List Nat) : State :=
  (if (s.wset n).isSome then s else s.addSet n false 0 0 [] none).startRows feature rows

def State.onItemsAssign (s : State) (n : Nat) (items : List (WorkItem × Nat)) : State :=
  (if (s.wset n).isSome then s else s.addSet n false 0 0 [] none).assignHere n items

/-- The owner gives items to devices. -/
def State.giveOut (s : State) (n : Nat) (items : List (Nat × WorkItem × Nat)) : State :=
  let s := (items.map (·.1)).eraseDups.foldl (fun s dev =>
    if dev = s.dev then s else s.tell dev (.itemsAssign n ((items.filter fun x => x.1 == dev).map (·.2)))) s
  s.assignHere n ((items.filter fun x => x.1 == s.dev).map (·.2))

/-! ## Homes of items (R97) -/

/-- The devices' homes of a plot: its map entry in this steward's map, or one that the job asks for. -/
def State.askMap (s : State) (j h p : Nat) : State :=
  let set (s : State) (e : Option MapEntry) : State :=
    s.modJob j fun w => if w.maps.any fun y => y.1 == (h, p) then w else { w with maps := w.maps ++ [((h, p), e)] }
  let gone : MapEntry := { dev := s.dev, lnd := 0, frame := 0, gen := 0, pstate := 3, nrep := 0, repIdx := 0, reps := [] }
  match s.liveDesc h with
  | none => set s (some gone)
  | some d =>
    if d.steward = s.dev then set s (some ((s.mapEntry h p).getD gone))
    else if d.state = .orphaned ∨ !s.reachable d.steward then set s (some gone)
    else (set s none).startWalk 192 d p

/-- The device that a job's map gives for a plot: this one where the home is lost or not known (log entry 47, DEDUCED). -/
def State.homeDev (s : State) (w : HostWait) (h p : Nat) : Nat :=
  match w.maps.find? fun y => y.1 == (h, p) with
  | some (_, some e) => if e.pstate = 3 ∨ s.fab.member e.dev ≠ 1 then s.dev else e.dev
  | _ => s.dev

/-- The plot whose home an item goes to. -/
def itemPlot (row col : Desc) (it : WorkItem) : Nat × Nat :=
  if it.kind = 1 then (col.handle, plotOf col it.e0) else (row.handle, plotOf row it.v0)

/-- The items with their devices. -/
def State.placed (s : State) (w : HostWait) (row col : Desc) : List (Nat × WorkItem × Nat) :=
  w.items.map fun x => let k := itemPlot row col x.1; (s.homeDev w k.1 k.2, x)

/-- The maps of the items of a job are asked for. -/
def State.askHomes (s : State) (j : Nat) (row col : Desc) (items : List (WorkItem × Nat)) : State :=
  items.foldl (fun s x => let k := itemPlot row col x.1; s.askMap j k.1 k.2) s

/-! ## The loss of a device (R100) -/

/-- Items of sets owned here that were given to a lost device and are not done are to be assigned again: the homes of their plots are looked
up. -/
def State.lossWork (s : State) (x : Nat) : State :=
  s.scaler.sets.foldl (fun s w =>
    let lost := w.items.filter fun r => r.dev == x && !r.done
    if !w.owned ∨ lost = [] then s
    else
      let items := lost.map fun r => ({ r.it with rerun := true }, r.cost)
      let (j, s) := s.newJob (.again w.num) 0 1
      let s := s.modJob j fun y => { y with items := items }
      match s.desc w.row, s.desc w.col with
      | some row, some col => s.askHomes j row col items
      | _, _ => s) s

/-- The homes are known: the items go to the devices that R97 gives. Those of a set whose objects are gone stay with the owner. -/
def State.reassign (s : State) (w : HostWait) (n : Nat) : State :=
  if w.maps.any fun y => y.2.isNone then s
  else
    let s := s.dropJob w.job
    match s.wset n with
    | none => s
    | some y =>
      let items := match s.desc y.row, s.desc y.col with
        | some row, some col => s.placed w row col
        | _, _ => w.items.map fun x => (s.dev, x)
      let dev (r : WRec) : Nat := ((items.find? fun x => x.2.1.item == r.it.item).map (·.1)).getD r.dev
      let s := s.modSet n fun y => { y with items := y.items.map fun r => { r with dev := dev r } }
      (s.giveOut n items).count (kPlc 11) items.length

/-! ## WORK_SET (R96, R97, R102 to R106) -/

/-- A WORK_SET payload. -/
structure WorkArgs where
  rowptr : Nat
  v0 : Nat
  v1 : Nat
  feature : Nat
  width : Nat
  partH : Nat
  col : Nat
  deriving DecidableEq, Repr

def workArgs (p : List Byte) : WorkArgs :=
  { rowptr := leAt p 0 3, v0 := leAt p 3 5, v1 := leAt p 8 5, feature := leAt p 13 3, width := leAt p 16 2 + 1, partH := leAt p 18 3,
    col := leAt p 21 3 }

/-- A live object of a type. -/
def State.objOf (s : State) (h typ : Nat) : Option Desc := (s.liveDesc h).filter fun d => d.typ == typ

/-- WORK_SET begins: its checks, and the row pointers are read. -/
def State.startWork (s : State) (q : Nat) (sess : W32) (c : QCmd) : State :=
  let p := c.payload
  let a := workArgs p
  let bad := s.complete q sess c stBadParam []
  if p.length ≠ 24 then bad
  else match s.objOf a.rowptr 2, s.objOf a.feature 5, s.objOf a.col 3 with
    | some d, some _, some _ =>
      if a.v1 < a.v0 ∨ d.count ≤ a.v1 ∨ !handleOk a.partH then bad
      else if (s.desc a.partH).isSome then s.complete q sess c stHandleBusy []
      else if a.v0 = a.v1 then
        let (n, s) := s.newSetNumber
        let s := (((s.addSet n true a.rowptr a.col [] none).tellAll (.workSetNew n a.feature [])).setComplete n).tellAll (.workSetDone n)
        s.complete q sess c stOk (leBytes 2 n)
      else
        let (j, s) := s.newJob (.qct q sess c) 0 1
        s.hostAccess j .load d (5 * a.v0) (5 * (a.v1 + 1 - a.v0)) []
    | _, _, _ => bad

/-- The row pointers that a job has read. -/
def State.rowPtrs (d : Desc) (a : WorkArgs) (w : HostWait) : List Nat :=
  let len := 5 * (a.v1 + 1 - a.v0)
  (chunks 5 len (gatherBytes (pieces d (5 * a.v0) len) w.got)).map leNat

def rising : List Nat → Bool
  | a :: b :: t => decide (a ≤ b) && rising (b :: t)
  | _ => true

/-- The PARTIAL object of a work set (R104), of `n` elements. -/
def partialDesc (dev : Nat) (a : WorkArgs) (n : Nat) : Desc :=
  { handle := a.partH, typ := 9, state := .creating, format := 9, esize := 4 * ceilDiv a.width 4, count := n, steward := dev, affinity := 0,
    pinDev := 0, pinLnd := 0, policy := 0, scale := 0 }

/-- Where the parts' slots lie: for each device, its first slot, which begins a plot, and the items of its parts. Since a plot has one home, a
device's slots share no plot with another's, and the elements between serve no part (R104; log entry 82, DEDUCED). -/
def partialGroups (epp : Nat) (parts : List (Nat × WorkItem × Nat)) : List Nat → Nat → List (Nat × Nat × List Nat)
  | [], _ => []
  | d :: t, next =>
    let first := ceilDiv next epp * epp
    let mine := (parts.filter fun x => x.1 == d).map (·.2.1.item)
    (d, first, mine) :: partialGroups epp parts t (first + mine.length)

/-- The slot of a part's item. -/
def partialSlot (gs : List (Nat × Nat × List Nat)) (item : Nat) : Nat :=
  (gs.findSome? fun g => if g.2.2.contains item then some (g.2.1 + g.2.2.idxOf item) else none).getD 0

/-- The runs of the partial area. -/
def partialRuns (epp : Nat) (gs : List (Nat × Nat × List Nat)) : List (Nat × Nat × Nat) :=
  gs.map fun g => (g.1, g.2.1 / epp, ceilDiv g.2.2.length epp)

/-- How many elements the partial area has. -/
def partialCount (gs : List (Nat × Nat × List Nat)) : Nat := match gs.getLast? with | some g => g.2.1 + g.2.2.length | none => 0

/-- The items with their partial slots: a part's own, a combine item's that of its geyser's first part. -/
def withSlots (gs : List (Nat × Nat × List Nat)) (items : List (WorkItem × Nat)) : List (WorkItem × Nat) :=
  let firstOf (v : Nat) : Nat := ((items.find? fun x => x.1.kind == 1 && x.1.v0 == v).map (·.1.item)).getD 0
  items.map fun x => match x.1.kind with
    | 1 => ({ x.1 with pslot := partialSlot gs x.1.item }, x.2)
    | 2 => ({ x.1 with pslot := partialSlot gs (firstOf x.1.v0) }, x.2)
    | _ => x

/-- WORK_SET ends: the set is known, its items are given out, and the command completes. What it was cut to stands since it was cut (R112). -/
def State.endWork (s : State) (w : HostWait) (a : WorkArgs) (row col : Desc) (n : Nat) (part : Option Nat) : State :=
  let items := s.placed w row col
  let recs : List WRec := items.map fun x => { it := { x.2.1 with wset := n }, cost := x.2.2, dev := x.1, done := false }
  let s := (s.addSet n true a.rowptr a.col recs part).tellAll (.workSetNew n a.feature w.rows)
  let s := (s.startRows a.feature w.rows).giveOut n items
  let s := (s.count (kPlc 8) w.geysers).count (kPlc 9) (items.filter fun x => x.2.1.kind == 1).length
  let s := if w.excess then s.plcEvent 2 (n * 2 ^ 24) else s
  s.completeJob w stOk (leBytes 2 n)

/-- A WORK_SET goes on once what it waits for is there. Row pointers that are poisoned or whose home is lost end it POISONED or HOME_LOST, for
which the spec names no status (log entry 81, DESIGN CHOICE). -/
def State.workStage (s : State) (w : HostWait) (p : List Byte) : State :=
  let a := workArgs p
  match s.objOf a.rowptr 2, s.objOf a.col 3 with
  | some row, some col =>
    if w.stage = 1 then
      if w.lost then s.completeJob w stHomeLost []
      else if w.tired then let (st, s) := s.tiredStatus; s.completeJob w st []
      else if w.poison then s.completeJob w stPoisoned []
      else
        let rp := State.rowPtrs row a w
        if !rising rp then s.completeJob w stBadParam []
        else
          let vs := vertices a.v0 rp
          let (gs, excess) := geysersOf s.cutSet vs
          let items := cutItems s.cutSet gs vs
          let s := s.modJob w.job fun w => { w with stage := 2, items := items, rows := (gs.map (·.v)).take 4096, geysers := gs.length,
                                                    excess := excess }
          s.askHomes w.job row col items
    else if w.stage = 2 then
      if w.maps.any fun y => y.2.isNone then s
      else
        let (n, s) := s.newSetNumber
        let parts := (s.placed w row col).filter fun x => x.2.1.kind == 1
        if parts = [] then s.endWork w a row col n none
        else if (s.desc a.partH).isSome then s.completeJob w stHandleBusy []
        else
          let epp := eppOf (partialDesc s.dev a 1)
          let gs := partialGroups epp parts (parts.map (·.1)).eraseDups 0
          (s.modJob w.job fun w => { w with stage := 3, handle := n, items := withSlots gs w.items }).startCreate
            (partialDesc s.dev a (partialCount gs)) none (some n) (partialRuns epp gs)
    else if (s.creating a.partH).isSome then s
    else match s.desc a.partH with
      | some d =>
        if d.typ = 9 ∧ d.steward = s.dev ∧ d.state = .live then s.endWork w a row col w.handle (some a.partH)
        else s.completeJob w stHandleBusy []
      | none => s.completeJob w stNoSpace []
  | _, _ => s.completeJob w stBadParam []

/-! ## The commands -/

def execWorkItemRebalance (c : Nat) (s : State) : Host.Outcome State Fault Refusal := .next (s.rebalance c)
def execWtake (th : ThreadRef) (w : W64) (s : State) : Host.Outcome State Fault Refusal := .next (s.wtake th w)
def execWdone (th : ThreadRef) (w : W64) (s : State) : Host.Outcome State Fault Refusal := .next (s.wdone th w)

end Sys2Proof.Machine
end

