-- ==== Sys2Proof/Machine/Wake.lean ====
section
/-! DEFINITION. Machine/Wake.lean: what wakes the device from a rung (R467, R473). -/

namespace Sys2Proof.Machine

/-- A POWER_SET in progress completes. -/
def State.powerSetDone (s : State) (status : Nat) : State := s.completeOn 0x28 0 status

/-- A wake (R467, R473): an entry in progress is abandoned and its POWER_SET completes BUSY; from a rung below ACTIVE the exit
begins; an exit that would enter another rung afterwards ends in ACTIVE. -/
def State.wake (s : State) : State :=
  if s.power.phase ≠ .running then s
  else if s.power.busy then
    if s.power.target = 0 then s
    else (s.modPower fun p => { p with target := 0, busy := decide (p.rung ≠ 0) }).powerSetDone stBusy
  else if s.power.rung = 0 then s
  else s.modPower fun p => { p with target := 0, busy := true, since := s.timebase }

/-- A wake by a command or a packet, from SIMMER, SMOULDER and DORMANT. -/
def State.wakeByUse (s : State) : State := if s.power.rung = 4 then s else s.wake

end Sys2Proof.Machine
end

