-- ==== Sys2Proof/Machine/Settle.lean ====
section
/-! DEFINITION. Machine/Settle.lean: the lookout takes the answers that wait for it and ends the commands whose effects are complete (R54, R332,
R426, R430, R433). -/

namespace Sys2Proof.Machine

/-! ## Ends of commands -/

/-- The element and byte that OBJ_READ and OBJ_WRITE begin at, as a byte of the object's elements end to end, and the length. -/
def accessStart (d : Desc) (p : List Byte) : Nat := addrIndex (BitVec.ofNat 64 (leAt p 0 8)) * d.esize + leAt p 8 4
def accessLen (p : List Byte) : Nat := leAt p 12 2

/-- OBJ_READ ends (R430). -/
def State.finishRead (s : State) (w : HostWait) (p : List Byte) : State :=
  if w.lost then s.completeJob w stHomeLost []
  else if w.tired then let (st, s) := s.tiredStatus; s.completeJob w st []
  else if w.poison then s.completeJob w stPoisoned []
  else match s.desc w.handle with
    | some d => s.completeJob w stOk (gatherBytes (pieces d (accessStart d p) (accessLen p)) w.got)
    | none => s.completeJob w stBadParam []

/-- OBJ_WRITE ends once every granule has been applied (R332). -/
def State.finishWrite (s : State) (w : HostWait) : State :=
  if w.lost then s.completeJob w stHomeLost []
  else if w.tired then let (st, s) := s.tiredStatus; s.completeJob w st []
  else s.completeJob w stOk []

/-- The region of a rkey. -/
def State.region (s : State) (k : W32) : Option Mr := s.eth.mrs.find? fun m => m.rkey == k

/-- The byte of an object's elements at which an RDMA access begins. -/
def rdmaStart (d : Desc) (m : Mr) (va : Nat) : Nat := addrIndex m.addr * d.esize + va

/-- The packets of a READ response: 4,096 bytes each. -/
def State.rdmaSend (s : State) (pri qpn : Nat) (psn : BitVec 24) (b : List Byte) : State :=
  (chunks 4096 b.length b).zipIdx.foldl (fun s x => s.transmit pri (.rdmaData qpn (psn + BitVec.ofNat 24 x.2) x.1)) s

/-- A RoCEv2 request ends. One that met a lost home, or a READ that met poison, is not answered: its granules have not all
been applied or read. -/
def State.finishRdma (s : State) (w : HostWait) (pri : Nat) (r : RdmaReq) : State :=
  let s := s.dropJob w.job
  match s.eth.qps.find? fun q => q.qpn == r.qpn with
  | none => s
  | some q =>
    if w.lost ∨ w.tired then s
    else match r.op with
      | .write => (s.transmit pri (.rdmaAck q.partner r.psn)).count (kEth 16) r.data.length
      | _ =>
        if w.poison then s
        else match s.region r.rkey with
          | none => s
          | some m => match s.desc (addrHandle m.addr) with
            | none => s
            | some d => (s.rdmaSend pri q.partner r.psn (gatherBytes (pieces d (rdmaStart d m r.va) r.len) w.got)).count (kEth 15) r.len

/-- A job whose requests have all been answered goes on or ends. -/
def State.finishJob (s : State) (w : HostWait) : State :=
  if w.ids ≠ [] ∨ w.stage = 0 then s
  else match w.what with
    | .rows => s.dropJob w.job
    | .again n => s.reassign w n
    | .rdma pri r => s.finishRdma w pri r
    | .qct _ _ c =>
      if c.opc = 0x15 then s.finishRead w c.payload
      else if c.opc = 0x16 then s.finishWrite w
      else if c.opc = 0x19 then s.workStage w c.payload
      else s

def State.jobPass (s : State) : State :=
  (s.eth.jobs.map (·.job)).foldl (fun s j => match s.job j with | some w => s.finishJob w | none => s) s

/-! ## Unknown commands (R430) -/

/-- A command code of the table. -/
def knownOpc (o : Nat) : Bool :=
  [1, 2, 3, 8, 9, 0x10, 0x11, 0x12, 0x13, 0x14, 0x15, 0x16, 0x18, 0x19, 0x20, 0x21, 0x22, 0x23, 0x24, 0x28, 0x30, 0x31, 0x32, 0x38, 0x39].contains o

/-- Commands of other codes at the head of a queue complete BAD_OPC. -/
def State.badOpc (s : State) (q : Nat) : Nat → State
  | 0 => s
  | n + 1 => match s.nextCmd q with
    | none => s
    | some (sess, c) =>
      if knownOpc c.opc then s
      else ((s.modQueue q fun y => { y with buf := y.buf.drop 1 }).complete q sess c stBadOpc []).badOpc q n

def State.badOpcs (s : State) : State :=
  match s.eth.session with
  | none => s
  | some x => (List.range x.q).foldl (fun s q => s.badOpc q (x.queue q).buf.length) s

/-! ## Everything that follows of itself -/

/-- Takes the answers and ends what can end. -/
def State.settle (s : State) : State :=
  let s := s.hostTakeAll (20 * s.reqs.length + 20)
  (s.jobPass.jobPass.jobPass.sealStep).badOpcs

end Sys2Proof.Machine
end

