-- ==== Sys2Proof/Machine/LandCmd.lean ====
section
/-! DEFINITION. Machine/LandCmd.lean: the events of the landings and of the Scaler (R81 to R90, R364 to R376). -/

namespace Sys2Proof.Machine

/-- LANDING_REQUEST: landing `l` serves request `id` (R63, R364). -/
def State.landingRequest (s : State) (l id : Nat) : State :=
  match s.req id with
  | some r => if r.stage = .landing l ∧ s.active ∧ s.mayServe l r then (s.serve r).settle else s
  | none => s

/-- Granules of a landing. -/
def landingGranules : Nat := 2 ^ 30

/-- The granule that the patrol scrub reads next: retired frames are skipped (R373). -/
def State.scrubNext (s : State) (l : Nat) : Nat :=
  let x := s.landing l
  let f := x.scrub / 2 ^ 15
  if x.isRetired f then
    match lowest (fun k => !x.isRetired ((f + k) % 2 ^ 15)) (2 ^ 15) 0 with
    | some k => (f + k) % 2 ^ 15 * 2 ^ 15
    | none => 0
  else x.scrub

/-- A landing scrubs: it is enabled, has not failed (else every frame of it is retired), and no request waits there, to which scrub reads
yield (R373). -/
def State.mayScrub (s : State) (l : Nat) : Bool :=
  decide (l < 12) && s.active && s.regBit (rLnd l 0) 0 && !(s.landing l).failed && !s.reqs.any fun r => r.stage == .landing l

/-- A pass begins in a scrub period in which none has begun, once the last has ended (R373; log entry 76, DEDUCED). -/
def State.scrubStart (s : State) (l : Nat) : State :=
  let k := s.scrubPeriod l
  if (s.landing l).scrubOn ∨ (s.landing l).scrubbed = some k then s
  else s.modLanding l fun x => { x with scrubOn := true, scrubbed := some k, scrub := 0 }

/-- A pass ends. -/
def State.scrubEnd (s : State) (l : Nat) : State := s.modLanding l fun x => { x with scrubOn := false, scrub := 0 }

/-- SCRUB_READ (R373): the next granule of the pass is read and corrected. -/
def State.scrubRead (s : State) (l : Nat) : State :=
  if !s.mayScrub l then s
  else
    let s := s.scrubStart l
    let g := s.scrubNext l
    if !(s.landing l).scrubOn then s
    else if g < (s.landing l).scrub ∨ (s.landing l).isRetired (g / 2 ^ 15) then s.scrubEnd l
    else
      let s := (s.checkGranule (l * landingGranules + g)).count (kLnd l 6) 1
      if g + 1 = landingGranules then s.scrubEnd l else s.modLanding l fun x => { x with scrub := g + 1 }

/-- FRAME_ZERO_FILL (R52, R88, R366): a released frame, which the cells no longer hold, reads zero, and may be used again. -/
def State.frameZeroFill (s : State) (l f : Nat) : State :=
  if s.active ∧ (s.landing l).zero.contains f ∧ s.invalDone l f then
    ((s.zeroFrame l f).modLanding l fun x =>
      { x with zero := x.zero.filter (· != f), inval := x.inval.filter fun y => y.1 != f }).count (kLnd l 1) 32768
  else s

/-- LANDING_FAIL (R376). Which pseudo-channel could not be trained again is a free value. -/
def State.landingFail (s : State) (l : Nat) : State :=
  if 12 ≤ l ∨ s.power.phase ≠ .running ∨ s.power.rung = 4 then s
  else let (v, s) := s.fresh; (s.failLanding l (some (v.toNat % 64))).settle

def execLandingRequest (l id : Nat) (s : State) : Host.Outcome State Fault Refusal := .next (s.landingRequest l id)
def execScrubRead (l : Nat) (s : State) : Host.Outcome State Fault Refusal := .next (s.scrubRead l)
def execFrameZeroFill (l frame : Nat) (s : State) : Host.Outcome State Fault Refusal := .next (s.frameZeroFill l frame)
def execLandingFail (l : Nat) (s : State) : Host.Outcome State Fault Refusal := .next (s.landingFail l)
def execPlacementInterval (s : State) : Host.Outcome State Fault Refusal := .next s.placementInterval.settle
def execMoveCopyDone (handle plot : Nat) (s : State) : Host.Outcome State Fault Refusal := .next (s.moveCopyDone handle plot).settle
def execMoveFlip (handle plot : Nat) (s : State) : Host.Outcome State Fault Refusal := .next (s.moveFlip handle plot).settle
def execSweepComplete (handle : Nat) (s : State) : Host.Outcome State Fault Refusal := .next (s.sweepComplete handle).settle
def execMoveInvalidateDone (handle plot : Nat) (s : State) : Host.Outcome State Fault Refusal := .next (s.moveInvalidateDone handle plot).settle

end Sys2Proof.Machine
end

