-- ==== Sys2Proof/Machine/Link.lean ====
section
/-! DEFINITION. Machine/Link.lean: flits and links (R380 to R391): the flit layout and its CRC, sequence numbers, the replay buffer,
credits, and the packets that flits carry. -/

namespace Sys2Proof.Machine

/-! ## The CRC (R383) -/

/-- One bit of the reflected CRC-32 of IEEE 802.3. -/
def crcBit (c : W32) : W32 := if c.getLsbD 0 then (c >>> 1) ^^^ 0xEDB88320 else c >>> 1

def crcByte (c : W32) (b : Byte) : W32 :=
  crcBit (crcBit (crcBit (crcBit (crcBit (crcBit (crcBit (crcBit (c ^^^ b.zeroExtend 32))))))))

def crc32 (l : List Byte) : W32 := ~~~(l.foldl crcByte (BitVec.allOnes 32))

/-! ## The flit (R382) -/

def flIdle : Nat := 0
def flData : Nat := 1
def flHeartbeat : Nat := 2
def flNak : Nat := 3
def flBeacon : Nat := 4
def flResume : Nat := 5
def flWake : Nat := 6

def flSeq (f : Flit) : Nat := fld f 11 0
def flKind (f : Flit) : Nat := fld f 14 12
def flAck (f : Flit) : Nat := fld f 27 16
def flVc (f : Flit) : Nat := fld f 34 32
def flUnits (f : Flit) : Nat := fld f 38 35
def flCont (f : Flit) : Bool := f.getLsbD 39
def flCreditVc (f : Flit) : Nat := fld f 42 40
def flCredit (f : Flit) : Nat := fld f 52 43
def flBody (f : Flit) (i n : Nat) : Nat := fld f (8 * (12 + i + n) - 1) (8 * (12 + i))
def flUnit (f : Flit) (i : Nat) : BitVec 128 := BitVec.ofNat 128 (flBody f (16 * i) 16)
def flCrc (f : Flit) : W32 := BitVec.ofNat 32 (fld f 2047 2016)

/-- The CRC of a flit holds. -/
def flGood (f : Flit) : Bool := flCrc f == crc32 (leBytes 252 (f.toNat % 2 ^ 2016))

/-- A flit of its fields, with its CRC. -/
def mkFlit (kind seq ack vc units cv cn body : Nat) : Flit :=
  let n := seq % 4096 + kind % 8 * 2 ^ 12 + ack % 4096 * 2 ^ 16 + vc % 8 * 2 ^ 32 + units % 16 * 2 ^ 35 + cv % 8 * 2 ^ 40 + cn % 1024 * 2 ^ 43 +
    body % 2 ^ 1920 * 2 ^ 96
  BitVec.ofNat 2048 (n + (crc32 (leBytes 252 n)).toNat * 2 ^ 2016)

/-! ## Credits (R390) -/

/-- Shared flits of the far end in use by a VC. -/
def Link.sharedOf (k : Link) (v : Nat) : Nat := k.inUse.getD v 0 - 16
def Link.shared (k : Link) : Nat := ((List.range 8).map k.sharedOf).sum

/-- Free credits of a VC, dedicated and shared together. -/
def Link.credits (k : Link) (v : Nat) : Nat := (16 - k.inUse.getD v 0) + Nat.min (512 - k.sharedOf v) (640 - k.shared)

def replayDepth : Nat := 512

/-- The link takes a new DATA flit of a VC (R384, R388, R390). -/
def Link.takes (k : Link) (v : Nat) : Bool :=
  k.state == .up && !k.recovering && decide (k.replay.length < replayDepth) && decide (0 < k.credits v)

/-! ## Sending -/

/-- Sends a flit with the ACK and the credits that the link owes. -/
def State.sendFlit (s : State) (l kind seq vc units body : Nat) : State :=
  let k := s.link l
  let cv := (lowest (fun v => k.owed.getD v 0 != 0) 8 0).getD 0
  let cn := Nat.min 768 (k.owed.getD cv 0)
  let f := mkFlit kind seq (k.rxSeq + 4095) vc units cv cn body
  let s := s.modLink l fun k => { k with
    sent := k.sent ++ [f], owed := modAt cv (· - cn) k.owed, replay := if kind = flData then k.replay ++ [(seq, f)] else k.replay }
  s.count (kLink l 0) 1

/-- The units of a packet as one number. -/
def pkBits (p : Packet) : Nat := (pkRoute p :: p.body).zipIdx.foldl (fun acc x => acc + x.1.toNat * 2 ^ (128 * x.2)) 0

/-- Sends a packet in a DATA flit of its own. -/
def State.sendData (s : State) (l v : Nat) (p : Packet) : State :=
  let k := s.link l
  (s.sendFlit l flData k.txSeq v (pkUnits p) (pkBits p)).modLink l fun k => { k with
    txSeq := (k.txSeq + 1) % 4096, inUse := modAt v (· + 1) k.inUse }

def State.sendNak (s : State) (l : Nat) : State := s.sendFlit l flNak 0 0 0 0

/-! ## Receiving -/

/-- Entries of a replay buffer after SEQ `a`, half-range modulo 4,096. -/
def replayAfter (a : Nat) (r : List (Nat × Flit)) : List (Nat × Flit) := r.filter fun x => newer 12 x.1 a

/-- What any flit with a correct CRC does: it is liveness, acknowledges flits and returns credits. -/
def State.flitIn (s : State) (l : Nat) (f : Flit) : State :=
  (s.modLink l fun k => { k with
    lastGood := s.timebase, replay := if k.recovering then k.replay else replayAfter (flAck f) k.replay,
    inUse := modAt (flCreditVc f) (· - flCredit f) k.inUse }).count (kLink l 1) 1

/-- A flit whose CRC fails is discarded (R383). -/
def State.flitBad (s : State) (l : Nat) : State := (s.errBump (rErrFabCrc l)).seeClass 0

/-- The packets that lie complete in a run of units, and the units left over. A length of 0 or above 8 is no packet: its unit is
discarded. -/
def unitPackets : Nat → List (BitVec 128) → List Packet × List (BitVec 128)
  | 0, u => ([], u)
  | _, [] => ([], [])
  | fuel + 1, r :: t =>
    let n := uBytes r 10 1
    if n = 0 ∨ 8 < n then unitPackets fuel t
    else if t.length + 1 < n then ([], r :: t)
    else
      let (ps, rest) := unitPackets fuel (t.drop (n - 1))
      (packetOf r (t.take (n - 1)) :: ps, rest)

/-- The packets of a flit that this device sent. -/
def flitPackets (f : Flit) : List Packet := (unitPackets 16 ((List.range (flUnits f)).map (flUnit f))).1

/-- JOIN traffic, which a FOREIGN link carries (R410). -/
def isJoin (p : Packet) : Bool := p.typ == pkMemb && (uBytes (pkUnit p 0) 0 1 == mbJoin || uBytes (pkUnit p 0) 0 1 == mbJoinResp)

/-- A DATA flit in sequence: its packets go to the router, and its buffer is freed. -/
def State.dataIn (s : State) (l : Nat) (f : Flit) : State :=
  let k := s.link l
  let v := flVc f
  let us := (List.range (flUnits f)).map (flUnit f)
  let (ps, rest) := unitPackets 32 ((if flCont f then k.part.getD v [] else []) ++ us)
  let s := s.modLink l fun k => { k with
    rxSeq := (k.rxSeq + 1) % 4096, rxLast := if ps = [] then k.rxLast else some (flSeq f), part := modAt v (fun _ => rest) k.part,
    owed := modAt v (· + 1) k.owed }
  let ps := if k.state = .foreign then ps.filter isJoin else ps
  s.modFab fun x => { x with router := x.router ++ ps }

/-- A link that takes flits. -/
def Link.alive (k : Link) : Bool :=
  match k.state with | .up => true | .foreign => true | .parked => true | .beacon => true | _ => false

/-- The router, the links and the lookout have power and firmware (R459). -/
def State.fabOn (s : State) : Bool := s.power.phase == .running && decide (s.power.rung < 4)

/-- DATA_FLIT (R383, R384). -/
def State.dataFlit (s : State) (l : Nat) (f : Flit) : State :=
  let k := s.link l
  if !s.fabOn ∨ 32 ≤ l ∨ !k.alive ∨ flKind f ≠ flData then s
  else if !flGood f then (s.flitBad l).sendNak l
  else
    let s := s.flitIn l f
    if flSeq f = k.rxSeq then s.dataIn l f else s.sendNak l

/-- IDLE_FLIT. -/
def State.idleFlit (s : State) (l : Nat) (f : Flit) : State :=
  if !s.fabOn ∨ 32 ≤ l ∨ !(s.link l).alive ∨ flKind f ≠ flIdle then s
  else if !flGood f then s.flitBad l
  else s.flitIn l f

end Sys2Proof.Machine
end

