-- ==== Sys2Proof/Machine/Router.lean ====
section
/-! DEFINITION. Machine/Router.lean: the router (R389 to R398, R412): the choice of a path, holding, and what a packet for this device
does. -/

namespace Sys2Proof.Machine

/-! ## Paths (R395, R396) -/

/-- The links of the valid paths of an entry, by path. -/
def routePaths (e : W32) : List Nat :=
  (List.range 4).filterMap fun i => if e.getLsbD (20 + i) then some (fld e (5 * i + 4) (5 * i)) else none

/-- A link carries a packet onward: UP, or FOREIGN for JOIN traffic. -/
def Link.carriesPk (k : Link) (p : Packet) : Bool := k.state == .up || (k.state == .foreign && isJoin p)

/-- The paths of a packet whose link is UP. -/
def State.upPaths (s : State) (p : Packet) : List Nat := (routePaths (s.fab.route p.dst)).filter fun l => (s.link l).carriesPk p

/-- The path with the most free credits, ties to the lowest path (R396). -/
def State.bestPath (s : State) (p : Packet) (v : Nat) : Option Nat :=
  (s.upPaths p).foldl (fun b l => match b with
    | none => some l
    | some m => if (s.link m).credits v < (s.link l).credits v then some l else some m) none

/-- The link to its destination that a packet waits for across a PARKED link (R412). -/
def State.parkedPath (s : State) (p : Packet) : Option Nat :=
  (routePaths (s.fab.route p.dst)).find? fun l => (s.link l).state == .parked && (s.link l).farDev == p.dst

/-- The order in which an output serves the VCs (R389): VC7, 5, 3, 2, then 0, 1, 4 and 6 alike. -/
def vcRank (v : Nat) : Nat := match v with | 7 => 0 | 5 => 1 | 3 => 2 | 2 => 3 | _ => 4

def pkVc (p : Packet) : Nat := (vcOf p.typ).getD 6

/-- A packet of a VC served earlier waits for the same output and can go. -/
def State.outranked (s : State) (p : Packet) (l : Nat) : Bool :=
  s.fab.router.any fun q => q.dst != s.dev && decide (vcRank (pkVc q) < vcRank (pkVc p)) && s.bestPath q (pkVc q) == some l && (s.link l).takes (pkVc q)

/-- JOIN traffic on a FOREIGN link needs a credit as other packets do. -/
def Link.takesPk (k : Link) (p : Packet) : Bool :=
  k.takes (pkVc p) || (k.state == .foreign && isJoin p && !k.recovering && decide (k.replay.length < replayDepth) && decide (0 < k.credits (pkVc p)))

/-! ## Holding (R398, R412) -/

/-- A request: its packets are answered. -/
def isRequest (p : Packet) : Bool := p.typ == pkLoad || p.typ == pkStore || p.typ == pkAdd || p.typ == pkWalk

/-- A packet that cannot reach its destination: a request or a part of a copy is answered HOME_LOST, anything else is discarded. -/
def State.bounce (s : State) (p : Packet) : State :=
  if isRequest p ∨ p.typ = pkMove then s.send (s.packet p.src pkHomeLost p.tag []) else s

/-- Holds a packet. A membership message is never held, and a packet for a LOST device is answered at once. -/
def State.holdPk (s : State) (p : Packet) (parked : Bool) : State :=
  if p.typ = pkMemb then s
  else if s.fab.member p.dst = 2 then s.bounce p
  else s.modFab fun f => { f with held := f.held ++ [{ p := p, since := s.timebase, parked := parked }] }

/-- Held packets that have a path again, or no longer wait for a PARKED link, go back to the router. -/
def State.releaseHeld (s : State) : State :=
  let go (h : HeldPk) : Bool := s.upPaths h.p != []
  s.modFab fun f => { f with router := f.router ++ (f.held.filter go).map (·.p), held := f.held.filter fun h => !go h }

/-! ## Packets for this device (R392) -/

/-- The requests of this device that a TAG names. -/
def State.byTag (s : State) (p : Packet) : Option Req := s.reqs.find? fun r => r.stage == .remote && r.tag == p.tag

/-- An answer whose request has completed (R408). -/
def State.late (s : State) : State := s.count (kFab 2) 1

/-- An answer to one of this device's requests, or to its copy of a plot, or the acknowledgement of a link-down report. -/
def State.answerIn (s : State) (p : Packet) : State :=
  match s.byTag p with
  | some r =>
    let a : Answer :=
      if p.typ = pkData then .data (unitsData p.body) p.poison
      else if p.typ = pkAck then .ack
      else if p.typ = pkRedirect then .redirect (if p.body = [] then none else some (entryOf (pkUnit p 0)))
      else .homeLost
    s.putReq { r with stage := .answered a }
  | none =>
    if s.walks.any (fun w => w.tag == p.tag) ∧ (p.typ = pkWalkResp ∨ p.typ = pkHomeLost) then s.modFab fun f => { f with arrived := f.arrived ++ [p] }
    else if p.typ = pkAck ∧ s.fab.reports.any (fun r => r.tag == p.tag) then
      s.modFab fun f => { f with reports := f.reports.filter fun r => r.tag != p.tag }
    else match s.scaler.moves.find? fun m => m.tag == p.tag && m.unacked != 0 with
      | some m =>
        if p.typ = pkAck then s.modMove m.req.handle m.req.plot fun x => { x with unacked := x.unacked - 1 }
        else if p.typ = pkHomeLost then s.abandonMove m.req
        else s.late
      | none => s.late

/-- A packet has come to its destination. Barrier and management messages have commands of their own. -/
def State.arrivePk (s : State) (p : Packet) : State :=
  match vcOf p.typ with
  | none => s.count (kFab 6) 1
  | some v =>
    if p.typ = pkFenced then s.modFab fun f => { f with arrived := f.arrived ++ [p] }
    else if v = 2 ∨ v = 3 then s.answerIn p
    else if v = 5 ∨ v = 6 then s
    else if p.typ = pkMemb ∧ (uBytes (pkUnit p 0) 0 1 = 0 ∨ 8 < uBytes (pkUnit p 0) 0 1) then s.count (kFab 6) 1
    else s.modFab fun f => { f with arrived := f.arrived ++ [p] }

/-! ## Routing (R397) -/

/-- Transit counts: the hop, or none when the limit is reached. -/
def State.transit (s : State) (p : Packet) : Option Packet × State :=
  if p.src = s.dev ∧ p.hops = 0 then (some p, s)
  else if 15 ≤ p.hops then (none, (s.count (kFab 4) 1).fabEvent (srcLink 0) 7)
  else (some { p with hops := p.hops + 1 }, s.count (kFab 0) 1)

def State.dropRouted (s : State) (p : Packet) : State := s.modFab fun f => { f with router := f.router.erase p }

/-- PACKET_ROUTE: the router deals with a packet that it holds. One for this device wakes it from a rung, and all but membership messages wait for
the exit (R467, R473). -/
def State.packetRoute (s : State) (p : Packet) : State :=
  if !s.fabOn ∨ !s.fab.router.contains p then s
  else if p.dst = s.dev then
    if p.typ = pkMemb then ((s.dropRouted p).arrivePk p).wakeByUse
    else if s.power.rung ≠ 0 ∨ s.power.busy then s.wakeByUse
    else ((s.dropRouted p).arrivePk p).settle
  else match s.bestPath p (pkVc p) with
    | some l =>
      if !(s.link l).takesPk p || s.outranked p l then s
      else
        match (s.dropRouted p).transit p with
        | (some q, s) => s.sendData l (pkVc p) q
        | (none, s) => s
    | none =>
      match (s.dropRouted p).transit p with
      | (some _, _) => (s.dropRouted p).holdPk p (s.parkedPath p).isSome
      | (none, s) => s

/-- A held packet with no path at the end of HOLD_US (R398). -/
def State.norouteExpiry (s : State) (p : Packet) : State :=
  match s.fab.held.find? fun h => h.p == p && !h.parked with
  | none => s
  | some h =>
    if !s.fabOn ∨ s.timebase.toNat < h.since.toNat + 1000 * s.regF rFabDrain 31 16 then s
    else (((s.modFab fun f => { f with held := f.held.erase h }).count (kFab 3) 1).fabEvent (srcLink 0) 6).bounce p

/-- A packet held for a parked device for 1 ms (R412). -/
def State.parkedExpiry (s : State) (p : Packet) : State :=
  match s.fab.held.find? fun h => h.p == p && h.parked with
  | none => s
  | some h =>
    if !s.fabOn ∨ s.timebase.toNat < h.since.toNat + 1000000 then s
    else (((s.modFab fun f => { f with held := f.held.erase h }).count (kFab 1) 1).fabEvent (srcLink 0) 8).bounce p

/-! ## Requests that have arrived (R392, R402, R407) -/

def State.takeArrived (s : State) (p : Packet) : State := s.modFab fun f => { f with arrived := f.arrived.erase p }

/-- A request of another device: FENCED from a device that is not in a space, and for a source that is LOST; else it is taken. -/
def State.requestIn (s : State) (p : Packet) (typ : Nat) (f : State → State) : State :=
  if !s.active ∨ p.typ ≠ typ ∨ !s.fab.arrived.contains p then s
  else
    let s := s.takeArrived p
    let fenced (s : State) : State := s.send (s.packet p.src pkFenced p.tag [])
    if s.fab.member p.src = 2 then (fenced s).count (kFab 5) 1
    else if s.fab.state ≠ .member ∧ s.fab.state ≠ .expelled then fenced s
    else f s

/-- The byte enables of lane enables. -/
def laneBytes (m : Nat) : BitVec 64 := BitVec.ofNat 64 ((List.range 16).foldl (fun acc i => if m.testBit i then acc + 15 * 16 ^ i else acc) 0)

/-- A LOAD, STORE or ADD goes to the landing that its address names. A landing that the device does not have holds no frame. -/
def State.landPacket (s : State) (p : Packet) (op : ReqOp) : State :=
  let a := pkUnit p 0
  let tail := pkUnit p 5
  let lnd := uBytes a 10 1 % 16
  if 12 ≤ lnd then s.send (s.packet p.src pkRedirect p.tag [])
  else
    let (id, s) := s.newId
    let data : BitVec 512 := match op with | .load => 0 | _ => unitsData (p.body.drop 1)
    let en : BitVec 64 := match op with
      | .store => BitVec.ofNat 64 (uBytes tail 0 8)
      | .add => laneBytes (uBytes tail 0 2)
      | _ => 0
    let r : Req := { id := id, who := .dev p.src p.tag, op := op, handle := uBytes a 0 3, plot := uBytes a 3 5, off := uBytes a 13 3 % 2 ^ 21 / 64 * 64,
                     gen := BitVec.ofNat 16 (uBytes a 8 2), dev := s.dev, lnd := lnd, frame := uBytes a 11 2 % 2 ^ 15, data := data, en := en,
                     int := uBytes tail 2 1 == 1, poison := p.poison, cache := false, addr := 0, prog := 0, owner := 0, redirects := 0, keys := [],
                     rem := false, born := s.timebase, tag := p.tag, noFill := 0, slot := false, wb := false,
                     stage := .window }
    s.arriveAt r

/-- WALK: the steward reads its map. It answers HOME_LOST for a plot that it has no entry of. -/
def State.walkIn (s : State) (p : Packet) : State :=
  match s.mapEntry (uBytes (pkUnit p 0) 0 3) (uBytes (pkUnit p 0) 3 5) with
  | some e => s.send (s.packet p.src pkWalkResp p.tag [entryBits e])
  | none => s.send (s.packet p.src pkHomeLost p.tag [])

/-- MOVE: 64 bytes of a plot copy at the frame reserved for it (R84, R93). The target acknowledges each. -/
def State.moveIn (s : State) (p : Packet) : State :=
  let a := pkUnit p 0
  let lnd := uBytes a 10 1 % 16
  let frame := uBytes a 11 2 % 2 ^ 15
  match s.move (uBytes a 0 3) (uBytes a 3 5) with
  | some m =>
    if m.req.dst = (s.dev, lnd, frame) ∧ m.phase ≠ .flipped then
      let s := (s.putGranule (laOf lnd frame (uBytes a 13 3 % 2 ^ 21)) (unitsData (p.body.drop 1)) p.poison).count (kLnd lnd 1) 1
      s.send (s.packet p.src pkAck p.tag [])
    else s
  | none => s

/-! ## The commands -/

def execDataFlit (l : Nat) (f : Flit) (s : State) : Host.Outcome State Fault Refusal := .next (s.dataFlit l f)
def execIdleFlit (l : Nat) (f : Flit) (s : State) : Host.Outcome State Fault Refusal := .next (s.idleFlit l f)
def execPacketRoute (p : Packet) (s : State) : Host.Outcome State Fault Refusal := .next (s.packetRoute p)
def execNorouteHoldExpiry (p : Packet) (s : State) : Host.Outcome State Fault Refusal := .next (s.norouteExpiry p)
def execParkedHoldExpiry (p : Packet) (s : State) : Host.Outcome State Fault Refusal := .next (s.parkedExpiry p)
def execLoad (p : Packet) (s : State) : Host.Outcome State Fault Refusal := .next (s.requestIn p pkLoad fun s => s.landPacket p .load)
def execStore (p : Packet) (s : State) : Host.Outcome State Fault Refusal := .next (s.requestIn p pkStore fun s => s.landPacket p .store)
def execAdd (p : Packet) (s : State) : Host.Outcome State Fault Refusal := .next (s.requestIn p pkAdd fun s => s.landPacket p .add)
def execWalk (p : Packet) (s : State) : Host.Outcome State Fault Refusal := .next (s.requestIn p pkWalk fun s => s.walkIn p)
def execMove (p : Packet) (s : State) : Host.Outcome State Fault Refusal := .next (s.requestIn p pkMove fun s => s.moveIn p)

/-- WALK_COMPLETE, for a cell or, as cell 192, for the lookout. -/
def execWalkComplete (c handle plot : Nat) (s : State) : Host.Outcome State Fault Refusal :=
  .next (if c = 192 then (s.hostWalk handle plot).settle else if c < 192 then s.cellWalk c handle plot else s)

end Sys2Proof.Machine
end

