-- ==== Sys2Proof/Machine/Member.lean ====
section
/-! DEFINITION. Machine/Member.lean: links coming up and going down (R381, R384 to R388), membership (R401 to R415) and what the loss of
a device does (R406). -/

namespace Sys2Proof.Machine

/-! ## Membership messages (R393) -/

def mbCode (p : Packet) : Nat := uBytes (pkUnit p 0) 0 1
/-- `n` bytes of a message from byte `i`. -/
def mbF (p : Packet) (i n : Nat) : Nat := uBytes (pkUnit p 0) i n

/-- A MEMB packet of a code with its fields. -/
def State.memb (s : State) (dst code : Nat) (tag : W32) (l : List (Nat × Nat × Nat)) : Packet :=
  s.packet dst pkMemb tag [unitOf ((0, 1, code) :: l)]

/-- A MEMB packet that has come here, of code `code`. -/
def State.membIn (s : State) (p : Packet) (code : Nat) (f : State → State) : State :=
  if !s.fabOn ∨ p.typ ≠ pkMemb ∨ mbCode p ≠ code ∨ !s.fab.arrived.contains p then s else f (s.takeArrived p)

/-- Sends a membership message out of one link; it is discarded when the link does not take it. -/
def State.sendOver (s : State) (l : Nat) (p : Packet) : State := if (s.link l).takesPk p then s.sendData l 7 p else s

def State.isKeeper (s : State) : Bool := s.fab.state == .member && s.fab.keeper == s.dev

/-! ## Probes (R404) -/

/-- Probes device `x`: PROBE goes over every valid path. -/
def State.startProbe (s : State) (x : Nat) (forJoin : Option Packet) (takeover : Bool) : State :=
  if s.fab.probes.any fun p => p.dev == x then s
  else
    let n := s.fab.probeNum
    let s := s.modFab fun f => { f with
      probeNum := n + 1, probes := f.probes ++ [{ dev := x, num := n, at_ := s.timebase, forJoin := forJoin, takeover := takeover }] }
    let m := s.memb x mbProbe 0 [(1, 2, x), (3, 4, n.toNat)]
    (s.upPaths m).foldl (fun s l => s.sendOver l m) s

/-- The keeper hears that a link to `x` went down. A device that is not the keeper probes the keeper first, and keeps the report. -/
def State.downHeard (s : State) (x : Nat) : State :=
  if s.isKeeper then (if s.fab.member x = 1 ∧ x ≠ s.dev then s.startProbe x none false else s)
  else if s.fab.state = .member then
    (s.modFab fun f => { f with losses := if f.losses.contains x then f.losses else f.losses ++ [x] }).startProbe s.fab.keeper none true
  else s

/-- Reports a link that went down to device `to_`. -/
def State.reportDown (s : State) (x l to_ : Nat) : State :=
  let tag := s.freeTag 0xFF 0
  let s := s.modFab fun f => { f with
    reports := f.reports.filter (fun r => r.dev != x) ++ [{ dev := x, link := l, to_ := to_, tag := tag, at_ := s.timebase }] }
  s.send (s.memb to_ mbLinkDown tag [(1, 2, x), (3, 1, l), (4, 4, s.fab.epoch.toNat)])

/-! ## Links (R381, R385, R386, R388) -/

/-- A link goes DOWN: the event, the retraining, RECOVER for what its replay buffer holds, and the report to the keeper. -/
def State.linkDown (s : State) (l : Nat) : State :=
  let k := s.link l
  let s := s.modLink l fun k => { k with
    state := .down, rxOld := k.rxLast, answered := false, part := List.replicate 8 [], naks := 0, nakSeq := none,
    recovering := k.recovering || k.replay != [], lowPower := false, resumeSent := false, resumeGot := false }
  let s := (s.errBump (rErrFabRetrain l)).seeClass 0
  let s := s.fabEvent (srcLink l) 0
  let s := match k.replay.head? with
    | some x => if k.farValid then s.send (s.memb k.farDev mbRecover 0 [(1, 2, k.farDev), (3, 1, k.farLink), (4, 2, x.1)]) else s
    | none => s
  if k.farValid ∧ s.fab.state = .member ∧ s.fab.member k.farDev = 1 then
    if s.isKeeper then s.downHeard k.farDev else s.reportDown k.farDev l s.fab.keeper
  else s

/-- The width that trained lanes make, a bit for each lane: 0 for ×4, 1 for ×2, which takes lanes 0–1 or lanes 2–3, and 2 for ×1 (R381). -/
def laneWidth (lanes : Nat) : Nat := if lanes = 15 then 0 else if lanes % 4 = 3 ∨ lanes / 4 = 3 then 1 else 2

/-- LINK_TRAINED: the link is UP at the width that trained, with sequence numbers and credits as at the start (R381, R388). -/
def State.linkTrained (s : State) (l lanes : Nat) : State :=
  let k := s.link l
  if !s.fabOn ∨ 32 ≤ l ∨ lanes = 0 ∨ 16 ≤ lanes ∨ !(s.reg rFabLinkEn).getLsbD l ∨ (k.state ≠ .training ∧ k.state ≠ .down) then s
  else
    let w := laneWidth lanes
    let s := s.modLink l fun k => { k with
      state := .up, width := w, txSeq := 0, rxSeq := 0, rxLast := none, inUse := List.replicate 8 0, owed := List.replicate 8 0,
      part := List.replicate 8 [], naks := 0, nakSeq := none, lastGood := s.timebase }
    let s := if k.width < w then s.fabEvent (srcLink l) 1 else s
    s.releaseHeld

/-- LINK_LIVENESS_TIMEOUT (R386). -/
def State.livenessTimeout (s : State) (l : Nat) : State :=
  let k := s.link l
  if s.fabOn ∧ l < 32 ∧ k.alive ∧ k.lastGood.toNat + 3000 ≤ s.timebase.toNat then s.linkDown l else s

/-- NAK (R384, R385). -/
def State.nakIn (s : State) (l : Nat) (f : Flit) : State :=
  if !s.fabOn ∨ 32 ≤ l ∨ !(s.link l).alive ∨ flKind f ≠ flNak then s
  else if !flGood f then s.flitBad l
  else
    let s := s.flitIn l f
    let k := s.link l
    let n := if k.nakSeq = some (flAck f) then k.naks + 1 else 1
    let s := s.modLink l fun k => { k with naks := n, nakSeq := some (flAck f) }
    if 16 ≤ n then s.linkDown l
    else
      let s := s.modLink l fun k => { k with sent := k.sent ++ k.replay.map (·.2) }
      (s.count (kLink l 2) k.replay.length).count (kLink l 0) k.replay.length

/-- HEARTBEAT (R386, R410): a far device of another space, or one that is LOST here, makes the link FOREIGN. -/
def State.heartbeat (s : State) (l : Nat) (f : Flit) : State :=
  if !s.fabOn ∨ 32 ≤ l ∨ !(s.link l).alive ∨ flKind f ≠ flHeartbeat then s
  else if !flGood f then s.flitBad l
  else
    let s := s.flitIn l f
    let far := flBody f 0 2
    let foreign := flBody f 2 4 != (s.reg rFabSpace).toNat || s.fab.member far == 2
    let was := (s.link l).state
    let st : LinkState := if was = .up ∨ was = .foreign then (if foreign then .foreign else .up) else was
    let s := s.modLink l fun k => { k with
      farDev := far, farLink := flBody f 12 1 % 32, farValid := true, farKeeper := flBody f 10 2, state := st }
    if foreign && was == .up then s.fabEvent (srcLink l) 5 else s

/-- The body of BEACON, WAKE and RESUME (R387). -/
def State.shortBody (s : State) (l : Nat) : Nat := s.dev + l * 2 ^ 16

/-- HEARTBEAT_SEND: a heartbeat; a beacon on a link in beacon mode; WAKE across a PARKED link for which a packet is held (R386, R387, R411, R412). -/
def State.heartbeatSend (s : State) (l : Nat) : State :=
  let k := s.link l
  if !s.fabOn ∨ 32 ≤ l ∨ !k.alive then s
  else
    let s := match k.state with
      | .beacon => s.sendFlit l flBeacon 0 0 0 (s.shortBody l)
      | .parked =>
        if s.fab.held.any fun h => h.parked && h.p.dst == k.farDev then s.sendFlit l flWake 0 0 0 (s.shortBody l)
        else s.sendFlit l flHeartbeat 0 0 0 (s.dev + (s.reg rFabSpace).toNat * 2 ^ 16 + s.fab.epoch.toNat * 2 ^ 48 + s.fab.keeper * 2 ^ 80 + l * 2 ^ 96)
      | _ => s.sendFlit l flHeartbeat 0 0 0 (s.dev + (s.reg rFabSpace).toNat * 2 ^ 16 + s.fab.epoch.toNat * 2 ^ 48 + s.fab.keeper * 2 ^ 80 + l * 2 ^ 96)
    s.modLink l fun k => { k with lastBeat := s.timebase }

/-- A flit without a packet of a kind. -/
def State.plainFlit (s : State) (l kind : Nat) (f : Flit) (g : State → State) : State :=
  if !s.fabOn ∨ 32 ≤ l ∨ !(s.link l).alive ∨ flKind f ≠ kind then s
  else if !flGood f then s.flitBad l
  else g (s.flitIn l f)

/-- BEACON: the link is PARKED. -/
def State.beaconIn (s : State) (l : Nat) (f : Flit) : State :=
  s.plainFlit l flBeacon f fun s => s.modLink l fun k => { k with
    farDev := flBody f 0 2, farLink := flBody f 2 1 % 32, farValid := true, resumeSent := false, resumeGot := false,
    state := if k.state = .up then .parked else k.state }

/-- WAKE: the device leaves DORMANT (R387, R467). -/
def State.wakeIn (s : State) (l : Nat) (f : Flit) : State :=
  s.plainFlit l flWake f fun s => if (s.link l).state = .beacon then s.wakeByUse else s

/-- Both ends have sent RESUME: the link is UP again. -/
def State.resumeDone (s : State) (l : Nat) : State :=
  let k := s.link l
  if k.resumeSent ∧ k.resumeGot ∧ (k.state = .beacon ∨ k.state = .parked) then
    (s.modLink l fun k => { k with state := .up, resumeSent := false, resumeGot := false }).releaseHeld
  else s

def State.sendResume (s : State) (l : Nat) : State :=
  ((s.sendFlit l flResume 0 0 0 (s.shortBody l)).modLink l fun k => { k with resumeSent := true }).resumeDone l

/-- RESUME. -/
def State.resumeIn (s : State) (l : Nat) (f : Flit) : State :=
  s.plainFlit l flResume f fun s =>
    let k := s.link l
    if k.state = .beacon ∨ k.state = .parked then
      let s := s.modLink l fun k => { k with resumeGot := true }
      if k.state = .parked ∧ !k.resumeSent then s.sendResume l else s.resumeDone l
    else s

/-- RECOVER: the far device answers for the link and discards what is incomplete on it (R388). -/
def State.recoverIn (s : State) (p : Packet) : State :=
  s.membIn p mbRecover fun s =>
    let l := mbF p 3 1 % 32
    let k := s.link l
    let last := if k.answered && k.alive then k.rxLast else k.rxOld
    let s := s.modLink l fun k => { k with answered := true, part := List.replicate 8 [] }
    s.send (s.memb p.src mbRecoverResp 0 [(3, 1, l), (4, 2, last.getD 0), (6, 1, if last.isNone then 1 else 0)])

/-- RECOVER_RESP: packets whose flits follow the SEQ that it names are routed again, and the buffer is released. -/
def State.recoverResp (s : State) (p : Packet) : State :=
  s.membIn p mbRecoverResp fun s =>
    match lowest (fun l => (s.link l).recovering && (s.link l).farDev == p.src && (s.link l).farLink == mbF p 3 1) 32 0 with
    | none => s
    | some l =>
      let k := s.link l
      let left := if mbF p 6 1 = 1 then k.replay else replayAfter (mbF p 4 2 % 4096) k.replay
      let back (q : Packet) : Packet := if q.src = s.dev then q else { q with hops := q.hops - 1 }
      let s := s.modLink l fun k => { k with replay := [], recovering := false }
      (s.modFab fun f => { f with router := f.router ++ (left.flatMap fun x => flitPackets x.2).map back }).releaseHeld

/-! ## The loss of a device (R406) -/

/-- Host commands that waited for a steward that is lost: a free is carried out here, anything else ends HOME_LOST. -/
def State.lossJobs (s : State) (x : Nat) : State :=
  s.eth.jobs.foldl (fun s w =>
    match w.what with
    | .qct _ _ c =>
      let steward := if c.opc = 0x10 then (createDesc c.payload s.dev).steward
        else match s.desc w.handle with | some d => d.steward | none => s.dev
      if w.stage ≠ 0 ∨ steward ≠ x ∨ steward = s.dev then s
      else if c.opc = 0x11 then s.askFree w.handle none
      else if c.opc = 0x10 ∨ c.opc = 0x12 ∨ c.opc = 0x14 ∨ c.opc = 0x18 then s.completeJob w stHomeLost []
      else s
    | _ => s) s

/-- Packets for a lost device: requests are answered, others discarded as path loss. -/
def State.lossPackets (s : State) (x : Nat) : State :=
  let gone := s.fab.router.filter (fun p => p.dst == x) ++ (s.fab.held.filter fun h => h.p.dst == x).map (·.p)
  let s := s.modFab fun f => { f with router := f.router.filter (fun p => p.dst != x), held := f.held.filter fun h => h.p.dst != x }
  gone.foldl (fun s p => if isRequest p ∨ p.typ = pkMove then s.bounce p else if p.typ = pkMemb then s else s.count (kFab 1) 1) s

/-- Links to a lost device: a recovery ends with its packets lost. -/
def State.lossLinks (s : State) (x : Nat) : State :=
  (List.range 32).foldl (fun s l =>
    let k := s.link l
    if !k.farValid ∨ k.farDev ≠ x then s
    else
      let n := (k.replay.flatMap fun y => flitPackets y.2).length
      let down (k : Link) : Link := { k with
        state := if k.state = .up ∨ k.state = .parked ∨ k.state = .beacon then .down else k.state, replay := [], recovering := false }
      let s := s.modLink l down
      if n = 0 then s else s.count (kFab 1) n) s

/-- Space channels whose tree holds the device break. -/
def State.lossBars (s : State) (x : Nat) : State :=
  ((List.range 16).map (64 + ·)).foldl (fun s n =>
    let ls := (if s.barRoot n then [] else [s.barParent n]) ++ s.barChildren n
    if ls.any fun l => (s.link l).farValid && (s.link l).farDev == x then s.barBreak n 1 else s) s

/-- A load of a SEALED plot that may have a replica: its map is walked again (R74). -/
def State.looksAgain (s : State) (r : Req) : Bool :=
  !r.isWrite && r.op != .pref &&
  (match s.desc r.handle with
   | some d => d.state == .sealed && replMode d != 0 && (d.steward == s.dev || s.reachable d.steward)
   | none => false)

/-- The requests outstanding to a lost device complete HOME-LOST, but for those that a replica may serve (R74, R406). -/
def State.lossRequests (s : State) (x : Nat) : State :=
  (s.reqs.filter fun r => r.stage == .remote && r.dev == x).foldl (fun s r =>
    if s.looksAgain r then
      match r.who with
      | .cell c => s.rewalk c r
      | .host _ => s.hostTranslate r
      | _ => s.putReq { r with stage := .answered .homeLost }
    else s.putReq { r with stage := .answered .homeLost }) s

/-- A device is marked LOST here, with the outcomes of R406. -/
def State.lossOf (s : State) (x : Nat) : State :=
  let s := s.modFab fun f => { f with
    members := tblSet f.absent x 2 f.members, lossTimes := f.lossTimes ++ [s.timebase], probes := f.probes.filter fun p => p.dev != x,
    losses := f.losses.filter (· != x), reports := f.reports.filter fun r => r.dev != x }
  let waited := s.scaler.due.contains x
  let s := ((s.lossMoves x).lossMaps x).lossObjects x
  let s := ((s.lossRequests x).lossPackets x).lossLinks x
  let s := (s.lossWork x).lossBars x
  (((s.lossJobs x).reviewWhenDue waited).fabEvent (srcLink 0) 2).settle

/-! ## Epochs (R403) -/

/-- Installs an epoch: 1 a device becomes MEMBER, 2 it is LOST. -/
def State.installEpoch (s : State) (e : W32) (change x keeper : Nat) : State :=
  let s := if s.fab.keeper ≠ keeper then s.fabEvent (srcLink 0) 9 else s
  let s := (s.modFab fun f => { f with epoch := e, keeper := keeper }).count (kFab 7) 1
  if change = 1 then ((s.modFab fun f => { f with members := tblSet f.absent x 1 f.members }).fabEvent (srcLink 0) 3).joinCreates x
  else if change = 2 then (if x = s.dev then s.modFab fun f => { f with members := tblSet f.absent x 2 f.members } else s.lossOf x)
  else s

/-- Floods an epoch over every link that carries packets. -/
def State.flood (s : State) (e : W32) (change x keeper : Nat) : State :=
  let s := s.modFab fun f => { f with seenEpochs := e :: f.seenEpochs.filter (· != e) }
  (List.range 32).foldl (fun s l =>
    if (s.link l).state = .up ∧ (s.link l).farValid then
      s.sendOver l (s.memb (s.link l).farDev mbEpoch 0 [(1, 4, e.toNat), (5, 1, change), (6, 2, x), (8, 2, keeper)])
    else s) s

/-- The keeper makes one change in a new epoch. -/
def State.change (s : State) (change x : Nat) : State :=
  let e := s.fab.epoch + 1
  (s.flood e change x s.dev).installEpoch e change x s.dev

/-- EPOCH. -/
def State.epochIn (s : State) (p : Packet) : State :=
  s.membIn p mbEpoch fun s =>
    let e : W32 := BitVec.ofNat 32 (mbF p 1 4)
    if s.fab.seenEpochs.contains e then s
    else
      let s := s.flood e (mbF p 5 1) (mbF p 6 2) (mbF p 8 2)
      if (s.fab.state = .member ∨ s.fab.state = .joining) ∧ newer 32 e.toNat s.fab.epoch.toNat then
        s.installEpoch e (mbF p 5 1) (mbF p 6 2) (mbF p 8 2)
      else s

/-! ## EXPELLED (R409) -/

/-- The device is expelled: every other device is LOST to it. -/
def State.expel (s : State) : State :=
  if s.fab.state ≠ .member then s
  else
    let s := (s.modFab fun f => { f with state := .expelled, probes := [], reports := [], losses := [] }).fabEvent (srcLink 0) 4
    let s := s.others.foldl (fun s x => s.lossOf x) s
    s.modFab fun f => { f with absent := 2, members := tblSet 2 s.dev 1 [] }

/-- FENCED for a request of this device. -/
def State.fencedIn (s : State) (p : Packet) : State :=
  if !s.fabOn ∨ p.typ ≠ pkFenced ∨ !s.fab.arrived.contains p then s
  else
    let own := (s.byTag p).isSome || s.walks.any (fun w => w.tag == p.tag) || s.scaler.moves.any fun m => m.tag == p.tag && m.unacked != 0
    if own then (s.takeArrived p).expel else (s.takeArrived p).late

/-! ## Joining (R402, R413, R414) -/

/-- The keeper's lookout installs every live object on a device that joins, and tells it the membership (log entry 36, DESIGN CHOICE). -/
def State.welcome (s : State) (x : Nat) : State :=
  let s := s.tell x (.members (s.fab.members.map fun m => (m.1, m.2.toNat)) s.scaler.groups)
  s.scaler.objs.foldl (fun s o => match o.2 with
    | some d => if d.state = .creating ∨ d.state = .freeing then s else s.tell x (.descInstall d)
    | none => s) s

def State.joinResp (s : State) (x result : Nat) (e : W32) : State :=
  s.send (s.memb x mbJoinResp 0 [(1, 1, result), (2, 4, if result = 1 then e.toNat else 0)])

/-- The keeper decides a JOIN whose number is not MEMBER. -/
def State.decideJoin (s : State) (p : Packet) : State :=
  let x := mbF p 1 2
  let last := mbF p 8 4
  if mbF p 3 4 ≠ (s.reg rFabSpace).toNat then s.joinResp x 4 0
  else if mbF p 7 1 = 0 ∧ !newer 32 s.fab.epoch.toNat last then s.joinResp x 3 0
  else
    let s := s.change 1 x
    (s.welcome x).joinResp x 1 s.fab.epoch

/-- MEMB_JOIN: while a loss is being probed the JOIN waits (R415). -/
def State.joinIn (s : State) (p : Packet) : State :=
  if s.isKeeper ∧ s.fab.probes ≠ [] then s
  else s.membIn p mbJoin fun s =>
    if !s.isKeeper then s
    else if s.fab.member (mbF p 1 2) = 1 then s.startProbe (mbF p 1 2) (some p) false
    else s.decideJoin p

/-- PROBE: a member answers with its epoch. -/
def State.probeIn (s : State) (p : Packet) : State :=
  s.membIn p mbProbe fun s =>
    if s.fab.state = .member ∧ mbF p 1 2 = s.dev then
      s.send (s.memb p.src mbProbeResp 0 [(1, 2, s.dev), (3, 4, mbF p 3 4), (7, 4, s.fab.epoch.toNat)])
    else s

/-- PROBE_RESP: the device stays MEMBER, and a JOIN under its number is refused. -/
def State.probeRespIn (s : State) (p : Packet) : State :=
  s.membIn p mbProbeResp fun s =>
    match s.fab.probes.find? fun y => y.dev == mbF p 1 2 && y.num.toNat == mbF p 3 4 with
    | none => s
    | some y =>
      let s := s.modFab fun f => { f with probes := f.probes.filter fun z => z.dev != y.dev }
      match y.forJoin with
      | some j => s.joinResp (mbF j 1 2) 2 0
      | none => s

/-- Probes that have had no answer for PROBE_US. -/
def State.expired (s : State) : List ProbeSt :=
  s.fab.probes.filter fun y => decide (y.at_.toNat + 1000 * s.regF rFabProbe 7 0 ≤ s.timebase.toNat)

/-- PROBE_TIMEOUT: of several, the lowest device first (R415). A device that probed the keeper becomes keeper and handles the reports that wait
for it (R405). -/
def State.probeTimeout (s : State) (x : Nat) : State :=
  match s.expired.find? fun y => y.dev == x with
  | none => s
  | some y =>
    if !s.fabOn ∨ s.fab.state ≠ .member ∨ s.expired.any (fun z => decide (z.dev < x)) then s
    else
      let more := s.fab.losses
      let s := (s.modFab fun f => { f with probes := f.probes.filter fun z => z.dev != x, losses := [] }).change 2 x
      let s := if y.takeover then
          (more.filter fun z => z != x && s.fab.member z == 1 && z != s.dev).foldl (fun s z => s.startProbe z none false) s
        else s
      match y.forJoin with
      | some j => s.decideJoin j
      | none => s

/-- A path whose link is UP leads to a device. -/
def State.hasPath (s : State) (d : Nat) : Bool := (routePaths (s.fab.route d)).any fun l => (s.link l).state == .up

/-- LINK_DOWN_REPORT_TIMEOUT (R405): the report goes to the lowest-numbered member other than the keeper, which may be this device. -/
def State.reportTimeout (s : State) (x : Nat) : State :=
  match s.fab.reports.find? fun r => r.dev == x with
  | none => s
  | some r =>
    if !s.fabOn ∨ s.timebase.toNat < r.at_.toNat + 1000 * s.regF rFabProbe 7 0 then s
    else
      let s := s.modFab fun f => { f with reports := f.reports.filter fun y => y.dev != x }
      let near := s.others.filter s.hasPath
      if near = [] then s.expel
      else
        let first := (near.filter (· != s.fab.keeper)).foldl Nat.min s.dev
        if first = s.dev then s.downHeard x else s.reportDown x r.link first

/-- MEMB_LINK_DOWN: it is acknowledged, and the device is probed. -/
def State.downIn (s : State) (p : Packet) : State :=
  s.membIn p mbLinkDown fun s => (s.send (s.packet p.src pkAck p.tag [])).downHeard (mbF p 1 2)

/-- DRAIN_TIMEOUT (R408): remote requests from before a loss whose drain has passed. -/
def State.drainTimeout (s : State) : State :=
  match s.fab.lossTimes with
  | [] => s
  | t :: rest =>
    if s.timebase.toNat < t.toNat + 1000 * s.regF rFabDrain 15 0 then s
    else
      let old (r : Req) : Bool := r.stage == .remote && decide (r.born.toNat ≤ t.toNat)
      let n := (s.reqs.filter old).length
      let s : State := { s with reqs := s.reqs.map fun r => if old r then { r with stage := .answered .homeLost } else r }
      let s := s.modFab fun f => { f with lossTimes := rest }
      (if n = 0 then s else (s.count (kFab 1) n).fabEvent (srcLink 0) 8).settle

/-- FAB_FOUND (R402). -/
def State.found (s : State) : State :=
  if s.fab.state = .detached ∧ s.fab.idSet ∧ s.fabOn then
    s.modFab fun f => { f with
      state := .member, everMember := true, epoch := 1, keeper := s.dev, members := tblSet 0 s.dev 1 [], absent := 0, seenEpochs := [1] }
  else s

/-- What a device that was a member before gives up as it joins (R414). -/
def State.rejoinClean (s : State) : State :=
  let used := s.landings.zipIdx.flatMap fun x => (x.1.frames.map fun f => (x.2, f.1)) ++ x.1.zero.map fun f => (x.2, f)
  let s := used.foldl (fun s x => (s.releaseFrame x.1 x.2).zeroFrame x.1 x.2) s
  let s := (List.range 80).foldl (fun s n => s.barDisable n) s
  let s : State := { s with
    landings := s.landings.map fun x => { x with fwd := [], zero := [], inval := [], reserved := [] },
    cells := s.cells.map fun x => { x with ptc := [], scInv := [] } }
  let s := (List.range 192).foldl (fun s c => s.dropLines c fun _ => true) s
  s.modScaler fun z => { ScalerSt.reset with setSeq := z.setSeq, interval := z.interval }

/-- FAB_JOIN (R413): JOIN goes to the keeper that a heartbeat names. -/
def State.join (s : State) : State :=
  let near := lowest (fun l => ((s.link l).state == .up || (s.link l).state == .foreign) && (s.link l).farValid) 32 0
  match near with
  | none => s
  | some l =>
    if !s.fabOn ∨ !s.fab.idSet ∨ (s.fab.state ≠ .detached ∧ s.fab.state ≠ .expelled) then s
    else
      let again := s.fab.everMember
      let s := if again then s.rejoinClean else s
      let s := s.modFab fun f => { f with state := .joining, joinAt := some s.timebase, joinResult := 0 }
      s.send (s.memb (s.link l).farKeeper mbJoin 0
        [(1, 2, s.dev), (3, 4, (s.reg rFabSpace).toNat), (7, 1, if again then 0 else 1), (8, 4, s.fab.epoch.toNat)])

/-- The state that a device whose JOIN failed goes back to. -/
def State.joinFailed (s : State) (result : Nat) : State :=
  s.modFab fun f => { f with state := if f.everMember then .expelled else .detached, joinAt := none, joinResult := result }

/-- JOIN_RESP. -/
def State.joinRespIn (s : State) (p : Packet) : State :=
  s.membIn p mbJoinResp fun s =>
    if s.fab.state ≠ .joining then s
    else if mbF p 1 1 = 1 then
      let e : W32 := BitVec.ofNat 32 (mbF p 2 4)
      let s := s.modFab fun f => { f with
        state := .member, everMember := true, joinResult := 1, joinAt := none, absent := 0, keeper := p.src,
        members := tblSet 0 s.dev 1 (tblSet 0 p.src 1 (f.members.filter fun m => m.2 != 0)),
        epoch := if newer 32 e.toNat f.epoch.toNat ∨ !f.everMember then e else f.epoch }
      s.fabEvent (srcLink 0) 3
    else s.joinFailed (mbF p 1 1 % 8)

/-- JOIN_TIMEOUT: no answer within 1 ms. -/
def State.joinTimeout (s : State) : State :=
  match s.fab.joinAt with
  | none => s
  | some t => if s.fabOn ∧ s.fab.state = .joining ∧ t.toNat + 1000000 ≤ s.timebase.toNat then s.joinFailed 5 else s

/-! ## The commands -/

def execLinkTrained (l lanes : Nat) (s : State) : Host.Outcome State Fault Refusal := .next (s.linkTrained l lanes)
def execNak (l : Nat) (f : Flit) (s : State) : Host.Outcome State Fault Refusal := .next (s.nakIn l f)
def execHeartbeat (l : Nat) (f : Flit) (s : State) : Host.Outcome State Fault Refusal := .next (s.heartbeat l f)
def execHeartbeatSend (l : Nat) (s : State) : Host.Outcome State Fault Refusal := .next (s.heartbeatSend l)
def execBeacon (l : Nat) (f : Flit) (s : State) : Host.Outcome State Fault Refusal := .next (s.beaconIn l f)
def execWake (l : Nat) (f : Flit) (s : State) : Host.Outcome State Fault Refusal := .next (s.wakeIn l f)
def execResume (l : Nat) (f : Flit) (s : State) : Host.Outcome State Fault Refusal := .next (s.resumeIn l f)
def execLinkLivenessTimeout (l : Nat) (s : State) : Host.Outcome State Fault Refusal := .next (s.livenessTimeout l)
def execFenced (p : Packet) (s : State) : Host.Outcome State Fault Refusal := .next (s.fencedIn p)
def execMembLinkDown (p : Packet) (s : State) : Host.Outcome State Fault Refusal := .next (s.downIn p)
def execProbe (p : Packet) (s : State) : Host.Outcome State Fault Refusal := .next (s.probeIn p)
def execProbeResp (p : Packet) (s : State) : Host.Outcome State Fault Refusal := .next (s.probeRespIn p)
def execProbeTimeout (x : Nat) (s : State) : Host.Outcome State Fault Refusal := .next (s.probeTimeout x)
def execLinkDownReportTimeout (x : Nat) (s : State) : Host.Outcome State Fault Refusal := .next (s.reportTimeout x)
def execEpoch (p : Packet) (s : State) : Host.Outcome State Fault Refusal := .next (s.epochIn p)
def execDrainTimeout (s : State) : Host.Outcome State Fault Refusal := .next s.drainTimeout
def execMembJoin (p : Packet) (s : State) : Host.Outcome State Fault Refusal := .next (s.joinIn p)
def execJoinResp (p : Packet) (s : State) : Host.Outcome State Fault Refusal := .next (s.joinRespIn p)
def execJoinTimeout (s : State) : Host.Outcome State Fault Refusal := .next s.joinTimeout
def execRecover (p : Packet) (s : State) : Host.Outcome State Fault Refusal := .next (s.recoverIn p)
def execRecoverResp (p : Packet) (s : State) : Host.Outcome State Fault Refusal := .next (s.recoverResp p)
def execFabFound (s : State) : Host.Outcome State Fault Refusal := .next s.found
def execFabJoin (s : State) : Host.Outcome State Fault Refusal := .next s.join

end Sys2Proof.Machine
end

