-- ==== Sys2Proof/Machine/Mgmt.lean ====
section
/-! DEFINITION. Machine/Mgmt.lean: management messages between lookouts and Scalers (R392). -/

namespace Sys2Proof.Machine

/-- A host command that another device passes on for an object of this steward. -/
def State.onAsk (s : State) (src : Nat) (m : MgmtMsg) : State :=
  match m with
  | .createAsk d => if (s.desc d.handle).isSome then s.tell src (.askDone 0x10 d.handle stHandleBusy) else s.startCreate d (some src) none []
  | .freeAsk h => s.askFree h (some src)
  | .sealAsk h => s.askSeal h (some src)
  | .hintAsk h hint => s.askHint h hint (some src)
  | _ => s

/-- The membership and the groups that the keeper tells a device that joins. -/
def State.onMembers (s : State) (table : List (Nat × Nat)) (groups : List (Nat × List (Nat × Nat))) : State :=
  let s := s.modFab fun f => { f with members := table.foldl (fun t m => tblSet f.absent m.1 (BitVec.ofNat 2 m.2) t) f.members }
  s.modScaler fun z => { z with groups := groups }

/-- What a management message does. -/
def State.mgmtIn (s : State) (src : Nat) (m : MgmtMsg) : State :=
  match m with
  | .askFree h => s.tell src (.freeFrames h s.freeList)
  | .freeFrames h free => s.onFreeFrames src h free
  | .allocRun h first n lnd => s.onAllocRun src h first n lnd
  | .allocDone h first fs => s.onAllocDone src h first fs
  | .descInstall d => s.onDescInstall src d
  | .descAck h => s.onDescAck src h
  | .descNack h => s.onDescNack h
  | .descState h st => s.setObjState h st
  | .descDrop h steward => s.onDescDrop h steward
  | .members t g => s.onMembers t g
  | .groupFix g div => s.onGroupFix src g div
  | .objFree h => s.onObjFree src h
  | .freeAck h => s.onFreeAck src h
  | .sweep h => s.onSweep src h
  | .sweepAck h => s.onSweepAck src h
  | .createAsk d => s.onAsk src (.createAsk d)
  | .freeAsk h => s.onAsk src (.freeAsk h)
  | .sealAsk h => s.onAsk src (.sealAsk h)
  | .hintAsk h hint => s.onAsk src (.hintAsk h hint)
  | .askDone opc h status => s.completeOn opc h status
  | .queryAsk h p => s.onQueryAsk src h p
  | .queryDone h _ e ld st ad rs => s.onQueryDone h e ld st ad rs
  | .workSetNew n feature rows => s.onWorkSetNew n feature rows
  | .workSetDone n => s.setComplete n
  | .itemsAssign n items => s.onItemsAssign n items
  | .itemDone it => s.onItemDone it
  | .frameInstall l f h p g => s.modLanding l fun x => x.setRec f (some { handle := h, plot := p, gen := g })
  | .frameRelease l f h p e => s.onFrameRelease l f h p e
  | .retired h p l f => s.onRetired src h p l f
  | .report free served failed ts => s.onReport src free served failed ts
  | .reportAsk => s.onReportAsk src
  | .moveAsk m => s.onMoveAsk src m
  | .moveGo m => s.onMoveGo m
  | .moveFlip m => s.onMoveFlip m
  | .moveInv h p => s.onMoveInv h p
  | .moveEnd m spent => s.onMoveEnd m spent
  | .moveAgain m => s.onMoveAgain m

/-- MGMT: a message from a device that is not LOST reaches an active device; below ACTIVE it wakes it first (R407, R467). -/
def State.mgmt (s : State) (src : Nat) (m : MgmtMsg) : State :=
  if !s.fabOn ∨ s.fab.member src = 2 ∨ (s.fab.state ≠ .member ∧ s.fab.state ≠ .joining) then s
  else if s.power.rung ≠ 0 ∨ s.power.busy then s.wakeByUse
  else (s.mgmtIn src m).settle

def execMgmt (src : Nat) (m : MgmtMsg) (s : State) : Host.Outcome State Fault Refusal := .next (s.mgmt src m)

end Sys2Proof.Machine
end

