-- ==== Sys2Proof/Machine/HostObj.lean ====
section
/-! DEFINITION. Machine/HostObj.lean: the host commands on objects and work (R48 to R56, R114, R430, R431). -/

namespace Sys2Proof.Machine

/-- A job of a command that waits for a handle's event. -/
def State.waitOn (s : State) (q : Nat) (sess : W32) (c : QCmd) (h : Nat) : State := (s.newJob (.qct q sess c) h 0).2

/-- OBJ_CREATE (R52). -/
def State.objCreate (s : State) (q : Nat) (sess : W32) (c : QCmd) : State :=
  let d := createDesc c.payload s.dev
  if !s.createOk c.payload d then s.complete q sess c stBadParam []
  else if (s.desc d.handle).isSome then s.complete q sess c stHandleBusy []
  else
    let s := s.waitOn q sess c d.handle
    if d.steward = s.dev then s.startCreate d none none [] else s.tell d.steward (.createAsk d)

/-- A command whose payload is a handle and `n` bytes more. -/
def State.handleCmd (s : State) (q : Nat) (sess : W32) (c : QCmd) (n : Nat) (f : State → Nat → State) : State :=
  if c.payload.length ≠ 3 + n then s.complete q sess c stBadParam []
  else let h := leAt c.payload 0 3; f (s.waitOn q sess c h) h

/-- OBJ_QUERY (R56). -/
def State.objQuery (s : State) (q : Nat) (sess : W32) (c : QCmd) : State :=
  if c.payload.length ≠ 3 then s.complete q sess c stBadParam []
  else match s.desc (leAt c.payload 0 3) with
    | some d => s.complete q sess c stOk (descBytes d)
    | none => s.complete q sess c stBadParam []

/-- OBJ_READ and OBJ_WRITE (R54, R332, R431): the object and range that they name are checked, then the requests are made. -/
def State.objAccess (s : State) (q : Nat) (sess : W32) (c : QCmd) (write : Bool) : State :=
  let p := c.payload
  let len := accessLen p
  let shape := if write then p.length == 16 + len && zeroAt p 14 2 && decide (len ≤ 8176) else p.length == 14 && decide (len ≤ 8192)
  let h := addrHandle (BitVec.ofNat 64 (leAt p 0 8))
  match s.liveDesc h with
  | none => s.complete q sess c stBadParam []
  | some d =>
    let b := accessStart d p
    if !shape ∨ len = 0 ∨ d.count * d.esize < b + len then s.complete q sess c stBadParam []
    else if write ∧ (d.state = .sealed ∨ d.typ = 9) then s.complete q sess c stDenied []
    else
      let (j, s) := s.newJob (.qct q sess c) h 1
      s.hostAccess j (if write then .store else .load) d b len (p.drop 16)

/-- PLC_QUERY of a plot (R114). An object, a plot or a work set that is absent completes BAD_PARAM, an object that is ORPHANED or whose steward
cannot be reached HOME_LOST, for which the spec names no status (log entry 81, DESIGN CHOICE). -/
def State.queryPlot (s : State) (q : Nat) (sess : W32) (c : QCmd) : State :=
  let p := c.payload
  if p.length ≠ 9 ∨ leAt p 0 1 ≠ 0 then s.complete q sess c stBadParam []
  else
    let h := leAt p 1 3
    let plot := leAt p 4 5
    match s.liveDesc h with
    | none => s.complete q sess c stBadParam []
    | some d =>
      if plotsOf d ≤ plot then s.complete q sess c stBadParam []
      else if d.steward = s.dev then
        match s.mapEntry h plot with
        | some e => let (ld, st, ad, rs) := s.plotFigures h plot; s.complete q sess c stOk (plotReply e ld st ad rs)
        | none => s.complete q sess c stBadParam []
      else if d.state = .orphaned ∨ !s.reachable d.steward then s.complete q sess c stHomeLost []
      else (s.waitOn q sess c h).tell d.steward (.queryAsk h plot)

/-- PLC_QUERY of a work set (R114, R431). -/
def State.queryWork (s : State) (q : Nat) (sess : W32) (c : QCmd) : State :=
  let p := c.payload
  if p.length ≠ 3 ∨ leAt p 0 1 ≠ 1 then s.complete q sess c stBadParam []
  else match s.wset (leAt p 1 2) with
    | none => s.complete q sess c stBadParam []
    | some w => s.complete q sess c stOk ((List.range 192).flatMap fun i => let x := w.cells.getD i (0, 0); leBytes 8 x.1 ++ leBytes 8 x.2)

/-- A host command, and what then follows. -/
def State.hostDo (s : State) (q opc : Nat) (payload : List Byte) (f : State → W32 → QCmd → State) : State :=
  (s.hostRow q opc payload f).settle

/-! ## The commands -/

def execObjCreate (q : Nat) (payload : List Byte) (s : State) : Host.Outcome State Fault Refusal :=
  .next (s.hostDo q 0x10 payload fun s n c => s.objCreate q n c)
def execObjFree (q : Nat) (payload : List Byte) (s : State) : Host.Outcome State Fault Refusal :=
  .next (s.hostDo q 0x11 payload fun s n c => s.handleCmd q n c 0 fun s h => s.askFree h none)
def execObjSeal (q : Nat) (payload : List Byte) (s : State) : Host.Outcome State Fault Refusal :=
  .next (s.hostDo q 0x12 payload fun s n c => s.handleCmd q n c 0 fun s h => s.askSeal h none)
def execObjQuery (q : Nat) (payload : List Byte) (s : State) : Host.Outcome State Fault Refusal :=
  .next (s.hostDo q 0x13 payload fun s n c => s.objQuery q n c)
def execObjHint (q : Nat) (payload : List Byte) (s : State) : Host.Outcome State Fault Refusal :=
  .next (s.hostDo q 0x14 payload fun s n c => s.handleCmd q n c 1 fun s h => s.askHint h (leAt c.payload 3 1) none)
def execObjRead (q : Nat) (payload : List Byte) (s : State) : Host.Outcome State Fault Refusal :=
  .next (s.hostDo q 0x15 payload fun s n c => s.objAccess q n c false)
def execObjWrite (q : Nat) (payload : List Byte) (s : State) : Host.Outcome State Fault Refusal :=
  .next (s.hostDo q 0x16 payload fun s n c => s.objAccess q n c true)
def execPlcQueryPlot (q : Nat) (payload : List Byte) (s : State) : Host.Outcome State Fault Refusal :=
  .next (if leAt payload 0 1 = 1 then s else s.hostDo q 0x18 payload fun s n c => s.queryPlot q n c)
def execPlcQueryWorkSet (q : Nat) (payload : List Byte) (s : State) : Host.Outcome State Fault Refusal :=
  .next (if leAt payload 0 1 = 0 then s else s.hostDo q 0x18 payload fun s n c => s.queryWork q n c)
def execWorkSet (q : Nat) (payload : List Byte) (s : State) : Host.Outcome State Fault Refusal :=
  .next (s.hostDo q 0x19 payload fun s n c => s.startWork q n c)

end Sys2Proof.Machine
end

