-- ==== Sys2Proof/Machine/HostCell.lean ====
section
/-! DEFINITION. Machine/HostCell.lean: the host commands on cells and threads (R301 to R308, R430, R431). -/

namespace Sys2Proof.Machine

def CellSt.freeSlots (x : CellSt) : Nat := (x.threads.filter fun t => t.state == .free).length

/-- The cell that a field supervisor chooses (R302). -/
def State.fieldCell (s : State) (f : Nat) : Option Nat :=
  let better (a b : Nat) : Bool :=
    let (x, y) := (s.cell a, s.cell b)
    decide (y.freeSlots < x.freeSlots) || (x.freeSlots == y.freeSlots && decide (x.ready.length < y.ready.length))
  let ok (c : Nat) : Bool := s.cellUp c && !((s.cell c).parked && decide (1 < (s.cell c).parkRung))
  (((List.range 48).map (48 * f + ·)).filter ok).foldl (fun b c => match b with
    | none => some c
    | some d => if better c d then some c else some d) none

/-- A thread starts in a FREE slot (R301). -/
def CellSt.startThread (x : CellSt) (t : Nat) (pri : Nat) (pc : Nat) (args : List W64) : CellSt :=
  let set (th : Thread) : Thread :=
    { th with pri := BitVec.ofNat 3 pri, pc := BitVec.ofNat 64 pc, regs := args ++ List.replicate 27 0, flags := 0, mailbox := 0, unread := false,
              lcv := false, timed := false, wake := none, fence := none, token := th.token + 1 }
  { x with threads := modAt t set x.threads }.enter t .ready

/-- THREAD_START (R301, R302). -/
def State.threadStart (s : State) (q : Nat) (sess : W32) (c : QCmd) : State :=
  let p := c.payload
  let target := leAt p 0 1
  let unit := leAt p 1 1
  let slot := leAt p 2 1
  let pri := leAt p 3 1
  let pc := leAt p 4 4
  if p.length ≠ 40 ∨ 1 < target ∨ (if target = 0 then 192 else 4) ≤ unit ∨ (64 ≤ slot ∧ slot ≠ 255) ∨ 7 < pri ∨ pc % 8 ≠ 0 ∨ opSoft ≤ pc then
    s.complete q sess c stBadParam []
  else match (if target = 0 then (if s.cellUp unit then some unit else none) else s.fieldCell unit) with
    | none => s.complete q sess c stBusy []
    | some cell =>
      let free (t : Nat) : Bool := (s.thread cell t).state == .free
      match (if slot = 255 then lowest free 64 0 else if free slot then some slot else none) with
      | none => s.complete q sess c (if slot = 255 then stNoSlot else stSlotBusy) []
      | some t =>
        let args := (List.range 4).map fun (i : Nat) => BitVec.ofNat 64 (leAt p (8 + 8 * i) 8)
        let s := (s.unpark cell).modCell cell fun x => x.startThread t pri pc args
        s.complete q sess c stOk (leBytes 1 cell ++ leBytes 1 t)

/-- A command that names a slot in its first two bytes. -/
def State.slotCmd (s : State) (q : Nat) (sess : W32) (c : QCmd) (n : Nat) (f : State → Nat → Nat → State) : State :=
  let cell := leAt c.payload 0 1
  let slot := leAt c.payload 1 1
  if c.payload.length ≠ n ∨ 192 ≤ cell ∨ 64 ≤ slot then s.complete q sess c stBadParam [] else f s cell slot

/-- THREAD_STOP (R304). -/
def State.threadStop (s : State) (q : Nat) (sess : W32) (c : QCmd) : State :=
  s.slotCmd q sess c 2 fun s cell t => (s.modCell cell fun x => x.freeSlot t).complete q sess c stOk []

/-- THREAD_FREE (R304). -/
def State.threadFree (s : State) (q : Nat) (sess : W32) (c : QCmd) : State :=
  s.slotCmd q sess c 2 fun s cell t =>
    if (s.thread cell t).state = .failed then (s.modCell cell fun x => x.freeSlot t).complete q sess c stOk []
    else s.complete q sess c stBadParam []

/-- THREAD_SIGNAL (R308). -/
def State.threadSignal (s : State) (q : Nat) (sess : W32) (c : QCmd) : State :=
  s.slotCmd q sess c 8 fun s cell t =>
    if !zeroAt c.payload 2 2 then s.complete q sess c stBadParam []
    else
      let (ok, s) := s.signalTo cell t (BitVec.ofNat 32 (leAt c.payload 4 4))
      s.complete q sess c stOk (leBytes 1 (if ok then 0 else 1))

/-- The cells that a 192-bit mask names. -/
def maskCells (m : Nat) : List Nat := (List.range 192).filter m.testBit

/-- PROG_LOAD (R303, R430). An OFFLINE cell takes no bytes. -/
def State.progLoad (s : State) (q : Nat) (sess : W32) (c : QCmd) : State :=
  let p := c.payload
  let a := leAt p 24 4
  let n := leAt p 28 2
  if p.length ≠ 32 + n ∨ n = 0 ∨ 8160 < n ∨ !zeroAt p 30 2 ∨ opSoft < a + n then s.complete q sess c stBadParam []
  else
    let s := ((maskCells (leAt p 0 24)).filter s.cellUp).foldl (fun s i => (s.unpark i).modCell i fun x => x.opWrite a (p.drop 32)) s
    s.complete q sess c stOk []

/-- A cell that a PROG_LOAD names restarts: its crossings are closed, and the command waits (R482). -/
def State.loadHeld (s : State) (payload : List Byte) : Bool :=
  (maskCells (leAt payload 0 24)).any fun c => (s.cell c).mode == .restarting

/-! ## The commands -/

def execProgLoad (q : Nat) (payload : List Byte) (s : State) : Host.Outcome State Fault Refusal :=
  .next (if s.loadHeld payload then s else s.hostDo q 0x20 payload fun s n c => s.progLoad q n c)
def execThreadStart (q : Nat) (payload : List Byte) (s : State) : Host.Outcome State Fault Refusal :=
  .next (s.hostDo q 0x21 payload fun s n c => s.threadStart q n c)
def execThreadStop (q : Nat) (payload : List Byte) (s : State) : Host.Outcome State Fault Refusal :=
  .next (s.hostDo q 0x22 payload fun s n c => s.threadStop q n c)
def execThreadFree (q : Nat) (payload : List Byte) (s : State) : Host.Outcome State Fault Refusal :=
  .next (s.hostDo q 0x23 payload fun s n c => s.threadFree q n c)
def execThreadSignal (q : Nat) (payload : List Byte) (s : State) : Host.Outcome State Fault Refusal :=
  .next (s.hostDo q 0x24 payload fun s n c => s.threadSignal q n c)

end Sys2Proof.Machine
end

