-- ==== Sys2Proof/Machine/Session.lean ====
section
/-! DEFINITION. Machine/Session.lean: the session of the host and its packets (R422 to R432): arrival, windows, resending, keepalive and
the event queue. -/

namespace Sys2Proof.Machine

/-! ## The header (R422) -/

structure QctHdr where
  flags : Nat
  qid : Nat
  opc : Nat
  seq : W32
  ackno : W32
  session : W32
  tag : W32
  payload : List Byte
  deriving DecidableEq, Repr

/-- A packet whose VER and LEN hold. -/
def qctHdr (b : List Byte) : Option QctHdr :=
  let w (i : Nat) : W32 := BitVec.ofNat 32 (leAt b i 4)
  if b.length < 32 ∨ leAt b 0 1 ≠ 1 ∨ b.length ≠ 32 + leAt b 18 2 ∨ 8192 < leAt b 18 2 then none
  else some { flags := leAt b 1 1, qid := leAt b 2 1, opc := leAt b 3 1, seq := w 4, ackno := w 8, session := w 12, tag := w 24, payload := b.drop 32 }

def QctHdr.syn (h : QctHdr) : Bool := natBit h.flags 0
def QctHdr.ackOnly (h : QctHdr) : Bool := natBit h.flags 2

/-! ## Opening and closing (R424, R428, R450) -/

/-- The data of a BOOT record (R450). -/
def State.bootData (s : State) : BitVec 160 :=
  BitVec.ofNat 160 (s.power.cause + s.sec.slot * 2 ^ 8 + s.sec.svn * 2 ^ 16 + s.flash.arb * 2 ^ 24 +
    ((if s.sec.fallback then 1 else 0) + (if s.sec.trial then 2 else 0) + (if s.flash.owner.isSome then 4 else 0)) * 2 ^ 32)

/-- A BOOT record stands first among the records to be sent. -/
def State.bootFirst (s : State) : State :=
  let old := s.eth.events.find? fun e => e.record.kind == kBoot
  let time := match old with | some e => e.record.time | none => s.timebase
  let boot : EventQ := { record := { kind := kBoot, source := 0, time := time, data := s.bootData }, seq := none }
  s.modEth fun e => { e with events := boot :: ((e.events.filter fun y => y.record.kind != kBoot).map fun y => { y with seq := none }) }

/-- The session closes: its completions are gone, and a staging begun in it ends (R428, R452). -/
def State.closeSession (s : State) : State :=
  match s.eth.session with
  | none => s
  | some x =>
    let s := s.modEth fun e => { e with session := none, lastSession := x.num, events := e.events.map fun y => { y with seq := none } }
    match s.sec.staging with
    | some g => if g.session = x.num then
        (s.modSec fun y => { y with staging := none }).modFlash fun f =>
          if g.slot = 0 then { f with slotA := { state := 0, image := [] } } else { f with slotB := { state := 0, image := [] } }
      else s
    | none => s

/-- A packet to an address that holds no session: the refusal of an open, or RST. -/
def State.qctBare (s : State) (d : Datagram) (flags : Nat) (h : QctHdr) (status : Nat) : State :=
  s.transmit s.qctPri (.qct d.srcIp d.srcPort flags h.qid h.opc 0 0 0 s.dev status h.tag s.flash.incarn [])

/-- A session number other than 0 and that of the session before. The spec gives no rule for it: it comes from a free value. -/
def State.newSession (s : State) : W32 × State :=
  let (v, s) := s.fresh
  let n (k : Nat) : W32 := BitVec.ofNat 32 (1 + (v.toNat + k) % (2 ^ 32 - 1))
  (if n 0 = s.eth.lastSession then n 1 else n 0, s)

/-- A session opens. -/
def State.openSession (s : State) (d : Datagram) (h : QctHdr) (q w : Nat) : State :=
  let (n, s) := s.newSession
  let w := Nat.min w (s.regF rQctCfg 24 16)
  let x : Session := { num := n, ip := d.srcIp, port := d.srcPort, q := q, w := w,
                       queues := { QSt.start 0 with rxNext := 1 } :: List.replicate (q - 1) (QSt.start 0), evSeq := 0, evAcked := 0,
                       lastRx := s.timebase, anyCmd := false }
  let s := (s.modEth fun e => { e with session := some x }).bootFirst
  (s.count (kEth 8) 1).complete 0 n { seq := 0, opc := 1, tag := h.tag, payload := h.payload } stOk (leBytes 2 w ++ leBytes 1 q)

/-- SESSION_OPEN (R424). -/
def State.sessionOpen (s : State) (d : Datagram) (h : QctHdr) : State :=
  let p := h.payload
  let q := leAt p 0 1
  let w := leAt p 1 2
  let force := natBit (leAt p 3 1) 0
  if p.length ≠ 4 ∨ 1 < leAt p 3 1 ∨ h.qid ≠ 0 ∨ h.seq ≠ 0 ∨ !h.syn ∨ q = 0 ∨ 64 < q ∨ w = 0 ∨ 256 < w then s.qctBare d 1 h stBadParam
  else match s.eth.session with
    | none => s.openSession d h q w
    | some x =>
      if x.ip = d.srcIp ∧ x.port = d.srcPort ∧ !x.anyCmd then
        match (x.queue 0).held.find? fun c => c.opc == 1 with
        | some c => s.sendCompletion 0 c false
        | none => s
      else if force then
        (s.closeSession.modEth fun e => { e with displaced := some (x.ip, x.port, x.num) }).openSession d h q w
      else s.qctBare d 1 h stBusy

/-! ## Arrival (R425 to R427) -/

/-- A dropped frame (R418, R419, R422). -/
def State.rxDrop (s : State) : State := s.count (kEth 2) 1

/-- ACKONLY is sent on a queue. -/
def State.sendAckOnly (s : State) (q : Nat) : State :=
  match s.eth.session with
  | none => s
  | some x => (s.modQueue q fun y => { y with ackDue := false }).qctSend x 4 q 0 (x.queue q).txNext (x.queue q).rxNext 0 0 []

/-- Commands in order of SEQ from `e`. -/
def insertCmd (e : W32) (c : QCmd) : List QCmd → List QCmd
  | [] => [c]
  | x :: t => if (c.seq - e).toNat < (x.seq - e).toNat then c :: x :: t else x :: insertCmd e c t

/-- The next sequence number expected, past every command buffered in order. -/
def nextExpected (buf : List QCmd) : Nat → W32 → W32
  | 0, e => e
  | n + 1, e => if buf.any fun c => c.seq == e then nextExpected buf n (e + 1) else e

/-- A command arrives on its queue (R425). -/
def State.cmdArrive (s : State) (q w : Nat) (h : QctHdr) : State :=
  match s.eth.session with
  | none => s
  | some x =>
    let y := x.queue q
    let e := y.rxNext
    let cmd : QCmd := { seq := h.seq, opc := h.opc, tag := h.tag, payload := h.payload }
    if (h.seq - e).toNat < w then
      let s := s.modEth fun z => { z with session := z.session.map fun x => { x with anyCmd := true } }
      let put (y : QSt) : QSt :=
        if y.buf.any fun c => c.seq == h.seq then { y with ackDue := true }
        else
          let old := y.buf.filter fun c => newer 32 e.toNat c.seq.toNat
          let buf := old ++ insertCmd e cmd (y.buf.filter fun c => !newer 32 e.toNat c.seq.toNat)
          { y with buf := buf, rxNext := nextExpected buf buf.length e, ackDue := true }
      let s := (s.modQueue q put).settle
      if s.power.rung ≠ 0 ∨ s.power.busy then (if cmd.quiet then s else s.wakeByUse) else s
    else if (e - h.seq).toNat ≤ w then
      let s := s.count (kEth 10) 1
      match y.held.find? fun c => c.cmdSeq == h.seq with
      | some c => (s.sendCompletion q c true).count (kEth 9) 1
      | none => s
    else (s.sendAckOnly q).count (kEth 11) 1

/-- An acknowledgement: completions of a queue, or records of the event queue, before `a` have arrived. -/
def State.ackArrive (s : State) (q : Nat) (a : W32) : State :=
  if q = 0x80 then
    s.modEth fun e => { e with
      events := e.events.filter fun y => match y.seq with | some n => !newer 32 a.toNat n.toNat | none => true,
      session := e.session.map fun x => if newer 32 a.toNat x.evAcked.toNat ∧ !newer 32 a.toNat x.evSeq.toNat then { x with evAcked := a } else x }
  else s.modQueue q fun y => { y with held := y.held.map fun c => if newer 32 a.toNat c.seq.toNat then { c with acked := true } else c }

/-- QCT_PACKET (R422, R424 to R427). -/
def State.qctArrive (s : State) (d : Datagram) : State :=
  match qctHdr d.bytes with
  | none => s.rxDrop
  | some h =>
    if h.opc = 1 ∧ !h.ackOnly then s.modEth fun e => { e with opens := e.opens ++ [d] }
    else match s.eth.session with
      | none => s.qctBare d 2 h stNoSession
      | some x =>
        if s.eth.displaced = some (d.srcIp, d.srcPort, h.session) then
          (s.modEth fun e => { e with displaced := none }).qctBare d 2 h stNoSession
        else if x.ip ≠ d.srcIp ∨ x.port ≠ d.srcPort ∨ x.num ≠ h.session then s.count (kEth 12) 1
        else
          let s := s.modEth fun e => { e with session := e.session.map fun x => { x with lastRx := s.timebase } }
          if h.qid ≠ 0x80 ∧ x.q ≤ h.qid then s.rxDrop
          else
            let s := s.ackArrive h.qid h.ackno
            if h.ackOnly ∨ h.qid = 0x80 then s else s.cmdArrive h.qid x.w h

/-- The port carries frames and the lookout firmware runs. -/
def State.portOpen (s : State) : Bool := s.power.phase == .running && s.eth.link == 2

/-! ## Resending, keepalive, events (R426, R428, R432) -/

/-- The completion that is due to be resent: the oldest one whose wait has passed. -/
def State.dueCompletion (s : State) (q : Nat) : Option Completion :=
  match s.eth.session with
  | none => none
  | some x => (x.queue q).held.find? fun c => !c.acked && decide (c.sentAt.toNat + 1000 * c.rto ≤ s.timebase.toNat)

/-- QCT_RETRANSMIT: each wait is twice the one before, up to 64 ms. -/
def State.qctRetransmit (s : State) (q : Nat) : State :=
  if !s.portOpen then s
  else match s.dueCompletion q with
    | none => s
    | some c =>
      let s := (s.sendCompletion q c true).count (kEth 9) 1
      s.modQueue q fun y => { y with held := y.held.map fun z =>
        if z.seq = c.seq then { z with sentAt := s.timebase, rto := Nat.min 64000 (2 * z.rto) } else z }

def State.ackonly (s : State) (q : Nat) : State :=
  match s.eth.session with
  | none => s
  | some x => if s.portOpen ∧ q < x.q ∧ (x.queue q).ackDue then s.sendAckOnly q else s

/-- KEEPALIVE_LOSS (R428). -/
def State.keepaliveLoss (s : State) : State :=
  match s.eth.session with
  | none => s
  | some x =>
    if s.power.phase = .running ∧ x.lastRx.toNat + 3000000 * s.regF rQctTimers 15 0 ≤ s.timebase.toNat then s.closeSession.count (kEth 13) 1
    else s

/-- An event record as 32 bytes (R432). -/
def recordBytes (r : EventRec) : List Byte :=
  leBytes 2 r.kind ++ leBytes 2 r.source ++ leBytes 8 r.time.toNat ++ leBytes 20 r.data.toNat

/-- EVENT_SEND (R432): up to 64 records that have not been sent, or when there are none those of the oldest packet not acknowledged. -/
def State.eventSend (s : State) : State :=
  match s.eth.session with
  | none => s
  | some x =>
    if !s.portOpen then s
    else
      let new := (s.eth.events.filter fun e => e.seq.isNone).take 64
      if new ≠ [] then
        let s := s.modEth fun e => { e with
          events := (e.events.filter fun y => y.seq.isSome) ++ new.map (fun y => { y with seq := some x.evSeq }) ++
            (e.events.filter fun y => y.seq.isNone).drop 64,
          session := e.session.map fun x => { x with evSeq := x.evSeq + 1 } }
        s.qctSend x 0 0x80 0 x.evSeq 0 0 0 (new.flatMap fun y => recordBytes y.record)
      else match s.eth.events.head? with
        | some y => match y.seq with
          | some n => s.qctSend x 8 0x80 0 n 0 0 0 ((s.eth.events.filter fun z => z.seq == some n).flatMap fun z => recordBytes z.record)
          | none => s
        | none => s

/-! ## The commands -/

/-- SESSION_OPEN: the oldest such packet that waits, when it names this queue and payload. -/
def execSessionOpen (q : Nat) (payload : List Byte) (s : State) : Host.Outcome State Fault Refusal :=
  .next (match s.eth.opens with
    | [] => s
    | d :: t => match qctHdr d.bytes with
      | none => s.modEth fun e => { e with opens := t }
      | some h =>
        if h.qid = q ∧ h.payload = payload ∧ s.portOpen then (s.modEth fun e => { e with opens := t }).sessionOpen d h else s)

def execSessionClose (q : Nat) (payload : List Byte) (s : State) : Host.Outcome State Fault Refusal :=
  .next (s.hostDo q 2 payload fun s n c =>
    if c.payload.length ≠ 0 then s.complete q n c stBadParam [] else (s.complete q n c stOk []).closeSession)

def execKeepalive (q : Nat) (payload : List Byte) (s : State) : Host.Outcome State Fault Refusal :=
  .next (s.hostDo q 3 payload fun s n c =>
    if c.payload.length ≠ 0 then s.complete q n c stBadParam [] else s.complete q n c stOk (leBytes 8 s.timebase.toNat))

def execQctPacket (d : Datagram) (s : State) : Host.Outcome State Fault Refusal :=
  .next (if s.portOpen then (s.count (kEth 0) 1).qctArrive d else s)
def execQctRetransmit (q : Nat) (s : State) : Host.Outcome State Fault Refusal := .next (s.qctRetransmit q)
def execAckonly (q : Nat) (s : State) : Host.Outcome State Fault Refusal := .next (s.ackonly q)
def execKeepaliveLoss (s : State) : Host.Outcome State Fault Refusal := .next s.keepaliveLoss
def execEventSend (s : State) : Host.Outcome State Fault Refusal := .next s.eventSend

end Sys2Proof.Machine
end

