-- ==== Sys2Proof/Machine/Port.lean ====
section
/-! DEFINITION. Machine/Port.lean: the Ethernet port (R418 to R421) and the RoCEv2 subset (R433). -/

namespace Sys2Proof.Machine

/-! ## RoCEv2 (R433) -/

def State.modQp (s : State) (n : Nat) (f : Qp → Qp) : State :=
  s.modEth fun e => { e with qps := e.qps.map fun q => if q.qpn = n then f q else q }

/-- A NAK: remote access, or an invalid request. -/
def State.rdmaNak (s : State) (pri : Nat) (q : Qp) (psn : BitVec 24) (access : Bool) : State :=
  (s.transmit pri (.rdmaNak q.partner psn access)).count (kEth 17) 1

/-- The region and object of an access that is allowed (R433). -/
def State.rdmaOk (s : State) (r : RdmaReq) : Option (Mr × Desc) :=
  let len := match r.op with | .write => r.data.length | _ => r.len
  match s.region r.rkey with
  | none => none
  | some m => match s.liveDesc (addrHandle m.addr) with
    | none => none
    | some d =>
      let right : Bool := match r.op with | .write => m.write && d.state != .sealed && d.typ != 9 | _ => m.read
      if m.valid ∧ right ∧ r.va + len ≤ m.count * d.esize then some (m, d) else none

/-- A request takes as many packet sequence numbers as it has packets. A request out of sequence is dropped. -/
def State.rdmaArrive (s : State) (pri : Nat) (r : RdmaReq) : State :=
  if !s.regBit rEthCfg 14 then s.rxDrop
  else match s.eth.qps.find? fun q => q.qpn == r.qpn with
    | none => s.rxDrop
    | some q =>
      if q.error ∨ q.rxPsn ≠ r.psn then s.rxDrop
      else
        let len := match r.op with | .write => r.data.length | _ => r.len
        let s := s.modQp q.qpn fun q => { q with rxPsn := q.rxPsn + BitVec.ofNat 24 (Nat.max 1 (ceilDiv len 4096)) }
        let s := if r.ecn then s.transmit pri (.cnp q.partner) else s
        if r.op = .other then (s.modQp q.qpn fun q => { q with error := true }).rdmaNak pri q r.psn false
        else match s.rdmaOk r with
          | none => s.rdmaNak pri q r.psn true
          | some (m, d) =>
            let (j, s) := s.newJob (.rdma pri r) d.handle 1
            (s.hostAccess j (if r.op = .write then .store else .load) d (rdmaStart d m r.va) len r.data).settle

def State.cnpArrive (s : State) (qpn : Nat) : State := s.modQp qpn fun q => { q with slowed := q.slowed + 1 }

/-- RDMA_QP, create (R431, R433). -/
def State.qpCreate (s : State) (q : Nat) (sess : W32) (c : QCmd) : State :=
  let p := c.payload
  if p.length ≠ 32 ∨ leAt p 0 1 ≠ 0 ∨ !zeroAt p 7 1 then s.complete q sess c stBadParam []
  else if 256 ≤ s.eth.qps.length then s.complete q sess c stNoSpace []
  else
    let (v, s) := s.fresh
    let n := (v.toNat + (lowest (fun k => !s.eth.qps.any fun y => y.qpn == (v.toNat + k) % 2 ^ 24) 257 0).getD 0) % 2 ^ 24
    let qp : Qp := { qpn := n, partner := leAt p 4 3, ip := BitVec.ofNat 128 (leAt p 8 16), port := BitVec.ofNat 16 (leAt p 24 2),
                     rxPsn := BitVec.ofNat 24 (leAt p 26 3), txPsn := BitVec.ofNat 24 (leAt p 29 3), error := false, slowed := 0 }
    (s.modEth fun e => { e with qps := e.qps ++ [qp] }).complete q sess c stOk (leBytes 3 n)

/-- RDMA_QP, destroy. -/
def State.qpDestroy (s : State) (q : Nat) (sess : W32) (c : QCmd) : State :=
  let p := c.payload
  let n := leAt p 1 3
  if p.length ≠ 32 ∨ leAt p 0 1 ≠ 1 ∨ !zeroAt p 7 1 ∨ !s.eth.qps.any (fun y => y.qpn == n) then s.complete q sess c stBadParam []
  else (s.modEth fun e => { e with qps := e.qps.filter fun y => y.qpn != n }).complete q sess c stOk (leBytes 3 n)

def mrShape (p : List Byte) : Bool := p.length == 24 && decide (leAt p 1 1 < 4) && zeroAt p 2 2 && zeroAt p 17 3

/-- RDMA_MR, create. -/
def State.mrCreate (s : State) (q : Nat) (sess : W32) (c : QCmd) : State :=
  let p := c.payload
  let a : W64 := BitVec.ofNat 64 (leAt p 4 8)
  let n := leAt p 12 5
  match s.liveDesc (addrHandle a) with
  | none => s.complete q sess c stBadParam []
  | some d =>
    if !mrShape p ∨ leAt p 0 1 ≠ 0 ∨ d.count < addrIndex a + n then s.complete q sess c stBadParam []
    else
      let (v, s) := s.fresh
      let k := (v.toNat + (lowest (fun i => !s.eth.mrs.any fun y => y.rkey == BitVec.ofNat 32 (v.toNat + i)) (s.eth.mrs.length + 1) 0).getD 0) % 2 ^ 32
      let mr : Mr := { rkey := BitVec.ofNat 32 k, read := natBit (leAt p 1 1) 0, write := natBit (leAt p 1 1) 1, addr := a, count := n, valid := true }
      (s.modEth fun e => { e with mrs := e.mrs ++ [mr] }).complete q sess c stOk (leBytes 4 k)

/-- RDMA_MR, destroy. -/
def State.mrDestroy (s : State) (q : Nat) (sess : W32) (c : QCmd) : State :=
  let p := c.payload
  let k := leAt p 20 4
  if !mrShape p ∨ leAt p 0 1 ≠ 1 ∨ !s.eth.mrs.any (fun y => y.rkey.toNat == k) then s.complete q sess c stBadParam []
  else (s.modEth fun e => { e with mrs := e.mrs.filter fun y => y.rkey.toNat != k }).complete q sess c stOk (leBytes 4 k)

/-! ## MACsec keys (R421, R431, R434) -/

/-- MACSEC_KEY. A key for the association in use is refused. -/
def State.macsecKey (s : State) (q : Nat) (sess : W32) (c : QCmd) : State :=
  let p := c.payload
  let dir := leAt p 0 1
  let an := leAt p 1 1
  let inUse := (s.saKey (2 * dir + an)).isSome && (if dir = 0 then s.eth.txAn == an else s.eth.rxAn == some an)
  if p.length ≠ 64 ∨ 1 < dir ∨ 1 < an ∨ !zeroAt p 2 6 ∨ inUse then s.complete q sess c stBadParam []
  else
    let k : SaKey := { key := BitVec.ofNat 256 (leAt p 8 32), nextPn := BitVec.ofNat 64 (leAt p 40 8), ssci := BitVec.ofNat 32 (leAt p 48 4),
                       salt := BitVec.ofNat 96 (leAt p 52 12) }
    let s := s.modEth fun e => { e with keys := tblSet none (2 * dir + an) (some k) e.keys, txAn := if dir = 0 then an else e.txAn }
    s.complete q sess c stOk []

/-! ## Flow control (R420) -/

/-- Frames whose priority is no longer paused leave in order. -/
def State.drainTx (s : State) : State :=
  let go (x : Nat × NetOut) : Bool := !s.eth.paused.getLsbD x.1
  let out := s.eth.txq.filter go
  out.foldl (fun s x => s.emit x.2) (s.modEth fun e => { e with txq := e.txq.filter fun x => !go x })

def State.pfcArrive (s : State) (pri : Byte) : State :=
  let s := s.count (kEth 5) 1
  if s.regBit rEthCfg 3 then (s.modEth fun e => { e with paused := pri &&& BitVec.ofNat 8 (s.regF rEthCfg 11 4) }).drainTx else s

/-! ## Frames (R418, R419, R421) -/

/-- The device's own address: an IPv4 address is mapped as ::ffff:a.b.c.d. -/
def State.ownIp (s : State) (v6 : Bool) : BitVec 128 :=
  if v6 then BitVec.ofNat 128 ((s.reg (rEthIp6 0)).toNat + (s.reg (rEthIp6 1)).toNat * 2 ^ 32 + (s.reg (rEthIp6 2)).toNat * 2 ^ 64 + (s.reg (rEthIp6 3)).toNat * 2 ^ 96)
  else BitVec.ofNat 128 (0xFFFF * 2 ^ 32 + (s.reg rEthIp4).toNat)

/-- What MACsec makes of a frame: dropped, or passed with the state that follows. -/
def State.macsecIn (s : State) (f : Frame) : Bool × State :=
  let s := s.modEth fun e => { e with macsecNow := s.regBit rEthCfg 12 }
  let drop := (false, s.count (kEth 7) 1)
  match f.body, f.sec with
  | .pfc _, none => (true, s)
  | _, none => if s.eth.macsecNow then drop else (true, s)
  | _, some t =>
    if !s.eth.macsecNow then (false, s.rxDrop)
    else match s.saKey (2 + t.an) with
      | none => drop
      | some k =>
        if t.an < 2 ∧ Config.gcmCheck k.key k.salt t.pn t.icv (s.cnt (kEth 0)).toNat then
          (true, s.modEth fun e => { e with rxAn := some t.an, keys := tblSet none (2 + t.an) (some { k with nextPn := t.pn + 1 }) e.keys })
        else drop

/-- An IP packet for the device. -/
def State.ipArrive (s : State) (pri : Nat) (v6 : Bool) (src dst : BitVec 128) (b : IpBody) : State :=
  match b with
  | .neighbourSolicit t => if v6 && t == s.ownIp true then s.transmit pri (.ndReply t) else s
  | _ =>
    if dst ≠ s.ownIp v6 then s.rxDrop
    else match b with
      | .echo data => s.transmit pri (.echoReply src data)
      | .udp sport dport zero payload =>
        if v6 && zero then s.rxDrop
        else if dport.toNat = s.regF rQctCfg 15 0 then s.qctArrive { srcIp := src, srcPort := sport, bytes := payload }
        else s.rxDrop
      | .roce r => s.rdmaArrive pri r
      | _ => s.rxDrop

/-- FRAME_RECEIVE. -/
def State.frameReceive (s : State) (f : Frame) : State :=
  let s := s.count (kEth 0) 1
  let vid := s.regF rEthVlan 11 0
  if !f.fcsOk then (s.errBump rErrEthFcs).seeClass 0
  else if f.len < 64 ∨ 9216 < f.len then s.rxDrop
  else match s.macsecIn f with
    | (false, s) => s
    | (true, s) =>
      if 2 ≤ f.tags.length ∨ f.tags.any (fun t => vid == 0 || t.1.toNat != vid) then s.rxDrop
      else
        let pri := match f.tags with | t :: _ => t.2.toNat | [] => 0
        match f.body with
        | .pause => s.count (kEth 4) 1
        | .pfc p => s.pfcArrive p
        | .arp t => if s.regBit rEthCfg 15 && t == s.reg rEthIp4 then s.transmit pri (.arpReply t) else s
        | .ip v6 src dst opts frag b =>
          if !s.regBit rEthCfg (if v6 then 16 else 15) || opts || frag then s.rxDrop else s.ipArrive pri v6 src dst b
        | .other => s.rxDrop

/-! ## The link (R418, R434) -/

/-- The port may run: the lookout serves and the port has power. -/
def State.portPowered (s : State) : Bool := s.power.phase == .running && decide (s.power.rung < 4)

/-- PORT_UP with so many lanes: eight give 1.6 Tb/s unless only 800 Gb/s is asked for, four to seven 800 Gb/s. -/
def State.portUp (s : State) (lanes : Nat) : State :=
  if !s.portPowered ∨ !s.regBit rEthCfg 0 ∨ lanes < 4 then s
  else
    let slow := decide (lanes < 8) || s.regBit rEthCfg 1
    if s.eth.link = 2 then s.modEth fun e => { e with slow := e.slow || slow }
    else s.modEth fun e => { e with link := 2, slow := slow, paused := 0 }

def State.portDown (s : State) : State := if s.eth.link = 2 then s.modEth fun e => { e with link := 0 } else s

/-! ## The commands -/

def execMacsecKey (q : Nat) (payload : List Byte) (s : State) : Host.Outcome State Fault Refusal :=
  .next (s.hostDo q 0x32 payload fun s n c => s.macsecKey q n c)
def execRdmaQpCreate (q : Nat) (payload : List Byte) (s : State) : Host.Outcome State Fault Refusal :=
  .next (if leAt payload 0 1 = 1 then s else s.hostDo q 0x38 payload fun s n c => s.qpCreate q n c)
def execRdmaQpDestroy (q : Nat) (payload : List Byte) (s : State) : Host.Outcome State Fault Refusal :=
  .next (if leAt payload 0 1 = 0 then s else s.hostDo q 0x38 payload fun s n c => s.qpDestroy q n c)
def execRdmaMrCreate (q : Nat) (payload : List Byte) (s : State) : Host.Outcome State Fault Refusal :=
  .next (if leAt payload 0 1 = 1 then s else s.hostDo q 0x39 payload fun s n c => s.mrCreate q n c)
def execRdmaMrDestroy (q : Nat) (payload : List Byte) (s : State) : Host.Outcome State Fault Refusal :=
  .next (if leAt payload 0 1 = 0 then s else s.hostDo q 0x39 payload fun s n c => s.mrDestroy q n c)

def execRdmaWrite (r : RdmaReq) (s : State) : Host.Outcome State Fault Refusal :=
  .next (if s.portOpen ∧ r.op ≠ .read then (s.count (kEth 0) 1).rdmaArrive 0 r else s)
def execRdmaRead (r : RdmaReq) (s : State) : Host.Outcome State Fault Refusal :=
  .next (if s.portOpen ∧ r.op = .read then (s.count (kEth 0) 1).rdmaArrive 0 r else s)
def execCnpReceive (qpn : Nat) (s : State) : Host.Outcome State Fault Refusal :=
  .next (if s.portOpen ∧ s.regBit rEthCfg 14 then (s.count (kEth 0) 1).cnpArrive qpn else s)
def execFrameReceive (f : Frame) (s : State) : Host.Outcome State Fault Refusal := .next (if s.portOpen then s.frameReceive f else s)
def execPfcFrame (pri : Byte) (s : State) : Host.Outcome State Fault Refusal :=
  .next (if s.portOpen then (s.count (kEth 0) 1).pfcArrive pri else s)
def execPortUp (lanes : Nat) (s : State) : Host.Outcome State Fault Refusal := .next (s.portUp lanes)
def execPortDown (s : State) : Host.Outcome State Fault Refusal := .next s.portDown

end Sys2Proof.Machine
end

