-- ==== Sys2Proof/Machine/Power.lean ====
section
/-! DEFINITION. Machine/Power.lean: the rung ladder, cell setpoints and parking, and temperature (R459 to R475). -/

namespace Sys2Proof.Machine

/-! ## Events (R474, R480, R534) -/

/-- A power event whose CODE and INFO the spec does not give. -/
def State.powerEvent (s : State) (bit : Nat) : State :=
  let s := s.setBits rPwrEvent (BitVec.ofNat 32 (2 ^ bit))
  if s.regBit rPwrEventEn bit then
    let (u, s) := s.fresh
    let (v, s) := s.fresh
    s.raise srcPwr kPower (u.toNat % 65536) 4 v.toNat
  else s

/-- A thermal event. -/
def State.thermEvent (s : State) (bit info : Nat) : State :=
  let s := s.setBits rPwrEvent (BitVec.ofNat 32 (2 ^ bit))
  if s.regBit rPwrEventEn bit then s.raise srcPwr kThermal 0x0160 4 info else s

/-- A rung was entered or left (R467, R475). -/
def State.rungChanged (s : State) : State := (s.count (kPwr 0) 1).powerEvent 0

/-! ## Setpoints (R469, R471) -/

/-- The setpoint that a cell is to run at: SP, lowered by the throttle steps of its field. -/
def State.wantedSp (s : State) (c : Nat) : Nat := Nat.min 3 (s.regF (rCellSp c) 1 0 + s.power.throttled.getD (fieldOfCell c) 0)

/-- SETPOINT_CHANGE. Below ACTIVE and during a rung change a new SP is stored until the exit (R473). -/
def State.setpointChange (s : State) (c : Nat) : State :=
  if c < 192 ∧ s.active then s.modPower fun p => { p with cur := modAt c (fun _ => s.wantedSp c) p.cur } else s

/-! ## POWER_SET (R465, R466) -/

/-- POWER_SET at scope 0. -/
def State.powerSetRung (s : State) (q : Nat) (sess : W32) (c : QCmd) : State :=
  let t := leAt c.payload 1 1
  if c.payload.length ≠ 32 ∨ leAt c.payload 0 1 ≠ 0 ∨ 4 < t ∨ !zeroAt c.payload 2 30 then s.complete q sess c stBadParam []
  else if s.power.busy then s.complete q sess c stBusy []
  else if s.power.rung = t then s.complete q sess c stOk []
  else (s.newJob (.qct q sess c) 0 0).2.modPower fun p => { p with target := t, busy := true, since := s.timebase }

/-- POWER_SET at scope 1. -/
def State.powerSetSp (s : State) (q : Nat) (sess : W32) (c : QCmd) : State :=
  let t := leAt c.payload 1 1
  if c.payload.length ≠ 32 ∨ leAt c.payload 0 1 ≠ 1 ∨ 3 < t ∨ !zeroAt c.payload 2 6 then s.complete q sess c stBadParam []
  else
    let s := (maskCells (leAt c.payload 8 24)).foldl (fun s i => s.setRegF (rCellSp i) 1 0 t) s
    s.complete q sess c stOk []

/-! ## Entering a rung (R465) -/

/-- What a cell still has to finish: its programs, its writes on their way, its maintenance, its restart. -/
def State.cellDone (s : State) (c : Nat) : Bool :=
  let x := s.cell c
  x.ae.prog.isNone && x.xe.prog.isNone && !x.cc.maint.busy && x.mode != .restarting &&
  !s.reqs.any fun r => r.ofCell c && r.isWrite

/-- The cell caches cleaned and invalidated. -/
def State.flushAll (s : State) : State := (List.range 192).foldl (fun s c => s.turnOffCache c) s

/-- A parked cell takes the rung that the device enters (R473). -/
def State.parkedTake (s : State) (t : Nat) : State :=
  { s with cells := s.cells.map fun x => if x.parked then { x with parkRung := t } else x }

/-- The links that are UP enter low-power idle, or begin beacons. -/
def State.quietLinks (s : State) (dormant : Bool) : State :=
  s.modFab fun f => { f with links := f.links.map fun k =>
    if k.state = .up then (if dormant then { k with state := .beacon, resumeSent := false, resumeGot := false } else { k with lowPower := true })
    else k }

/-- What FALLOW takes away: the port, the links, the cells and the HBM contents. -/
def State.fallowDown (s : State) : State :=
  let s : State := { s with
    cells := List.replicate 192 CellSt.reset, reqs := [], walks := [], mem := [], memPoison := [], memUpset := [],
    landings := s.landings.map fun l => { Landing.reset with retired := l.retired } }
  let s := s.closeSession.modEth fun e => { e with link := 0, jobs := [], txq := [] }
  (s.modFab fun f => { f with links := f.links.map fun _ => Link.reset, router := [], arrived := [], held := [] }).modPower fun p =>
    { p with rails := false, pwrGood := false }

/-- RUNG_DRAIN_DONE: steps 3 to 7. -/
def State.drainDone (s : State) : State :=
  let t := s.power.target
  if s.power.phase = .running ∧ s.power.busy ∧ s.power.rung = 0 ∧ t ≠ 0 ∧ (List.range 192).all s.cellDone then
    let s := if t = 2 ∨ t = 3 then s.flushAll.quietLinks (decide (t = 3)) else s
    let s := ((s.parkedTake t).modPower fun p => { p with rung := t, target := 0, busy := false }).rungChanged
    let s := s.powerSetDone stOk
    if t = 4 then s.fallowDown else s
  else s

/-- RUNG_DRAIN_TIMEOUT: the device stays in its rung. -/
def State.drainTimeUp (s : State) : State :=
  if s.power.phase = .running ∧ s.power.busy ∧ s.power.rung = 0 ∧
      s.power.since.toNat + 1000000 * s.regF rPwrCfg 7 0 ≤ s.timebase.toNat then
    (((s.modPower fun p => { p with target := 0, busy := false }).powerEvent 3).powerSetDone stBusy).settle
  else s

/-! ## Leaving a rung (R467, R468) -/

/-- RUNG_EXIT: the device is ACTIVE; a rung that a POWER_SET names is then entered from there. -/
def State.rungExit (s : State) : State :=
  if s.power.phase = .running ∧ s.power.busy ∧ s.power.rung ≠ 0 ∧ s.power.rung ≠ 4 then
    let more := decide (s.power.target ≠ 0)
    let s := (s.modPower fun p => { p with rung := 0, busy := more, since := s.timebase }).rungChanged
    let s := (List.range 192).foldl State.setpointChange s
    let s := (List.range 32).foldl (fun s l =>
      let s := s.modLink l fun k => { k with lowPower := false }
      if (s.link l).state = .beacon then s.sendResume l else s) s
    if more then s else ((s.powerSetDone stOk).settle).releaseHeld
  else s

/-- WAKE_PIN: WAKE_N held low for 1 µs; ignored while RST_N is low (R532). -/
def State.wakePin (s : State) : State := if s.power.rstN && s.regBit rPwrCfg 8 then s.wake else s

/-! ## Parking (R470) -/

/-- A cell that may be parked: idle in every respect that R470 lists. -/
def CellSt.quiet (x : CellSt) : Bool :=
  x.ae.prog.isNone && x.xe.prog.isNone && x.ready.isEmpty && x.cores.all (fun k => k.slot.isNone) && !x.cc.maint.busy

def State.cellPark (s : State) (c : Nat) : State :=
  let x := s.cell c
  if s.coresGo ∧ s.cellUp c ∧ !x.parked ∧ s.regBit rPwrPark 0 ∧ x.quiet ∧ !s.scalerBusy c ∧ !(x.threads.any fun t => t.wake.isSome) ∧
      x.idleSince.toNat + 1000 * s.regF rPwrPark 16 1 ≤ s.timebase.toNat then
    (s.modCell c fun x => { x with parked := true, parkRung := 1 }).count (kPwr 1) 1
  else s

/-- A deadline of the cell's delay list is due. -/
def CellSt.anyDue (x : CellSt) : Bool :=
  x.threads.any fun t => (t.state == .sleeping || t.state == .waiting) && t.timed && deadlineDue x.tick t.deadline

def State.cellUnpark (s : State) (c : Nat) : State :=
  let x := s.cell c
  if s.active ∧ s.cellUp c ∧ x.parked ∧ (x.anyDue ∨ (x.threads.any fun t => t.wake.isSome) ∨ s.scalerBusy c) then s.unpark c else s

/-! ## Temperature (R471) -/

/-- A reading as PWR_TEMP codes it. -/
def satTemp (t : Int) : Nat := if t < 0 then 0 else if 255 < t then 255 else t.toNat

/-- The hottest of some sensors: its number and reading. -/
def hottest (l : List (Nat × Int)) : Nat × Int :=
  l.tail.foldl (fun b x => if b.2 < x.2 then x else b) (l.headD (0, 0))

def PowerSt.sensors (p : PowerSt) : List (Nat × Int) := p.temps.zipIdx.map fun x => (x.2, x.1)
def PowerSt.hot (p : PowerSt) : Nat × Int := hottest p.sensors
def PowerSt.fieldHot (p : PowerSt) (f : Nat) : Nat × Int := hottest (p.sensors.filter fun x => x.1 / 8 == f)

def State.warnAt (s : State) : Int := (s.regF rPwrTherm 7 0 : Nat)

/-- INFO of a thermal record: what it says, its sensor and reading, a setpoint. -/
def thermInfo (what : Nat) (x : Nat × Int) (sp : Nat) : Nat :=
  what + x.1 / 8 * 2 ^ 8 + satTemp x.2 * 2 ^ 16 + x.1 * 2 ^ 24 + sp * 2 ^ 32

/-- THERM_N follows the hottest sensor; the event is raised as WARN is reached. -/
def State.thermCheck (s : State) : State :=
  let h := s.power.hot
  if s.warnAt ≤ h.2 then
    if s.power.therm then s
    else
      let s := s.modPower fun p => { p with therm := true }
      if s.power.phase = .running then s.thermEvent 1 (thermInfo 0 h 0) else s
  else if h.2 ≤ s.warnAt - 5 then s.modPower fun p => { p with therm := false }
  else s

/-- A sensor reports a temperature. -/
def State.reading (s : State) (sensor : Nat) (t : Int) : State :=
  let s := s.modPower fun p => { p with temps := modAt sensor (fun _ => t) p.temps }
  if s.power.phase = .unpowered then s
  else
    let hot := satTemp s.power.hot.2
    (if s.regF rPwrTemp 17 10 < hot then s.setRegF rPwrTemp 17 10 hot else s).thermCheck

/-- THROTTLE_STEP: every cell of a field one setpoint down, or back up, each 1 ms. -/
def State.throttleStep (s : State) (f : Nat) : State :=
  let p := s.power
  let cells := (List.range 48).map (48 * f + ·)
  let n := p.throttled.getD f 0
  let hot := p.fieldHot f
  let due : Bool := match p.throttleAt.getD f none with
    | some t => decide (t.toNat + 1000000 ≤ s.timebase.toNat)
    | none => true
  let step (m what : Nat) : State :=
    let s := s.modPower fun p => { p with
      throttled := modAt f (fun _ => m) p.throttled, throttleAt := modAt f (fun _ => some s.timebase) p.throttleAt }
    let s := cells.foldl State.setpointChange s
    (s.count (kPwr 2) 1).thermEvent 2 (thermInfo what hot (s.power.cur.getD (48 * f) 0))
  if 4 ≤ f ∨ p.phase ≠ .running ∨ !due then s
  else if s.regBit rPwrTherm 8 ∧ s.warnAt ≤ hot.2 ∧ cells.any (fun c => decide (s.wantedSp c < 3)) then step (n + 1) 1
  else if 0 < n ∧ hot.2 < s.warnAt - 5 then step (n - 1) 2
  else s

/-! ## The commands -/

def execPowerSetRung (q : Nat) (payload : List Byte) (s : State) : Host.Outcome State Fault Refusal :=
  .next (if leAt payload 0 1 = 1 then s else s.hostDo q 0x28 payload fun s n c => s.powerSetRung q n c)
def execPowerSetSetpoint (q : Nat) (payload : List Byte) (s : State) : Host.Outcome State Fault Refusal :=
  .next (if leAt payload 0 1 = 0 then s else s.hostDo q 0x28 payload fun s n c => s.powerSetSp q n c)
def execRungDrainDone (s : State) : Host.Outcome State Fault Refusal := .next s.drainDone
def execRungDrainTimeout (s : State) : Host.Outcome State Fault Refusal := .next s.drainTimeUp
def execWakePin (s : State) : Host.Outcome State Fault Refusal := .next s.wakePin
def execRungExit (s : State) : Host.Outcome State Fault Refusal := .next s.rungExit
def execSetpointChange (c : Nat) (s : State) : Host.Outcome State Fault Refusal := .next (s.setpointChange c)
def execCellPark (c : Nat) (s : State) : Host.Outcome State Fault Refusal := .next (s.cellPark c)
def execCellUnpark (c : Nat) (s : State) : Host.Outcome State Fault Refusal := .next (s.cellUnpark c)
def execThrottleStep (field : Nat) (s : State) : Host.Outcome State Fault Refusal := .next (s.throttleStep field)

end Sys2Proof.Machine
end

