-- ==== Sys2Proof/Machine/Boot.lean ====
section
/-! DEFINITION. Machine/Boot.lean: device resets and their causes (R472, R512), supplies and sideband pins (R520 to R532), firmware images
(R443, R444), and the boot chain (R445 to R450, R468). -/

namespace Sys2Proof.Machine

/-! ## Images (R437, R438, R443, R444) -/

def textBytes (s : String) : List Byte := s.toList.map fun c => BitVec.ofNat 8 c.toNat

/-- The message that a signature of a purpose covers: the context and the digest. -/
def signedMsg (ctx : String) (msg : List Byte) : List Byte := textBytes ctx ++ leBytes 64 (Config.shake256 msg).toNat

/-- Verification of a signature field under the key bytes of a public-key field. -/
def sigHolds (key field : List Byte) (ctx : String) (msg : List Byte) : Bool :=
  let n := leAt field 0 2
  decide (42 ≤ n) && decide (n ≤ 1462) && (field.drop (2 + n)).all (· == 0) &&
  Config.falconVerify (key.take 1793) (signedMsg ctx msg) ((field.drop 2).take n)

/-- `n` bytes of an image from offset `i`. -/
def FlashSlot.at (x : FlashSlot) (i n : Nat) : List Byte := memRead x.image i n
def FlashSlot.num (x : FlashSlot) (i n : Nat) : Nat := leNat (x.at i n)

def FlashSlot.svn (x : FlashSlot) : Nat := x.num 6 1
def FlashSlot.keyIdx (x : FlashSlot) : Nat := x.num 7 1 % 4
def FlashSlot.revoke (x : FlashSlot) : Nat := x.num 7 1 / 16

/-- Component `i`: its offset, length and stated digest. -/
def FlashSlot.comp (x : FlashSlot) (i : Nat) : Nat × Nat × Nat := (x.num (16 + 72 * i) 4, x.num (20 + 72 * i) 4, x.num (24 + 72 * i) 64)

def FlashSlot.compDigest (x : FlashSlot) (i : Nat) : BitVec 512 :=
  let c := x.comp i
  Config.shake256 (x.at c.1 c.2.1)

def FlashSlot.compOk (x : FlashSlot) (i : Nat) : Bool :=
  let c := x.comp i
  decide (8192 ≤ c.1) && decide (c.1 + c.2.1 ≤ 8192 + x.num 8 4) && (x.compDigest i).toNat == c.2.2

/-- Reasons of a failed check (R452). -/
def whySig : Nat := 1
def whyKey : Nat := 2
def whySvn : Nat := 3
def whyFull : Nat := 4
def whyOwner : Nat := 5
def whyUnarmed : Nat := 6
def whyEnrolled : Nat := 7
def whyFormat : Nat := 8

/-- The checks of R444 in their order, with step 7 for the components named: 0 when the image is valid, else the reason. -/
def FlashSt.check (f : FlashSt) (x : FlashSlot) (comps : List Nat) : Nat :=
  let qpub := x.at 256 2048
  let opub := x.at 3840 2048
  let digest (k : List Byte) : BitVec 512 := Config.shake256 (k.take 1793)
  let out := x.revoke ||| f.revoked.toNat
  if x.num 0 4 ≠ 0x47494A51 ∨ x.num 4 2 ≠ 1 ∨ x.num 232 24 ≠ 0 ∨ x.num 7424 768 ≠ 0 ∨ 16769024 < x.num 8 4 ∨ 128 < x.svn then whyFormat
  else if x.svn < f.arb then whySvn
  else if digest qpub ≠ Config.romDigest x.keyIdx ∨ f.revoked.getLsbD x.keyIdx then whyKey
  else if !sigHolds qpub (x.at 2304 1536) "QJ-FWIMG" (x.at 0 256) then whySig
  else if (match f.owner with
      | some d => digest opub != d || !sigHolds opub (x.at 5888 1536) "QJ-FWOWN" (x.at 0 256)
      | none => false) then whyOwner
  else if natBit x.revoke x.keyIdx ∨ (out = 15 ∧ f.revoked ≠ 15) then whyKey
  else if !comps.all x.compOk then whyFormat
  else 0

def FlashSt.slot (f : FlashSt) (k : Nat) : FlashSlot := if k = 0 then f.slotA else f.slotB
def FlashSt.modSlot (f : FlashSt) (k : Nat) (g : FlashSlot → FlashSlot) : FlashSt :=
  if k = 0 then { f with slotA := g f.slotA } else { f with slotB := g f.slotB }
def FlashSt.mark (f : FlashSt) (k st : Nat) : FlashSt := f.modSlot k fun x => { x with state := st }

/-! ## Resets (R472, R512) -/

/-- What a reset of the device leaves: the flash and fuses, the timebase, supplies, pins and temperatures; everything else is as after
power-on. HBM contents are no object's any more, and the model does not keep them. -/
def State.deviceReset (s : State) (cause : Nat) : State :=
  { State.reset with
    pending := s.pending, timebase := s.timebase, flash := s.flash, free := s.free,
    power := { s.power with
      phase := .inReset, rung := 0, target := 0, busy := false, since := s.timebase, dynAddr := none, i3cOut := [], i3cNak := false,
      cause := cause, throttled := List.replicate 4 0, throttleAt := List.replicate 4 none, cur := List.replicate 192 0 } }

/-- A reset by the lookout: the boot ROM starts again. -/
def State.fatalReset (s : State) : State :=
  let s := s.deviceReset 5
  s.modPower fun p => { p with faultN := true }

/-- DEVICE_FATAL (R484). The record that the lookout tries to queue is lost with the reset. -/
def State.deviceFatal (s : State) : State := if s.power.phase = .running ∨ s.power.phase = .lookout then s.fatalReset else s

/-- LOOKOUT_WATCHDOG (R472). -/
def State.watchdog (s : State) : State := if s.power.phase = .running ∨ s.power.phase = .lookout then s.deviceReset 6 else s

/-! ## Supplies and pins (R461, R520 to R527) -/

/-- POWER_ON: VSTBY comes within its limits. -/
def State.powerOn (s : State) : State :=
  if s.power.phase ≠ .unpowered then s
  else { s.deviceReset 1 with timebase := 0 }.modPower fun p => { p with
    vstby := true, vin48 := true, rstN := false, pgTimeout := false, faultN := false, trip := false, therm := false, since := 0 }

/-- VSTBY_LOSS. Out of sequence, one of the copies of the boot state may fail its check: whether it does is free (R524). -/
def State.vstbyLoss (s : State) : State :=
  if s.power.phase = .unpowered then s
  else
    let writing : Bool := s.power.rstN && s.power.phase != .tripped
    let (v, s) := s.fresh
    let s := if writing then s.modFlash fun f => { f with copyBad := f.copyBad || v.getLsbD 0 } else s
    (s.deviceReset 1).modPower fun p => { p with
      phase := .unpowered, vstby := false, rails := false, pwrGood := false, therm := false, faultN := false, trip := false, pgTimeout := false }

/-- The rails rise: VIN48 is within its limits, and after a trip every sensor reads below 100 °C (R522, R532). -/
def State.railsUp (s : State) : State :=
  if s.power.pwrEn ∧ s.power.vin48 ∧ !s.power.pgTimeout ∧ !(s.power.cause == 3 && s.power.temps.any fun t => decide (100 ≤ t)) then
    s.modPower fun p => { p with rails := true, pwrGood := true }
  else s

/-- PWR_EN_RISE. -/
def State.pwrEnRise (s : State) : State :=
  if s.power.pwrEn then s
  else
    let s := s.modPower fun p => { p with pwrEn := true, since := s.timebase }
    if s.power.phase = .inReset then s.railsUp else s

/-- PWR_GOOD_TIMEOUT. -/
def State.pwrGoodTimeout (s : State) : State :=
  if s.power.phase = .inReset ∧ s.power.pwrEn ∧ !s.power.pwrGood ∧ !s.power.pgTimeout ∧ s.power.cause ≠ 3 ∧
      s.power.since.toNat + 20000000 ≤ s.timebase.toNat then
    s.modPower fun p => { p with pgTimeout := true, faultN := true }
  else s

/-- RST_N is asserted (R523, R527, R532). A trip clears, and the next boot still reports it. -/
def State.rstAssert (s : State) : State :=
  let p := s.power
  if p.phase = .unpowered ∨ (!p.rstN ∧ p.phase ≠ .tripped) then s.modPower fun p => { p with rstN := false }
  else
    (s.deviceReset (if p.phase = .tripped then 3 else 2)).modPower fun q => { q with
      rstN := false, trip := false, faultN := q.pgTimeout }

/-- PWR_EN_FALL: as an assertion of RST_N while it is high, and the rails are removed. A board that lowers PWR_EN after a PWR_GOOD
timeout or a rail failure begins the sequence of R522 again, with VIN48 within its limits. -/
def State.pwrEnFall (s : State) : State :=
  if !s.power.pwrEn then s
  else
    let s := if s.power.phase = .tripped then s else s.rstAssert
    s.modPower fun p => { p with
      pwrEn := false, rails := false, pwrGood := false, vin48 := true, pgTimeout := false, faultN := if p.pgTimeout then false else p.faultN }

/-- RAIL_FAILURE: VIN48 is removed or a rail fails (R524, R525). With PWR_EN low it finds the rails removed already, and VIN48 is
back before PWR_EN next rises (R522). -/
def State.railFailure (s : State) : State :=
  if s.power.phase = .unpowered ∨ !s.power.pwrEn then s
  else
    let had := s.power.rails
    let s := if had && s.power.phase != .inReset then s.deviceReset 2 else s
    let s := s.modPower fun p => { p with vin48 := false, rails := false, pwrGood := false }
    if had then s.modPower fun p => { p with pgTimeout := true, faultN := true } else s

/-- TRIP_RAIL_RETURN (R532). -/
def State.tripRailReturn (s : State) : State := if s.power.phase = .inReset ∧ s.power.cause = 3 ∧ !s.power.rails then s.railsUp else s

/-- THERMAL_TRIP (R471): the comparator acts in every phase with VSTBY present. -/
def State.trip (s : State) : State :=
  if s.power.phase = .unpowered ∨ s.power.phase = .tripped then s
  else (s.deviceReset 3).modPower fun p => { p with phase := .tripped, trip := true, rails := false, pwrGood := false }

/-- A sensor reports: THERM_N, and at 120 °C the trip. -/
def State.sense (s : State) (sensor : Nat) (t : Int) : State :=
  if 32 ≤ sensor then s
  else
    let s := s.reading sensor t
    if 120 ≤ t then s.trip else s

/-! ## Booting (R445 to R450) -/

/-- How far the ROM has come in choosing a slot: the flash, FALLBACK, the last reason, the slot chosen. -/
structure BootTry where
  flash : FlashSt
  fallback : Bool
  reason : Nat
  slot : Option Nat
  deriving DecidableEq, Repr

/-- Tries a slot: a TRIAL slot becomes TRYING, or FAILED when it fails; a CONFIRMED one that fails is passed over. -/
def BootTry.attempt (b : BootTry) (k : Nat) : BootTry :=
  if b.slot.isSome then b
  else
    let why := b.flash.check (b.flash.slot k) [0]
    let trial := decide ((b.flash.slot k).state = 2)
    if why = 0 then { b with slot := some k, flash := if trial then b.flash.mark k 3 else b.flash }
    else { b with fallback := true, reason := why, flash := if trial then b.flash.mark k 5 else b.flash }

/-- The slots to try, in order: one in TRIAL, then the CONFIRMED ones, the higher SVN first and slot A between equals. -/
def FlashSt.order (f : FlashSt) : List Nat :=
  let conf := [0, 1].filter fun k => (f.slot k).state == 4
  ([0, 1].filter fun k => (f.slot k).state == 2) ++ (if f.slotA.svn < f.slotB.svn then conf.reverse else conf)

/-- A slot in TRYING did not reach CONFIRMED. -/
def FlashSt.endTrials (f : FlashSt) : FlashSt :=
  [0, 1].foldl (fun f k => if (f.slot k).state = 3 then f.mark k 5 else f) f

def FlashSt.choose (f : FlashSt) : BootTry :=
  let f' := f.endTrials
  f'.order.foldl BootTry.attempt { flash := f', fallback := decide (f ≠ f'), reason := 0, slot := none }

/-- BOOT_FAIL (R447). A failure that R452 gives no code has a free one. -/
def State.bootFails (s : State) (reason : Nat) : State :=
  let (v, s) := s.fresh
  let r := if reason = 0 then v.toNat % 16 else reason
  (s.modPower fun p => { p with phase := .bootFail, faultN := true }).modSec fun x => { x with stage := 7, reason := r }

/-- BOOT_ROM: RST_N is released, or the lookout has reset the device. -/
def State.bootRom (s : State) (strap : BitVec 3) : State :=
  let p := s.power
  if p.phase ≠ .inReset ∨ !p.pwrGood ∨ p.pgTimeout then s
  else
    let s := s.modPower fun p => { p with rstN := true, strap := if p.rstN then p.strap else strap }
    if !s.flash.sfdp then s.bootFails 0
    else
      let b := s.flash.choose
      let s : State := { s with flash := b.flash }
      let s := s.modSec fun x => { x with fallback := b.fallback, reason := b.reason }
      match b.slot with
      | none => s.bootFails b.reason
      | some k =>
        let x := s.flash.slot k
        (s.modPower fun p => { p with phase := .lookout }).modSec fun y => { y with
          stage := 1, slot := k, trial := decide (x.state = 3), svn := x.svn,
          meas := [Config.shake256 Config.romImage, x.compDigest 0, 0, 0, 0] }

/-- The lookout firmware starts: INCARN is raised, by 2 when one copy of the boot state has failed (R423, R524). -/
def State.raiseIncarn (s : State) : State :=
  s.modFlash fun f => { f with incarn := f.incarn + (if f.copyBad then 2 else 1), copyBad := false }

/-- Registers and retired frames taken from the boot flash (R375, R419, R435), and the port enabled. A landing whose retirement log is full
fails (R375, R376). -/
def State.loadConfig (s : State) : State :=
  let f := s.flash
  let w (v : Nat) : W32 := BitVec.ofNat 32 v
  let s := (((s.setReg rEthMacLo (w f.mac.toNat)).setReg rEthMacHi (w (f.mac.toNat / 2 ^ 32))).setReg rEthVlan (w f.vlan.toNat)).setReg
    rEthIp4 f.ip4
  let s := (List.range 4).foldl (fun s i => s.setReg (rEthIp6 i) (w (f.ip6.toNat / 2 ^ (32 * i)))) s
  let s := s.setRegF rEthCfg 0 0 1
  let s : State := { s with landings := s.landings.zipIdx.map fun x =>
    { x.1 with retired := (f.retired.filter fun r => r.1 == x.2).map (·.2) } }
  let s := (s.modEth fun e => { e with link := 1 }).modPower fun p => { p with phase := .running }
  (List.range 12).foldl (fun s l => if retireLog ≤ (s.landing l).retired.length then s.failLanding l none else s) s

/-- The BOOT record (R450). -/
def State.bootEvent (s : State) : State := s.pushEvent kBoot 0 s.bootData

/-- LOOKOUT_BOOT (R446). -/
def State.lookoutBoot (s : State) : State :=
  if s.power.phase ≠ .lookout then s
  else
    let s := s.raiseIncarn
    let k := s.sec.slot
    let x := s.flash.slot k
    if !x.compOk 1 ∨ !x.compOk 2 then (s.modFlash fun f => f.mark k 5).deviceReset 7
    else
      let f := s.flash
      let cfg := Config.shake256 (Config.configRecord f.mac f.vlan f.ip4 f.ip6)
      let s := s.modSec fun y => { y with stage := 3, meas := y.meas.take 2 ++ [x.compDigest 1, x.compDigest 2, cfg] }
      ((s.loadConfig).modPower fun p => { p with faultN := false }).bootEvent

/-! ## FALLOW (R448, R468) -/

/-- The microcode in the flash still has the measurement taken at boot. -/
def State.codeHolds (s : State) : Bool := (s.flash.slot s.sec.slot).compDigest 1 == s.sec.meas.getD 2 0

/-- FALLOW_EXIT: a reset that keeps the running firmware, its slot and measurements, FAB_ID and FAB_SPACE. -/
def State.fallowExit (s : State) : State :=
  if s.power.phase = .running ∧ s.power.rung = 4 ∧ s.power.busy ∧ s.power.vin48 then
    if !s.codeHolds then s.fatalReset
    else
      let t := (s.deviceReset 4).raiseIncarn
      let t : State := { t with sec := { SecSt.reset with
        stage := s.sec.stage, slot := s.sec.slot, trial := s.sec.trial, fallback := s.sec.fallback, reason := s.sec.reason, svn := s.sec.svn,
        meas := s.sec.meas } }
      let t := ((t.setReg rFabId (s.reg rFabId)).setReg rFabSpace (s.reg rFabSpace)).modFab fun f => { f with idSet := s.fab.idSet }
      let t := t.loadConfig.modPower fun p => { p with rails := true, pwrGood := true }
      t.rungChanged.bootEvent
  else s

/-! ## I3C addressing (R528) -/

/-- A dynamic address is taken while the device answers on I3C. -/
def State.i3cAddress (s : State) (a : BitVec 7) : State :=
  if s.power.phase = .unpowered ∨ (!s.power.rstN ∧ !s.power.pgTimeout) then s else s.modPower fun p => { p with dynAddr := some a }

/-! ## The commands -/

def execPowerOn (s : State) : Host.Outcome State Fault Refusal := .next s.powerOn
def execPwrEnRise (s : State) : Host.Outcome State Fault Refusal := .next s.pwrEnRise
def execPwrGoodTimeout (s : State) : Host.Outcome State Fault Refusal := .next s.pwrGoodTimeout
def execPwrEnFall (s : State) : Host.Outcome State Fault Refusal := .next s.pwrEnFall
def execResetAssert (s : State) : Host.Outcome State Fault Refusal := .next s.rstAssert
def execBootRom (strap : BitVec 3) (s : State) : Host.Outcome State Fault Refusal := .next (s.bootRom strap)
def execLookoutBoot (s : State) : Host.Outcome State Fault Refusal := .next s.lookoutBoot
def execLookoutWatchdog (s : State) : Host.Outcome State Fault Refusal := .next s.watchdog
def execFallowExit (s : State) : Host.Outcome State Fault Refusal := .next s.fallowExit
def execThermalWarn (sensor : Nat) (temp : Int) (s : State) : Host.Outcome State Fault Refusal := .next (s.sense sensor temp)
def execThermalTrip (sensor : Nat) (temp : Int) (s : State) : Host.Outcome State Fault Refusal :=
  .next (if 120 ≤ temp then s.sense sensor temp else s)
def execDeviceFatal (s : State) : Host.Outcome State Fault Refusal := .next s.deviceFatal
def execVstbyLoss (s : State) : Host.Outcome State Fault Refusal := .next s.vstbyLoss
def execRailFailure (s : State) : Host.Outcome State Fault Refusal := .next s.railFailure
def execTripRailReturn (s : State) : Host.Outcome State Fault Refusal := .next s.tripRailReturn
def execI3cDynamicAddressing (addr : BitVec 7) (s : State) : Host.Outcome State Fault Refusal := .next (s.i3cAddress addr)

end Sys2Proof.Machine
end

