-- ==== Sys2Proof/Machine/Security.lean ====
section
/-! DEFINITION. Machine/Security.lean: attestation, firmware update, the owner key and the debug unlock (R437 to R458). -/

namespace Sys2Proof.Machine

/-! ## Fields (R438, R441) -/

/-- A signature field: the length, the signature, zeros to 1,536 bytes. -/
def sigField (b : List Byte) : List Byte :=
  let b := b.take 1462
  leBytes 2 b.length ++ b ++ List.replicate (1534 - b.length) 0

/-- Certificate bytes [1855:0]. -/
def State.certBody (s : State) : List Byte :=
  leBytes 4 1 ++ leBytes 16 s.flash.uid.toNat ++ leBytes 4 0xA0 ++ leBytes 8 Config.certDate.toNat ++
  (List.range 1793).map Config.identityKey ++ List.replicate 31 0

/-- The device certificate. -/
def State.certificate (s : State) : List Byte :=
  s.certBody ++ sigField (Config.certSign (signedMsg "QJ-DVCRT" s.certBody))

/-! ## Attestation (R451) -/

def State.ownerDigest (s : State) : Nat := match s.flash.owner with | some d => d.toNat | none => 0

/-- The 512-byte report. -/
def State.attestReport (s : State) (nonce : List Byte) : List Byte :=
  leBytes 4 1 ++ nonce ++ leBytes 16 s.flash.uid.toNat ++ leBytes 4 s.dev ++ leBytes 4 s.flash.incarn.toNat ++
  leBytes 8 s.timebase.toNat ++ leBytes 1 s.flash.arb ++ leBytes 1 s.sec.svn ++ leBytes 1 s.sec.slot ++
  leBytes 1 ((if s.flash.owner.isSome then 1 else 0) + (if s.sec.jtagOpen then 2 else 0) + (if s.sec.trial then 4 else 0)) ++
  (s.sec.meas.take 5).flatMap (fun m => leBytes 64 m.toNat) ++ leBytes 64 s.ownerDigest ++ List.replicate 56 0

def State.attest (s : State) (q : Nat) (sess : W32) (c : QCmd) : State :=
  let p := c.payload
  if p.length ≠ 33 ∨ 1 < leAt p 32 1 then s.complete q sess c stBadParam []
  else
    let r := s.attestReport (p.take 32)
    let (v, s) := s.fresh
    let sig := sigField (Config.falconSign v (signedMsg "QJ-ATTST" r))
    s.complete q sess c stOk (r ++ sig ++ (if leAt p 32 1 = 1 then s.certificate else []))

/-! ## Firmware update (R452 to R454) -/

/-- A check has failed: it is counted and reported, and the command completes DENIED with its reason. -/
def State.deny (s : State) (q : Nat) (sess : W32) (c : QCmd) (why : Nat) : State :=
  let s := (s.modSec fun x => { x with reason := why }).errBump rErrSecAuth
  let (v, s) := s.fresh
  (s.raise srcSec kError 0x0171 4 v.toNat).complete q sess c stDenied (leBytes 1 why)

/-- An operation that the boot or the staging does not allow, for which R452 names no reason: the reason is free. -/
def State.denyOpen (s : State) (q : Nat) (sess : W32) (c : QCmd) : State :=
  let (v, s) := s.fresh
  s.complete q sess c stDenied (leBytes 1 (v.toNat % 256))

/-- The shape of an operation without a payload. -/
def bareOp (p : List Byte) : Bool := p.length == 1

def State.otherSlot (s : State) : Nat := 1 - s.sec.slot

/-- BEGIN. -/
def State.fwBegin (s : State) (q : Nat) (sess : W32) (c : QCmd) : State :=
  let p := c.payload
  if p.length ≠ 8 ∨ leAt p 0 1 ≠ 0 ∨ !zeroAt p 1 3 then s.complete q sess c stBadParam []
  else if s.sec.staging.isSome then s.complete q sess c stBusy []
  else if 2 ^ 24 < leAt p 4 4 then s.deny q sess c whyFormat
  else
    let s := s.modFlash fun f => f.modSlot s.otherSlot fun _ => { state := 0, image := [] }
    let g : Staging := { slot := s.otherSlot, session := sess, len := leAt p 4 4 }
    (s.modSec fun x => { x with staging := some g, committed := false }).complete q sess c stOk []

/-- DATA. -/
def State.fwData (s : State) (q : Nat) (sess : W32) (c : QCmd) : State :=
  let p := c.payload
  if p.length < 8 ∨ 8192 < p.length ∨ !zeroAt p 1 3 then s.complete q sess c stBadParam []
  else match s.sec.staging with
    | none => s.denyOpen q sess c
    | some g =>
      if g.len < leAt p 4 4 + (p.length - 8) then s.deny q sess c whyFormat
      else
        let put (x : FlashSlot) : FlashSlot := { x with image := memWrite x.image (leAt p 4 4) (p.drop 8) }
        (s.modFlash fun f => f.modSlot g.slot put).complete q sess c stOk []

/-- COMMIT. -/
def State.fwCommit (s : State) (q : Nat) (sess : W32) (c : QCmd) : State :=
  if !bareOp c.payload then s.complete q sess c stBadParam []
  else match s.sec.staging with
    | none => s.denyOpen q sess c
    | some g =>
      let why := s.flash.check (s.flash.slot g.slot) [0, 1, 2]
      if why ≠ 0 then s.deny q sess c why
      else ((s.modFlash fun f => f.mark g.slot 2).modSec fun x => { x with staging := none, committed := true }).complete q sess c stOk []

/-- Raises the counter to the running SVN, and completes. -/
def State.raiseArb (s : State) (q : Nat) (sess : W32) (c : QCmd) : State :=
  if 128 ≤ s.flash.arb then s.deny q sess c whyFull
  else (s.modFlash fun f => { f with arb := Nat.max f.arb s.sec.svn }).complete q sess c stOk []

/-- CONFIRM. -/
def State.fwConfirm (s : State) (q : Nat) (sess : W32) (c : QCmd) : State :=
  if !bareOp c.payload then s.complete q sess c stBadParam []
  else if !s.sec.trial then s.denyOpen q sess c
  else
    let k := s.sec.slot
    let x := s.flash.slot k
    let confirm (f : FlashSt) : FlashSt :=
      let f := f.mark k 4
      let f := if (f.slot (1 - k)).state = 4 then f.mark (1 - k) 1 else f
      { f with revoked := f.revoked ||| BitVec.ofNat 4 x.revoke }
    ((s.modFlash confirm).modSec fun y => { y with trial := false }).raiseArb q sess c

/-- RAISE. -/
def State.fwRaise (s : State) (q : Nat) (sess : W32) (c : QCmd) : State :=
  if !bareOp c.payload then s.complete q sess c stBadParam []
  else if (s.flash.slot s.sec.slot).state ≠ 4 then s.denyOpen q sess c
  else s.raiseArb q sess c

/-- ABORT. -/
def State.fwAbort (s : State) (q : Nat) (sess : W32) (c : QCmd) : State :=
  if !bareOp c.payload then s.complete q sess c stBadParam []
  else match s.sec.staging with
    | none => s.denyOpen q sess c
    | some g =>
      ((s.modFlash fun f => f.modSlot g.slot fun _ => { state := 0, image := [] }).modSec fun x => { x with staging := none }).complete
        q sess c stOk []

/-- OWNER_ENROL (R455). -/
def State.ownerEnrol (s : State) (q : Nat) (sess : W32) (c : QCmd) : State :=
  let p := c.payload
  let key := (p.drop 1).take 1793
  if p.length ≠ 3585 then s.complete q sess c stBadParam []
  else if !s.regBit rSecCtrl 0 then s.deny q sess c whyUnarmed
  else if s.flash.owner.isSome then s.deny q sess c whyEnrolled
  else if !sigHolds key (p.drop 2049) "QJ-OWNER" (key ++ leBytes 16 s.flash.uid.toNat) then s.deny q sess c whySig
  else
    let s := (s.modFlash fun f => { f with owner := some (Config.shake256 key) }).setRegF rSecCtrl 0 0 0
    s.complete q sess c stOk []

/-! ## JTAG (R456, R457) -/

/-- The TAP answers while the device is not held in reset. -/
def State.tapOn (s : State) : Bool :=
  s.power.phase == .running || s.power.phase == .lookout || s.power.phase == .bootFail

/-- JTAG_UNLOCK_CHALLENGE: UNLOCK_CHAL is read. -/
def State.jtagChallenge (s : State) : State :=
  if !s.tapOn then s
  else if !s.regBit rSecCtrl 1 then s.modSec fun x => { x with jtagOut := List.replicate 49 0 }
  else
    let (a, s) := s.fresh
    let (b, s) := s.fresh
    let (c, s) := s.fresh
    let (d, s) := s.fresh
    let ch : BitVec 256 := BitVec.ofNat 256 (a.toNat + b.toNat * 2 ^ 64 + c.toNat * 2 ^ 128 + d.toNat * 2 ^ 192)
    s.modSec fun x => { x with
      challenge := some (ch, s.timebase), jtagOut := leBytes 32 ch.toNat ++ leBytes 16 s.flash.uid.toNat ++ [1] }

/-- The key of a response may unlock: the owner's once enrolled, before that an unrevoked firmware key. -/
def State.unlockKey (s : State) (key : List Byte) : Bool :=
  let d := Config.shake256 key
  match s.flash.owner with
  | some o => d == o
  | none => (List.range 4).any fun k => d == Config.romDigest k && !s.flash.revoked.getLsbD k

/-- JTAG_UNLOCK_RESPONSE: 3,584 bytes shifted into UNLOCK_RESP. -/
def State.jtagResponse (s : State) (b : List Byte) : State :=
  if !s.tapOn || !s.regBit rSecCtrl 1 || b.length != 3584 || decide (3 ≤ s.sec.jtagFails) then s
  else
    let key := b.take 1793
    let ok : Bool := match s.sec.challenge with
      | some (ch, t) =>
        decide (s.timebase.toNat ≤ t.toNat + 60000000000) && s.unlockKey key &&
        sigHolds key (b.drop 2048) "QJ-JTAGU" (leBytes 32 ch.toNat ++ leBytes 16 s.flash.uid.toNat ++ [1])
      | none => false
    if ok then
      let s := s.modSec fun x => { x with jtagOpen := true }
      let (v, s) := s.fresh
      s.raise srcSec kError 0x0170 4 v.toNat
    else (s.modSec fun x => { x with jtagFails := x.jtagFails + 1 }).errBump rErrSecJtag

/-! ## The commands -/

/-- A FW_UPDATE row acts on its own operation code; of an unknown code, or none, BEGIN's completes BAD_PARAM. -/
def State.fwRow (s : State) (q op : Nat) (payload : List Byte) (f : State → W32 → QCmd → State) : State :=
  if leAt payload 0 1 = op ∨ (op = 0 ∧ 6 < leAt payload 0 1) then s.hostDo q 0x31 payload f else s

def execAttest (q : Nat) (payload : List Byte) (s : State) : Host.Outcome State Fault Refusal :=
  .next (s.hostDo q 0x30 payload fun s n c => s.attest q n c)
def execFwBegin (q : Nat) (payload : List Byte) (s : State) : Host.Outcome State Fault Refusal :=
  .next (s.fwRow q 0 payload fun s n c => s.fwBegin q n c)
def execFwData (q : Nat) (payload : List Byte) (s : State) : Host.Outcome State Fault Refusal :=
  .next (s.fwRow q 1 payload fun s n c => s.fwData q n c)
def execFwCommit (q : Nat) (payload : List Byte) (s : State) : Host.Outcome State Fault Refusal :=
  .next (s.fwRow q 2 payload fun s n c => s.fwCommit q n c)
def execFwConfirm (q : Nat) (payload : List Byte) (s : State) : Host.Outcome State Fault Refusal :=
  .next (s.fwRow q 3 payload fun s n c => s.fwConfirm q n c)
def execFwRaise (q : Nat) (payload : List Byte) (s : State) : Host.Outcome State Fault Refusal :=
  .next (s.fwRow q 4 payload fun s n c => s.fwRaise q n c)
def execOwnerEnrol (q : Nat) (payload : List Byte) (s : State) : Host.Outcome State Fault Refusal :=
  .next (s.fwRow q 5 payload fun s n c => s.ownerEnrol q n c)
def execFwAbort (q : Nat) (payload : List Byte) (s : State) : Host.Outcome State Fault Refusal :=
  .next (s.fwRow q 6 payload fun s n c => s.fwAbort q n c)
def execJtagUnlockChallenge (s : State) : Host.Outcome State Fault Refusal := .next s.jtagChallenge
def execJtagUnlockResponse (bytes : List Byte) (s : State) : Host.Outcome State Fault Refusal := .next (s.jtagResponse bytes)

end Sys2Proof.Machine
end

