-- ==== Sys2Proof/Machine/Errors.lean ====
section
/-! DEFINITION. Machine/Errors.lean: cell restart (R482, R483, R491, R513), the forwarding of reports (R477), and the clearing of the error
counters (R486). -/

namespace Sys2Proof.Machine

/-! ## Cell restart -/

/-- A request that a restart of its cell deletes: one that has not left the cell, but for write-backs and for a write that has been sent and
redirected, which continues (R319). -/
def Req.dropped (r : Req) : Bool :=
  (r.stage == .queued || r.stage == .window || r.stage == .walking) && !(r.wb || (r.isWrite && r.redirects != 0))

/-- A cell's requests at its restart: every slot is released, and what comes for a read is discarded (R167, R491). -/
def State.dropRequests (s : State) (c : Nat) : State :=
  let reqs := (s.reqs.filter fun r => !(r.who == .maint c) && !(r.ofCell c && r.dropped)).map fun r =>
    if r.ofCell c then { r with keys := [], cache := false, noFill := 1, prog := 0, slot := false } else r
  let wanted (w : Walk) : Bool := reqs.any fun r => (r.ofCell c) && r.stage == .walking && r.handle == w.handle && r.plot == w.plot
  { s with reqs := reqs, walks := s.walks.filter fun w => w.cell != c || wanted w }

/-- A slot at a restart (R316). -/
def Thread.restart (tick : W32) (t : Thread) : Thread :=
  if t.state = .free then t
  else { t with state := .failed, reason := 2, entered := tick, fence := none, wake := none, timed := false, starved := false, readyTicks := 0 }

/-- A cell at a restart: everything as at reset but its slots, ticks, barrier episodes and items (R513). -/
def CellSt.restart (x : CellSt) (mode : CellMode) (starts : List W64) (now : W64) : CellSt :=
  { CellSt.reset with
    threads := x.threads.map (Thread.restart x.tick), tick := x.tick, queue := x.queue, held := x.held, taken := x.taken,
    bars := x.bars, mode := mode, restarts := starts, idleSince := now, cycAcc := x.cycAcc, launches := x.launches }

/-- How long a restart counts, in ns. -/
def restartWindow : Nat := 10000000000

/-- The restarts of a cell within the last 10 s. -/
def State.recentRestarts (s : State) (c : Nat) : List W64 :=
  (s.cell c).restarts.filter fun t => decide (s.timebase.toNat < t.toNat + restartWindow)

/-- Steps 1 to 6 of a restart, which end at CELL_RESTART_COMPLETE; a third one within 10 s leaves the cell OFFLINE. -/
def State.cellRestart (s : State) (c : Nat) : State :=
  if s.power.phase ≠ .running ∨ s.power.rung = 4 ∨ 192 ≤ c ∨ (s.cell c).mode = .offline then s
  else
    let starts := s.recentRestarts c ++ [s.timebase]
    let s := (s.errBump (rErrRestart c)).abortPrograms c
    let s := ((s.dropRequests c).flushCache c).barCellRestart c
    let s := [0x108, 0x10C, 0x110, 0x114].foldl (fun s o => s.setReg (rCell c o) 0) s
    if 3 ≤ starts.length then
      let s := (s.modCell c fun x => x.restart .offline starts s.timebase).requeueCell c
      let (v, s) := s.fresh
      (s.seeClass 2).raise (srcCell c) kError 0x0115 2 v.toNat
    else s.modCell c fun x => x.restart .restarting starts s.timebase

/-- A parity error in a cell's own state is reported before its restart (R480). -/
def State.parityError (s : State) (c : Nat) : State :=
  if s.power.phase = .running ∧ s.power.rung ≠ 4 ∧ c < 192 ∧ (s.cell c).mode ≠ .offline then
    let (v, s) := s.fresh
    (s.seeClass 2).raise (srcCell c) kError 0x0114 2 v.toNat
  else s

/-- CELL_RESTART_COMPLETE: the microcode is checked (R448), the items are queued again and the crossings reopen. -/
def State.restartDone (s : State) (c : Nat) : State :=
  if s.power.phase ≠ .running ∨ 192 ≤ c ∨ (s.cell c).mode ≠ .restarting then s
  else if !s.codeHolds then s.fatalReset
  else (s.requeueCell c).modCell c fun x => { x with mode := .running, idleSince := s.timebase }

/-! ## Reports (R477) -/

/-- A field supervisor forwards its oldest report. -/
def State.forward (s : State) (f : Nat) : State :=
  if s.power.phase ≠ .running then s
  else match s.supQ.find? fun x => x.1 == f with
    | none => s
    | some x => { s with supQ := s.supQ.eraseP fun y => y.1 == f }.lookoutReport x.2

/-! ## Error counters (R486) -/

/-- Every error counter of the device is cleared at one instant. -/
def State.clearErrs (s : State) : State := { s with regs := s.regs.filter fun e => !isErrCnt e.1 }

/-! ## The commands -/

def execCellRestart (c : Nat) (parity : Bool) (s : State) : Host.Outcome State Fault Refusal :=
  .next ((if parity then s.parityError c else s).cellRestart c)
def execCellRestartComplete (c : Nat) (s : State) : Host.Outcome State Fault Refusal := .next (s.restartDone c)
def execReportForward (field : Nat) (s : State) : Host.Outcome State Fault Refusal := .next (s.forward field)
def execErrCntClr (s : State) : Host.Outcome State Fault Refusal := .next (if s.power.phase = .running then s.clearErrs else s)

end Sys2Proof.Machine
end

