-- ==== Sys2Proof/Machine/MData.lean ====
section
/-! DEFINITION. Machine/MData.lean: what the dense array computes (R42 to R45, R171, R176, R195 to R214, R249): block sums, travelling sums
and foot adds, the drain of a row, and the foot reductions. -/

namespace Sys2Proof.Machine

/-! ## Geometry (R171, R176) -/

/-- A unit of the array: the whole array, or one quarter of it. -/
structure Geo where
  quarter : Bool
  u : Nat
  deriving DecidableEq, Repr

/-- Rows and columns of the unit, N. -/
def Geo.n (g : Geo) : Nat := if g.quarter then 64 else 128
/-- The unit's first row and column of the tile. -/
def Geo.row0 (g : Geo) : Nat := if g.quarter then 64 * (g.u / 2) else 0
def Geo.col0 (g : Geo) : Nat := if g.quarter then 64 * (g.u % 2) else 0
/-- K for a format. -/
def Geo.k (g : Geo) (fmt : Nat) : Nat := if fmt = 0 then 2 * g.n else g.n
/-- Chain additions of one row (R196), and groups of a row (R249). -/
def Geo.blocks (g : Geo) : Nat := g.n / 8
/-- Bytes of `n` elements of a format. -/
def packedBytes (fmt n : Nat) : Nat := n * fmtBits fmt / 8
/-- Elements of a block, 8 processing-element rows (R195). -/
def blockLen (fmt : Nat) : Nat := if fmt = 0 then 16 else 8
/-- Scale bytes of an activation row, and of a weight tile (R174, R181). -/
def Geo.rowScales (g : Geo) (fmt : Nat) : Nat := if fmt = 5 then 1 else if fmt = 6 then g.n / 32 else 0
def Geo.tileScales (g : Geo) (fmt : Nat) : Nat := if fmt = 5 then g.n else if fmt = 6 then g.n * (g.n / 32) else 0
/-- Cell cycles between rows (R190). -/
def rowCycles (fmt : Nat) : Nat := if fmt = 7 ∨ fmt = 8 then 4 else 1

/-- The elements of packed bytes. -/
def elems (fmt n : Nat) (b : List Byte) : List Nat := unpack (fmtBits fmt) n (leNat b)

/-- The columns of a weight tile, each cut into the blocks of its K elements. -/
def weightCols (g : Geo) (fmt : Nat) (data : List Byte) : List (List (List Nat)) :=
  let rows := chunks g.n (g.k fmt) (elems fmt (g.k fmt * g.n) data)
  (List.range g.n).map fun j => chunks (blockLen fmt) (g.k fmt) (rows.map fun r => r.getD j 0)

/-! ## Sums (R43, R44, R195, R197, R204) -/

/-- A product of an activation and a weight, exact (R43), by the table for L formats (R28). -/
def prodOf (fmt a b : Nat) : FVal := if fmtIsL fmt then lProd (fmtL fmt) a b else (elemVal fmt a).mul (elemVal fmt b)

/-- The exact sum of a block's products; an infinity or a NaN makes it no number (R44). -/
def blockSum (fmt : Nat) (x w : List Nat) : FVal := (x.zip w).foldl (fun acc p => acc.add (prodOf fmt p.1 p.2)) FVal.zero

/-- Rounded into FP32, saturating, and whether it overflowed; no number gives the NaN of R44. -/
def roundAcc : FVal → W32 × Bool
  | .fin n m e => let r := fEncodeSat fp32 n m e; (BitVec.ofNat 32 r.1, r.2)
  | _ => (qnan, false)

/-- One rounded addition. -/
def accAdd (a b : W32) : W32 × Bool := roundAcc ((f32Val a).add (f32Val b))

/-- The rounded sum of block `b` of a row and a column, with the scale of that block. -/
def blockRound (fmt : Nat) (sc : Nat → Int) (x w : List (List Nat)) (b : Nat) : W32 × Bool :=
  roundAcc ((blockSum fmt (x.getD b []) (w.getD b [])).scale (sc b))

/-- The travelling sum of a row and a column, from the first block to the last (R195). -/
def travel (fmt : Nat) (sc : Nat → Int) (x w : List (List Nat)) : W32 × Bool :=
  (List.range (x.length - 1)).foldl (fun (acc : W32 × Bool) b =>
    let r := blockRound fmt sc x w (b + 1)
    let a := accAdd acc.1 r.1
    (a.1, acc.2 || r.2 || a.2)) (blockRound fmt sc x w 0)

/-- The exact integer sum of a row and a column, or of one of its blocks. -/
def intSum (fmt : Nat) (x w : List Nat) : Int :=
  (x.zip w).foldl (fun acc p => acc + signed (fmtBits fmt) p.1 * signed (fmtBits fmt) p.2) 0

/-- The saturating INT32 add (R204). -/
def intAcc (a : W32) (i : Int) : W32 × Bool := let r := satInt 32 (a.toInt + i); (BitVec.ofNat 32 r.1, r.2)

/-- What one row of an MMUL does to one element: its new value, an overflow, and whether a NaN or infinity entered. -/
structure Foot where
  v : W32
  ovf : Bool
  nan : Bool
  deriving DecidableEq, Repr

/-- The element as the foot finds it: a preloaded infinity or NaN becomes the NaN of R44 at its first MMUL (R179). -/
def footIn (first : Bool) (a : W32) : Foot :=
  if (f32Val a).isFinite then { v := a, ovf := false, nan := false } else { v := qnan, ovf := false, nan := first || a != qnan }

/-- A foot add. An element that is, or becomes, a NaN does not overflow (R204). -/
def footAdd (f : Foot) (r : W32 × Bool) : Foot :=
  let a := accAdd f.v r.1
  { v := a.1, ovf := f.ovf || (!f32IsNan a.1 && (r.2 || a.2)), nan := f.nan || f32IsNan r.1 }

def footInt (f : Foot) (i : Int) : Foot := let a := intAcc f.v i; { f with v := a.1, ovf := f.ovf || a.2 }

/-- One element of a dense row. -/
def denseElem (fmt : Nat) (sc : Nat → Int) (x w : List (List Nat)) (first : Bool) (a : W32) : Foot :=
  if fmtIsInt fmt then footInt { v := a, ovf := false, nan := false } (intSum fmt x.flatten w.flatten)
  else footAdd (footIn first a) (travel fmt sc x w)

/-- One element of a sparse row: the sums of the row's non-zero groups, in the order of their arrival (R251, R252). -/
def sparseElem (fmt : Nat) (sc : Nat → Int) (x w : List (List Nat)) (order : List Nat) (first : Bool) (a : W32) : Foot :=
  if order.isEmpty then { v := a, ovf := false, nan := false }
  else if fmtIsInt fmt then
    order.foldl (fun f b => footInt f (intSum fmt (x.getD b []) (w.getD b []))) { v := a, ovf := false, nan := false }
  else order.foldl (fun f b => footAdd f (blockRound fmt sc x w b)) (footIn first a)

/-- The non-zero groups of a row (R249). -/
def nzGroups (fmt : Nat) (x : List (List Nat)) : List Nat :=
  (x.zipIdx.filter fun g => g.1.any fun e => !elemZero fmt e).map (·.2)

/-! ## The slabs of a sparse pass (R251, R252, R254) -/

/-- t₀ of R254, from the non-zero groups of the rows. -/
def slabTime (fmt blocks : Nat) (nz : List (List Nat)) : Nat :=
  let nmax := ((List.range blocks).map fun b => (nz.filter fun l => l.contains b).length).foldl Nat.max 0
  rowCycles fmt * Nat.max nmax (ceilDiv (nz.filter fun l => !l.isEmpty).length 4) + ceilDiv nz.length 8

/-- A sparse pass under way: the rows queued at each slab, the cell cycle from which each slab may present its next sum, the slabs whose
sum was held in the last cycle, the sums that the foot has accepted, row and slab, in order, and the holds so far. -/
structure SlabRun where
  queues : List (List Nat)
  ready : List Nat
  held : List Nat
  took : List (Nat × Nat)
  holds : Nat
  deriving DecidableEq, Repr

/-- The row whose sum slab `g` presents in cell cycle `t`: the first of its queue, once it is scanned, 8 rows to a cycle, within 64 rows of
the oldest that is not done. A slab that can still end by `last` idles where `idle` says so, unless its sum was held. -/
def SlabRun.shows (q : SlabRun) (r last t : Nat) (idle : W64) (g : Nat) : Option Nat :=
  let rows := q.queues.getD g []
  let oldest := (q.queues.filterMap List.head?).foldl Nat.min (rows.headD 0)
  let waits := idle.getLsbD g && decide (t + r * rows.length < last) && !q.held.contains g
  rows.head?.filter fun i => decide (q.ready.getD g 0 ≤ t) && decide (i < 8 * (t + 1)) && decide (i < oldest + 64) && !waits

/-- A cell cycle: of the rows presented the foot takes the 4 lowest, and every other sum is held (R252). -/
def SlabRun.cycle (q : SlabRun) (r last t : Nat) (idle : W64) : SlabRun :=
  let shown := (List.range q.queues.length).filterMap fun g => (q.shows r last t idle g).map fun i => (i, g)
  let rows := (shown.map (·.1)).eraseDups
  let (into, late) := shown.partition fun p => decide ((rows.filter (· < p.1)).length < 4)
  { queues := into.foldl (fun l p => modAt p.2 (List.drop 1) l) q.queues,
    ready := into.foldl (fun l p => modAt p.2 (fun _ => t + r) l) q.ready,
    held := late.map (·.2), took := q.took ++ into, holds := q.holds + late.length }

/-- The cycles of a pass from `t`, until every queue is empty; `free` numbers the free values that say which slabs idle. -/
def SlabRun.run (r last free : Nat) : Nat → Nat → SlabRun → SlabRun
  | 0, _, q => q
  | fuel + 1, t, q =>
    if q.queues.all List.isEmpty then q else SlabRun.run r last free fuel (t + 1) (q.cycle r last t (Config.freeWord (free + t)))

/-- The pass of rows with some non-zero groups through the slabs of a unit. -/
def slabPass (fmt blocks : Nat) (nz : List (List Nat)) (free : Nat) : SlabRun :=
  let last := slabTime fmt blocks nz + 16
  SlabRun.run (rowCycles fmt) last free (last + rowCycles fmt * nz.length * (blocks + 1)) 0
    { queues := (List.range blocks).map fun g => (nz.zipIdx.filter fun e => e.1.contains g).map (·.2),
      ready := List.replicate blocks 0, held := [], took := [], holds := 0 }

/-- The order in which the foot accepts the sums of row `i`. -/
def SlabRun.order (q : SlabRun) (i : Nat) : List Nat := (q.took.filter fun p => p.1 == i).map (·.2)

/-- An arrangement of a list picked by a number. -/
def arrange {α : Type} : Nat → Nat → List α → List α
  | 0, _, _ => []
  | n + 1, w, l =>
    match l[w % l.length]? with
    | some a => a :: arrange n (w / l.length) (l.eraseIdx (w % l.length))
    | none => []

/-- The formats that a tile's CLASS accepts (R177). -/
def clsAccepts (cls fmt : Nat) : Bool :=
  match cls with
  | 1 => fmtIsArray fmt && !fmtIsInt fmt
  | 2 => fmtIsArray fmt && !fmtIsInt fmt && !fmtIsScaled fmt
  | 3 => fmt == 5
  | 4 => fmt == 6
  | 5 => fmtIsInt fmt
  | _ => false

/-- The CLASS that the first MMUL sets. -/
def clsOf (cls fmt : Nat) : Nat := if cls ≠ 1 then cls else if fmt = 5 then 3 else if fmt = 6 then 4 else 2

/-! ## The predictor's sketches (R260, R261) -/

/-- A code of a sketch as FP32: its value by the table of R28, with its scale. -/
def sketchVal (codes scales : List Byte) (per i : Nat) : W32 := f32 ((lVal l8 (codes.getD i 0).toNat).scale (scales.getD (i / per) 0).toInt)

/-- A sum of products in FP32, each operation rounded, in an order picked by a number (log entry 35, DESIGN CHOICE). -/
def dotF32 (order : Nat) (l : List (W32 × W32)) : W32 :=
  match (arrange l.length order l).map fun p => f32Mul p.1 p.2 with
  | [] => 0
  | v :: t => t.foldl f32Add v

/-- Whether some row of a block of sketches scores above θ: P = A · U and s = P · V over the rows of A, each of 128 elements; `parts` are
the bytes of U, its scales, V and its scales. -/
def blockActive (a : List W32) (parts : List (List Byte)) (theta : W32) (b : Nat) : Bool :=
  let part (i : Nat) : List Byte := parts.getD i []
  let u (t k : Nat) : W32 := sketchVal (part 0) (part 1) 32 (128 * k + t)
  let v (k j : Nat) : W32 := sketchVal (part 2) (part 3) 16 (16 * j + k)
  (List.range (a.length / 128)).any fun i =>
    let p := (List.range 16).map fun k => dotF32 (Config.sketchOrder 0) ((List.range 128).map fun t => (a.getD (128 * i + t) 0, u t k))
    (List.range 128).any fun j =>
      f32Cmp 4 (dotF32 (Config.sketchOrder 1) (p.zipIdx.map fun e => (e.1, v e.2 (128 * b + j)))) theta

/-! ## Extended values (R208, R211) -/

/-- Rounded to a 24-bit significand, the exponent unlimited. -/
def FVal.round24 : FVal → FVal
  | .fin n m e => let k := Nat.log2 m - 23; .fin n (roundShift m k) (e + k)
  | v => v

/-- A finite value over a number, with a sticky bit far below any rounding point. -/
def quot (n : Bool) (m : Nat) (e : Int) (d : Nat) : FVal :=
  let s := 64 + Nat.log2 d
  .fin n (2 * (m * 2 ^ s / d) + (if m * 2 ^ s % d = 0 then 0 else 1)) (e - s - 1)

def FVal.divNat (d : Nat) : FVal → FVal
  | .fin n m e => quot n m e d
  | v => v

/-- Written as FP32, saturating, and whether it saturated (R211). -/
def writeF32 : FVal → W32 × Bool
  | .fin n m e => let r := fEncodeSat fp32 n m e; (BitVec.ofNat 32 r.1, r.2)
  | v => (f32 v, false)

/-- Whether a finite value lies above the FP32 maximum. -/
def aboveF32 : FVal → Bool
  | .fin _ m e => magLt (2 ^ 24 - 1) 104 m e
  | _ => false

/-! ## Reductions (R210 to R214) -/

/-- Adjacent nodes combined. -/
def pairs {α : Type} (f : α → α → α) : List α → List α
  | a :: b :: t => f a b :: pairs f t
  | l => l

/-- The tree over a list of 2^levels leaves. -/
def tree {α : Type} (f : α → α → α) : Nat → List α → List α
  | 0, l => l
  | n + 1, l => tree f n (pairs f l)

def add24 (a b : FVal) : FVal := (a.add b).round24
def mul24 (a b : FVal) : FVal := (a.mul b).round24

/-- The merge of R212: (count, mean, M2). -/
def mergeMv (a b : Nat × FVal × FVal) : Nat × FVal × FVal :=
  if b.1 = 0 then a
  else if a.1 = 0 then b
  else
    let n := a.1 + b.1
    let d := add24 b.2.1 a.2.1.neg
    let mean := add24 a.2.1 (mul24 d (quot false b.1 0 n).round24)
    (n, mean, add24 (add24 a.2.2 b.2.2) (mul24 (mul24 d d) (quot false (a.1 * b.1) 0 n).round24))

/-- The results of a reduction of one row: RED 1 ROWSUM, 2 ROWSUMSQ, 3 MEANVAR over the first `rw` of `n` columns. -/
def reduceFloat (red rw n : Nat) (z : List FVal) : List (W32 × Bool) :=
  let leaf (j : Nat) : FVal := if j < rw then z.getD j .zero else .zero
  let leaves := (List.range n).map leaf
  match red with
  | 1 => [writeF32 ((tree add24 7 leaves).headD .zero)]
  | 2 => [writeF32 ((tree add24 7 (leaves.map fun v => mul24 v v)).headD .zero)]
  | 3 =>
    if rw = 0 then [(qnanEmpty, false), (qnanEmpty, false)]
    else
      let nodes := (List.range n).map fun j => if j < rw then (1, leaf j, FVal.zero) else (0, FVal.zero, FVal.zero)
      let r := (tree mergeMv 7 nodes).headD (0, .zero, .zero)
      [writeF32 r.2.1, writeF32 (r.2.2.divNat rw).round24]
  | _ => []

/-- The same from integers, exact and rounded once (R213). -/
def reduceInt (red rw : Nat) (z : List Int) : List (W32 × Bool) :=
  let z := z.take rw
  let sum := z.foldl (· + ·) 0
  let sq := z.foldl (fun acc i => acc + i * i) 0
  match red with
  | 1 => [writeF32 (FVal.ofInt sum)]
  | 2 => [writeF32 (FVal.ofInt sq)]
  | 3 =>
    if rw = 0 then [(qnanEmpty, false), (qnanEmpty, false)]
    else
      let v : Int := rw * sq - sum * sum
      [writeF32 (quot (decide (sum < 0)) sum.natAbs 0 rw), writeF32 (quot false v.natAbs 0 (rw * rw))]
  | _ => []

/-! ## Draining a row (R184, R185, R208, R263) -/

/-- A row under way: real values of a float tile, or the integers of an INT tile. -/
inductive Row where
  | real (v : List FVal)
  | int (v : List Int)
  deriving DecidableEq, Repr

/-- The fused operation on a float element: rounded into FP32, saturating. -/
def fuseF (op : Nat) (y f : FVal) : FVal × Bool :=
  let r := if op = 1 then y.add f else y.mul f
  let w := writeF32 r
  (f32Val w.1, w.2)

/-- The fused operation on an integer element. -/
def fuseI (op : Nat) (y f : Int) : Int × Bool :=
  let r := satInt 32 (if op = 1 then y + f else y * f)
  (signed 32 r.1, r.2)

/-- An element of the fused source: FF 0 FP32, 1 BF16, 2 FP16. -/
def ffVal (ff b : Nat) : FVal := elemVal (match ff with | 0 => 9 | 1 => 7 | _ => 8) b
def ffBits (ff : Nat) : Nat := if ff = 1 ∨ ff = 2 then 16 else 32

/-- A row after its fused operation, and whether an element saturated. -/
def fuseRow (op ff : Nat) (fs : List Nat) : Row → Row × Bool
  | .real v =>
    if op = 0 then (.real v, false)
    else
      let r := (v.zip fs).map fun p => fuseF op p.1 (ffVal ff p.2)
      (.real (r.map (·.1)), r.any (·.2))
  | .int v =>
    if op = 0 then (.int v, false)
    else
      let r := (v.zip fs).map fun p => fuseI op p.1 (signed 32 p.2)
      (.int (r.map (·.1)), r.any (·.2))

def reluF (v : FVal) : FVal :=
  match v with
  | .nan => .nan
  | _ => if v.isNeg then .zero else v

/-- ReLU (R263). -/
def Row.relu : Row → Row
  | .real v => .real (v.map reluF)
  | .int v => .int (v.map fun i => if i < 0 then 0 else i)

def posF (v : FVal) : Bool :=
  match v with
  | .fin n m _ => !n && m != 0
  | .inf n => !n
  | .nan => false

/-- How many elements are positive (R264). -/
def Row.positives : Row → Nat
  | .real v => (v.filter posF).length
  | .int v => (v.filter fun i => decide (0 < i)).length

def Row.reduce (red rw n : Nat) : Row → List (W32 × Bool)
  | .real v => reduceFloat red rw n v
  | .int v => reduceInt red rw v

/-- A converted row: element encodings, scales, events, and whether a value has no FP32 representation (R208). -/
structure Conv where
  codes : List Nat
  scales : List Int
  evs : List CvtEv
  ovf : Bool
  deriving DecidableEq, Repr

/-- Real values converted to a format; `fpIn` says that they are FP32 inputs. -/
def convReal (f : Nat) (fpIn : Bool) (v : List FVal) : Conv :=
  if fmtIsScaled f then
    let gs := (chunks (if f = 5 then v.length else 32) v.length v).map (cvtScaledGroup (fmtL f) fpIn)
    { codes := gs.flatMap fun g => g.1.map (·.1), scales := gs.map (·.2), evs := gs.flatMap fun g => g.1.map (·.2), ovf := false }
  else
    let r := v.map (cvtTo f fpIn)
    { codes := r.map (·.1), scales := [], evs := r.map (·.2), ovf := !fpIn && v.any aboveF32 }

/-- The conversion of a drained row (R35, R37, R38, R208). An integer reaches an integer format by saturation and any other format
through FP32 (log entry 32, DEDUCED). -/
def Row.conv (f : Nat) (fused : Bool) : Row → Conv
  | .real v => convReal f fused v
  | .int v =>
    if f = 0 ∨ f = 1 ∨ f = 10 then
      let r := v.map (satInt (fmtBits f))
      { codes := r.map (·.1), scales := [], evs := r.map fun x => if x.2 then .sat else .plain, ovf := false }
    else convReal f true (v.map fun i => f32Val (f32 (FVal.ofInt i)))

end Sys2Proof.Machine
end

