-- ==== Sys2Proof/Machine/XCore.lean ====
section
/-! DEFINITION. Machine/XCore.lean: the execute engine (R229, R230, R274, R275): issue, the ports that M-class and V-class
instructions name, reading chutes and operand memory, pushing output slots, and the support instructions. -/

namespace Sys2Proof.Machine

/-- The execute engine issues when no instruction of it is held. -/
def State.xIssue (s : State) (c cls op : Nat) (w : W64) (f : Prog → State) : State :=
  s.engineIssue c .execute (s.cell c).xe.hold.isNone cls op w f

def State.xFault (s : State) (c code info : Nat) : State := s.engineFault c .execute code (BitVec.ofNat 64 info)

/-! ## The instruction held -/

def CellSt.xhold (x : CellSt) : XHold :=
  x.xe.hold.getD { ins := [], outs := [], part := [], row := 0, sent := 0, tally := 0, ovf := false, choice := (false, none), pair := .runs false,
                     li := [], own := none }

def State.modHold (s : State) (c : Nat) (f : XHold → XHold) : State :=
  s.modCell c fun x => { x with xe := { x.xe with hold := x.xe.hold.map f } }

/-- The iteration numbers of the open loops, innermost first (R229). A depth that no loop has reads as a free value: the spec
gives it none (log entry 31, DESIGN CHOICE). -/
def State.loopNums (s : State) (p : Prog) : List Nat × State :=
  if p.loops.length = loopDepth then (p.loops.map (·.iter), s)
  else
    ((List.range loopDepth).map fun d =>
      match p.loops[d]? with
      | some l => l.iter
      | none => (Config.freeWord (s.free + d)).toNat % 2 ^ 32, { s with free := s.free + loopDepth })

/-- An instruction of `n` sources and `n` destinations is held until it retires; `own` is what it took at issue, if it had issued
earlier and waited. -/
def State.xHold (s : State) (c n : Nat) (choice : Bool × Option Nat) (pair : Pair) (li : List Nat) (own : Option LateM) : State :=
  let h : XHold := { ins := List.replicate n [], outs := [], part := List.replicate n [], row := 0, sent := 0, tally := 0,
                     ovf := false, choice := choice, pair := pair, li := li, own := own }
  s.modCell c fun x => { x with xe := { x.xe with hold := some h } }

/-! ## Ports (R227, R274, R275) -/

/-- A port that names a chute; port numbers 0 to 11 are the chute codes of R130. -/
def isChute (p : Nat) : Bool := decide (p < 12)

/-- The exact address that a slot of some forms. -/
def maAt (ma : List MaSlot) (li : List Nat) (p : Nat) : Int :=
  let m := ma.getD (p - 12) MaSlot.reset
  match m.depth with
  | some d => (m.base.toNat : Int) + (li.getD d 0 : Int) * m.stride.toInt
  | none => m.base.toNat

/-- The exact address that slot ma_j forms. -/
def CellSt.maAddr (x : CellSt) (li : List Nat) (p : Nat) : Int := maAt x.xe.ma li p

/-- The address slots of the instruction held: those that it took when it issued. -/
def CellSt.heldMa (x : CellSt) : List MaSlot := match x.heldLate with | some l => l.ma | none => x.xe.ma

/-- The operand-memory address of a port that has been checked. -/
def CellSt.portAddr (x : CellSt) (p : Nat) : Nat := (maAt x.heldMa x.xhold.li p).toNat

/-- The word of the instruction held. -/
def CellSt.heldWord (x : CellSt) : Option W64 :=
  match x.xe.hold with
  | none => none
  | some h => match h.own with
    | some l => some l.word
    | none => x.xe.prog.bind fun p => p.text[p.pc]?

/-- What is wrong with an operand of `n` bytes at a port: a chute that the program does not declare (R127), or bytes outside the
software region (R117, R227). -/
def CellSt.portFault (x : CellSt) (p : Prog) (li : List Nat) (port n : Nat) : Option (Nat × W64) :=
  if isChute port then (if p.declares port || n == 0 then none else some (fChuteUndeclared, BitVec.ofNat 64 port))
  else
    let a := x.maAddr li port
    if a < 0 ∨ (opSoft : Int) ≤ a ∨ (opSoft : Int) < a + n then some (fOpmemProt, BitVec.ofInt 64 a) else none

/-- The first fault of a list of operands: port and bytes. -/
def CellSt.portFaults (x : CellSt) (p : Prog) (li : List Nat) (l : List (Nat × Nat)) : Option (Nat × W64) :=
  l.findSome? fun q => x.portFault p li q.1 q.2

/-! ## Reading (R126, R181, R228, R372) -/

/-- Why a read stops: the chute holds too little, or a fault. -/
inductive XStop where
  | wait
  | fault (code info : Nat)
  deriving DecidableEq, Repr

/-- How a chute is read: in units of so many bytes, which every slot must hold whole, starting at a whole unit; and whether its
bytes are used, not only discarded. -/
structure ReadAs where
  unit : Nat
  align : Bool
  use : Bool
  deriving DecidableEq, Repr

def ReadAs.bytes : ReadAs := { unit := 1, align := false, use := true }

/-- The bytes read, the slots and read position left, and why the read stopped. -/
structure PullRes where
  bytes : List Byte
  slots : List Slot
  rd : Nat
  stop : Option XStop
  deriving DecidableEq, Repr

/-- The first poisoned byte among `n` bytes of a slot from `i`. -/
def Slot.poisonAt (v : Slot) (i n : Nat) : Option Nat := lowest (fun b => v.poison.getD (b / 64) false) n i

/-- Reads up to `need` bytes of chute `k` from position `rd`, across slots in order. A slot whose byte count is not a multiple
of the unit faults CHUTE_SHAPE; a poisoned byte read faults POISONED with the chute and the byte's place in its slot. -/
def pullGo (k : Nat) (h : ReadAs) : Nat → Nat → List Slot → PullRes
  | need, rd, [] => { bytes := [], slots := [], rd := rd, stop := if need = 0 then none else some .wait }
  | need, rd, v :: t =>
    if need = 0 then { bytes := [], slots := v :: t, rd := rd, stop := none }
    else if v.bytes.length % h.unit ≠ 0 then { bytes := [], slots := v :: t, rd := rd, stop := some (.fault fChuteShape k) }
    else
      let r := if h.align then ceilDiv rd h.unit * h.unit else rd
      let n := Nat.min need (v.bytes.length - r)
      match (if h.use then v.poisonAt r n else none) with
      | some b => { bytes := [], slots := v :: t, rd := r, stop := some (.fault fPoisoned (k + b * 65536)) }
      | none =>
        let got := (v.bytes.drop r).take n
        if v.bytes.length ≤ r + n then
          let rest := pullGo k h (need - n) 0 t
          { rest with bytes := got ++ rest.bytes }
        else { bytes := got, slots := v :: t, rd := r + n, stop := none }

/-- Source `i` of the instruction held comes to hold `need` bytes from a port, as far as they are there. A read of operand
memory that is only to be discarded is not made (R262). -/
def State.pull (s : State) (c i port need : Nat) (h : ReadAs) : Option XStop × State :=
  let x := s.cell c
  let have_ := (x.xhold.ins.getD i []).length
  let put (s : State) (b : List Byte) : State := s.modHold c fun y => { y with ins := modAt i (· ++ b) y.ins }
  if need ≤ have_ then (none, s)
  else if isChute port then
    let ch := x.chute port
    let r := pullGo port h (need - have_) ch.rd ch.slots
    let s := s.modCell c fun x =>
      let x := x.modChute port fun _ => { slots := r.slots, rd := r.rd }
      if r.slots.length < ch.slots.length then { x with wd := 0 } else x
    (r.stop, put s r.bytes)
  else
    let a := x.portAddr port + have_
    match (if h.use then x.opPoisoned a (need - have_) else none) with
    | some b => (some (.fault fPoisoned b), s)
    | none => (none, put s (x.op a (need - have_)))

/-- The engine waits on a chute, or faults. -/
def State.xStop (s : State) (c port : Nat) : XStop → State
  | .wait => s.modCell c fun x => { x with xe := { x.xe with wait := some port } }
  | .fault code info => s.xFault c code info

/-- Goes on with a source that holds its bytes; otherwise waits or faults. -/
def State.pullThen (s : State) (c i port need : Nat) (h : ReadAs) (f : State → State) : State :=
  match s.pull c i port need h with
  | (none, s) => f s
  | (some t, s) => s.xStop c port t

/-- The bytes that source `i` holds. -/
def CellSt.src (x : CellSt) (i : Nat) : List Byte := x.xhold.ins.getD i []

/-! ## Writing (R125, R139, R187) -/

/-- A row of `b.length` bytes goes to destination `i`: into operand memory at its place `off`, or into the slot being filled,
which is complete when the next row does not fit. -/
def State.putOut (s : State) (c i port off : Nat) (b : List Byte) : State :=
  if b.isEmpty then s
  else if isChute port then
    s.modHold c fun y =>
      let q := y.part.getD i [] ++ b
      if slotBytes < q.length + b.length then
        { y with part := modAt i (fun _ => []) y.part, outs := y.outs ++ [(port, slotOf (q.map fun v => (v, false)))] }
      else { y with part := modAt i (fun _ => q) y.part }
  else s.modCell c fun x => x.opWrite (x.portAddr port + off) b

/-- The last, short slot of destination `i` is complete. -/
def State.flushOut (s : State) (c i port : Nat) : State :=
  s.modHold c fun y =>
    let q := y.part.getD i []
    if q.isEmpty then y
    else { y with part := modAt i (fun _ => []) y.part, outs := y.outs ++ [(port, slotOf (q.map fun v => (v, false)))] }

/-- Pushes complete slots while there are credits; the chute that has none. -/
def pushGo (x : CellSt) : List (Nat × Slot) → CellSt × List (Nat × Slot)
  | [] => (x, [])
  | (k, v) :: t => if x.credits k = 0 then (x, (k, v) :: t) else pushGo (x.push k v) t

/-- Pushes what can be pushed; the chute that the engine must wait for. -/
def State.pushOuts (s : State) (c : Nat) : Option Nat × State :=
  let x := s.cell c
  let r := pushGo x x.xhold.outs
  let s := (s.setCell c r.1).modHold c fun y => { y with outs := r.2 }
  ((r.2.head?).map (·.1), s)

/-! ## Conversion counts (R40) -/

/-- Saturated, flushed and NaN elements of a converting instruction. -/
def State.countCvt (s : State) (c : Nat) (e : List CvtEv) : State :=
  let one (s : State) (i flag : Nat) (ev : CvtEv) : State :=
    let n := countEv ev e
    if n = 0 then s else (s.countC c (cCvt i) n).sumFlag c .execute flag
  one (one (one s 0 sCvtSat .sat) 1 sCvtFlush .flush) 2 sCvtNan .nan

/-! ## Support instructions (R224, R229, R275, R295) -/

def CellSt.kReg (x : CellSt) (j : Nat) : W32 := x.xe.k.getD j 0
def State.setK (s : State) (c j : Nat) (v : W32) : State :=
  s.modCell c fun x => { x with xe := { x.xe with k := modAt j (fun _ => v) x.xe.k } }

def State.xNop (s : State) (c : Nat) (w : W64) : State := s.xIssue c 7 0 w fun _ => s.retire c .execute

def State.xSetk (s : State) (c : Nat) (w : W64) : State :=
  s.xIssue c 7 1 w fun _ => (s.setK c (wKj w) (wImm32 w)).retire c .execute

def State.xAddk (s : State) (c : Nat) (w : W64) : State :=
  s.xIssue c 7 2 w fun _ => (s.setK c (wKj w) ((s.cell c).kReg (wKj w) + wImm32 w)).retire c .execute

def State.xLoop (s : State) (c : Nat) (w : W64) : State :=
  s.xIssue c 7 3 w fun p => s.openLoop c .execute p (wLen w) ((s.cell c).kReg (wKj w)).toNat

/-- The slot that X.MA writes. -/
def maOf (w : W64) : MaSlot :=
  { base := BitVec.ofNat 20 (fld w 51 32), stride := BitVec.ofNat 16 (fld w 31 16),
    depth := if fld w 15 13 = 4 then none else some (fld w 15 13) }

def State.xMa (s : State) (c : Nat) (w : W64) : State :=
  s.xIssue c 7 4 w fun _ =>
    (s.modCell c fun x => { x with xe := { x.xe with ma := modAt (fld w 53 52) (fun _ => maOf w) x.xe.ma } }).retire c .execute

/-- The value that VSETVL stores. -/
def vlOf (x : CellSt) (w : W64) : Nat :=
  Nat.min (if w.getLsbD 53 then (x.kReg (fld w 52 50)).toNat else fld w 14 0) 16384

/-- VSETVL writes vl; an instruction in flight that leaves vl stands before it in program order. -/
def State.vsetvl (s : State) (c : Nat) (w : W64) : State :=
  s.xIssue c 7 5 w fun _ =>
    let v := vlOf (s.cell c) w
    (s.modCell c fun x => { x with vec := { x.vec with vl := v, fin := x.vec.fin.map fun f => { f with vl := v } } }).retire c
      .execute

def execXNop (c : Nat) (w : W64) (s : State) : Host.Outcome State Fault Refusal := .next (s.xNop c w)
def execXSetk (c : Nat) (w : W64) (s : State) : Host.Outcome State Fault Refusal := .next (s.xSetk c w)
def execXAddk (c : Nat) (w : W64) (s : State) : Host.Outcome State Fault Refusal := .next (s.xAddk c w)
def execXLoop (c : Nat) (w : W64) (s : State) : Host.Outcome State Fault Refusal := .next (s.xLoop c w)
def execXMa (c : Nat) (w : W64) (s : State) : Host.Outcome State Fault Refusal := .next (s.xMa c w)
def execVsetvl (c : Nat) (w : W64) (s : State) : Host.Outcome State Fault Refusal := .next (s.vsetvl c w)

end Sys2Proof.Machine
end

