-- ==== Sys2Proof/Machine/Matrix.lean ====
section
/-! DEFINITION. Machine/Matrix.lean: the M-class commands (R171 to R218, R249 to R266, R290, R291): waits, predication, weight loads,
preloads, passes with their spills and replays, drains, and the completions. An instruction computes once its sources are
read; its completion releases what R188 says that others wait for. -/

namespace Sys2Proof.Machine

/-! ## Units and waits (R172, R188, R189, R230) -/

def CellSt.modArr (x : CellSt) (f : ArraySt → ArraySt) : CellSt := { x with arr := f x.arr }
def State.modArr (s : State) (c : Nat) (f : ArraySt → ArraySt) : State := s.modCell c fun x => x.modArr f

/-- The unit that a word names. -/
def ArraySt.geo (a : ArraySt) (w : W64) : Geo := { quarter := a.quarter, u := if a.quarter then wQ w else 0 }
def Geo.stat (g : Geo) (t : Nat) : Nat := 4 * t + g.u
def Geo.bank (g : Geo) (b : Nat) : Nat := 2 * g.u + b
def ArraySt.status (a : ArraySt) (g : Geo) (t : Nat) : QStat := a.stat.getD (g.stat t) QStat.reset
def ArraySt.modStatus (a : ArraySt) (g : Geo) (t : Nat) (f : QStat → QStat) : ArraySt := { a with stat := modAt (g.stat t) f a.stat }
def ArraySt.bankOf (a : ArraySt) (g : Geo) (b : Nat) : Bank := a.banks.getD (g.bank b) Bank.empty

def MOp.on (o : MOp) (g : Geo) (t : Nat) : Bool := o.unit == g.u && o.tile == t

/-- An instruction need not wait for what runs in the array (R188, R192, R230, R262): nothing that it waits for is under way. An MMUL that
is due to be replayed is under way, and a later MMUL of its unit waits for it, so that the foot adds in program order. -/
def CellSt.mReady (x : CellSt) (op : Nat) (g : Geo) (w : W64) (skip : Bool) : Bool :=
  let a := x.arr
  let none_ (p : MOp → Bool) : Bool := !a.mops.any p
  let drain (o : MOp) : Bool := o.op == 2 || o.op == 4
  match op with
  | 0 => a.mops.isEmpty
  | 1 => skip || ((none_ fun o => o.op == 1) && !(a.replays.any fun r => r.q == g.u && r.bank == wBank w))
  | 2 => none_ (fun o => drain o || (o.on g (wT w) && o.op == 3)) && x.vec.accRead != some (wT w)
  | 3 => none_ (fun o => (o.op == 1 && o.unit == g.u && o.bank == wBank w) || (o.on g (wT w) && drain o)) &&
      !(a.replays.any fun r => r.q == g.u) && x.vec.accRead != some (wT w)
  | _ => none_ fun o => drain o || (o.on g (wT w) && o.op == 3)

/-- VPRED is in flight. -/
def CellSt.predBusy (x : CellSt) : Bool := match x.vec.fin with | some f => f.pred.isSome | none => false

/-! ## Predication (R262) -/

/-- The block of a predicated word. -/
def predBlock (li : List Nat) (w : W64) : Nat := if wPl w then (wPb w + li.getD 0 0) % 32 else wPb w

/-- The outcome of XPRED for a word; none faults BAD_SHAPE. -/
def CellSt.pair (x : CellSt) (li : List Nat) (w : W64) : Option Pair :=
  if !wPe w then some (.runs false)
  else
    let b := predBlock li w
    if x.arr.quarter || decide (x.pred.blocks ≤ b) then none
    else if x.pred.active.getLsbD b then some (.runs false)
    else if x.pred.audit.getLsbD b then some (.runs true)
    else some .skipped

/-! ## Rows of a tile -/

def accKey (g : Geo) (t r j : Nat) : Nat := 16384 * t + 128 * (g.row0 + r) + (g.col0 + j)
def rowKey (g : Geo) (t r : Nat) : Nat := 512 * t + 128 * g.u + r

def ArraySt.row (a : ArraySt) (g : Geo) (t r : Nat) : List W32 := (List.range g.n).map fun j => tblGet 0 (accKey g t r j) a.acc
def ArraySt.setRow (a : ArraySt) (g : Geo) (t r : Nat) (v : List W32) : ArraySt :=
  { a with acc := v.zipIdx.foldl (fun m e => tblSet 0 (accKey g t r e.2) e.1 m) a.acc }

/-- Where row `r` stands in the tile's replay image and in its spill buffer (R201, R205). -/
def imageAddr (g : Geo) (t r : Nat) : Nat := 0xA0000 + 0x10000 * t + 512 * (g.row0 + r) + 4 * g.col0
def spillAddr (g : Geo) (t r : Nat) : Nat := 0xC0000 + 0x20000 * t + 1024 * (g.row0 + r) + 8 * g.col0

/-- Bytes of operand memory written without regard to poison, which only software's region carries. -/
def CellSt.rawWrite (x : CellSt) (a : Nat) (b : List Byte) : CellSt := { x with opmem := memWrite x.opmem a b }

/-- The spill-buffer values of a row. -/
def CellSt.spillRow (x : CellSt) (g : Geo) (t r : Nat) : List FVal :=
  (List.range g.n).map fun j => fDecode fp64 (x.opNat (spillAddr g t r + 8 * j) 8)

def CellSt.setSpillRow (x : CellSt) (g : Geo) (t r : Nat) (v : List FVal) : CellSt :=
  x.rawWrite (spillAddr g t r) (v.flatMap fun e => leBytes 8 (fEncode fp64 e))

/-- The image and the spill buffer of a unit's part of a tile are discarded (R178). -/
def CellSt.dropSpill (x : CellSt) (g : Geo) (t : Nat) : CellSt :=
  (List.range g.n).foldl (fun x r =>
    (x.rawWrite (spillAddr g t r) (List.replicate (8 * g.n) 0)).rawWrite (imageAddr g t r) (List.replicate (4 * g.n) 0)) x

def setNat (k v : Nat) (t : List (Nat × Nat)) : List (Nat × Nat) := tblSet 0 k v t

/-- Entries of a count or scale table that belong to a unit's part of a tile, removed. -/
def dropRows {α : Type} (g : Geo) (t : Nat) (l : List (Nat × α)) : List (Nat × α) := l.filter fun e => e.1 / 128 != 4 * t + g.u

/-! ## What the instruction held does -/

/-- What an instruction that runs leaves under way until its completion. -/
def State.mStart (s : State) (c op : Nat) (g : Geo) (w : W64) : State :=
  s.modArr c fun a => { a with mops := a.mops ++ [{ op := op, unit := g.u, tile := wT w, bank := wBank w }] }

def asUse (skip : Bool) : ReadAs := { ReadAs.bytes with use := !skip }

/-- How the pair of the instruction held goes. -/
def CellSt.heldPair (x : CellSt) : Pair := x.xhold.pair

/-! ## MCFG (R171, R173, R177) -/

/-- The status of a tile after MCFG: INVALID, T, REPLAYS and the counts reset; what R183 calls sticky stays (R217). -/
def QStat.mcfg (q : QStat) : QStat := { q with cls := 0, t := 0, replays := 0 }

/-- The MCFG held: the new configuration, every bank EMPTY, every tile INVALID, the images and spill buffers discarded. -/
def State.mcfgGo (s : State) (c : Nat) (w : W64) : State :=
  (s.modCell c fun x =>
    { x with arr := { ArraySt.reset with quarter := wX10 w, acc := x.arr.acc, stat := x.arr.stat.map QStat.mcfg },
             opmem := x.opmem.filter fun b => decide (b.1 < opSoft) }).retire c .execute

/-! ## MLDW (R174 to R176) -/

def mldwPorts (w : W64) (g : Geo) : List (Nat × Nat) :=
  [(wP1 w, packedBytes (wFmt w) (g.k (wFmt w) * g.n))] ++ (if fmtIsScaled (wFmt w) then [(wP2 w, g.tileScales (wFmt w))] else [])

def mldwChecks (w : W64) (_ : CellSt) (_ : Geo) (_ : Pair) : Option (Nat × W64) :=
  if fmtIsArray (wFmt w) then none else some (fFormatBad, BitVec.ofNat 64 (wFmt w))

/-- Goes on with the MLDW held. A skipped one reads no operand memory. -/
def State.mldwGo (s : State) (c : Nat) (w : W64) : State :=
  let x := s.cell c
  let g := x.arr.geo w
  let f := wFmt w
  let skip := x.heldPair == .skipped
  let need (port n : Nat) : Nat := if skip && !isChute port then 0 else n
  s.pullThen c 0 (wP1 w) (need (wP1 w) (packedBytes f (g.k f * g.n))) (asUse skip) fun s =>
  s.pullThen c 1 (wP2 w) (if fmtIsScaled f then need (wP2 w) (g.tileScales f) else 0) (asUse skip) fun s =>
    let x := s.cell c
    let left (port : Nat) : Bool := isChute port && (x.chute port).rd != 0
    if left (wP1 w) || (fmtIsScaled f && left (wP2 w)) then s.engineFault c .execute fBadShape w
    else if skip then s.retire c .execute
    else
      let b := x.arr.bankOf g (wBank w)
      let new : Bank := { loaded := b.loaded, fmt := f, data := x.src 0, scale := x.src 1 }
      let s := s.modArr c fun a => { a with banks := modAt (g.bank (wBank w)) (fun _ => new) a.banks }
      (s.mStart c 1 g w).retire c .execute

/-! ## MPRE (R178, R179, R201) -/

def mpreRows (w : W64) (g : Geo) : Nat := match wMd w with | 0 => 0 | 1 => 1 | _ => g.n
def mprePorts (w : W64) (g : Geo) : List (Nat × Nat) := if wMd w = 0 then [] else [(wP1 w, 4 * g.n * mpreRows w g)]

/-- The status that MPRE leaves (R178, R201). -/
def State.preStatus (s : State) (c : Nat) (w : W64) : QStat :=
  { QStat.reset with cls := if wX10 w then 5 else 1, spillS := s.regF (rCell c 0x24) 30 16, spillEn := s.regBit (rCell c 0x24) 0 }

/-- Goes on with the MPRE held. -/
def State.mpreGo (s : State) (c : Nat) (w : W64) : State :=
  let x := s.cell c
  let g := x.arr.geo w
  let skip := x.heldPair == .skipped
  let n := 4 * g.n * mpreRows w g
  s.pullThen c 0 (wP1 w) (if skip && !isChute (wP1 w) then 0 else n) (asUse skip) fun s =>
    if skip then s.retire c .execute
    else
      let lanes := (elems 10 (g.n * mpreRows w g) ((s.cell c).src 0)).map (BitVec.ofNat 32)
      let row (r : Nat) : List W32 :=
        match wMd w with
        | 0 => List.replicate g.n 0
        | 1 => lanes
        | _ => (lanes.drop (r * g.n)).take g.n
      let t := wT w
      let st := s.preStatus c w
      let s := s.modCell c fun x => (x.dropSpill g t).modArr fun a =>
        let a := (List.range g.n).foldl (fun a r => a.setRow g t r (row r)) a
        let a := a.modStatus g t fun _ => st
        { a with chain := dropRows g t a.chain, since := dropRows g t a.since, fed := dropRows g t a.fed, rowScale := dropRows g t a.rowScale,
                 colScale := dropRows g t a.colScale }
      (s.mStart c 2 g w).retire c .execute

/-! ## MMUL: spills and passes (R195 to R206, R250 to R256) -/

/-- A row spills: its values go exactly into the binary64 buffer and become +0.0 (R201). -/
def CellSt.spillOne (x : CellSt) (g : Geo) (t r : Nat) : CellSt :=
  let v := ((x.spillRow g t r).zip (x.arr.row g t r)).map fun p => p.1.add (f32Val p.2)
  (x.setSpillRow g t r v).modArr fun a =>
    { a.setRow g t r (List.replicate g.n 0) with since := setNat (rowKey g t r) 0 a.since }

/-- The spills due before a pass over rows r0 to r0 + m − 1. -/
def State.spill (s : State) (c : Nat) (g : Geo) (t r0 m : Nat) : State :=
  let a := (s.cell c).arr
  let st := a.status g t
  if st.cls = 5 ∨ !st.spillEn then s
  else
    let due := ((List.range m).map (r0 + ·)).filter fun r => decide (st.spillS < tblGet 0 (rowKey g t r) a.since + g.blocks)
    if due.isEmpty then s
    else
      let s := s.modCell c fun x => (due.foldl (fun x r => x.spillOne g t r) x).modArr fun a =>
        a.modStatus g t fun q => { q with spilled := true }
      s.countC c (cMx 6) due.length

def Replay.geo (r : Replay) (quarter : Bool) : Geo := { quarter := quarter, u := r.q }

/-- The scale of block `b` in column `j` of row `i` of a pass (R26, R182, R195). -/
def passScale (g : Geo) (r : Replay) (wt : Bank) (t : Nat) (i j b : Nat) : Int :=
  let nb := g.n / 32
  let byte (l : List Byte) (k : Nat) : Int := (l.getD k 0).toInt
  (if r.fmt = 6 then byte r.scales (i * nb + b / 4) + byte wt.scale (j * nb + b / 4) else 0) - t

/-- The rows of a pass, each cut into blocks. -/
def passRows (g : Geo) (r : Replay) : List (List (List Nat)) :=
  r.rows.map fun b => chunks (blockLen r.fmt) (g.k r.fmt) (elems r.fmt (g.k r.fmt) b)

/-- One pass over the rows of an MMUL: for each row its new elements, in a sparse pass with the sums in the order in which the foot accepts
them. -/
def passFeet (a : ArraySt) (g : Geo) (r : Replay) (slabs : SlabRun) : List (List Foot) :=
  let st := a.status g r.tile
  let bank := a.bankOf g r.bank
  let cols := weightCols g r.fmt bank.data
  (passRows g r).zipIdx.map fun x =>
    let i := x.2
    let first := tblGet 0 (rowKey g r.tile (r.r0 + i)) a.fed == 0
    let order := slabs.order i
    ((a.row g r.tile (r.r0 + i)).zip cols).zipIdx.map fun y =>
      let sc := passScale g r bank st.t i y.2
      if r.sparse then sparseElem r.fmt sc x.1 y.1.2 order first y.1.1 else denseElem r.fmt sc x.1 y.1.2 first y.1.1

/-- A row's place in the density window: the last 64 rows entered (R250). -/
def ArraySt.enterRows (a : ArraySt) (u : Nat) (nz : List Nat) : ArraySt :=
  { a with win := modAt u (fun l => let l := l ++ nz; l.drop (l.length - 64)) a.win }

/-- The counters of a pass (R194, R254, R268), with its holds at the foot. A sparse pass takes up to 16 cell cycles more than t₀, and a
pass beside another unit's may share its cycles: free values (log entry 33, DESIGN CHOICE). -/
def State.countPass (s : State) (c : Nat) (g : Geo) (r : Replay) (holds : Nat) : State :=
  let m := r.rows.length
  let groups := (r.nz.map List.length).sum
  let (v, s) := if r.sparse then s.fresh else (0, s)
  let busy := if r.sparse then slabTime r.fmt g.blocks r.nz + v.toNat % 17 else m * rowCycles r.fmt
  let other := (s.cell c).arr.mops.any fun o => o.op == 3 && o.unit != g.u
  let (o, s) := if other then s.fresh else (0, s)
  let busy := if other then o.toNat % (busy + 1) else busy
  let macs := if r.sparse then groups * blockLen r.fmt * g.n else m * g.k r.fmt * g.n
  let s := ((s.countC c (cMx 0) m).countC c (cMx 1) macs).countC c (cMx 2) busy
  if r.sparse then
    ((s.countC c (cSp 0) m).countC c (cSp 1) groups).countC c (cSp 2) holds
  else s

/-- The copies of the rows touched in the tile's replay image (R205). -/
def CellSt.imageRows (x : CellSt) (g : Geo) (t r0 m : Nat) : CellSt :=
  (List.range m).foldl (fun x i => x.rawWrite (imageAddr g t (r0 + i)) ((x.arr.row g t (r0 + i)).flatMap fun v => leBytes 4 v.toNat)) x

/-- The largest count that CFG_ACC_CHAIN shows (R203). -/
def chainMax : Nat := 2 ^ 30 - 1

/-- The results of a pass that stands: elements, chain counts, status, summary and counters (R183, R196, R203, R206). -/
def State.passDone (s : State) (c : Nat) (g : Geo) (r : Replay) (feet : List (List Foot)) : State :=
  let any_ (p : Foot → Bool) : Bool := feet.any fun l => l.any p
  let ovf := any_ (·.ovf)
  let nan := any_ (·.nan)
  let entered (i : Nat) : Bool := !r.sparse || !(r.nz.getD i []).isEmpty
  let bump (t : List (Nat × Nat)) (i : Nat) : List (Nat × Nat) :=
    setNat (rowKey g r.tile (r.r0 + i)) (Nat.min chainMax (tblGet 0 (rowKey g r.tile (r.r0 + i)) t + g.blocks)) t
  let s := s.modArr c fun a =>
    let a := feet.zipIdx.foldl (fun a l => a.setRow g r.tile (r.r0 + l.2) (l.1.map (·.v))) a
    { a with chain := (List.range feet.length).foldl bump a.chain, since := (List.range feet.length).foldl bump a.since,
             fed := ((List.range feet.length).filter entered).foldl (fun t i => setNat (rowKey g r.tile (r.r0 + i)) 1 t) a.fed,
             replays := a.replays.filter fun y => y.q != r.q }
  let a := (s.cell c).arr
  let lim := if (a.status g r.tile).spillEn then 2 ^ 29 else 16384
  let long := (List.range feet.length).any fun i => decide (lim < tblGet 0 (rowKey g r.tile (r.r0 + i)) a.chain)
  let s := s.modArr c fun a => a.modStatus g r.tile fun q =>
    { q with ovfSat := q.ovfSat || ovf, longsum := q.longsum || long, nanIn := q.nanIn || nan }
  let s := ((s.sumFlagIf c .execute sOvfSat ovf).sumFlagIf c .execute sLongsum long).sumFlagIf c .execute sNanIn nan
  (s.countC c (cMx 8) (if ovf then 1 else 0)).countC c (cMx 9) (if long then 1 else 0)

/-- Runs an MMUL from its first row: an overflow in block-scaled traffic leaves it to be replayed while R206 allows, with its tile as
it was; otherwise its results stand. -/
def State.pass (s : State) (c : Nat) (r : Replay) : State :=
  let x := s.cell c
  let g := r.geo x.arr.quarter
  let st := x.arr.status g r.tile
  let scaled := st.cls = 3 ∨ st.cls = 4
  let slabs := slabPass r.fmt g.blocks (if r.sparse then r.nz else []) s.free
  let feet := passFeet x.arr g r slabs
  let s := if r.sparse then { s with free := s.free + slabTime r.fmt g.blocks r.nz + 16 } else s
  let s := if scaled then s.modCell c fun x => x.imageRows g r.tile r.r0 r.m else s
  let s := (s.countPass c g r slabs.holds).modArr c fun a => a.enterRows g.u (r.nz.map List.length)
  if scaled ∧ (feet.any fun l => l.any (·.ovf)) ∧ r.taken < 4 ∧ st.t + 16 ≤ 64 then
    s.modArr c fun a => { a with replays := (a.replays.filter fun y => y.q != r.q) ++ [r] }
  else s.passDone c g r feet

/-! ## MMUL: sources and checks (R177, R180 to R182, R257, R258) -/

/-- The bytes of one activation row. -/
def actBytes (g : Geo) (fmt : Nat) : Nat := packedBytes fmt (g.k fmt)

def mmulPorts (w : W64) (g : Geo) : List (Nat × Nat) :=
  [(wP1 w, if wX10 w then 16 else wM w * actBytes g (wFmt w))] ++
    (if fmtIsScaled (wFmt w) then [(wP2 w, wM w * g.rowScales (wFmt w))] else [])

/-- The checks of R180, in its order; a skipped pair enters no row and meets none of them. -/
def mmulChecks (w : W64) (x : CellSt) (g : Geo) (k : Pair) : Option (Nat × W64) :=
  let f := wFmt w
  let b := x.arr.bankOf g (wBank w)
  let st := x.arr.status g (wT w)
  if !fmtIsArray f then some (fFormatBad, BitVec.ofNat 64 f)
  else if k = .skipped then (if g.n < wR0 w + wM w then some (fBadShape, w) else none)
  else if !b.loaded then some (fWbankEmpty, BitVec.ofNat 64 (g.u + 256 * wBank w))
  else if b.fmt ≠ f then some (fFormatBad, BitVec.ofNat 64 f)
  else if g.n < wR0 w + wM w then some (fBadShape, w)
  else if !clsAccepts st.cls f then some (fTileKind, BitVec.ofNat 64 (wT w + 256 * st.cls))
  else none

/-- Whether an MMUL runs sparse (R253, R255, R256), and its counter: 3 AUTO sparse, 4 AUTO dense, 5 forced dense. -/
def sparseChoice (a : ArraySt) (g : Geo) (w : W64) (en : Bool) : Bool × Option Nat :=
  let win := a.win.getD g.u []
  if wMd w = 0 then (false, none)
  else if wFmt w = 0 ∨ !en then (false, some 5)
  else if wMd w = 1 then (true, none)
  else if !win.isEmpty ∧ 2 * win.sum < g.blocks * win.length then (true, some 3)
  else (false, some 4)

/-- A recorded scale that differs (R182): the local row or column, and 0 for a row, 1 for a column. -/
def scaleClash (a : ArraySt) (g : Geo) (t r0 : Nat) (rows cols : List Byte) : Option (Nat × Nat) :=
  let bad (tab : List (Nat × Option Byte)) (k : Nat) (v : Byte) : Bool :=
    match tblGet none (rowKey g t k) tab with | some y => y != v | none => false
  match lowest (fun i => bad a.rowScale (r0 + i) (rows.getD i 0)) rows.length 0 with
  | some i => some (g.row0 + r0 + i, 0)
  | none => (lowest (fun j => bad a.colScale j (cols.getD j 0)) cols.length 0).map fun j => (g.col0 + j, 1)

/-- The scales recorded by the first MMUL that touches a row or column. -/
def recordScales (a : ArraySt) (g : Geo) (t r0 : Nat) (rows cols : List Byte) : ArraySt :=
  let put (off : Nat) (tab : List (Nat × Option Byte)) (e : Byte × Nat) : List (Nat × Option Byte) :=
    match tblGet none (rowKey g t (off + e.2)) tab with
    | some _ => tab
    | none => tblSet none (rowKey g t (off + e.2)) (some e.1) tab
  { a with rowScale := rows.zipIdx.foldl (put r0) a.rowScale, colScale := cols.zipIdx.foldl (put 0) a.colScale }

/-- The MMUL held has its rows, the non-zero groups of each, and its scales: it enters them. -/
def State.mmulEnter (s : State) (c : Nat) (w : W64) (rows : List (List Byte)) (nz : List (List Nat)) (scales : List Byte) : State :=
  let x := s.cell c
  let g := x.arr.geo w
  let t := wT w
  let f := wFmt w
  let clash := if f = 5 then scaleClash x.arr g t (wR0 w) scales (x.arr.bankOf g (wBank w)).scale else none
  match clash with
  | some (i, k) => s.xFault c fScaleMismatch (t + 256 * i + 65536 * k)
  | none =>
    let (sp, cnt) := x.xhold.choice
    let s := match cnt with | some i => s.countC c (cSp i) 1 | none => s
    let s := s.modArr c fun a =>
      let a := if f = 5 then recordScales a g t (wR0 w) scales (a.bankOf g (wBank w)).scale else a
      a.modStatus g t fun q => { q with cls := clsOf q.cls f, replays := 0 }
    let s := (s.spill c g t (wR0 w) (wM w)).mStart c 3 g w
    let r : Replay := { tile := t, q := g.u, r0 := wR0 w, m := wM w, bank := wBank w, fmt := f, sparse := sp, rows := rows,
                        nz := nz, scales := scales, taken := 0 }
    (s.pass c r).retire c .execute

/-- FAULT_INFO of CSR_FORMAT for a block at a port (R258). -/
def CellSt.blockInfo (x : CellSt) (port : Nat) : Nat := if isChute port then port else x.portAddr port

/-- What is wrong with a block's header, and then with the block for this MMUL (R257, R258). -/
def blockFault (x : CellSt) (g : Geo) (w : W64) (h : BlkHdr) : Option (Nat × W64) :=
  if !h.ok then some (fCsrFormat, BitVec.ofNat 64 (x.blockInfo (wP1 w)))
  else if h.rows ≠ wM w ∨ h.groups ≠ g.k (wFmt w) / 8 ∨ h.fmt ≠ wFmt w then some (fBadShape, w)
  else if !isChute (wP1 w) ∧ opSoft < x.portAddr (wP1 w) + h.size then some (fOpmemProt, BitVec.ofNat 64 (x.portAddr (wP1 w)))
  else none

/-- What is wrong with a block's body (R258). -/
def bodyFault (x : CellSt) (w : W64) (h : BlkHdr) (body : List Byte) : Option (Nat × W64) :=
  match h.form with
  | 1 => if gcsrOk h body then none else some (fCsrFormat, BitVec.ofNat 64 (x.blockInfo (wP1 w)))
  | 2 => (pairBad h.fmt (h.rows * h.groups) body).map fun i => (fPairFormat, BitVec.ofNat 64 i)
  | _ => none

/-- The packed rows of a block, and the groups of each that its form marks non-zero (R257); a group of the array is two of an INT4 block. -/
def blockRows (h : BlkHdr) (body : List Byte) : List (List Byte) × List (List Nat) :=
  let rows := chunks h.groups h.rows (blkGroups h body)
  let per := blockLen h.fmt / 8
  (rows.map fun r => r.flatMap fun g => groupBytes h.fmt g.1,
   rows.map fun r => ((chunks per h.groups r).zipIdx.filter fun e => e.1.any (·.2)).map (·.2))

/-- Goes on with an MMUL of one stored block. -/
def State.mmulBlock (s : State) (c : Nat) (w : W64) (skip : Bool) : State :=
  let g := (s.cell c).arr.geo w
  let mem := skip && !isChute (wP1 w)
  s.pullThen c 0 (wP1 w) (if mem then 0 else 16) (asUse skip) fun s =>
    let x := s.cell c
    let h := blkHdr (x.src 0)
    match (if mem then none else blockFault x g w h) with
    | some (code, info) => s.engineFault c .execute code info
    | none =>
      s.pullThen c 0 (wP1 w) (if mem then 0 else h.size) (asUse skip) fun s =>
      s.pullThen c 1 (wP2 w) (if skip && !isChute (wP2 w) then 0 else wM w * g.rowScales (wFmt w)) (asUse skip) fun s =>
        let x := s.cell c
        let body := (x.src 0).drop 16
        if skip then s.retire c .execute
        else match bodyFault x w h body with
          | some (code, info) => s.engineFault c .execute code info
          | none => let b := blockRows h body; s.mmulEnter c w b.1 b.2 (x.src 1)

/-- The non-zero groups of packed rows (R249). -/
def rowGroups (g : Geo) (f : Nat) (rows : List (List Byte)) : List (List Nat) :=
  rows.map fun b => nzGroups f (chunks (blockLen f) (g.k f) (elems f (g.k f) b))

/-- Goes on with an MMUL of packed rows. -/
def State.mmulRows (s : State) (c : Nat) (w : W64) (skip : Bool) : State :=
  let g := (s.cell c).arr.geo w
  let b := actBytes g (wFmt w)
  let need (port n : Nat) : Nat := if skip && !isChute port then 0 else n
  s.pullThen c 0 (wP1 w) (need (wP1 w) (wM w * b)) { unit := b, align := true, use := !skip } fun s =>
  s.pullThen c 1 (wP2 w) (need (wP2 w) (wM w * g.rowScales (wFmt w))) (asUse skip) fun s =>
    let x := s.cell c
    let rows := chunks b (wM w) (x.src 0)
    if skip then s.retire c .execute else s.mmulEnter c w rows (rowGroups g (wFmt w) rows) (x.src 1)

def State.mmulGo (s : State) (c : Nat) (w : W64) : State :=
  let skip := (s.cell c).heldPair == .skipped
  if wX10 w then s.mmulBlock c w skip else s.mmulRows c w skip

/-! ## OVERFLOW_REPLAY (R206, R207) -/

/-- A tile element scaled by 2^−16; a NaN stays as it is. -/
def scaleElem (v : W32) : W32 := if (f32Val v).isFinite then f32 ((f32Val v).scale (-16)) else v

/-- The tile is scaled by 2^−16, its spill buffer exactly, T rises by 16, and the MMUL has one more replay. -/
def CellSt.scaleTile (x : CellSt) (g : Geo) (t : Nat) : CellSt :=
  let x := if (x.arr.status g t).spilled then
      (List.range g.n).foldl (fun x r => x.setSpillRow g t r ((x.spillRow g t r).map (FVal.scale (-16)))) x
    else x
  x.modArr fun a =>
    let a := (List.range g.n).foldl (fun a r => a.setRow g t r ((a.row g t r).map scaleElem)) a
    a.modStatus g t fun q => { q with t := q.t + 16, replays := q.replays + 1 }

/-- The touched rows come back from the image. -/
def CellSt.restoreRows (x : CellSt) (g : Geo) (t r0 m : Nat) : CellSt :=
  (List.range m).foldl (fun x i =>
    x.modArr fun a => a.setRow g t (r0 + i) ((elems 10 g.n (x.op (imageAddr g t (r0 + i)) (4 * g.n))).map (BitVec.ofNat 32))) x

/-! ## MDRAIN (R184 to R187, R208 to R214, R262 to R264) -/

/-- Bytes per row of the third port: scales, or reduction results. -/
def sideBytes (g : Geo) (w : W64) : Nat :=
  if fmtIsScaled (wFmt w) then g.rowScales (wFmt w) else match wRed w with | 0 => 0 | 3 => 8 | _ => 4

def fuseBytes (g : Geo) (w : W64) : Nat := g.n * ffBits (wFf w) / 8

def mdrainPorts (w : W64) (g : Geo) : List (Nat × Nat) :=
  [(wP1 w, wM w * packedBytes (wFmt w) g.n)] ++ (if wMd w = 0 then [] else [(wP2 w, wM w * fuseBytes g w)]) ++
    (if sideBytes g w = 0 then [] else [(wP3 w, wM w * sideBytes g w)])

/-- The checks of R177, R186 and R291. A skipped pair reads no tile. -/
def mdrainChecks (w : W64) (x : CellSt) (g : Geo) (k : Pair) : Option (Nat × W64) :=
  let st := x.arr.status g (wT w)
  if wFmt w = 11 then some (fFormatBad, 11)
  else if (fmtIsScaled (wFmt w) ∧ wRed w ≠ 0) ∨ (g.quarter ∧ 2 ≤ wRed w) ∨ g.n < wR0 w + wM w ∨ (wRed w ≠ 0 ∧ g.n < wRw w) then
    some (fBadShape, w)
  else if k = .skipped then none
  else if st.cls = 0 then some (fTileInvalid, BitVec.ofNat 64 (wT w + 256 * g.u))
  else if decide (wFf w = 3) != decide (st.cls = 5) then some (fFormatBad, BitVec.ofNat 64 (ffCode (wFf w)))
  else none
where
  /-- The format code that FF names. -/
  ffCode (ff : Nat) : Nat := match ff with | 0 => 9 | 1 => 7 | 2 => 8 | _ => 10

/-- The values of tile row `r` as MDRAIN sees them: T, the recorded scales and the spill buffer applied, rounded once (R208). -/
def CellSt.drainRow (x : CellSt) (g : Geo) (t r : Nat) : Row :=
  let a := x.arr
  let st := a.status g t
  let v := a.row g t r
  if st.cls = 5 then .int (v.map BitVec.toInt)
  else
    let sp := if st.spilled then x.spillRow g t r else []
    let rec_ (tab : List (Nat × Option Byte)) (k : Nat) : Int :=
      if st.cls = 3 then (match tblGet none (rowKey g t k) tab with | some b => b.toInt | none => 0) else 0
    .real (v.zipIdx.map fun e =>
      let y := match sp[e.2]? with | some f => (f32Val e.1).add f | none => f32Val e.1
      (y.scale (st.t + rec_ a.rowScale r + rec_ a.colScale e.2)).round24)

/-- A row of a skipped pair: zeros (R262). -/
def zeroRow (g : Geo) (w : W64) : Row :=
  if fmtIsInt (wFmt w) || wFmt w == 10 then .int (List.replicate g.n 0) else .real (List.replicate g.n .zero)

/-- The results of one drained row: output bytes, bytes of the third port, events, OVF_SAT, an empty mean, positive elements. -/
structure Drained where
  out : List Byte
  side : List Byte
  evs : List CvtEv
  ovf : Bool
  empty : Bool
  pos : Nat
  deriving DecidableEq, Repr

/-- Row `i` of the MDRAIN held. -/
def CellSt.drainOne (x : CellSt) (g : Geo) (w : W64) (skip : Bool) (i : Nat) : Drained :=
  let f := wFmt w
  let fs := elems (if ffBits (wFf w) = 16 then 7 else 9) g.n (((x.src 0).drop (i * fuseBytes g w)).take (fuseBytes g w))
  let y := if skip then (zeroRow g w, false) else fuseRow (wMd w) (wFf w) fs (x.drainRow g (wT w) (wR0 w + i))
  let z := if wPe w then y.1.relu else y.1
  let red := z.reduce (wRed w) (wRw w) g.n
  let cv := z.conv f (wMd w ≠ 0)
  { out := leBytes (packedBytes f g.n) (pack (fmtBits f) cv.codes),
    side := if fmtIsScaled f then cv.scales.map (BitVec.ofInt 8) else red.flatMap fun r => leBytes 4 r.1.toNat,
    evs := cv.evs, ovf := y.2 || cv.ovf || red.any (·.2), empty := wRed w == 3 && wRw w == 0, pos := z.positives }

/-- The end of an audited pair's MDRAIN: the pair is compared, and the miss rate kept (R264). The record's INFO is a free value (log
entry 34). -/
def State.audit (s : State) (c n : Nat) : State :=
  let miss := n ≠ 0
  let s := s.countC c (cPred 2) 1
  let s := if miss then (s.countC c (cPred 3) 1).countC c (cPred 4) n else s
  let rate (x : CellSt) : Nat := (x.pred.hist.filter id).length
  let old := rate (s.cell c)
  let s := s.modCell c fun x =>
    let l := x.pred.hist ++ [decide miss]
    { x with pred := { x.pred with hist := l.drop (l.length - 1024) } }
  let thr := s.regF (rCell c 0xB0) 26 16
  if old ≤ thr ∧ thr < rate (s.cell c) then
    let s := s.setBits (rCell c 0xB8) 1
    if s.regBit (rCell c 0xBC) 0 then let (v, s) := s.fresh; s.raise (srcCell c) kPredictor 0x0121 4 v.toNat else s
  else s

/-- The MDRAIN held has drained its rows. -/
def State.drainEnd (s : State) (c : Nat) (w : W64) : State :=
  let x := s.cell c
  let g := x.arr.geo w
  let ovf := x.xhold.ovf
  let s := if ovf then
      ((s.modArr c fun a => a.modStatus g (wT w) fun q => { q with ovfSat := true }).sumFlag c .execute sOvfSat).countC c (cMx 8) 1
    else s
  let s := match x.heldPair with
    | .skipped => s.countC c (cPred 1) 1
    | .runs true => s.audit c x.xhold.tally
    | .runs false => s
  (s.mStart c 4 g w).retire c .execute

/-- Goes on with the MDRAIN held, a row at a time: complete slots are pushed before the next row is drained. -/
def State.drainGo (s : State) (c : Nat) (w : W64) : Nat → State
  | 0 => s
  | fuel + 1 =>
    match s.pushOuts c with
    | (some k, s) => s.xStop c k .wait
    | (none, s) =>
      let x := s.cell c
      let g := x.arr.geo w
      let h := x.xhold
      let skip := x.heldPair == .skipped
      if h.row = wM w then
        if h.part.all List.isEmpty then s.drainEnd c w
        else ((s.flushOut c 1 (wP1 w)).flushOut c 2 (wP3 w)).drainGo c w fuel
      else
        let need := if wMd w = 0 ∨ (skip ∧ !isChute (wP2 w)) then 0 else (h.row + 1) * fuseBytes g w
        match s.pull c 0 (wP2 w) need (asUse skip) with
        | (some t, s) => s.xStop c (wP2 w) t
        | (none, s) =>
          let d := (s.cell c).drainOne g w skip h.row
          let s := (s.putOut c 1 (wP1 w) (h.row * d.out.length) d.out).putOut c 2 (wP3 w) (h.row * d.side.length) d.side
          let s := (s.countC c (cMx 5) 1).countCvt c d.evs
          let s := if d.empty then (s.countC c (cMx 10) 1).sumFlag c .execute sEmpty else s
          let s := s.modHold c fun y => { y with row := y.row + 1, tally := y.tally + d.pos, ovf := y.ovf || d.ovf }
          s.drainGo c w fuel

def State.mdrainGo (s : State) (c : Nat) (w : W64) : State := s.drainGo c w (wM w + 3)

/-! ## Issue (R188, R192, R230, R262) -/

/-- The checks that an instruction of an opcode makes once it need not wait. -/
def mChecks (op : Nat) (w : W64) : CellSt → Geo → Pair → Option (Nat × W64) :=
  match op with
  | 1 => mldwChecks w
  | 3 => mmulChecks w
  | 4 => mdrainChecks w
  | _ => fun _ _ _ => none

/-- The ports of an instruction, each with its bytes. -/
def mPorts (op : Nat) (w : W64) (g : Geo) : List (Nat × Nat) :=
  match op with
  | 1 => mldwPorts w g
  | 2 => mprePorts w g
  | 3 => mmulPorts w g
  | 4 => mdrainPorts w g
  | _ => []

/-- Carries out the instruction held. -/
def State.mGo (s : State) (c op : Nat) (w : W64) : State :=
  match op with
  | 0 => s.mcfgGo c w
  | 1 => s.mldwGo c w
  | 2 => s.mpreGo c w
  | 3 => s.mmulGo c w
  | _ => s.mdrainGo c w

/-- An instruction that need wait no more is held and carried out, unless its checks fail. -/
def State.mRun (s : State) (c : Nat) (i : LateM) (own : Option LateM) : State :=
  let x := s.cell c
  let op := wOp i.word
  let s := s.xHold c 3 i.choice i.pair i.li own
  match mChecks op i.word x (x.arr.geo i.word) i.pair with
  | some (code, info) => s.engineFault c .execute code info
  | none => s.mGo c op i.word

/-- A use of a port: a chute, or bytes of operand memory from one address up to another, read or written. -/
structure PortUse where
  port : Nat
  first : Int
  past : Int
  writes : Bool
  deriving DecidableEq, Repr

/-- Two uses that must keep their order: of one chute, or of one byte of operand memory that either writes. -/
def PortUse.meets (a b : PortUse) : Bool :=
  if isChute a.port || isChute b.port then a.port == b.port
  else (a.writes || b.writes) && decide (a.first < b.past) && decide (b.first < a.past)

/-- The port uses of an M-class instruction; a stored block reaches no further than the software region. -/
def LateM.uses (i : LateM) (g : Geo) : List PortUse :=
  let op := wOp i.word
  let block := op == 3 && wX10 i.word
  (mPorts op i.word g).zipIdx.map fun p =>
    let a := maAt i.ma i.li p.1.1
    { port := p.1.1, first := a, past := if block && p.2 == 0 then opSoft else a + p.1.2, writes := op == 4 && !(p.2 == 1 && wMd i.word != 0) }

/-- A later instruction depends on an earlier one that waits (R188): MCFG on every one, a load and a multiply of one bank, instructions
of one tile of which one is not a drain, uses of a port. -/
def ArraySt.depends (a : ArraySt) (e i : LateM) : Bool :=
  let unit (l : LateM) : Nat := (a.geo l.word).u
  let op (l : LateM) : Nat := wOp l.word
  let pairOf (x y : Nat) : Bool := (op e == x && op i == y) || (op e == y && op i == x)
  op e == 0 || op i == 0 ||
  (unit e == unit i && wBank e.word == wBank i.word && (pairOf 1 3 || (op e == 1 && op i == 1))) ||
  (unit e == unit i && wT e.word == wT i.word && decide (2 ≤ op e) && decide (2 ≤ op i) && !(op e == 4 && op i == 4)) ||
  (e.uses (a.geo e.word)).any fun p => (i.uses (a.geo i.word)).any p.meets

/-- An instruction need wait neither for the array nor for one of the earlier ones that wait. -/
def CellSt.mFree (x : CellSt) (before : List LateM) (i : LateM) : Bool :=
  x.mReady (wOp i.word) (x.arr.geo i.word) i.word (i.pair == .skipped) && !before.any fun e => x.arr.depends e i

/-- The first of the instructions that wait which need wait no more, and the others. -/
def CellSt.lateFirst (x : CellSt) : List LateM → List LateM → Option (LateM × List LateM)
  | _, [] => none
  | before, i :: t => if x.mFree before i then some (i, before ++ t) else x.lateFirst (before ++ [i]) t

/-- The instructions that wait are carried out as they can be, until one is held. -/
def State.lateGo (s : State) (c : Nat) : Nat → State
  | 0 => s
  | fuel + 1 =>
    if (s.engineIssues c .execute).isSome && (s.cell c).xe.hold.isNone then
      match (s.cell c).lateFirst [] (s.cell c).xe.late with
      | none => s
      | some (i, rest) => ((s.modCell c fun x => { x with xe := { x.xe with late := rest } }).mRun c i (some i)).lateGo c fuel
    else s

def State.lateRun (s : State) (c : Nat) : State := s.lateGo c (s.cell c).xe.late.length

/-- MCFG waits: what follows it in the M class must wait for the configuration to be known. -/
def CellSt.mcfgDue (x : CellSt) : Bool := x.xe.late.any fun l => wOp l.word == 0

/-- What an M-class instruction takes at issue, with the iteration numbers `li` and its pair. -/
def State.mTake (s : State) (c : Nat) (p : Prog) (li : List Nat) (w : W64) (k : Pair) : LateM :=
  let x := s.cell c
  { word := w, pc := p.pc, li := li, ma := x.xe.ma, pair := k,
    choice := if wOp w = 3 ∧ k ≠ .skipped then sparseChoice x.arr (x.arr.geo w) w (s.regBit (rCell c 0xC0) 0) else (false, none) }

/-- An M-class instruction issues: in FULL it names quarter 0; a predicated one waits for a VPRED in flight and reads XPRED; its ports
are checked. It is then carried out, or waits under R188 while the program goes on. -/
def State.mIssue (s : State) (c op : Nat) (w : W64) : State :=
  let x := s.cell c
  let g := x.arr.geo w
  s.xIssue c 4 op w fun p =>
    if x.mcfgDue || (wPe w && x.predBusy) then s
    else if !x.arr.quarter ∧ wQ w ≠ 0 then s.engineFault c .execute fBadShape w
    else
      let (li, s') := if op = 0 then ([], s) else s.loopNums p
      match x.pair li w with
      | none => s'.engineFault c .execute fBadShape w
      | some k =>
        match x.portFaults p li (mPorts op w g) with
        | some (code, info) => s'.engineFault c .execute code info
        | none =>
          let i := s.mTake c p li w k
          if x.mFree x.xe.late i then s'.mRun c i none
          else s'.modCell c fun y => { y.modProg .execute Prog.next with xe := { (y.modProg .execute Prog.next).xe with late := y.xe.late ++ [i] } }

def State.mcfg (s : State) (c : Nat) (w : W64) : State := s.mIssue c 0 w
def State.mldw (s : State) (c : Nat) (w : W64) : State := s.mIssue c 1 w
def State.mpre (s : State) (c : Nat) (w : W64) : State := s.mIssue c 2 w
def State.mmul (s : State) (c : Nat) (w : W64) : State := s.mIssue c 3 w
def State.mdrain (s : State) (c : Nat) (w : W64) : State := s.mIssue c 4 w

/-! ## OVERFLOW_REPLAY (R206, R207) -/

/-- The oldest MMUL that is due is run again; what waits for it may then go on. -/
def State.overflowReplay (s : State) (c : Nat) : State :=
  match (s.cell c).arr.replays with
  | [] => s
  | r :: t =>
    if s.active && s.cellUp c then
      let g := r.geo (s.cell c).arr.quarter
      let s := s.modCell c fun x => ((x.restoreRows g r.tile r.r0 r.m).scaleTile g r.tile).modArr fun a => { a with replays := t }
      ((s.countC c (cMx 7) 1).pass c { r with taken := r.taken + 1 }).lateRun c
    else s

/-! ## Completions (R175, R191) -/

/-- The list without its first element that meets `p`, and that element. -/
def takeFirst {α : Type} (p : α → Bool) : List α → Option α × List α
  | [] => (none, [])
  | a :: t => if p a then (some a, t) else let r := takeFirst p t; (r.1, a :: r.2)

/-- The oldest MMUL that has not to be run again, and the rest: that of a unit with a replay due is the unit's last. -/
def takeMmul (due : Nat → Bool) : List MOp → Option MOp × List MOp
  | [] => (none, [])
  | o :: t =>
    if o.op == 3 && !(due o.unit && !t.any fun p => p.op == 3 && p.unit == o.unit) then (some o, t)
    else let r := takeMmul due t; (r.1, o :: r.2)

/-- An instruction under way completes; `f` is what else its completion does, and what waits for it may go on. -/
def State.mComplete (s : State) (c : Nat) (take : ArraySt → Option MOp × List MOp) (f : MOp → State → State) : State :=
  if s.active && s.cellUp c then
    match take (s.cell c).arr with
    | (none, _) => s
    | (some o, rest) => (f o (s.modArr c fun a => { a with mops := rest })).lateRun c
  else s

/-- The oldest instruction under way of an opcode. -/
def ArraySt.oldest (op : Nat) (a : ArraySt) : Option MOp × List MOp := takeFirst (fun (o : MOp) => o.op == op) a.mops

def State.mldwComplete (s : State) (c : Nat) : State :=
  s.mComplete c (ArraySt.oldest 1) fun o s =>
    (s.modArr c fun a => { a with banks := modAt (2 * o.unit + o.bank) (fun b => { b with loaded := true }) a.banks }).countC c (cMx 3) 1

def State.mpreComplete (s : State) (c : Nat) : State := s.mComplete c (ArraySt.oldest 2) fun _ s => s

/-- An MMUL that waits for its replay does not complete. -/
def State.mmulComplete (s : State) (c : Nat) : State :=
  s.mComplete c (fun a => takeMmul (fun u => a.replays.any fun r => r.q == u) a.mops) fun _ s => s

def State.mdrainComplete (s : State) (c : Nat) : State := s.mComplete c (ArraySt.oldest 4) fun _ s => s

/-! ## The commands -/

def execMcfg (c : Nat) (w : W64) (s : State) : Host.Outcome State Fault Refusal := .next (s.mcfg c w)
def execMldw (c : Nat) (w : W64) (s : State) : Host.Outcome State Fault Refusal := .next (s.mldw c w)
def execMpre (c : Nat) (w : W64) (s : State) : Host.Outcome State Fault Refusal := .next (s.mpre c w)
def execMmul (c : Nat) (w : W64) (s : State) : Host.Outcome State Fault Refusal := .next (s.mmul c w)
def execMdrain (c : Nat) (w : W64) (s : State) : Host.Outcome State Fault Refusal := .next (s.mdrain c w)
def execOverflowReplay (c : Nat) (s : State) : Host.Outcome State Fault Refusal := .next (s.overflowReplay c)
def execMldwComplete (c : Nat) (s : State) : Host.Outcome State Fault Refusal := .next (s.mldwComplete c)
def execMpreComplete (c : Nat) (s : State) : Host.Outcome State Fault Refusal := .next (s.mpreComplete c)
def execMmulComplete (c : Nat) (s : State) : Host.Outcome State Fault Refusal := .next (s.mmulComplete c)
def execMdrainComplete (c : Nat) (s : State) : Host.Outcome State Fault Refusal := .next (s.mdrainComplete c)

end Sys2Proof.Machine
end

