-- ==== Sys2Proof/Machine/View.lean ====
section
/-! DEFINITION. Machine/View.lean: what each register reads as (R493 to R511), from the stored fields and from the state that its RO fields
show. -/

namespace Sys2Proof.Machine

/-- A bit as a number. -/
def bitN (b : Bool) : Nat := if b then 1 else 0

/-! ## Blocks held in the lookout (R502, R503) -/

def identReg (o : Nat) : Nat :=
  match o with
  | 0x0 => 0x514A48A0 | 0x4 => 0x00000FFF | 0x8 => 0x04220CC0 | 0xC => 0x01024440 | 0x10 => 0x10404FFF | _ => 0

/-- The peak temperature since the last read, the present reading included. -/
def State.tjPeak (s : State) : Nat := Nat.max (s.regF rPwrTemp 17 10) (satTemp s.power.hot.2)

def State.pwrReg (s : State) (o a : Nat) : Nat :=
  match o with
  | 0x0 => s.power.rung + s.power.target * 2 ^ 3 + bitN s.power.busy * 2 ^ 6
  | 0x10 => satTemp s.power.hot.2 + s.power.hot.1 / 8 * 2 ^ 8 + s.tjPeak * 2 ^ 10
  | 0x1C => s.power.cause
  | 0x20 => s.timebase.toNat
  | 0x24 => s.timebase.toNat / 2 ^ 32
  | _ =>
    if inRun o 0x400 192 then
      let c := (o - 0x400) / 4
      (s.reg a).toNat + s.power.cur.getD c 0 * 2 ^ 2 + bitN (s.cell c).parked * 2 ^ 4
    else (s.reg a).toNat

/-- A latch entry of a unit (R488). -/
def State.latch (s : State) (j u : Nat) : Option Latch := s.latches.find? fun l => l.j == j && l.scope == u

/-- A unit's latch holds copies. -/
def State.held (s : State) (j u : Nat) : Bool := match s.latch j u with | some l => l.copies != [] | none => false

/-- The units that a SCOPE names; none when it names no block or no unit (R478, R500). -/
def scopeUnits (scope : Nat) : Option (List Nat) :=
  let b := scope / 0x1000
  let i := scope % 0x1000
  let n := match b with | 1 => 4 | 2 => 192 | 3 => 12 | 4 => 32 | _ => 1
  if 9 ≤ b then none
  else if i = 0xFFF then some ((List.range n).map (0x1000 * b + ·))
  else if i < n then some [scope]
  else none

def State.snapReg (s : State) (j : Nat) : Nat :=
  let scope := s.regF (rSnap j) 23 8
  scope * 2 ^ 8 + bitN (((scopeUnits scope).getD []).any (s.held j)) * 2 ^ 2

def State.snapTime (s : State) (j : Nat) : Nat := (s.snapTimes.getD j 0).toNat

def modeCode (m : CellMode) : Nat := match m with | .running => 0 | .restarting => 1 | .offline => 2

def State.errReg (s : State) (o a : Nat) : Nat :=
  match o with
  | 0x0 => s.errSeen.toNat + bitN s.power.faultN * 2 ^ 4
  | 0x10 => s.snapReg 0
  | 0x14 => s.snapTime 0
  | 0x18 => s.snapTime 0 / 2 ^ 32
  | 0x20 => s.snapReg 1
  | 0x24 => s.snapTime 1
  | 0x28 => s.snapTime 1 / 2 ^ 32
  | _ =>
    if inRun o 0x800 192 then
      let c := (o - 0x800) / 4
      modeCode (s.cell c).mode + Nat.min 3 (s.recentRestarts c).length * 2 ^ 2
    else (s.reg a).toNat

def State.secReg (s : State) (o a : Nat) : Nat :=
  let x := s.sec
  match o with
  | 0x0 => x.stage + x.slot * 2 ^ 3 + bitN x.trial * 2 ^ 4 + bitN x.fallback * 2 ^ 5 + x.reason * 2 ^ 8
  | 0x4 => s.flash.arb + x.svn * 2 ^ 8
  | 0x8 => s.flash.revoked.toNat
  | 0xC => bitN s.flash.owner.isSome
  | 0x14 => bitN x.jtagOpen + bitN (decide (3 ≤ x.jtagFails)) * 2
  | 0x18 => if x.staging.isSome then 1 else if x.committed then 2 else 0
  | _ =>
    if inRun o 0x20 4 then s.flash.uid.toNat / 2 ^ (8 * (o - 0x20))
    else if inRun o 0x100 80 then (x.meas.getD ((o - 0x100) / 64) 0).toNat / 2 ^ (8 * ((o - 0x100) % 64))
    else (s.reg a).toNat

def State.schedReg (s : State) (o a : Nat) : Nat :=
  if inRun o 0x100 80 then
    let b := s.bar ((o - 0x100) / 4)
    bitN b.en + bitN b.broken * 2 + b.cause % 4 * 2 ^ 2 + b.done.toNat * 2 ^ 4
  else (s.reg a).toNat

/-! ## Scaler, Ethernet, fabric, landings (R504 to R507) -/

def State.plcReg (s : State) (o a : Nat) : Nat :=
  if o = 0x24 then
    let mine := s.scaler.moves.any fun m => match s.desc m.req.handle with | some d => d.steward == s.dev | none => false
    let moves := (s.scaler.moves.filter fun m => m.req.src.1 == s.dev && m.phase != .queued).length
    bitN mine + bitN (s.scaler.sweeps != []) * 2 + bitN s.placementFrozen * 4 + moves * 2 ^ 8
  else (s.reg a).toNat

def State.ethReg (s : State) (o a : Nat) : Nat :=
  match o with
  | 0x4 => s.eth.link + bitN s.eth.slow * 4 + bitN s.eth.macsecNow * 8
  | 0x48 => match s.eth.session with | some x => 1 + x.q * 2 | none => 0
  | 0x4C => match s.eth.session with | some x => x.num.toNat | none => 0
  | 0x50 => s.flash.incarn.toNat
  | _ => (s.reg a).toNat

def fabCode' (x : FabState) : Nat := match x with | .detached => 0 | .joining => 1 | .member => 2 | .expelled => 3

def linkCode (x : LinkState) : Nat :=
  match x with | .off => 0 | .training => 1 | .up => 2 | .down => 3 | .parked => 4 | .beacon => 5 | .foreign => 6

def State.fabReg (s : State) (o a : Nat) : Nat :=
  match o with
  | 0x10 => fabCode' s.fab.state + bitN s.isKeeper * 2 ^ 3 + bitN s.fab.idSet * 2 ^ 4 + s.fab.joinResult * 2 ^ 5 + s.fab.keeper * 2 ^ 8
  | 0x14 => s.fab.epoch.toNat
  | 0x24 => (s.fab.route (s.regF rFabRtIdx 15 0)).toNat
  | 0x2C => s.fab.member (s.regF rFabMbrIdx 15 0)
  | _ =>
    if inRun o 0x100 32 then
      let k := s.link ((o - 0x100) / 4)
      linkCode k.state + k.width * 2 ^ 3 + k.farDev * 2 ^ 5 + k.farLink * 2 ^ 21 + bitN k.farValid * 2 ^ 26
    else (s.reg a).toNat

/-- Requests queued for a bank of a landing. -/
def State.bankOcc (s : State) (l b : Nat) : Nat := (s.reqs.filter fun q => q.stage == .landing l && bankOf q.la == b).length

def State.lndReg (s : State) (l o a : Nat) : Nat :=
  if o = 0xC then
    let x := s.landing l
    bitN x.failed + bitN (x.scrubOn && s.regBit (rLnd l 0) 0 && !x.failed) * 2 + x.retired.length * 4
  else if inRun o 0x400 256 then
    let b := (o - 0x400) / 4
    let n := Nat.min 4095 (s.bankOcc l b)
    n + Nat.min 4095 (Nat.max n (tblGet 0 b (s.landing l).occMax)) * 2 ^ 12
  else (s.reg a).toNat

/-! ## Cells (R508) -/

/-- The class and opcode of the instruction that the execute engine holds. -/
def CellSt.heldOp (x : CellSt) : Option (Nat × Nat) := x.heldWord.map fun w => (wCls w, wOp w)

/-- The instruction held is of a skipped pair, which takes no weight path and preloads nothing (R262). -/
def CellSt.heldSkipped (x : CellSt) : Bool := x.heldPair == .skipped

/-- An M-class instruction of a kind is in flight, or held and not one that a skipped pair leaves undone. -/
def CellSt.mBusy (x : CellSt) (p : Nat → Bool) : Bool :=
  x.arr.mops.any (fun o => p o.op) || (match x.heldOp with | some (4, op) => p op && !(x.heldSkipped && op != 4) | _ => false)

def CellSt.vBusy (x : CellSt) : Bool := x.vec.busy.isSome || (match x.heldOp with | some (5, _) => true | _ => false)

def State.engStatus (s : State) (c : Nat) : Nat :=
  let x := s.cell c
  let a := if x.ae.prog.isNone then 0 else if x.ae.wait.isSome then 2 else if x.ae.op.isSome && s.reqs.any (fun r => r.ofCell c) then 3 else 1
  let e := if x.xe.prog.isNone then 0 else if x.xe.wait.isSome then 2 else 1
  a + e * 4 + Nat.min (2 ^ 20) x.wd * 2 ^ 8

/-- Slot counts of chutes, four bits each. -/
def occBits (l : List Chute) : Nat := (l.zipIdx.map fun h => h.1.slots.length * 2 ^ (4 * h.2)).sum

def CellSt.arrayReg (x : CellSt) : Nat :=
  bitN x.arr.quarter + (x.arr.banks.zipIdx.map fun b => bitN b.1.loaded * 2 ^ (1 + b.2)).sum +
  bitN (x.mBusy fun op => op == 1) * 2 ^ 9 + bitN (x.mBusy fun op => op == 2 || op == 4) * 2 ^ 10

/-- A copy that the present configuration uses: in FULL only q = 0. -/
def CellSt.copyUsed (x : CellSt) (i : Nat) : Bool := x.arr.quarter || i % 4 == 0

def CellSt.accStatus (x : CellSt) (i : Nat) : Nat :=
  if !x.copyUsed i then 0
  else
    let q := x.arr.stat.getD i QStat.reset
    q.cls + bitN q.ovfSat * 2 ^ 3 + bitN q.longsum * 2 ^ 4 + bitN q.nanIn * 2 ^ 5 + bitN q.spilled * 2 ^ 6 + q.replays * 2 ^ 7 + q.t * 2 ^ 10

def CellSt.accChain (x : CellSt) (i : Nat) : Nat :=
  if !x.copyUsed i then 0
  else
    let lo := 512 * (i / 4) + 128 * (i % 4)
    Nat.min (2 ^ 30 - 1) ((x.arr.chain.filter fun e => decide (lo ≤ e.1) && decide (e.1 < lo + 128)).foldl (fun m e => Nat.max m e.2) 0)

def CellSt.winReg (x : CellSt) (u : Nat) : Nat :=
  if u ≠ 0 ∧ !x.arr.quarter then 0
  else (x.arr.win.getD u []).sum + (x.arr.win.getD u []).length * 2 ^ 11

def widthCode (w : Nat) : Nat := if w = 128 then 2 else if w = 64 then 1 else 0

def CellSt.rdyq (x : CellSt) (p0 : Nat) : Nat :=
  ((List.range 4).map fun (p : Nat) => (x.ready.filter fun t => (x.thread t).pri.toNat == p0 + p).length * 2 ^ (8 * p)).sum

def CellSt.coreReg (x : CellSt) (k : Nat) : Nat :=
  match x.cores[k]? with
  | none => 0
  | some c =>
    ((List.range 1024).filter fun i => c.load.getLsbD i).length +
      (match c.slot with | some t => t * 2 ^ 11 + 2 ^ 17 | none => 0)

def stateCode (t : ThState) : Nat :=
  match t with | .free => 0 | .ready => 1 | .running => 2 | .waiting => 3 | .sleeping => 4 | .failed => 5

def Thread.word (t : Thread) (w : Nat) : Nat :=
  match w with
  | 0 => stateCode t.state + t.pri.toNat * 2 ^ 3 + t.lastCore.toNat * 2 ^ 6 + bitN t.lcv * 2 ^ 8 + bitN t.modeAll * 2 ^ 9 +
      bitN t.clr * 2 ^ 10 + bitN t.unread * 2 ^ 11 + t.reason.toNat * 2 ^ 12 + t.faultCode.toNat * 2 ^ 16
  | 1 => t.flags.toNat
  | 2 => t.mask.toNat
  | 3 => t.pc.toNat % 2 ^ 20
  | 4 => t.deadline.toNat
  | 5 => t.faultInfo.toNat
  | 6 => t.faultInfo.toNat / 2 ^ 32
  | _ => t.evwait.toNat

def State.cellReg (s : State) (c o a : Nat) : Nat :=
  let x := s.cell c
  let stored := (s.reg a).toNat
  let lt : Nat := match s.latch 1 (0x2000 + c) with | some l => l.time.toNat | none => 0
  match o with
  | 0x0 => c + fieldOfCell c * 2 ^ 8 + s.dev * 2 ^ 16
  | 0x4 => s.engStatus c
  | 0x8 => occBits x.ich
  | 0xC => occBits x.och
  | 0x20 => x.arrayReg
  | 0x80 => bitN x.vBusy + x.vec.vl * 2
  | 0x84 => bitN x.vec.carry.isOpen + widthCode x.vec.carry.width * 2
  | 0x88 => x.vec.carry.rem.toNat
  | 0x8C => x.vec.carry.closed.toNat
  | 0xB4 => (x.pred.hist.filter id).length + x.pred.hist.length * 2 ^ 11
  | 0x104 => (s.slotsHeld c fun r => r.dev == s.dev) + (s.slotsHeld c fun r => r.dev != s.dev) * 2 ^ 12 + bitN (s.oldestCapped c).isSome * 2 ^ 24
  | 0x204 => (x.cc.all.filter (·.lock)).length + (x.cc.all.filter (·.dirty)).length * 2 ^ 16
  | 0x218 => stored + bitN x.cc.maint.busy + x.cc.maint.err * 4
  | 0x300 => x.tick.toNat
  | 0x318 => x.rdyq 0
  | 0x31C => x.rdyq 4
  | 0x600 => (0x2000 + c) * 2 ^ 8 + bitN (s.held 1 (0x2000 + c)) * 4
  | 0x604 => lt
  | 0x608 => lt / 2 ^ 32
  | _ =>
    if inRun o 0x40 8 then x.accStatus ((o - 0x40) / 4)
    else if inRun o 0x60 8 then x.accChain ((o - 0x60) / 4)
    else if inRun o 0xA0 4 then x.winReg ((o - 0xA0) / 4)
    else if inRun o 0x350 4 then x.coreReg ((o - 0x350) / 4)
    else if inRun o 0x400 80 then
      let b := s.barCell c ((o - 0x400) / 4)
      stored + b.episode.toNat * 2 ^ 7 + b.now.length % 128 * 2 ^ 15 + b.early.length % 128 * 2 ^ 22
    else if inRun o 0x800 512 then (x.thread ((o - 0x800) / 32)).word ((o - 0x800) % 32 / 4)
    else stored

/-! ## Every register -/

/-- The counter word at an address: its count, low and high, and its control word (R487). -/
def State.cntReg (s : State) (a : Nat) : Option Nat :=
  if (cntArea (blockOf a) (offOf a)).isNone then none
  else
    let k := a / 16 * 16
    some (match a % 16 with
      | 0 => (s.cnt k).toNat | 4 => (s.cnt k).toNat / 2 ^ 32 | 8 => (s.reg a).toNat | _ => 0)

/-- The live value of the register at an address. An address that no table names holds nothing and reads 0 (R3). -/
def State.liveReg (s : State) (a : Nat) : W32 :=
  let o := offOf a
  BitVec.ofNat 32 (match s.cntReg a with
    | some v => v
    | none => match blockOf a with
      | .ident => identReg o
      | .power => s.pwrReg o a
      | .errs => s.errReg o a
      | .sec => s.secReg o a
      | .plc => s.plcReg o a
      | .sched => s.schedReg o a
      | .eth => s.ethReg o a
      | .fab => s.fabReg o a
      | .lnd l => s.lndReg l o a
      | .cell c => s.cellReg c o a
      | .none => 0)

/-- The RC fields of a register cleared (R9). -/
def State.clearRc (s : State) (a : Nat) : State :=
  let o := offOf a
  match blockOf a with
  | .power => if o = 0x10 then s.setRegF rPwrTemp 17 10 0 else s
  | .lnd l => if inRun o 0x400 256 then s.modLanding l fun x => { x with occMax := tblSet 0 ((o - 0x400) / 4) 0 x.occMax } else s
  | .cell _ => if inRun o 0x320 8 || o == 0x340 then s.setReg a 0 else s
  | _ => s

end Sys2Proof.Machine
end

