-- ==== Sys2Proof/Machine/RegIo.lean ====
section
/-! DEFINITION. Machine/RegIo.lean: reading and writing registers on every path (R9, R494 to R498), the snapshot latches (R488, R500, R511,
R514, R515), and what a write of a register sets off. -/

namespace Sys2Proof.Machine

/-! ## Latches -/

/-- The counter words of an area. -/
def areaWords (base n : Nat) : List Nat := (List.range (2 * n)).map fun (i : Nat) => base + 16 * (i / 2) + 4 * (i % 2)

def regRun (base n : Nat) : List Nat := (List.range n).map fun (i : Nat) => base + 4 * i

/-- The registers that a TAKE of a unit copies: its counters, its error counters, what its chapter names, and its RC fields; every register
of the identity, error and scheduling blocks, the latch registers themselves excepted; and of the fabric the device registers with those
of one link (R488, R500, R514). -/
def unitRegs (u : Nat) : List Nat :=
  let i := u % 0x1000
  match u / 0x1000 with
  | 0 => regRun 0 5 ++ [errBase] ++ regRun (errBase + 0x800) 192 ++ regRun (errBase + 0xC00) 192 ++ regRun (errBase + 0x1000) 192 ++
      regRun schBase 3 ++ regRun (schBase + 0x100) 80 ++ areaWords (schBase + 0x1000) 2
  | 2 => (([0x8, 0xC, 0x14] ++ regRun 0x80 4 ++ [0x204] ++ regRun 0x21C 3 ++ regRun 0x300 8 ++ regRun 0x320 9 ++ regRun 0x350 4 ++ [0x360] ++
      regRun 0x800 512 ++ areaWords 0x1000 84).map (cellBase i + ·))
  | 3 => ((regRun 0x20 3 ++ regRun 0x400 256 ++ areaWords 0x1000 256 ++ areaWords 0x2000 256 ++ areaWords 0x3000 7).map (lndBase i + ·))
  | 4 => ((regRun 0 2 ++ regRun 0xC 11 ++ [0x100 + 4 * i, 0x200 + 4 * i, 0x280 + 4 * i, 0x300 + 4 * i] ++ regRun 0x400 32 ++
      areaWords (0x1000 + 64 * i) 4 ++ areaWords 0x1800 8).map (fabBase + ·))
  | 5 => ((regRun 0x80 2 ++ areaWords 0x1000 18).map (ethBase + ·))
  | 6 => areaWords (plcBase + 0x1000) 15
  | 7 => regRun (secBase + 0x80) 2
  | 8 => [rPwrTemp, pwrBase + 0x20, pwrBase + 0x24] ++ areaWords (pwrBase + 0x1000) 3
  | _ => []

/-- TAKE of one unit: copies of its registers, whose RC fields are cleared at the same instant. -/
def State.takeUnit (s : State) (j u : Nat) : State :=
  let rs := unitRegs u
  let l : Latch := { j := j, scope := u, time := s.timebase, copies := rs.map fun a => (a, s.liveReg a) }
  let s := rs.foldl State.clearRc s
  { s with latches := l :: s.latches.filter fun x => !(x.j == j && x.scope == u) }

/-- SNAPSHOT_TAKE: every unit of a scope at one instant; a scope that names nothing does nothing. -/
def State.take (s : State) (j scope : Nat) : State :=
  match scopeUnits scope with
  | none => s
  | some us => { us.foldl (fun s u => s.takeUnit j u) s with snapTimes := modAt j (fun _ => s.timebase) s.snapTimes }

/-- RELEASE of units: their copies are gone. -/
def State.release (s : State) (j scope : Nat) : State :=
  let us := (scopeUnits scope).getD []
  { s with latches := s.latches.map fun l => if l.j = j ∧ us.contains l.scope then { l with copies := [] } else l }

/-- The copy of a register through latch `j`, the youngest where several latches hold one. -/
def State.copyOf (s : State) (j a : Nat) : Option W32 :=
  s.latches.findSome? fun l => if l.j = j then (l.copies.find? fun e => e.1 == a).map (·.2) else none

/-! ## Which accesses are carried out (R497) -/

/-- The cell whose block an address lies in. -/
def cellOfReg (a : Nat) : Option Nat := match blockOf a with | .cell c => some c | _ => none

/-- Blocks held in the lookout island answer in every rung. -/
def lookoutBlock (a : Nat) : Bool :=
  match blockOf a with | .ident => true | .power => true | .errs => true | .sec => true | .sched => true | _ => false

/-- The island of a register has power and clock. -/
def State.islandOn (s : State) (a : Nat) : Bool :=
  lookoutBlock a || (s.power.rails && (match blockOf a with
    | .cell _ => decide (s.power.rung = 0)
    | .plc => decide (s.power.rung < 3)
    | _ => decide (s.power.rung < 4)))

/-- An access reads 0 and writes nothing: no register, no power, an OFFLINE cell. -/
def State.regDead (s : State) (a : Nat) : Bool :=
  !s.islandOn a || (match cellOfReg a with | some c => (s.cell c).mode == .offline | none => false)

/-- An access waits: the cell restarts. -/
def State.regWaits (s : State) (a : Nat) : Bool := match cellOfReg a with | some c => (s.cell c).mode == .restarting | none => false

/-- A register access unparks its cell. -/
def State.touchReg (s : State) (a : Nat) : State := match cellOfReg a with | some c => s.unpark c | none => s

/-! ## Reading -/

/-- One register is read through latch `j`. -/
def State.readReg (s : State) (j a : Nat) : W32 × State :=
  if s.regDead a then (0, s)
  else
    let s := s.touchReg a
    match s.copyOf j a with
    | some v => (v, s)
    | none => (s.liveReg a, s.clearRc a)

def State.readRegs (s : State) (j : Nat) : List Nat → List W32 × State
  | [] => ([], s)
  | a :: t =>
    let (v, s) := s.readReg j a
    let (vs, s) := s.readRegs j t
    (v :: vs, s)

/-! ## Writing -/

/-- A write with no effect but on the register (R9). -/
def State.plainReg (s : State) (a : Nat) (v : W32) : State :=
  if regFlds a = [] ∧ regW1c a = 0 then s else s.setReg a (plainWrite a (s.reg a) v)

/-- TAKE and RELEASE of a latch register: RELEASE acts first. -/
def State.snapCtl (s : State) (j scope : Nat) (v : W32) : State :=
  let s := if v.getLsbD 1 then s.release j scope else s
  if v.getLsbD 0 then s.take j scope else s

def State.writeErrs (s : State) (o a : Nat) (v : W32) : State :=
  if o = 0 then { s with errSeen := s.errSeen &&& ~~~(v.setWidth 4) }
  else if o = 4 then (if v.getLsbD 0 then s.clearErrs else s)
  else if o = 0x10 then (s.plainReg a v).snapCtl 0 (fld v 23 8) v
  else if o = 0x20 then (s.plainReg a v).snapCtl 1 (fld v 23 8) v
  else if inRun o 0x400 192 then (if v.getLsbD 0 then s.cellRestart ((o - 0x400) / 4) else s)
  else s

/-- ETH_CFG.EN starts and ends training; the addresses and the VLAN are written only while it is 0 (R418, R419). -/
def State.writeEth (s : State) (o a : Nat) (v : W32) : State :=
  let en := s.regBit rEthCfg 0
  if o = 0 then
    let s := s.plainReg a v
    if v.getLsbD 0 == en then s
    else if v.getLsbD 0 then s.modEth fun e => { e with link := 1 }
    else s.modEth fun e => { e with link := 0 }
  else if inRun o 8 8 && en then s
  else s.plainReg a v

/-- A link bit of FAB_LINK_EN changes (R381). -/
def State.linkEnable (s : State) (l : Nat) (on : Bool) : State :=
  let k := s.link l
  if on then (if k.state = .off then s.modLink l fun k => { k with state := .training } else s)
  else
    let s := if k.alive then s.linkDown l else s
    s.modLink l fun k => { k with state := .off }

/-- Writes of the fabric's registers (R338, R381, R395, R402, R413, R416). -/
def State.writeFab (s : State) (o a : Nat) (v : W32) : State :=
  let detached := s.fab.state == .detached
  if o = 0 then (if detached then (s.plainReg a v).modFab fun f => { f with idSet := true } else s)
  else if o = 4 then (if detached then s.plainReg a v else s)
  else if o = 8 then
    let s := if v.getLsbD 0 then s.found else s
    if v.getLsbD 1 then s.join else s
  else if o = 0xC then
    let old := s.reg a
    let s := s.plainReg a v
    (List.range 32).foldl (fun s l => if v.getLsbD l == old.getLsbD l then s else s.linkEnable l (v.getLsbD l)) s
  else if o = 0x24 then
    (s.modFab fun f => { f with routes := tblSet 0 (s.regF rFabRtIdx 15 0) (v &&& 0x00FFFFFF) f.routes }).releaseHeld
  else if inRun o 0x400 32 && (s.bar (64 + (o - 0x400) % 0x40 / 4)).en then s
  else s.plainReg a v

def State.writeSched (s : State) (o a : Nat) (v : W32) : State :=
  if inRun o 0x100 80 then
    let n := (o - 0x100) / 4
    if v.getLsbD 0 then s.barEnable n else s.barDisable n
  else s.plainReg a v

def State.writeCell (s : State) (c o a : Nat) (v : W32) : State :=
  if o = 0x208 then
    let s := s.plainReg a v
    if v.getLsbD 4 then (s.maintStart c).modCell c fun x => { x with idleSince := s.timebase } else s
  else if inRun o 0x400 80 && (s.bar ((o - 0x400) / 4)).en then s
  else if o = 0x600 then s.snapCtl 1 (0x2000 + c) v
  else s.plainReg a v

/-- One register is written. SEC_CTRL takes a write over I3C only (R496). -/
def State.writeReg (s : State) (i3c : Bool) (a : Nat) (v : W32) : State :=
  if s.regDead a then s
  else
    let s := s.touchReg a
    let o := offOf a
    match blockOf a with
    | .errs => s.writeErrs o a v
    | .sec => if o = 0x10 ∧ !i3c then s else s.plainReg a v
    | .power => if o = 0xC then (s.plainReg a v).thermCheck else s.plainReg a v
    | .eth => s.writeEth o a v
    | .fab => s.writeFab o a v
    | .sched => s.writeSched o a v
    | .cell c => s.writeCell c o a v
    | _ => s.plainReg a v

def State.writeRegs (s : State) (i3c : Bool) (l : List (Nat × W32)) : State := l.foldl (fun s x => s.writeReg i3c x.1 x.2) s

/-! ## The paths (R494) -/

/-- A range that R494 allows. -/
def regRange (a n most : Nat) : Bool := a % 4 == 0 && decide (1 ≤ n) && decide (n ≤ most) && decide (a + 4 * (n - 1) ≤ 0xFFFFFFFC)

/-- REG_READ. -/
def State.regRead (s : State) (q : Nat) (sess : W32) (c : QCmd) : State :=
  let p := c.payload
  let a := leAt p 0 4
  let n := leAt p 4 2
  if p.length ≠ 6 ∨ !regRange a n 256 then s.complete q sess c stBadParam []
  else
    let (vs, s) := s.readRegs 0 (regRun a n)
    s.complete q sess c stOk (vs.flatMap fun v => leBytes 4 v.toNat)

/-- REG_WRITE. -/
def State.regWrite (s : State) (q : Nat) (sess : W32) (c : QCmd) : State :=
  let p := c.payload
  let a := leAt p 0 4
  let n := leAt p 4 2
  if p.length ≠ 8 + 4 * n ∨ !zeroAt p 6 2 ∨ !regRange a n 256 then s.complete q sess c stBadParam []
  else
    let ws := (List.range n).map fun (i : Nat) => (a + 4 * i, BitVec.ofNat 32 (leAt p (8 + 4 * i) 4))
    (s.writeRegs false ws).complete q sess c stOk []

/-- A REG_READ or REG_WRITE that names a restarting cell is held (R482, R497). -/
def State.regHeld (s : State) (payload : List Byte) : Bool :=
  (regRun (leAt payload 0 4) (Nat.min 256 (leAt payload 4 2))).any s.regWaits

/-- Whether the device answers on I3C: not while RST_N is low, but for a PWR_GOOD timeout (R522, R527). -/
def State.i3cOn (s : State) : Bool := s.power.phase != .unpowered && (s.power.rstN || s.power.pgTimeout)

/-- What becomes of an access on a path of the board: 0 not answered, 1 refused (either is no acknowledgement on I3C), 2 held, 3 it wakes the device and is held, 4 carried
out. -/
def State.pathWay (s : State) (p : RegPath) (a n : Nat) : Nat :=
  let most := match p with | .i3c => 64 | .jtag => 256
  let on := match p with | .i3c => s.i3cOn | .jtag => s.power.phase == .running && s.sec.jtagOpen
  if !on then 0
  else if !regRange a n most then 1
  else if (regRun a n).any s.regWaits then 2
  else if p = .jtag ∧ (s.power.rung ≠ 0 ∨ s.power.busy) ∧ !(regRun a n).all quietBlock then 3
  else 4

/-- REGISTER_READ over I3C or JTAG. -/
def State.pathRead (s : State) (p : RegPath) (a n : Nat) : State :=
  match s.pathWay p a n with
  | 0 | 1 => match p with | .i3c => s.modPower fun x => { x with i3cNak := true } | .jtag => s
  | 2 => s
  | 3 => s.wakeByUse
  | _ =>
    let (vs, s) := s.readRegs 0 (regRun a n)
    match p with
    | .i3c => s.modPower fun x => { x with i3cOut := vs, i3cNak := false }
    | .jtag => s.modSec fun x => { x with jtagOut := vs.flatMap fun v => leBytes 4 v.toNat }

/-- REGISTER_WRITE over I3C or JTAG. -/
def State.pathWrite (s : State) (p : RegPath) (a : Nat) (v : W32) : State :=
  match s.pathWay p a 1 with
  | 0 | 1 => match p with | .i3c => s.modPower fun x => { x with i3cNak := true } | .jtag => s
  | 2 => s
  | 3 => s.wakeByUse
  | _ => match p with
    | .i3c => (s.writeReg true a v).modPower fun x => { x with i3cNak := false }
    | .jtag => s.writeReg false a v

/-- The register offset of S.RDREG and S.WRREG. -/
def State.regOff (s : State) (th : ThreadRef) (w : W64) : Nat := (s.sreg th (wRa w) + wImm w).toNat

/-- S.RDREG: through latch 1; an offset beyond the block reads 0 (R278, R488). -/
def State.sRdreg (s : State) (th : ThreadRef) (w : W64) : State :=
  s.thIssue th 1 0x38 w
    (let o := s.regOff th w
     if o % 4 ≠ 0 then s.thFault th fMisaligned o
     else if 0x10000 ≤ o then s.thRet th (wRd w) 0
     else
       let (v, s) := s.readReg 1 (rCell th.cell o)
       s.thRet th (wRd w) (BitVec.ofNat 64 v.toNat))

/-- S.WRREG. -/
def State.sWrreg (s : State) (th : ThreadRef) (w : W64) : State :=
  s.thIssue th 1 0x39 w
    (let o := s.regOff th w
     if o % 4 ≠ 0 then s.thFault th fMisaligned o
     else
       let v : W32 := (s.sreg th (wRb w)).setWidth 32
       let s := s.thNext th id
       if 0x10000 ≤ o then s else s.writeReg false (rCell th.cell o) v)

/-! ## The commands -/

def execRegRead (q : Nat) (payload : List Byte) (s : State) : Host.Outcome State Fault Refusal :=
  .next (if s.regHeld payload then s else s.hostDo q 8 payload fun s n c => s.regRead q n c)
def execRegWrite (q : Nat) (payload : List Byte) (s : State) : Host.Outcome State Fault Refusal :=
  .next (if s.regHeld payload then s else s.hostDo q 9 payload fun s n c => s.regWrite q n c)
def execRegisterRead (p : RegPath) (addr count : Nat) (s : State) : Host.Outcome State Fault Refusal := .next (s.pathRead p addr count)
def execRegisterWrite (p : RegPath) (addr : Nat) (v : W32) (s : State) : Host.Outcome State Fault Refusal := .next (s.pathWrite p addr v)
def execSRdreg (th : ThreadRef) (w : W64) (s : State) : Host.Outcome State Fault Refusal := .next (s.sRdreg th w)
def execSWrreg (th : ThreadRef) (w : W64) (s : State) : Host.Outcome State Fault Refusal := .next (s.sWrreg th w)
def execSnapshotTake (j : Nat) (scope : BitVec 16) (s : State) : Host.Outcome State Fault Refusal :=
  .next (if j < 2 ∧ s.power.phase = .running then (s.setRegF (rSnap j) 23 8 scope.toNat).take j scope.toNat else s)
/-- SNAPSHOT_RELEASE: of the units that CNT_SNAPj.SCOPE names. -/
def execSnapshotRelease (j : Nat) (s : State) : Host.Outcome State Fault Refusal :=
  .next (if j < 2 ∧ s.power.phase = .running then s.release j (s.regF (rSnap j) 23 8) else s)

end Sys2Proof.Machine
end

