-- ==== Sys2Proof/Machine/Time.lean ====
section
/-! DEFINITION. Machine/Time.lean: the passing of time: the timebase (R461), ticks (R310, R311), and what counts cell cycles (R123, R130, R148, R194,
R248, R318, R342, R470). -/

namespace Sys2Proof.Machine

/-- The decouple watchdog counts: no engine but waits on a chute or is idle, and one waits (R130). -/
def CellSt.stalled (x : CellSt) : Bool :=
  (x.ae.prog.isNone || x.ae.wait.isSome) && (x.xe.prog.isNone || x.xe.wait.isSome) && (x.ae.wait.isSome || x.xe.wait.isSome)

/-- `n` cell cycles and `dt` ns in a cell, up to the instant `now`. -/
def CellSt.run (x : CellSt) (n acc : Nat) (now : W64) : CellSt :=
  let more (p : Prog) : Prog := { p with cycles := p.cycles + n }
  { x with
    cycAcc := acc, ae := { x.ae with prog := x.ae.prog.map more }, xe := { x.xe with prog := x.xe.prog.map more },
    wd := if x.stalled then Nat.min (2 ^ 20) (x.wd + n) else x.wd, idleSince := if x.quiet then x.idleSince else now }

/-- Adds to a counter of a cell unless there is nothing to add. -/
def State.countSome (s : State) (c i n : Nat) : State := if n = 0 then s else s.countC c i n

/-- Time passes in a cell that runs. -/
def State.cellTime (s : State) (dt c : Nat) : State :=
  let x := s.cell c
  if !s.active || !s.cellUp c || x.parked then s
  else
    let t := x.cycAcc + dt * cellRate (s.setpoint c)
    let n := t / 40
    let fences := (x.threads.filter fun y => y.fence.isSome).length
    let s := s.modCell c fun x => x.run n (t % 40) s.timebase
    let s := (s.capCycles c n).countSome c (cMx 4) (if x.mBusy fun op => op == 1 then n else 0)
    let s := (s.countSome c cFenceCyc (n * fences)).countSome c (cVx 1) (if x.vec.busy.isNone && x.vBusy then n else 0)
    (List.range 4).foldl (fun s k => s.countSome c (cCoreBusy k) (if (x.cores.getD k { slot := none, load := 0 }).slot.isSome then n else 0)) s

/-- A tick boundary in a cell: the tick counter, the load history, and READY time outside the lower rungs (R310, R318, R463). -/
def CellSt.tickOne (active : Bool) (x : CellSt) : CellSt :=
  { x with
    tick := x.tick + 1,
    cores := x.cores.map fun k => { k with load := k.load <<< 1 ||| (if k.slot.isSome then 1 else 0) },
    threads := x.threads.map fun t => if active && t.state == .ready then { t with readyTicks := t.readyTicks + 1 } else t }

/-- A tick boundary; a new period is in effect from here (at least one tick unit: the register's range, R310). -/
def State.tickAll (s : State) : State :=
  { s with cells := s.cells.map (CellSt.tickOne s.active), tickPeriod := Nat.max 1 (s.regF rSchTick 12 0) }

/-- Nanoseconds between tick boundaries. -/
def State.tickNs (s : State) : Nat := 250 * s.tickPeriod

/-- Nanoseconds until the next tick boundary. -/
def State.toBoundary (s : State) : Nat := s.tickNs - s.timebase.toNat % s.tickNs

/-- `dt` nanoseconds pass, at most up to the next tick boundary. The timebase counts while VSTBY is within its limits. -/
def State.elapse (s : State) (dt : Nat) : State :=
  if s.power.phase = .unpowered then s
  else
    let s : State := { s with timebase := s.timebase + BitVec.ofNat 64 dt }
    if s.power.phase = .running ∧ s.power.rung ≠ 4 then
      let s := (List.range 192).foldl (fun s c => s.cellTime dt c) s
      if s.timebase.toNat % s.tickNs = 0 then s.tickAll else s
    else s

/-- One nanosecond passes with no command waiting. -/
def State.idle (s : State) : State := s.elapse 1

/-- TICK_BOUNDARY: time passes up to the next tick boundary. -/
def State.tickBoundary (s : State) : State := s.elapse s.toBoundary

/-! ## The command -/

def execTickBoundary (s : State) : Host.Outcome State Fault Refusal := .next s.tickBoundary

end Sys2Proof.Machine
end

