-- ==== Sys2Proof/Machine/VData.lean ====
section
/-! DEFINITION. Machine/VData.lean: the operands of the vector engine (R220 to R226) and what its instructions compute on lists of
lanes (R231 to R240). -/

namespace Sys2Proof.Machine

/-! ## Lanes, masks and counts (R220 to R223) -/

def VecSt.lane (v : VecSt) (i : Nat) : W32 := tblGet 0 i v.vt
def VecSt.mask (v : VecSt) (j : Nat) : BitVec 1024 := v.vm.getD j 0

/-- n of an instruction whose first source is, or is not, an accumulator (R223). -/
def vCount (v : VecSt) (acc : Bool) (w : W64) : Nat :=
  if wVlsel w then v.vl
  else if acc then (if wCnt w = 0 then 16384 else 4 * wCnt w)
  else if wCnt w = 0 then 4096 else wCnt w

/-- `n` elements from register `b` stay in its group of four (R221). -/
def groupFits (b n : Nat) : Bool := decide (b % 4 * 1024 + n ≤ 4096)

/-- The capacity of a source (R221, R225). -/
def srcFits (n : Nat) : Src → Bool
  | .tile b => groupFits b n
  | .acc _ s0 => decide (s0 * 1024 + n ≤ 16384)
  | _ => true

def srcIsAcc : Src → Bool
  | .acc _ _ => true
  | _ => false

/-- The mask field is one that `n` elements may have (R222). -/
def maskFits (w : W64) (n : Nat) : Bool := wMsk w == 0 || decide (n ≤ 1024) || (wMsk w == 4 && decide (n ≤ 4096))

/-- Bit `e` of mask `j`, running on over the masks that follow vm0. -/
def VecSt.maskBit (v : VecSt) (j e : Nat) : Bool := (v.mask (j + e / 1024)).getLsbD (e % 1024)

/-- Element `e` is not masked. -/
def VecSt.live (v : VecSt) (w : W64) (e : Nat) : Bool := wMsk w == 0 || v.maskBit (wMsk w - 4) e

/-! ## Accumulator reads (R225) -/

/-- The tile row and column of element `e` from sub-tile `s0`. -/
def accAt (s0 e : Nat) : Nat × Nat :=
  let s := s0 + e / 1024
  (32 * (s / 4) + e % 1024 / 32, 32 * (s % 4) + e % 32)

/-- The status copy that governs a place of a tile. -/
def ArraySt.statAt (a : ArraySt) (t row col : Nat) : Nat := 4 * t + (if a.quarter then row / 64 * 2 + col / 64 else 0)

def ArraySt.elemAt (a : ArraySt) (t : Nat) (p : Nat × Nat) : W32 := tblGet 0 (16384 * t + 128 * p.1 + p.2) a.acc

/-- The quarter of the first INVALID place among some of a tile. -/
def ArraySt.invalidAt (a : ArraySt) (t : Nat) (l : List (Nat × Nat)) : Option Nat :=
  (l.find? fun p => (a.stat.getD (a.statAt t p.1 p.2) QStat.reset).cls == 0).map fun p => a.statAt t p.1 p.2 % 4

/-- Element `e` of a source (R226). -/
def CellSt.srcAt (x : CellSt) (e : Nat) : Src → W32
  | .tile b => x.vec.lane (1024 * b + e)
  | .acc t s0 => x.arr.elemAt t (accAt s0 e)
  | .row b r => x.vec.lane (1024 * b + 32 * r + e % 32)
  | .col b c => x.vec.lane (1024 * b + 32 * (e / 32 % 32) + c)
  | .scalar b => x.vec.lane (1024 * b)

def CellSt.srcList (x : CellSt) (n : Nat) (v : Src) : List W32 := (List.range n).map fun (e : Nat) => x.srcAt e v

/-- What is wrong with a source of `n` elements: its capacity, or an INVALID tile. -/
def CellSt.srcFault (x : CellSt) (w : W64) (n : Nat) (v : Src) : Option (Nat × W64) :=
  if !srcFits n v then some (fBadShape, w)
  else match v with
    | .acc t s0 => (x.arr.invalidAt t ((List.range n).map (accAt s0))).map fun q => (fTileInvalid, BitVec.ofNat 64 (t + 256 * q))
    | _ => none

/-! ## Results -/

/-- Lanes written from register `vd` up: a masked lane keeps its value or becomes 0 (R222). -/
def VecSt.putLanes (v : VecSt) (vd : Nat) (vals : List W32) (live : Nat → Bool) (z : Bool) : VecSt :=
  { v with vt := vals.zipIdx.foldl (fun m e =>
      if live e.2 then tblSet 0 (1024 * vd + e.2) e.1 m else if z then tblSet 0 (1024 * vd + e.2) 0 m else m) v.vt }

def allLive (_ : Nat) : Bool := true

/-- Bits of a mask written, from bit 0 (R231). -/
def VecSt.putMask (v : VecSt) (j : Nat) (bits : List Bool) (live : Nat → Bool) (z : Bool) : VecSt :=
  let new (m : BitVec 1024) : BitVec 1024 := bits.zipIdx.foldl (fun m e =>
    let b := if live e.2 then e.1 else if z then false else m.getLsbD e.2
    if b then m ||| BitVec.ofNat 1024 (2 ^ e.2) else m &&& ~~~(BitVec.ofNat 1024 (2 ^ e.2))) m
  { v with vm := modAt j new v.vm }

/-- What an instruction leaves, with what it counts: lane-operations, busy time, events, summary flags and indices out of range. -/
structure VOut where
  fin : VecFin
  lanes : Nat
  busy : Nat
  evs : List CvtEv
  flags : List Nat
  oor : Nat
  deriving DecidableEq, Repr

def VecSt.finish (v : VecSt) : VecFin :=
  { vt := v.vt, vm := v.vm, vl := v.vl, carry := v.carry, store := none, post := none, pred := none }

def VecSt.out (v : VecSt) (lanes busy : Nat) : VOut :=
  { fin := v.finish, lanes := lanes, busy := busy, evs := [], flags := [], oor := 0 }

/-- A fault code with FAULT_INFO, or a result. -/
abbrev VRes := Except (Nat × W64) VOut

/-- A result unless a check fails. -/
def checked (l : List (Option (Nat × W64))) (f : VOut) : VRes :=
  match l.findSome? id with
  | some e => .error e
  | none => .ok f

def badShape (w : W64) (ok : Bool) : Option (Nat × W64) := if ok then none else some (fBadShape, w)

/-- The checks of an instruction with a destination group, a mask and sources. -/
def CellSt.vChecks (x : CellSt) (w : W64) (n : Nat) (l : List Src) : List (Option (Nat × W64)) :=
  [badShape w (groupFits (wVd w) n), badShape w (maskFits w n)] ++ l.map (x.srcFault w n)

/-! ## Element-wise instructions (R231 to R235) -/

/-- The number of operands, and the function, of an element-wise instruction. -/
def eltOf (op : Nat) : Nat × (W32 → W32 → W32 → W32) :=
  match op with
  | 0x00 => (1, fun a _ _ => a)
  | 0x01 => (2, fun a b _ => f32Add a b)
  | 0x02 => (2, fun a b _ => f32Sub a b)
  | 0x03 => (2, fun a b _ => f32Mul a b)
  | 0x04 => (3, f32Fma)
  | 0x05 => (2, fun a b _ => f32Max a b)
  | 0x06 => (2, fun a b _ => f32Min a b)
  | 0x07 => (1, fun a _ _ => f32Abs a)
  | 0x08 => (1, fun a _ _ => f32Neg a)
  | 0x09 => (2, fun a b _ => a + b)
  | 0x0A => (2, fun a b _ => a - b)
  | 0x0B => (2, fun a b _ => a * b)
  | 0x0C => (2, fun a b _ => if a.slt b then b else a)
  | 0x0D => (2, fun a b _ => if b.slt a then b else a)
  | 0x0E => (2, fun a b _ => a &&& b)
  | 0x0F => (2, fun a b _ => a ||| b)
  | 0x10 => (2, fun a b _ => a ^^^ b)
  | 0x11 => (2, fun a b _ => a <<< (b.toNat % 32))
  | 0x12 => (2, fun a b _ => a >>> (b.toNat % 32))
  | 0x13 => (2, fun a b _ => a.sshiftRight (b.toNat % 32))
  | 0x1D => (1, fun a _ _ => approxLane 0 (Config.approx 0 a) a)
  | 0x1E => (1, fun a _ _ => approxLane 1 (Config.approx 1 a) a)
  | 0x1F => (1, fun a _ _ => approxLane 2 (Config.approx 2 a) a)
  | _ => (1, fun a _ _ => approxLane 3 (Config.approx 3 a) a)

/-- The sources of a word that has `k` of them. -/
def srcs (w : W64) (k : Nat) : List Src := [wSa w, wSb w, wScs w].take k

/-- VMOV to VSRA, and VEXP to VLOG2. -/
def CellSt.vElt (x : CellSt) (op : Nat) (w : W64) : VRes :=
  let n := vCount x.vec (srcIsAcc (wSa w)) w
  let (k, f) := eltOf op
  let ss := srcs w k
  let arg (i e : Nat) : W32 := match ss[i]? with | some v => x.srcAt e v | none => 0
  let vals := (List.range n).map fun (e : Nat) => f (arg 0 e) (arg 1 e) (arg 2 e)
  let busy := if 0x1D ≤ op then 4 + ceilDiv n 256 else 2 + ceilDiv n 1024
  checked (x.vChecks w n ss) ((x.vec.putLanes (wVd w) vals (x.vec.live w) (wZ w)).out n busy)

/-- The destination mask of a word. -/
def wVm (w : W64) : Nat := fld w 52 51

/-- VCMP (R231, R232). A mask takes at most 1,024 bits. -/
def CellSt.vCmp (x : CellSt) (w : W64) : VRes :=
  let n := vCount x.vec (srcIsAcc (wSa w)) w
  let cc := fld w 20 18
  let cmp (a b : W32) : Bool := if w.getLsbD 21 then i32Cmp cc a b else f32Cmp cc a b
  let bits := (List.range n).map fun (e : Nat) => cmp (x.srcAt e (wSa w)) (x.srcAt e (wSb w))
  checked [badShape w (decide (n ≤ 1024)), x.srcFault w n (wSa w), x.srcFault w n (wSb w)]
    ((x.vec.putMask (wVm w) bits (x.vec.live w) (wZ w)).out n (2 + ceilDiv n 1024))

/-- VSEL (R231): with n above 1,024 the selecting mask is vm0, running on as R222 says. -/
def CellSt.vSel (x : CellSt) (w : W64) : VRes :=
  let n := vCount x.vec (srcIsAcc (wSa w)) w
  let j := fld w 19 18
  let vals := (List.range n).map fun (e : Nat) => if x.vec.maskBit j e then x.srcAt e (wSa w) else x.srcAt e (wSb w)
  checked (badShape w (decide (n ≤ 1024) || j == 0) :: x.vChecks w n [wSa w, wSb w])
    ((x.vec.putLanes (wVd w) vals (x.vec.live w) (wZ w)).out n (2 + ceilDiv n 1024))

/-- VMAND, VMOR, VMXOR and VMNOT over n bits. -/
def CellSt.vMaskOp (x : CellSt) (w : W64) (f : Bool → Bool → Bool) : VRes :=
  let n := vCount x.vec false w
  let a := x.vec.mask (fld w 41 40)
  let b := x.vec.mask (fld w 30 29)
  let bits := (List.range n).map fun (e : Nat) => f (a.getLsbD e) (b.getLsbD e)
  checked [badShape w (decide (n ≤ 1024))]
    ((x.vec.putMask (wVm w) bits (x.vec.live w) (wZ w)).out n (2 + ceilDiv n 1024))

/-- VMFIRST. -/
def CellSt.vMfirst (x : CellSt) (w : W64) : VRes :=
  let n := fld w 28 18
  .ok ({ x.vec with vm := modAt (wVm w) (fun _ => BitVec.ofNat 1024 (2 ^ n - 1)) x.vec.vm }.out n (2 + ceilDiv n 1024))

/-- VLMUL and VLADD (R233, R234): the unmasked elements are counted. -/
def CellSt.vLog (x : CellSt) (add : Bool) (w : W64) : VRes :=
  let n := vCount x.vec (srcIsAcc (wSa w)) w
  let f := if w.getLsbD 18 then l8 else l12
  let one (e : Nat) : Nat × CvtEv :=
    let a := (x.srcAt e (wSa w)).toNat
    let b := (x.srcAt e (wSb w)).toNat
    if add then lAddCode f a b else lMulCode f a b
  let r := (List.range n).map one
  let evs := (r.zipIdx.filter fun e => x.vec.live w e.2).map (·.1.2)
  let v := x.vec.putLanes (wVd w) (r.map fun e => BitVec.ofNat 32 e.1) (x.vec.live w) (wZ w)
  checked (x.vChecks w n [wSa w, wSb w]) { v.out n (2 + ceilDiv n (if add then 512 else 1024)) with evs := evs }

/-! ## Conversion and packing (R236, R237) -/

/-- The scale lanes as exponents. -/
def scaleOf (l : List W32) (i : Nat) : Int := signed 8 (l.getD i 0).toNat

/-- Elements per scale of a word. -/
def scaleGroup (w : W64) : Nat := if wSfmt w = 6 ∨ wDfmt w = 6 then 32 else wRoww w

/-- VCVT: the results of all elements, and the scales chosen. -/
def cvtLanes (w : W64) (a scales : List W32) : List (Nat × CvtEv) × List Int :=
  let sf := wSfmt w
  let df := wDfmt w
  let g := scaleGroup w
  let sc (e : Nat) : Int := if fmtIsScaled sf then scaleOf scales (e / g) else 0
  if sf = 6 ∧ df = 4 then (a.zipIdx.map fun e => l8ToL12 (e.1.toNat % 256) (sc e.2), [])
  else
    let f := a.zipIdx.map fun e => laneToF32 sf e.1 (sc e.2)
    if fmtIsScaled df then
      let gs := (chunks g f.length (f.map fun v => f32Val v.1)).map (cvtScaledGroup (fmtL df) true)
      (gs.flatMap (·.1), gs.map (·.2))
    else if df = 9 then (f.map fun v => (v.1.toNat, v.2), [])
    else (f.map fun v => let r := cvtTo df true (f32Val v.1); (r.1, v.2.join r.2), [])

def CellSt.vCvt (x : CellSt) (w : W64) : VRes :=
  let n := vCount x.vec (srcIsAcc (wSa w)) w
  let ns := ceilDiv n (scaleGroup w)
  let sb := match wSb w with | .tile b => b | _ => 0
  let scaled := fmtIsScaled (wSfmt w) || fmtIsScaled (wDfmt w)
  let r := cvtLanes w (x.srcList n (wSa w)) (x.srcList ns (.tile sb))
  let evs := (r.1.zipIdx.filter fun e => x.vec.live w e.2).map (·.1.2)
  let v := if fmtIsScaled (wDfmt w) then x.vec.putLanes sb (r.2.map (BitVec.ofInt 32)) allLive false else x.vec
  let v := v.putLanes (wVd w) (r.1.map fun e => BitVec.ofNat 32 e.1) (x.vec.live w) (wZ w)
  checked ((if cvtPairOk (wSfmt w) (wDfmt w) then none else some (fFormatBad, BitVec.ofNat 64 (wDfmt w))) ::
      badShape w (wDfmt w != 5 || n % wRoww w == 0) :: badShape w (!scaled || groupFits sb ns) :: x.vChecks w n [wSa w])
    { v.out n (2 + ceilDiv n 1024) with evs := evs }

/-- A format that VPACK and VUNPACK take (R294); a vertex word fills no lane. -/
def packFmt (f : Nat) : Bool := decide (f < 9)

def badFormat (f : Nat) : Option (Nat × W64) := if packFmt f then none else some (fFormatBad, BitVec.ofNat 64 f)

/-- VPACK: the packed bytes, and zeros to the end of the n destination lanes. -/
def CellSt.vPack (x : CellSt) (w : W64) : VRes :=
  let n := vCount x.vec (srcIsAcc (wSa w)) w
  let bits := pack (fmtBits (wDfmt w)) ((x.srcList n (wSa w)).map BitVec.toNat)
  let vals := (unpack 32 n bits).map (BitVec.ofNat 32)
  checked (badFormat (wDfmt w) :: x.vChecks w n [wSa w]) ((x.vec.putLanes (wVd w) vals allLive false).out n (2 + ceilDiv n 1024))

/-- VUNPACK: the source is the lanes that hold the packed bytes. -/
def CellSt.vUnpack (x : CellSt) (w : W64) : VRes :=
  let n := vCount x.vec (srcIsAcc (wSa w)) w
  let f := wSfmt w
  let k := ceilDiv (n * fmtBits f) 32
  let codes := unpack (fmtBits f) n (pack 32 ((x.srcList k (wSa w)).map BitVec.toNat))
  let ext (c : Nat) : W32 := if fmtIsInt f then BitVec.ofInt 32 (signed (fmtBits f) c) else BitVec.ofNat 32 c
  checked [badFormat f, badShape w (groupFits (wVd w) n), badShape w (maskFits w n), x.srcFault w k (wSa w)]
    ((x.vec.putLanes (wVd w) (codes.map ext) (x.vec.live w) (wZ w)).out n (2 + ceilDiv n 1024))

/-! ## Permutation, compression and expansion (R238) -/

/-- The number of elements from a source's start to the end of its group. -/
def srcExtent : Src → Nat
  | .tile b => (4 - b % 4) * 1024
  | .acc _ s0 => (16 - s0) * 1024
  | .row b _ => (4 - b % 4) * 1024
  | .col b _ => (4 - b % 4) * 1024
  | .scalar b => (4 - b % 4) * 1024

def CellSt.vPerm (x : CellSt) (w : W64) : VRes :=
  let n := vCount x.vec (srcIsAcc (wSa w)) w
  let ext := srcExtent (wSa w)
  let idx := (x.srcList n (wSb w)).map BitVec.toNat
  let vals := idx.map fun i => if i < ext then x.srcAt i (wSa w) else 0
  let oor := (idx.zipIdx.filter fun e => x.vec.live w e.2 && decide (ext ≤ e.1)).length
  let inv := match wSa w with
    | .acc t s0 => (x.arr.invalidAt t ((idx.filter fun i => decide (i < ext)).map (accAt s0))).map
        fun q => (fTileInvalid, BitVec.ofNat 64 (t + 256 * q))
    | _ => none
  checked ([badShape w (groupFits (wVd w) n), badShape w (maskFits w n), x.srcFault w n (wSb w), inv])
    { (x.vec.putLanes (wVd w) vals (x.vec.live w) (wZ w)).out n (4 + ceilDiv n 1024) with oor := oor }

/-- The element that lane `e` takes: pattern 0 TRANSPOSE, 1 ROTL, 2 ROTD, 3 REV. -/
def shufFrom (pat r e : Nat) : Nat :=
  let reg := e / 1024 * 1024
  let q := e % 1024 / 32
  let c := e % 32
  match pat with
  | 0 => reg + 32 * c + q
  | 1 => reg + 32 * q + (c + r) % 32
  | 2 => reg + 32 * ((q + 32 - r) % 32) + c
  | _ => reg + 32 * q + (31 - c)

def CellSt.vShuf (x : CellSt) (w : W64) : VRes :=
  let n := vCount x.vec (srcIsAcc (wSa w)) w
  let pat := fld w 20 18
  let r := fld w 25 21
  let vals := (List.range n).map fun (e : Nat) => x.srcAt (shufFrom pat r e) (wSa w)
  checked (badShape w (n % (if pat = 0 ∨ pat = 2 then 1024 else 32) == 0) :: x.vChecks w n [wSa w])
    ((x.vec.putLanes (wVd w) vals (x.vec.live w) (wZ w)).out n (4 + ceilDiv n 1024))

def CellSt.vCompress (x : CellSt) (w : W64) : VRes :=
  let n := vCount x.vec (srcIsAcc (wSa w)) w
  let kept := ((List.range n).filter (x.vec.live w)).map fun (e : Nat) => x.srcAt e (wSa w)
  let v := x.vec.putLanes (wVd w) (kept ++ List.replicate (n - kept.length) 0) allLive false
  checked (badShape w (wMsk w != 0) :: x.vChecks w n [wSa w]) ({ v with vl := kept.length }.out n (4 + ceilDiv n 1024))

/-- The values of VEXPAND: the next element of A at each unmasked position. -/
def expandGo (a : Nat → W32) (live : Nat → Bool) : Nat → Nat → Nat → List W32
  | 0, _, _ => []
  | n + 1, e, k => if live e then a k :: expandGo a live n (e + 1) (k + 1) else 0 :: expandGo a live n (e + 1) k

def CellSt.vExpand (x : CellSt) (w : W64) : VRes :=
  let n := vCount x.vec (srcIsAcc (wSa w)) w
  let vals := expandGo (fun k => x.srcAt k (wSa w)) (x.vec.live w) n 0 0
  checked (badShape w (wMsk w != 0) :: x.vChecks w n [wSa w])
    ((x.vec.putLanes (wVd w) vals (x.vec.live w) (wZ w)).out n (4 + ceilDiv n 1024))

/-! ## Reductions (R239, R240) -/

/-- The rows of 32 elements, each with its live marks. -/
def redRows (a : List (W32 × Bool)) : List (List (W32 × Bool)) := chunks 32 a.length a

def liveNan (l : List (W32 × Bool)) : Option W32 := firstNan ((l.filter (·.2)).map (·.1))

def pairAdd : List W32 → List W32
  | a :: b :: t => f32Add a b :: pairAdd t
  | l => l

def treeAdd : Nat → List W32 → List W32
  | 0, l => l
  | n + 1, l => treeAdd n (pairAdd l)

/-- The pairwise sum of a row over lanes 0 to 31. -/
def rowSum (l : List (W32 × Bool)) : W32 :=
  let lanes := l.map fun e => if e.2 then e.1 else 0
  (treeAdd 5 (lanes ++ List.replicate (32 - lanes.length) 0)).headD 0

/-- VRSUM of FP32 elements. -/
def sumF32 (all : Bool) (a : List (W32 × Bool)) : List W32 :=
  let rows := redRows a
  if all then
    match rows.map rowSum with
    | [] => [0]
    | r :: t => [(liveNan a).getD (t.foldl f32Add r)]
  else rows.map fun l => (liveNan l).getD (rowSum l)

/-- VRSUM of INT32 elements, and whether a result saturated. -/
def sumI32 (all : Bool) (a : List (W32 × Bool)) : List (W32 × Bool) :=
  let one (l : List (W32 × Bool)) : W32 × Bool :=
    let r := satInt 32 (l.foldl (fun (acc : Int) e => if e.2 then acc + e.1.toInt else acc) 0)
    (BitVec.ofNat 32 r.1, r.2)
  if all then [one a] else (redRows a).map one

/-- VRMAX and VRMIN of one set of elements, and whether none was live. -/
def extreme (min_ int : Bool) (l : List (W32 × Bool)) : W32 × Bool :=
  match (l.filter (·.2)).map (·.1) with
  | [] => (match int, min_ with
      | false, false => 0xFF800000 | true, false => 0x80000000 | false, true => 0x7F800000 | true, true => 0x7FFFFFFF, true)
  | v :: t =>
    let f (a b : W32) : W32 :=
      match int, min_ with
      | false, false => f32Max a b
      | false, true => f32Min a b
      | true, false => if a.slt b then b else a
      | true, true => if b.slt a then b else a
    let r := t.foldl f v
    (if !int && f32IsNan r then f32Quiet r else r, false)

/-- VRSUM (0), VRMAX (1), VRMIN (2). -/
def CellSt.vReduce (x : CellSt) (kind : Nat) (w : W64) : VRes :=
  let n := vCount x.vec (srcIsAcc (wSa w)) w
  let all := w.getLsbD 18
  let int := w.getLsbD 19
  let a := (List.range n).map fun (e : Nat) => (x.srcAt e (wSa w), x.vec.live w e)
  let rows := ceilDiv n 32
  let r : List W32 × List Nat :=
    match kind, int with
    | 0, false => (sumF32 all a, [])
    | 0, true => let s := sumI32 all a; (s.map (·.1), if s.any (·.2) then [sOvfSat] else [])
    | k, i =>
      let s := if all then [extreme (k == 2) i a] else (redRows a).map (extreme (k == 2) i)
      (s.map (·.1), if s.any (·.2) then [sEmpty] else [])
  checked [badShape w (all || decide (n ≤ 4096)), badShape w (maskFits w n), badShape w (all || groupFits (wVd w) rows),
      x.srcFault w n (wSa w)]
    { (x.vec.putLanes (wVd w) r.1 allLive false).out n (8 + ceilDiv n 1024 + if all then rows else 0) with flags := r.2 }

end Sys2Proof.Machine
end

