-- ==== Sys2Proof/Machine/Vector.lean ====
section
/-! DEFINITION. Machine/Vector.lean: the V-class and C-class commands (R220 to R248, R260, R292 to R294), and the end of a chute wait
(R125). A V-class instruction computes at issue; what it leaves takes effect when its busy time ends (R230). -/

namespace Sys2Proof.Machine

/-! ## Issue (R230) -/

/-- The tile that a word's first source reads. -/
def accTile (cls op : Nat) (w : W64) : Option Nat :=
  let raw := cls = 5 ∧ ((0x16 ≤ op ∧ op ≤ 0x1A) ∨ op = 0x29)
  if raw then none else match wSa w with | .acc t _ => some t | _ => none

/-- The vector engine is free, and no earlier MPRE or MMUL of the tile read is under way or waits, nor an MCFG. -/
def CellSt.vReady (x : CellSt) (tile : Option Nat) : Bool :=
  x.vec.busy.isNone &&
  (match tile with
   | some t =>
     !(x.arr.mops.any fun o => o.tile == t && (o.op == 2 || o.op == 3)) &&
     !(x.xe.late.any fun l => wOp l.word == 0 || (wT l.word == t && (wOp l.word == 2 || wOp l.word == 3)))
   | none => true)

/-- What a V-class instruction reads or writes at ports keeps its order with what the M-class instructions that wait read or write. -/
def CellSt.vClear (x : CellSt) (l : List PortUse) : Bool :=
  !(x.xe.late.any fun i => (i.uses (x.arr.geo i.word)).any fun p => l.any p.meets)

/-- The use of a port by `n` bytes; none of it where there are no bytes. -/
def CellSt.portUse (x : CellSt) (li : List Nat) (port n : Nat) (writes : Bool) : PortUse :=
  let a := x.maAddr li port
  { port := port, first := a, past := a + n, writes := writes }

/-- The instruction has computed: the vector engine is busy, and the program goes on. -/
def State.vStart (s : State) (c : Nat) (tile : Option Nat) (o : VOut) : State :=
  let s := (s.countC c (cVx 0) o.lanes).countC c (cVx 1) o.busy
  let s := if o.oor = 0 then s else s.countC c (cVx 2) o.oor
  let s := o.flags.foldl (fun s b => s.sumFlag c .execute b) (s.countCvt c o.evs)
  let s := s.modCell c fun x => { x with vec := { x.vec with busy := some o.busy, accRead := tile, fin := some o.fin } }
  s.retire c .execute

/-- A V-class or C-class instruction without chutes. -/
def State.vIssue (s : State) (c cls op : Nat) (w : W64) (f : CellSt → VRes) : State :=
  let x := s.cell c
  let tile := accTile cls op w
  s.xIssue c cls op w fun _ =>
    if !x.vReady tile then s
    else match f x with
      | .error (code, info) => s.engineFault c .execute code info
      | .ok o => s.vStart c tile o

/-! ## VLD and VST (R227, R228) -/

/-- What is wrong with a V-class operand at a port (R127, R227). -/
def CellSt.vPortFault (x : CellSt) (p : Prog) (li : List Nat) (w : W64) (port n : Nat) : Option (Nat × W64) :=
  if !isChute port && x.maAddr li port % 4 != 0 then some (fBadShape, w) else x.portFault p li port n

/-- An instruction that may wait on chutes issues: its checks, then it is held while `go` carries it out. -/
def State.vHold (s : State) (c op : Nat) (w : W64) (checks : CellSt → Prog → List Nat → List (Option (Nat × W64)))
    (uses : CellSt → List Nat → List PortUse) (go : State → State) : State :=
  let x := s.cell c
  s.xIssue c 5 op w fun p =>
    let (li, s') := s.loopNums p
    if !x.vReady (accTile 5 op w) || !x.vClear (uses x li) then s
    else match (checks x p li).findSome? id with
      | some (code, info) => s'.engineFault c .execute code info
      | none => go (s'.xHold c 3 (false, none) (.runs false) li none)

def State.vldGo (s : State) (c : Nat) (w : W64) : State :=
  let n := vCount (s.cell c).vec false w
  s.pullThen c 0 (wPort w) (4 * n) { unit := 4, align := false, use := true } fun s =>
    let x := s.cell c
    let vals := (elems 10 n (x.src 0)).map (BitVec.ofNat 32)
    let busy := 2 + ceilDiv (4 * n) (if isChute (wPort w) then 512 else 1024)
    s.vStart c none ((x.vec.putLanes (wVd w) vals (x.vec.live w) (wZ w)).out n busy)

def State.vld (s : State) (c : Nat) (w : W64) : State :=
  let n := vCount (s.cell c).vec false w
  s.vHold c 0x29 w (fun x p li =>
    [badShape w (groupFits (wVd w) n), badShape w (maskFits w n), x.vPortFault p li w (wPort w) (4 * n)])
    (fun x li => [x.portUse li (wPort w) (4 * n) false]) fun s => s.vldGo c w

/-- The bytes that VST writes. -/
def CellSt.vstBytes (x : CellSt) (w : W64) : List Byte :=
  (x.srcList (vCount x.vec (srcIsAcc (wSa w)) w) (wSa w)).flatMap fun v => leBytes 4 v.toNat

/-- The slots of VST to a chute, from a slot on, while there are credits. -/
def State.vstPush (s : State) (c k : Nat) : List (List Byte) → Bool × State
  | [] => (true, s)
  | b :: t =>
    if (s.cell c).credits k = 0 then (false, s)
    else ((s.modCell c fun x => x.push k (slotOf (b.map fun v => (v, false)))).modHold c fun y => { y with row := y.row + 1 }).vstPush c k t

def State.vstGo (s : State) (c : Nat) (w : W64) : State :=
  let x := s.cell c
  let n := vCount x.vec (srcIsAcc (wSa w)) w
  let b := x.vstBytes w
  let port := wPort w
  let tile := accTile 5 0x2A w
  if isChute port then
    let slots := chunks slotBytes (b.length + 1) b
    match s.vstPush c port (slots.drop x.xhold.row) with
    | (true, s) => s.vStart c tile (x.vec.out n (2 + ceilDiv (4 * n) 512))
    | (false, s) => s.xStop c port .wait
  else
    let o := x.vec.out n (2 + ceilDiv (4 * n) 1024)
    s.vStart c tile { o with fin := { o.fin with store := some (x.portAddr port, b) } }

def State.vst (s : State) (c : Nat) (w : W64) : State :=
  let x := s.cell c
  let n := vCount x.vec (srcIsAcc (wSa w)) w
  s.vHold c 0x2A w (fun x p li => [badShape w (maskFits w n), x.srcFault w n (wSa w), x.vPortFault p li w (wPort w) (4 * n)])
    (fun x li => [x.portUse li (wPort w) (4 * n) true]) fun s => s.vstGo c w

/-! ## VSEGSUM (R241, R242) -/

def segW (w : W64) : Nat := 32 * 2 ^ fld w 19 18
def segM (w : W64) : Nat := fld w 28 22 + 1
def segR0 (w : W64) : Nat := fld w 39 33
def segC0 (w : W64) : Nat := fld w 32 31 * segW w
def segLen (w : W64) : Nat := fld w 17 15
def segDst (w : W64) : Nat := fld w 14 11
def segStart (w : W64) : Bool := w.getLsbD 10
def segFinal (w : W64) : Bool := w.getLsbD 9

/-- The places of the tile that row `i` takes. -/
def segPlaces (w : W64) (i : Nat) : List (Nat × Nat) := (List.range (segW w)).map fun (j : Nat) => (segR0 w + i, segC0 w + j)

/-- Source row `i`. -/
def CellSt.segRow (x : CellSt) (w : W64) (i : Nat) : List W32 :=
  match wSa w with
  | .acc t _ => (segPlaces w i).map (x.arr.elemAt t)
  | v => (List.range (segW w)).map fun (j : Nat) => x.srcAt (i * segW w + j) v

/-- The checks of R241 at issue. -/
def CellSt.segChecks (x : CellSt) (w : W64) (p : Prog) (li : List Nat) : List (Option (Nat × W64)) :=
  let src := match wSa w with
    | .acc t _ =>
      if 128 < segR0 w + segM w then some (fBadShape, w)
      else (x.arr.invalidAt t ((List.range (segM w)).flatMap (segPlaces w))).map fun q => (fTileInvalid, BitVec.ofNat 64 (t + 256 * q))
    | .tile b => badShape w (groupFits b (segM w * segW w))
    | _ => some (fBadShape, w)
  let clash := x.vec.carry.isOpen && !segStart w && x.vec.carry.width != segW w
  [src, x.vPortFault p li w (segDst w) 0, if clash then some (fSegShape, BitVec.ofNat 64 x.vec.carry.closed.toNat) else none]

def State.modCarry (s : State) (c : Nat) (f : Carry → Carry) : State :=
  s.modCell c fun x => { x with vec := { x.vec with carry := f x.vec.carry } }

/-- Emits a row: none, or a fault of the destination that it meets. The rows written before that fault stay (log entry 78, DESIGN
CHOICE). -/
def State.segEmit (s : State) (c : Nat) (w : W64) (p : Prog) (row : List W32) : Except (Nat × W64) State :=
  let x := s.cell c
  let b := row.flatMap fun v => leBytes 4 v.toNat
  let off := x.xhold.sent * b.length
  match x.portFault p x.xhold.li (segDst w) (if isChute (segDst w) then 1 else off + b.length) with
  | some e => .error e
  | none =>
    let s := (s.putOut c 1 (segDst w) off b).modHold c fun y => { y with sent := y.sent + 1 }
    .ok ((s.modCarry c fun k => { k with closed := k.closed + 1 }).countC c (cVx 3) 1)

/-- What the instruction does next: read a length, take a source row, or end. -/
inductive SegNext where
  | len
  | row
  | done
  | fault
  deriving DecidableEq, Repr

def CellSt.segNext (x : CellSt) (w : W64) : SegNext :=
  let k := x.vec.carry
  if x.xhold.row < segM w then (if k.isOpen then .row else .len)
  else if !segFinal w then .done
  else if k.isOpen then .fault
  else if k.closed.toNat < (x.kReg (fld w 8 6)).toNat then .len
  else .done

/-- A length has been read. -/
def State.segLength (s : State) (c : Nat) (w : W64) (p : Prog) : Except (Nat × W64) State :=
  let x := s.cell c
  let len := leNat ((x.src 0).drop (4 * (x.xhold.tally - 1)))
  let zeros := List.replicate (segW w) (0 : W32)
  if x.xhold.row < segM w then
    if len = 0 then s.segEmit c w p zeros
    else .ok (s.modCarry c fun k => { k with isOpen := true, rem := BitVec.ofNat 32 len, row := zeros, width := segW w })
  else if len ≠ 0 then .error (fSegShape, BitVec.ofNat 64 x.vec.carry.closed.toNat)
  else s.segEmit c w p zeros

/-- A source row is added to the running row. -/
def State.segAdd (s : State) (c : Nat) (w : W64) (p : Prog) : Except (Nat × W64) State :=
  let x := s.cell c
  let sum := (x.vec.carry.row.zip (x.segRow w x.xhold.row)).map fun e => f32Add e.1 e.2
  let s := (s.modCarry c fun k => { k with rem := k.rem - 1, row := sum }).modHold c fun y => { y with row := y.row + 1 }
  if (s.cell c).vec.carry.rem = 0 then (s.modCarry c fun k => { k with isOpen := false }).segEmit c w p sum else .ok s

/-- All rows are done: the last slot is pushed, and the instruction retires. -/
def State.segEnd (s : State) (c : Nat) (w : W64) : State :=
  let x := s.cell c
  let n := segM w * segW w
  s.vStart c (accTile 5 0x28 w) (x.vec.out n (8 + ceilDiv n 1024 + x.xhold.tally))

/-- Goes on with the VSEGSUM held. -/
def State.segGo (s : State) (c : Nat) (w : W64) (p : Prog) : Nat → State
  | 0 => s
  | fuel + 1 =>
    match s.pushOuts c with
    | (some k, s) => s.xStop c k .wait
    | (none, s) =>
      let x := s.cell c
      let go (r : Except (Nat × W64) State) (s : State) : State :=
        match r with
        | .ok s => s.segGo c w p fuel
        | .error (code, info) => s.engineFault c .execute code info
      match x.segNext w with
      | .fault => s.xFault c fSegShape x.vec.carry.closed.toNat
      | .row => go (s.segAdd c w p) s
      | .done =>
        if x.xhold.part.all List.isEmpty then s.segEnd c w else (s.flushOut c 1 (segDst w)).segGo c w p fuel
      | .len =>
        match x.portFault p x.xhold.li (segLen w) 4 with
        | some (code, info) => s.engineFault c .execute code info
        | none =>
          match s.pull c 0 (segLen w) (4 * (x.xhold.tally + 1)) { unit := 4, align := false, use := true } with
          | (some t, s) => s.xStop c (segLen w) t
          | (none, s) => go ((s.modHold c fun y => { y with tally := y.tally + 1 }).segLength c w p) s

/-- Enough for every row of the source and every length that the chute can hold. -/
def segFuel : Nat := 8 * 512 + 128 + 4

def State.vsegsumGo (s : State) (c : Nat) (w : W64) : State :=
  match (s.cell c).xe.prog with
  | some p => s.segGo c w p segFuel
  | none => s

def State.vsegsum (s : State) (c : Nat) (w : W64) : State :=
  s.vHold c 0x28 w (fun x p li => x.segChecks w p li) (fun x li => [x.portUse li (segLen w) 4 false, x.portUse li (segDst w) opSoft true]) fun s =>
    let s := if segStart w then s.modCarry c fun k => { k with isOpen := false, closed := 0 } else s
    s.vsegsumGo c w

/-! ## VSUMMARY (R243, R244) -/

def State.vsummary (s : State) (c : Nat) (w : W64) : State :=
  let x := s.cell c
  s.xIssue c 5 0x2B w fun _ =>
    if !x.vReady none || !x.arr.mops.isEmpty || !x.xe.late.isEmpty then s
    else
      let b := match wSa w with | .tile b => b | _ => 0
      let v : W64 := BitVec.ofNat 64 ((x.vec.lane (1024 * b)).toNat + 2 ^ 32 * (x.vec.lane (1024 * b + 1)).toNat)
      let o := x.vec.out 0 4
      s.vStart c none { o with fin := { o.fin with post := some (v, fld w 22 18) } }

/-- A post reaches the thread that launched the program, unless it no longer takes it (R244). -/
def State.vPost (s : State) (c : Nat) (v : W64) (flag : Nat) : State :=
  match (s.cell c).xe.prog with
  | none => s
  | some p =>
    let t := s.thread c p.launcher
    let s := s.countC c (cVx 4) 1
    if t.deaf || t.token != p.token then s.countC c (cVx 6) 1
    else
      let s := if t.unread then s.countC c (cVx 5) 1 else s
      s.modThread c p.launcher fun t => ({ t with mailbox := v, unread := true }).orFlags (BitVec.ofNat 32 (2 ^ flag))

/-! ## VPRED (R260, R261, R264) -/

/-- The predictor descriptor at an address: addresses of U, its scales, V and its scales, θ, B and LX; none where R261 refuses it. -/
structure PDesc where
  parts : List (Nat × Nat)
  theta : W32
  blocks : Nat
  lx : Bool
  deriving DecidableEq, Repr

def pDescOf (b : List Byte) : PDesc :=
  let n := leAt b 20 1 % 32 + 1
  { parts := [(leAt b 0 4, 2048), (leAt b 4 4, 64), (leAt b 8 4, 2048 * n), (leAt b 12 4, 128 * n)], theta := BitVec.ofNat 32 (leAt b 16 4),
    blocks := n, lx := natBit (leAt b 21 1) 0 }

def pDescOk (b : List Byte) : Bool :=
  decide (leAt b 20 1 < 32) && decide (leAt b 21 1 < 2) && zeroAt b 22 42 && (pDescOf b).parts.all fun p => decide (p.1 + p.2 ≤ opSoft)

/-- The active word of VPRED with PRED_EN set: a block is active when a score of its columns exceeds θ. -/
def CellSt.predict (x : CellSt) (a : List W32) (d : PDesc) : W32 :=
  let parts := d.parts.map fun p => x.op p.1 p.2
  let a := if d.lx then a.map fun v => f32 (lVal l12 (v.toNat % 4096)) else a
  BitVec.ofNat 32 (((List.range d.blocks).filter (blockActive a parts d.theta)).foldl (fun n b => n + 2 ^ b) 0)

/-- The audit word: each block below B that is not active is drawn with probability 2^−A (R264), by a free value each. -/
def auditWord (free a blocks : Nat) (active : W32) : W32 :=
  let drawn (b : Nat) : Bool := !active.getLsbD b && (Config.freeWord (free + b)).toNat % 2 ^ a == 0
  BitVec.ofNat 32 (((List.range blocks).filter drawn).foldl (fun n b => n + 2 ^ b) 0)

/-- VPRED with a descriptor that has been checked. -/
def State.vpredRun (s : State) (c : Nat) (w : W64) (d : PDesc) : State :=
  let x := s.cell c
  let m := fld w 22 18 + 1
  let a := x.srcList (128 * m) (wSa w)
  let en := s.regBit (rCell c 0xB0) 0
  let active := if en then x.predict a d else BitVec.ofNat 32 (2 ^ d.blocks - 1)
  let audit := if en then auditWord s.free (s.regF (rCell c 0xB0) 12 8) d.blocks active else 0
  let macs := m * 128 * 16 + m * 16 * 128 * d.blocks
  let o := (x.vec.putLanes (wVd w) [active, audit] allLive false).out (if en then macs / 4 else 0) (8 + ceilDiv macs 4096)
  let s := if en then { s with free := s.free + 32 }.countC c (cPred 0) 1 else s
  s.vStart c none { o with fin := { o.fin with pred := some (active, audit, d.blocks) } }

/-- The first poisoned block of some operands. -/
def CellSt.anyPoison (x : CellSt) (l : List (Nat × Nat)) : Option Nat := l.findSome? fun p => x.opPoisoned p.1 p.2

def State.vpred (s : State) (c : Nat) (w : W64) : State :=
  let x := s.cell c
  s.xIssue c 5 0x2C w fun p =>
    let (li, s') := s.loopNums p
    if !x.vReady none || !x.vClear [{ port := wPort w, first := 0, past := opSoft, writes := false }] then s
    else
      let s := s'
      let a := x.maAddr li (wPort w)
      let m := fld w 22 18 + 1
      let bad := s.engineFault c .execute fBadDesc (BitVec.ofInt 64 a)
      if x.arr.quarter || !srcFits (128 * m) (wSa w) || !groupFits (wVd w) 2 then s.engineFault c .execute fBadShape w
      else if a < 0 ∨ (opSoft : Int) < a + 64 ∨ a % 32 ≠ 0 then bad
      else
        let b := x.op a.toNat 64
        match x.opPoisoned a.toNat 64 with
        | some k => s.xFault c fPoisoned k
        | none =>
          if !pDescOk b then bad
          else match (if s.regBit (rCell c 0xB0) 0 then x.anyPoison (pDescOf b).parts else none) with
            | some k => s.xFault c fPoisoned k
            | none => s.vpredRun c w (pDescOf b)

/-! ## The end of the busy time, and of a chute wait (R125, R230) -/

/-- What an instruction leaves takes effect. -/
def State.vFinish (s : State) (c : Nat) (f : VecFin) : State :=
  let s := s.modCell c fun x =>
    let x := match f.store with | some (a, b) => x.opWrite a b | none => x
    let x := match f.pred with
      | some (act, aud, n) => { x with pred := { x.pred with active := act, audit := aud, blocks := n } }
      | none => x
    { x with vec := { vt := f.vt, vm := f.vm, vl := f.vl, carry := f.carry, busy := none, accRead := none, fin := none } }
  match f.post with
  | some (v, flag) => s.vPost c v flag
  | none => s

def State.vClassBusyEnd (s : State) (c : Nat) : State :=
  match (s.cell c).vec.fin with
  | some f => if s.active && s.cellUp c then (s.vFinish c f).lateRun c else s
  | none => s

/-- The execute engine goes on with the instruction that it holds. -/
def State.xResume (s : State) (c : Nat) (w : W64) : State :=
  let s := s.modCell c fun x => { x with xe := { x.xe with wait := none } }
  match wCls w, wOp w with
  | 4, 1 => s.mldwGo c w
  | 4, 2 => s.mpreGo c w
  | 4, 3 => s.mmulGo c w
  | 4, 4 => s.mdrainGo c w
  | 5, 0x28 => s.vsegsumGo c w
  | 5, 0x29 => s.vldGo c w
  | 5, 0x2A => s.vstGo c w
  | _, _ => s

/-- CHUTE_WAIT_END: the engine that waits tries again, and waits on where the chute still does not allow it. Once the execute engine's
instruction has retired, those that wait under R188 may go on. -/
def State.chuteWaitEnd (s : State) (c : Nat) (e : Engine) : State :=
  match s.engineRuns c e with
  | none => s
  | some _ =>
    match e with
    | .access => if (s.cell c).ae.wait.isSome then s.pumpA c else s
    | .execute =>
      match (s.cell c).xe.wait, (s.cell c).heldWord with
      | some _, some w => (s.xResume c w).lateRun c
      | _, _ => s

/-! ## The commands -/

def execVmov (c : Nat) (w : W64) (s : State) : Host.Outcome State Fault Refusal := .next (s.vIssue c 5 0x00 w fun x => x.vElt 0x00 w)
def execVadd (c : Nat) (w : W64) (s : State) : Host.Outcome State Fault Refusal := .next (s.vIssue c 5 0x01 w fun x => x.vElt 0x01 w)
def execVsub (c : Nat) (w : W64) (s : State) : Host.Outcome State Fault Refusal := .next (s.vIssue c 5 0x02 w fun x => x.vElt 0x02 w)
def execVmul (c : Nat) (w : W64) (s : State) : Host.Outcome State Fault Refusal := .next (s.vIssue c 5 0x03 w fun x => x.vElt 0x03 w)
def execVfma (c : Nat) (w : W64) (s : State) : Host.Outcome State Fault Refusal := .next (s.vIssue c 5 0x04 w fun x => x.vElt 0x04 w)
def execVmax (c : Nat) (w : W64) (s : State) : Host.Outcome State Fault Refusal := .next (s.vIssue c 5 0x05 w fun x => x.vElt 0x05 w)
def execVmin (c : Nat) (w : W64) (s : State) : Host.Outcome State Fault Refusal := .next (s.vIssue c 5 0x06 w fun x => x.vElt 0x06 w)
def execVabs (c : Nat) (w : W64) (s : State) : Host.Outcome State Fault Refusal := .next (s.vIssue c 5 0x07 w fun x => x.vElt 0x07 w)
def execVneg (c : Nat) (w : W64) (s : State) : Host.Outcome State Fault Refusal := .next (s.vIssue c 5 0x08 w fun x => x.vElt 0x08 w)
def execViadd (c : Nat) (w : W64) (s : State) : Host.Outcome State Fault Refusal := .next (s.vIssue c 5 0x09 w fun x => x.vElt 0x09 w)
def execVisub (c : Nat) (w : W64) (s : State) : Host.Outcome State Fault Refusal := .next (s.vIssue c 5 0x0A w fun x => x.vElt 0x0A w)
def execVimul (c : Nat) (w : W64) (s : State) : Host.Outcome State Fault Refusal := .next (s.vIssue c 5 0x0B w fun x => x.vElt 0x0B w)
def execVimax (c : Nat) (w : W64) (s : State) : Host.Outcome State Fault Refusal := .next (s.vIssue c 5 0x0C w fun x => x.vElt 0x0C w)
def execVimin (c : Nat) (w : W64) (s : State) : Host.Outcome State Fault Refusal := .next (s.vIssue c 5 0x0D w fun x => x.vElt 0x0D w)
def execVand (c : Nat) (w : W64) (s : State) : Host.Outcome State Fault Refusal := .next (s.vIssue c 5 0x0E w fun x => x.vElt 0x0E w)
def execVor (c : Nat) (w : W64) (s : State) : Host.Outcome State Fault Refusal := .next (s.vIssue c 5 0x0F w fun x => x.vElt 0x0F w)
def execVxor (c : Nat) (w : W64) (s : State) : Host.Outcome State Fault Refusal := .next (s.vIssue c 5 0x10 w fun x => x.vElt 0x10 w)
def execVsll (c : Nat) (w : W64) (s : State) : Host.Outcome State Fault Refusal := .next (s.vIssue c 5 0x11 w fun x => x.vElt 0x11 w)
def execVsrl (c : Nat) (w : W64) (s : State) : Host.Outcome State Fault Refusal := .next (s.vIssue c 5 0x12 w fun x => x.vElt 0x12 w)
def execVsra (c : Nat) (w : W64) (s : State) : Host.Outcome State Fault Refusal := .next (s.vIssue c 5 0x13 w fun x => x.vElt 0x13 w)
def execVcmp (c : Nat) (w : W64) (s : State) : Host.Outcome State Fault Refusal := .next (s.vIssue c 5 0x14 w fun x => x.vCmp w)
def execVsel (c : Nat) (w : W64) (s : State) : Host.Outcome State Fault Refusal := .next (s.vIssue c 5 0x15 w fun x => x.vSel w)
def execVmand (c : Nat) (w : W64) (s : State) : Host.Outcome State Fault Refusal :=
  .next (s.vIssue c 5 0x16 w fun x => x.vMaskOp w fun a b => a && b)
def execVmor (c : Nat) (w : W64) (s : State) : Host.Outcome State Fault Refusal :=
  .next (s.vIssue c 5 0x17 w fun x => x.vMaskOp w fun a b => a || b)
def execVmxor (c : Nat) (w : W64) (s : State) : Host.Outcome State Fault Refusal :=
  .next (s.vIssue c 5 0x18 w fun x => x.vMaskOp w fun a b => a != b)
def execVmnot (c : Nat) (w : W64) (s : State) : Host.Outcome State Fault Refusal :=
  .next (s.vIssue c 5 0x19 w fun x => x.vMaskOp w fun a _ => !a)
def execVmfirst (c : Nat) (w : W64) (s : State) : Host.Outcome State Fault Refusal := .next (s.vIssue c 5 0x1A w fun x => x.vMfirst w)
def execVlmul (c : Nat) (w : W64) (s : State) : Host.Outcome State Fault Refusal := .next (s.vIssue c 5 0x1B w fun x => x.vLog false w)
def execVladd (c : Nat) (w : W64) (s : State) : Host.Outcome State Fault Refusal := .next (s.vIssue c 5 0x1C w fun x => x.vLog true w)
def execVexp (c : Nat) (w : W64) (s : State) : Host.Outcome State Fault Refusal := .next (s.vIssue c 5 0x1D w fun x => x.vElt 0x1D w)
def execVrcp (c : Nat) (w : W64) (s : State) : Host.Outcome State Fault Refusal := .next (s.vIssue c 5 0x1E w fun x => x.vElt 0x1E w)
def execVrsq (c : Nat) (w : W64) (s : State) : Host.Outcome State Fault Refusal := .next (s.vIssue c 5 0x1F w fun x => x.vElt 0x1F w)
def execVlog2 (c : Nat) (w : W64) (s : State) : Host.Outcome State Fault Refusal := .next (s.vIssue c 5 0x20 w fun x => x.vElt 0x20 w)
def execVperm (c : Nat) (w : W64) (s : State) : Host.Outcome State Fault Refusal := .next (s.vIssue c 5 0x21 w fun x => x.vPerm w)
def execVshuf (c : Nat) (w : W64) (s : State) : Host.Outcome State Fault Refusal := .next (s.vIssue c 5 0x22 w fun x => x.vShuf w)
def execVcompress (c : Nat) (w : W64) (s : State) : Host.Outcome State Fault Refusal :=
  .next (s.vIssue c 5 0x23 w fun x => x.vCompress w)
def execVexpand (c : Nat) (w : W64) (s : State) : Host.Outcome State Fault Refusal := .next (s.vIssue c 5 0x24 w fun x => x.vExpand w)
def execVrsum (c : Nat) (w : W64) (s : State) : Host.Outcome State Fault Refusal := .next (s.vIssue c 5 0x25 w fun x => x.vReduce 0 w)
def execVrmax (c : Nat) (w : W64) (s : State) : Host.Outcome State Fault Refusal := .next (s.vIssue c 5 0x26 w fun x => x.vReduce 1 w)
def execVrmin (c : Nat) (w : W64) (s : State) : Host.Outcome State Fault Refusal := .next (s.vIssue c 5 0x27 w fun x => x.vReduce 2 w)
def execVsegsum (c : Nat) (w : W64) (s : State) : Host.Outcome State Fault Refusal := .next (s.vsegsum c w)
def execVld (c : Nat) (w : W64) (s : State) : Host.Outcome State Fault Refusal := .next (s.vld c w)
def execVst (c : Nat) (w : W64) (s : State) : Host.Outcome State Fault Refusal := .next (s.vst c w)
def execVsummary (c : Nat) (w : W64) (s : State) : Host.Outcome State Fault Refusal := .next (s.vsummary c w)
def execVpred (c : Nat) (w : W64) (s : State) : Host.Outcome State Fault Refusal := .next (s.vpred c w)
def execVcvt (c : Nat) (w : W64) (s : State) : Host.Outcome State Fault Refusal := .next (s.vIssue c 6 0 w fun x => x.vCvt w)
def execVpack (c : Nat) (w : W64) (s : State) : Host.Outcome State Fault Refusal := .next (s.vIssue c 6 1 w fun x => x.vPack w)
def execVunpack (c : Nat) (w : W64) (s : State) : Host.Outcome State Fault Refusal := .next (s.vIssue c 6 2 w fun x => x.vUnpack w)
def execVClassBusyEnd (c : Nat) (s : State) : Host.Outcome State Fault Refusal := .next (s.vClassBusyEnd c)
def execChuteWaitEnd (c : Nat) (e : Engine) (s : State) : Host.Outcome State Fault Refusal := .next (s.chuteWaitEnd c e)

end Sys2Proof.Machine
end

