-- ==== Sys2Proof/Machine/Dispatch.lean ====
section
/-! DEFINITION. Machine/Dispatch.lean: one arm for each command of the operation table. -/

namespace Sys2Proof.Machine

def exec (i : Instr) (s : State) : Host.Outcome State Fault Refusal :=
  match i with
  | .objCreate q payload => Sys2Proof.Machine.execObjCreate q payload s
  | .objFree q payload => Sys2Proof.Machine.execObjFree q payload s
  | .objSeal q payload => Sys2Proof.Machine.execObjSeal q payload s
  | .objQuery q payload => Sys2Proof.Machine.execObjQuery q payload s
  | .objHint q payload => Sys2Proof.Machine.execObjHint q payload s
  | .objRead q payload => Sys2Proof.Machine.execObjRead q payload s
  | .objWrite q payload => Sys2Proof.Machine.execObjWrite q payload s
  | .plcQueryPlot q payload => Sys2Proof.Machine.execPlcQueryPlot q payload s
  | .plcQueryWorkSet q payload => Sys2Proof.Machine.execPlcQueryWorkSet q payload s
  | .workSet q payload => Sys2Proof.Machine.execWorkSet q payload s
  | .workItemRebalance c => Sys2Proof.Machine.execWorkItemRebalance c s
  | .progLoad q payload => Sys2Proof.Machine.execProgLoad q payload s
  | .threadStart q payload => Sys2Proof.Machine.execThreadStart q payload s
  | .threadStop q payload => Sys2Proof.Machine.execThreadStop q payload s
  | .threadFree q payload => Sys2Proof.Machine.execThreadFree q payload s
  | .threadSignal q payload => Sys2Proof.Machine.execThreadSignal q payload s
  | .sessionOpen q payload => Sys2Proof.Machine.execSessionOpen q payload s
  | .sessionClose q payload => Sys2Proof.Machine.execSessionClose q payload s
  | .keepalive q payload => Sys2Proof.Machine.execKeepalive q payload s
  | .regRead q payload => Sys2Proof.Machine.execRegRead q payload s
  | .regWrite q payload => Sys2Proof.Machine.execRegWrite q payload s
  | .powerSetRung q payload => Sys2Proof.Machine.execPowerSetRung q payload s
  | .powerSetSetpoint q payload => Sys2Proof.Machine.execPowerSetSetpoint q payload s
  | .attest q payload => Sys2Proof.Machine.execAttest q payload s
  | .fwBegin q payload => Sys2Proof.Machine.execFwBegin q payload s
  | .fwData q payload => Sys2Proof.Machine.execFwData q payload s
  | .fwCommit q payload => Sys2Proof.Machine.execFwCommit q payload s
  | .fwConfirm q payload => Sys2Proof.Machine.execFwConfirm q payload s
  | .fwRaise q payload => Sys2Proof.Machine.execFwRaise q payload s
  | .ownerEnrol q payload => Sys2Proof.Machine.execOwnerEnrol q payload s
  | .fwAbort q payload => Sys2Proof.Machine.execFwAbort q payload s
  | .macsecKey q payload => Sys2Proof.Machine.execMacsecKey q payload s
  | .rdmaQpCreate q payload => Sys2Proof.Machine.execRdmaQpCreate q payload s
  | .rdmaQpDestroy q payload => Sys2Proof.Machine.execRdmaQpDestroy q payload s
  | .rdmaMrCreate q payload => Sys2Proof.Machine.execRdmaMrCreate q payload s
  | .rdmaMrDestroy q payload => Sys2Proof.Machine.execRdmaMrDestroy q payload s
  | .qctPacket d => Sys2Proof.Machine.execQctPacket d s
  | .qctRetransmit q => Sys2Proof.Machine.execQctRetransmit q s
  | .ackonly q => Sys2Proof.Machine.execAckonly q s
  | .keepaliveLoss => Sys2Proof.Machine.execKeepaliveLoss s
  | .eventSend => Sys2Proof.Machine.execEventSend s
  | .rdmaWrite r => Sys2Proof.Machine.execRdmaWrite r s
  | .rdmaRead r => Sys2Proof.Machine.execRdmaRead r s
  | .cnpReceive qpn => Sys2Proof.Machine.execCnpReceive qpn s
  | .frameReceive f => Sys2Proof.Machine.execFrameReceive f s
  | .pfcFrame pri => Sys2Proof.Machine.execPfcFrame pri s
  | .portUp lanes => Sys2Proof.Machine.execPortUp lanes s
  | .launchA th w => Sys2Proof.Machine.execLaunchA th w s
  | .launchX th w => Sys2Proof.Machine.execLaunchX th w s
  | .programComplete c e => Sys2Proof.Machine.execProgramComplete c e s
  | .programAbort c => Sys2Proof.Machine.execProgramAbort c s
  | .chuteWaitEnd c e => Sys2Proof.Machine.execChuteWaitEnd c e s
  | .decoupleStall c => Sys2Proof.Machine.execDecoupleStall c s
  | .wtake th w => Sys2Proof.Machine.execWtake th w s
  | .wdone th w => Sys2Proof.Machine.execWdone th w s
  | .sNop th w => Sys2Proof.Machine.execSNop th w s
  | .sAdd th w => Sys2Proof.Machine.execSAdd th w s
  | .sSub th w => Sys2Proof.Machine.execSSub th w s
  | .sMul th w => Sys2Proof.Machine.execSMul th w s
  | .sMulhu th w => Sys2Proof.Machine.execSMulhu th w s
  | .sDivu th w => Sys2Proof.Machine.execSDivu th w s
  | .sRemu th w => Sys2Proof.Machine.execSRemu th w s
  | .sAnd th w => Sys2Proof.Machine.execSAnd th w s
  | .sOr th w => Sys2Proof.Machine.execSOr th w s
  | .sXor th w => Sys2Proof.Machine.execSXor th w s
  | .sSll th w => Sys2Proof.Machine.execSSll th w s
  | .sSrl th w => Sys2Proof.Machine.execSSrl th w s
  | .sSra th w => Sys2Proof.Machine.execSSra th w s
  | .sSlt th w => Sys2Proof.Machine.execSSlt th w s
  | .sSltu th w => Sys2Proof.Machine.execSSltu th w s
  | .sAddi th w => Sys2Proof.Machine.execSAddi th w s
  | .sAndi th w => Sys2Proof.Machine.execSAndi th w s
  | .sOri th w => Sys2Proof.Machine.execSOri th w s
  | .sXori th w => Sys2Proof.Machine.execSXori th w s
  | .sSlli th w => Sys2Proof.Machine.execSSlli th w s
  | .sSrli th w => Sys2Proof.Machine.execSSrli th w s
  | .sSrai th w => Sys2Proof.Machine.execSSrai th w s
  | .sLih th w => Sys2Proof.Machine.execSLih th w s
  | .sBeq th w => Sys2Proof.Machine.execSBeq th w s
  | .sBne th w => Sys2Proof.Machine.execSBne th w s
  | .sBlt th w => Sys2Proof.Machine.execSBlt th w s
  | .sBge th w => Sys2Proof.Machine.execSBge th w s
  | .sBltu th w => Sys2Proof.Machine.execSBltu th w s
  | .sBgeu th w => Sys2Proof.Machine.execSBgeu th w s
  | .sJal th w => Sys2Proof.Machine.execSJal th w s
  | .sJalr th w => Sys2Proof.Machine.execSJalr th w s
  | .sLd th w => Sys2Proof.Machine.execSLd th w s
  | .sLds th w => Sys2Proof.Machine.execSLds th w s
  | .sSt th w => Sys2Proof.Machine.execSSt th w s
  | .sRdreg th w => Sys2Proof.Machine.execSRdreg th w s
  | .sWrreg th w => Sys2Proof.Machine.execSWrreg th w s
  | .sTime th w => Sys2Proof.Machine.execSTime th w s
  | .sTick th w => Sys2Proof.Machine.execSTick th w s
  | .fence th w => Sys2Proof.Machine.execFence th w s
  | .fenceComplete th => Sys2Proof.Machine.execFenceComplete th s
  | .wait th w => Sys2Proof.Machine.execWait th w s
  | .sleep th w => Sys2Proof.Machine.execSleep th w s
  | .yield th w => Sys2Proof.Machine.execYield th w s
  | .signal th w => Sys2Proof.Machine.execSignal th w s
  | .flags th w => Sys2Proof.Machine.execFlags th w s
  | .mbox th w => Sys2Proof.Machine.execMbox th w s
  | .barrier th w => Sys2Proof.Machine.execBarrier th w s
  | .setpri th w => Sys2Proof.Machine.execSetpri th w s
  | .post th w => Sys2Proof.Machine.execPost th w s
  | .exit th w => Sys2Proof.Machine.execExit th w s
  | .threadDispatch c core slot => Sys2Proof.Machine.execThreadDispatch c core slot s
  | .threadWake th => Sys2Proof.Machine.execThreadWake th s
  | .tickBoundary => Sys2Proof.Machine.execTickBoundary s
  | .deadlineDue c => Sys2Proof.Machine.execDeadlineDue c s
  | .starvationLimit th => Sys2Proof.Machine.execStarvationLimit th s
  | .barrierMessage m => Sys2Proof.Machine.execBarrierMessage m s
  | .barrierEpisodeComplete chan => Sys2Proof.Machine.execBarrierEpisodeComplete chan s
  | .barrierChannelEnable chan => Sys2Proof.Machine.execBarrierChannelEnable chan s
  | .barrierChannelDisable chan => Sys2Proof.Machine.execBarrierChannelDisable chan s
  | .aAdda c w => Sys2Proof.Machine.execAAdda c w s
  | .aAddan c w => Sys2Proof.Machine.execAAddan c w s
  | .aSetn c w => Sys2Proof.Machine.execASetn c w s
  | .aAddn c w => Sys2Proof.Machine.execAAddn c w s
  | .aLoop c w => Sys2Proof.Machine.execALoop c w s
  | .aNop c w => Sys2Proof.Machine.execANop c w s
  | .aGather c w => Sys2Proof.Machine.execAGather c w s
  | .aGathercsr c w => Sys2Proof.Machine.execAGathercsr c w s
  | .aStream c w => Sys2Proof.Machine.execAStream c w s
  | .aStreamc c w => Sys2Proof.Machine.execAStreamc c w s
  | .aLoad c w => Sys2Proof.Machine.execALoad c w s
  | .aPref c w => Sys2Proof.Machine.execAPref c w s
  | .aStore c w => Sys2Proof.Machine.execAStore c w s
  | .aStorec c w => Sys2Proof.Machine.execAStorec c w s
  | .aScadd c w => Sys2Proof.Machine.execAScadd c w s
  | .aHaul c w => Sys2Proof.Machine.execAHaul c w s
  | .requestIssue c => Sys2Proof.Machine.execRequestIssue c s
  | .granuleDelivery c id => Sys2Proof.Machine.execGranuleDelivery c id s
  | .walkComplete c handle plot => Sys2Proof.Machine.execWalkComplete c handle plot s
  | .redirectReceive c id => Sys2Proof.Machine.execRedirectReceive c id s
  | .homeLostReceive c id => Sys2Proof.Machine.execHomeLostReceive c id s
  | .requestAck c id => Sys2Proof.Machine.execRequestAck c id s
  | .mcfg c w => Sys2Proof.Machine.execMcfg c w s
  | .mldw c w => Sys2Proof.Machine.execMldw c w s
  | .mldwComplete c => Sys2Proof.Machine.execMldwComplete c s
  | .mpre c w => Sys2Proof.Machine.execMpre c w s
  | .mmul c w => Sys2Proof.Machine.execMmul c w s
  | .mmulComplete c => Sys2Proof.Machine.execMmulComplete c s
  | .overflowReplay c => Sys2Proof.Machine.execOverflowReplay c s
  | .mdrain c w => Sys2Proof.Machine.execMdrain c w s
  | .mdrainComplete c => Sys2Proof.Machine.execMdrainComplete c s
  | .xNop c w => Sys2Proof.Machine.execXNop c w s
  | .xSetk c w => Sys2Proof.Machine.execXSetk c w s
  | .xAddk c w => Sys2Proof.Machine.execXAddk c w s
  | .xLoop c w => Sys2Proof.Machine.execXLoop c w s
  | .xMa c w => Sys2Proof.Machine.execXMa c w s
  | .vsetvl c w => Sys2Proof.Machine.execVsetvl c w s
  | .vmov c w => Sys2Proof.Machine.execVmov c w s
  | .vadd c w => Sys2Proof.Machine.execVadd c w s
  | .vsub c w => Sys2Proof.Machine.execVsub c w s
  | .vmul c w => Sys2Proof.Machine.execVmul c w s
  | .vfma c w => Sys2Proof.Machine.execVfma c w s
  | .vmax c w => Sys2Proof.Machine.execVmax c w s
  | .vmin c w => Sys2Proof.Machine.execVmin c w s
  | .vabs c w => Sys2Proof.Machine.execVabs c w s
  | .vneg c w => Sys2Proof.Machine.execVneg c w s
  | .viadd c w => Sys2Proof.Machine.execViadd c w s
  | .visub c w => Sys2Proof.Machine.execVisub c w s
  | .vimul c w => Sys2Proof.Machine.execVimul c w s
  | .vimax c w => Sys2Proof.Machine.execVimax c w s
  | .vimin c w => Sys2Proof.Machine.execVimin c w s
  | .vand c w => Sys2Proof.Machine.execVand c w s
  | .vor c w => Sys2Proof.Machine.execVor c w s
  | .vxor c w => Sys2Proof.Machine.execVxor c w s
  | .vsll c w => Sys2Proof.Machine.execVsll c w s
  | .vsrl c w => Sys2Proof.Machine.execVsrl c w s
  | .vsra c w => Sys2Proof.Machine.execVsra c w s
  | .vcmp c w => Sys2Proof.Machine.execVcmp c w s
  | .vsel c w => Sys2Proof.Machine.execVsel c w s
  | .vmand c w => Sys2Proof.Machine.execVmand c w s
  | .vmor c w => Sys2Proof.Machine.execVmor c w s
  | .vmxor c w => Sys2Proof.Machine.execVmxor c w s
  | .vmnot c w => Sys2Proof.Machine.execVmnot c w s
  | .vmfirst c w => Sys2Proof.Machine.execVmfirst c w s
  | .vlmul c w => Sys2Proof.Machine.execVlmul c w s
  | .vladd c w => Sys2Proof.Machine.execVladd c w s
  | .vexp c w => Sys2Proof.Machine.execVexp c w s
  | .vrcp c w => Sys2Proof.Machine.execVrcp c w s
  | .vrsq c w => Sys2Proof.Machine.execVrsq c w s
  | .vlog2 c w => Sys2Proof.Machine.execVlog2 c w s
  | .vperm c w => Sys2Proof.Machine.execVperm c w s
  | .vshuf c w => Sys2Proof.Machine.execVshuf c w s
  | .vcompress c w => Sys2Proof.Machine.execVcompress c w s
  | .vexpand c w => Sys2Proof.Machine.execVexpand c w s
  | .vrsum c w => Sys2Proof.Machine.execVrsum c w s
  | .vrmax c w => Sys2Proof.Machine.execVrmax c w s
  | .vrmin c w => Sys2Proof.Machine.execVrmin c w s
  | .vsegsum c w => Sys2Proof.Machine.execVsegsum c w s
  | .vld c w => Sys2Proof.Machine.execVld c w s
  | .vst c w => Sys2Proof.Machine.execVst c w s
  | .vsummary c w => Sys2Proof.Machine.execVsummary c w s
  | .vpred c w => Sys2Proof.Machine.execVpred c w s
  | .vcvt c w => Sys2Proof.Machine.execVcvt c w s
  | .vpack c w => Sys2Proof.Machine.execVpack c w s
  | .vunpack c w => Sys2Proof.Machine.execVunpack c w s
  | .ccClean c => Sys2Proof.Machine.execCcClean c s
  | .ccInvalidate c => Sys2Proof.Machine.execCcInvalidate c s
  | .ccCleanInv c => Sys2Proof.Machine.execCcCleanInv c s
  | .ccPreloadLock c => Sys2Proof.Machine.execCcPreloadLock c s
  | .ccUnlock c => Sys2Proof.Machine.execCcUnlock c s
  | .ccMaintComplete c => Sys2Proof.Machine.execCcMaintComplete c s
  | .scalerFrameInvalidate c lnd frame => Sys2Proof.Machine.execScalerFrameInvalidate c lnd frame s
  | .landingRequest l id => Sys2Proof.Machine.execLandingRequest l id s
  | .scrubRead l => Sys2Proof.Machine.execScrubRead l s
  | .frameZeroFill l frame => Sys2Proof.Machine.execFrameZeroFill l frame s
  | .landingFail l => Sys2Proof.Machine.execLandingFail l s
  | .placementInterval => Sys2Proof.Machine.execPlacementInterval s
  | .moveCopyDone handle plot => Sys2Proof.Machine.execMoveCopyDone handle plot s
  | .moveFlip handle plot => Sys2Proof.Machine.execMoveFlip handle plot s
  | .sweepComplete handle => Sys2Proof.Machine.execSweepComplete handle s
  | .moveInvalidateDone handle plot => Sys2Proof.Machine.execMoveInvalidateDone handle plot s
  | .linkTrained l lanes => Sys2Proof.Machine.execLinkTrained l lanes s
  | .dataFlit l f => Sys2Proof.Machine.execDataFlit l f s
  | .nak l f => Sys2Proof.Machine.execNak l f s
  | .heartbeat l f => Sys2Proof.Machine.execHeartbeat l f s
  | .heartbeatSend l => Sys2Proof.Machine.execHeartbeatSend l s
  | .beacon l f => Sys2Proof.Machine.execBeacon l f s
  | .wake l f => Sys2Proof.Machine.execWake l f s
  | .resume l f => Sys2Proof.Machine.execResume l f s
  | .linkLivenessTimeout l => Sys2Proof.Machine.execLinkLivenessTimeout l s
  | .packetRoute p => Sys2Proof.Machine.execPacketRoute p s
  | .norouteHoldExpiry p => Sys2Proof.Machine.execNorouteHoldExpiry p s
  | .parkedHoldExpiry p => Sys2Proof.Machine.execParkedHoldExpiry p s
  | .load p => Sys2Proof.Machine.execLoad p s
  | .store p => Sys2Proof.Machine.execStore p s
  | .add p => Sys2Proof.Machine.execAdd p s
  | .walk p => Sys2Proof.Machine.execWalk p s
  | .fenced p => Sys2Proof.Machine.execFenced p s
  | .move p => Sys2Proof.Machine.execMove p s
  | .mgmt src m => Sys2Proof.Machine.execMgmt src m s
  | .membLinkDown p => Sys2Proof.Machine.execMembLinkDown p s
  | .probe p => Sys2Proof.Machine.execProbe p s
  | .probeResp p => Sys2Proof.Machine.execProbeResp p s
  | .probeTimeout x => Sys2Proof.Machine.execProbeTimeout x s
  | .linkDownReportTimeout x => Sys2Proof.Machine.execLinkDownReportTimeout x s
  | .epoch p => Sys2Proof.Machine.execEpoch p s
  | .drainTimeout => Sys2Proof.Machine.execDrainTimeout s
  | .membJoin p => Sys2Proof.Machine.execMembJoin p s
  | .joinResp p => Sys2Proof.Machine.execJoinResp p s
  | .joinTimeout => Sys2Proof.Machine.execJoinTimeout s
  | .recover p => Sys2Proof.Machine.execRecover p s
  | .recoverResp p => Sys2Proof.Machine.execRecoverResp p s
  | .fabFound => Sys2Proof.Machine.execFabFound s
  | .fabJoin => Sys2Proof.Machine.execFabJoin s
  | .powerOn => Sys2Proof.Machine.execPowerOn s
  | .pwrEnRise => Sys2Proof.Machine.execPwrEnRise s
  | .pwrGoodTimeout => Sys2Proof.Machine.execPwrGoodTimeout s
  | .pwrEnFall => Sys2Proof.Machine.execPwrEnFall s
  | .resetAssert => Sys2Proof.Machine.execResetAssert s
  | .bootRom strap => Sys2Proof.Machine.execBootRom strap s
  | .lookoutBoot => Sys2Proof.Machine.execLookoutBoot s
  | .lookoutWatchdog => Sys2Proof.Machine.execLookoutWatchdog s
  | .jtagUnlockChallenge => Sys2Proof.Machine.execJtagUnlockChallenge s
  | .jtagUnlockResponse bytes => Sys2Proof.Machine.execJtagUnlockResponse bytes s
  | .rungDrainDone => Sys2Proof.Machine.execRungDrainDone s
  | .rungDrainTimeout => Sys2Proof.Machine.execRungDrainTimeout s
  | .wakePin => Sys2Proof.Machine.execWakePin s
  | .rungExit => Sys2Proof.Machine.execRungExit s
  | .fallowExit => Sys2Proof.Machine.execFallowExit s
  | .setpointChange c => Sys2Proof.Machine.execSetpointChange c s
  | .cellPark c => Sys2Proof.Machine.execCellPark c s
  | .cellUnpark c => Sys2Proof.Machine.execCellUnpark c s
  | .thermalWarn sensor temp => Sys2Proof.Machine.execThermalWarn sensor temp s
  | .throttleStep field => Sys2Proof.Machine.execThrottleStep field s
  | .thermalTrip sensor temp => Sys2Proof.Machine.execThermalTrip sensor temp s
  | .cellRestart c parity => Sys2Proof.Machine.execCellRestart c parity s
  | .deviceFatal => Sys2Proof.Machine.execDeviceFatal s
  | .reportForward field => Sys2Proof.Machine.execReportForward field s
  | .errCntClr => Sys2Proof.Machine.execErrCntClr s
  | .snapshotTake j scope => Sys2Proof.Machine.execSnapshotTake j scope s
  | .snapshotRelease j => Sys2Proof.Machine.execSnapshotRelease j s
  | .registerWrite p addr v => Sys2Proof.Machine.execRegisterWrite p addr v s
  | .portDown => Sys2Proof.Machine.execPortDown s
  | .idleFlit l f => Sys2Proof.Machine.execIdleFlit l f s
  | .vstbyLoss => Sys2Proof.Machine.execVstbyLoss s
  | .railFailure => Sys2Proof.Machine.execRailFailure s
  | .tripRailReturn => Sys2Proof.Machine.execTripRailReturn s
  | .cellRestartComplete c => Sys2Proof.Machine.execCellRestartComplete c s
  | .mpreComplete c => Sys2Proof.Machine.execMpreComplete c s
  | .vClassBusyEnd c => Sys2Proof.Machine.execVClassBusyEnd c s
  | .registerRead p addr count => Sys2Proof.Machine.execRegisterRead p addr count s
  | .i3cDynamicAddressing addr => Sys2Proof.Machine.execI3cDynamicAddressing addr s

end Sys2Proof.Machine
end

