-- ==== Sys2Proof/Safety.lean ====
section
/-! DEFINITION. Safety.lean: the terms in which claims are stated: when a command's event is enabled, what stays the same across a
command, and the invariants of the block. -/

namespace Sys2Proof.Machine

/-! ## What stays the same -/

/-- Everything outside one thread slot is as it was: every other field of the device, every other cell, every other field of the cell
(operand memory, engines, chutes, cache, cores and so on), every other slot. -/
structure OnlyThread (th : ThreadRef) (s t : State) : Prop where
  device : { t with cells := s.cells } = s
  cells : ∀ c, c ≠ th.cell → t.cell c = s.cell c
  cell : { t.cell th.cell with threads := (s.cell th.cell).threads } = s.cell th.cell
  threads : ∀ k, k ≠ th.slot → t.thread th.cell k = s.thread th.cell k

/-- A step changed one thread slot, by `f`, and nothing else. -/
def ThreadStep (th : ThreadRef) (f : Thread → Thread) (s t : State) : Prop :=
  t.thread th.cell th.slot = f (s.thread th.cell th.slot) ∧ OnlyThread th s t

/-- Everything outside one cell is as it was. -/
structure OnlyCell (c : Nat) (s t : State) : Prop where
  device : { t with cells := s.cells } = s
  cells : ∀ k, k ≠ c → t.cell k = s.cell k

/-- A step changed one cell, by `f`, and nothing else. -/
def CellStep (c : Nat) (f : CellSt → CellSt) (s t : State) : Prop := t.cell c = f (s.cell c) ∧ OnlyCell c s t

/-- Every byte of the device's memory reads as before. -/
def SameMemory (s t : State) : Prop := ∀ a, memGet t.mem a = memGet s.mem a

/-- Every byte of every cell's operand memory reads as before. -/
def SameOpmem (s t : State) : Prop := ∀ c a, memGet (t.cell c).opmem a = memGet (s.cell c).opmem a

/-! ## The invariant of the block's data -/

/-- A cell's tables are in canonical form, and each slot holds its 31 registers. -/
structure CellSt.Good (x : CellSt) : Prop where
  opmem : memWf x.opmem = true
  bars : tblWf (fun _ => BarCell.reset) x.bars = true
  regs : ∀ t ∈ x.threads, t.regs.length = 31

/-- The device's memory, registers and counters are in canonical form, so is every cell, and the tick period is not 0. -/
structure State.Good (s : State) : Prop where
  mem : memWf s.mem = true
  regs : tblWf regReset s.regs = true
  cnts : tblWf (fun _ => (0 : W64)) s.cnts = true
  cells : ∀ x ∈ s.cells, x.Good
  tick : 0 < s.tickPeriod

/-- One-time memory and fuses only go forward (R438, R439, R459). -/
structure FusesForward (a b : FlashSt) : Prop where
  arb : a.arb ≤ b.arb
  revoked : ∀ k, a.revoked.getLsbD k = true → b.revoked.getLsbD k = true
  owner : ∀ o, a.owner = some o → b.owner = some o
  uid : b.uid = a.uid
  sfdp : b.sfdp = a.sfdp

/-! ## When a thread issues (R271, R300, R303) -/

/-- The thread runs and its next word, in the software region and free of poison, is `w`. -/
structure ThreadAt (s : State) (th : ThreadRef) (w : W64) : Prop where
  runs : s.runs th = true
  fetch : s.pcOf th + 8 ≤ opSoft
  clean : (s.cell th.cell).opPoisoned (s.pcOf th) 8 = none
  word : (s.cell th.cell).opNat (s.pcOf th) 8 = w.toNat

/-- The thread issues the instruction of a class and opcode. -/
structure ThreadReady (s : State) (th : ThreadRef) (cls op : Nat) (w : W64) : Prop where
  at_ : ThreadAt s th w
  code : isOp .core cls op w = true

/-- The change that a retired instruction with result `v` makes to its slot: rd := v, PC := PC + 8 (R277). -/
def retire (w v : W64) (t : Thread) : Thread := { t.setReg (wRd w) v with pc := t.pc + 8 }

/-- A retired instruction without a result: PC := PC + 8. -/
def advance (t : Thread) : Thread := { t with pc := t.pc + 8 }

/-- The thread's slot is off its core and changed by `f`; nothing else changes. -/
def ReleaseStep (th : ThreadRef) (f : Thread → Thread) (s t : State) : Prop :=
  CellStep th.cell (fun x =>
    { x with cores := x.cores.map fun k => if k.slot = some th.slot then { k with slot := none } else k, threads := modAt th.slot f x.threads }) s t

/-- A slot enters a state at a tick (R298). -/
def entering (st : ThState) (tick : W32) (t : Thread) : Thread := { t with state := st, entered := tick, starved := false, readyTicks := 0 }

/-- A slot that fails: REASON 1, its code and FAULT_INFO; it waits for nothing more. -/
def failing (code info : Nat) (tick : W32) (t : Thread) : Thread :=
  entering .failed tick
    { t with reason := 1, faultCode := BitVec.ofNat 16 code, faultInfo := BitVec.ofNat 64 info, fence := none, timed := false }

/-- A thread fault (R315): the slot FAILED with REASON 1, its code and FAULT_INFO, its PC and registers kept, off its core, and a report
to the field supervisor; the instruction has no other effect. -/
structure FaultStep (th : ThreadRef) (code info : Nat) (s t : State) : Prop where
  slot : t.thread th.cell th.slot = failing code info (s.cell th.cell).tick (s.thread th.cell th.slot)
  core : ∀ k ∈ (t.cell th.cell).cores, k.slot ≠ some th.slot
  slots : ∀ k, k ≠ th.slot → t.thread th.cell k = s.thread th.cell k
  cells : ∀ c, c ≠ th.cell → t.cell c = s.cell c
  report : t.supQ.getLast? =
    some (fieldOfCell th.cell, ⟨srcCell th.cell, kThreadFault, code, 5, recData code th.slot info (s.pcOf th)⟩)
  memory : SameMemory s t
  opmem : SameOpmem s t

/-- Every instruction word that a thread issues, as the command that its class and opcode name. -/
def threadInstrs (th : ThreadRef) (w : W64) : List Instr :=
  [.sNop th w, .sAdd th w, .sSub th w, .sMul th w, .sMulhu th w, .sDivu th w, .sRemu th w, .sAnd th w, .sOr th w, .sXor th w, .sSll th w,
   .sSrl th w, .sSra th w, .sSlt th w, .sSltu th w, .sAddi th w, .sAndi th w, .sOri th w, .sXori th w, .sSlli th w, .sSrli th w,
   .sSrai th w, .sLih th w, .sBeq th w, .sBne th w, .sBlt th w, .sBge th w, .sBltu th w, .sBgeu th w, .sJal th w, .sJalr th w, .sLd th w,
   .sLds th w, .sSt th w, .sRdreg th w, .sWrreg th w, .sTime th w, .sTick th w, .wtake th w, .wdone th w, .launchA th w, .launchX th w] ++
  [.fence th w, .wait th w, .sleep th w, .yield th w, .signal th w, .flags th w, .mbox th w, .barrier th w, .setpri th w, .post th w,
   .exit th w]

/-! ## When an engine issues (R121, R271) -/

/-- The engine has no instruction in flight or held. -/
def CellSt.engineFree (x : CellSt) : Engine → Bool
  | .access => x.ae.op.isNone
  | .execute => x.xe.hold.isNone

/-- The engine may issue for its program `p`, has nothing in flight, and its next word, free of poison, is `w`. -/
structure EngineAt (s : State) (c : Nat) (e : Engine) (p : Prog) (w : W64) : Prop where
  runs : s.engineIssues c e = some p
  free : (s.cell c).engineFree e = true
  word : p.text[p.pc]? = some w
  clean : p.textPoison.getD p.pc false = false

/-- The engine issues the instruction of a class and opcode. -/
structure EngineReady (s : State) (c : Nat) (e : Engine) (p : Prog) (cls op : Nat) (w : W64) : Prop where
  at_ : EngineAt s c e p w
  code : isOp (engineUnit e) cls op w = true

/-- The cell after its engine's instruction has retired: the program goes on, and the watchdog is back at 0. -/
def retiredA (x : CellSt) : CellSt :=
  { x with wd := 0, ae := { x.ae with prog := x.ae.prog.map Prog.next, op := none, wait := none } }
def retiredX (x : CellSt) : CellSt :=
  { x with wd := 0, xe := { x.xe with prog := x.xe.prog.map Prog.next, hold := none, wait := none } }

/-- The access instruction that issues. -/
def issuedA (w : W64) (x : CellSt) : CellSt :=
  { x with ae := { x.ae with
    op := some {
      word := w, descs := (aRoles (wOp w) w).map fun d => readADesc x d.1, areg := x.ae.a, n := (x.nReg (wNr w)).toNat,
      got := [], asked := [], ahead := [], pushed := [], taken := [], done := 0 } } }

/-- The state in which a V-class instruction is held, with the iteration numbers that it took. -/
def State.heldX (s : State) (c : Nat) (p : Prog) : State := (s.loopNums p).2.xHold c 3 (false, none) (.runs false) (s.loopNums p).1 none

/-- What an M-class instruction other than MCFG takes at issue. -/
def State.takenM (s : State) (c : Nat) (p : Prog) (w : W64) (k : Pair) : LateM := s.mTake c p (s.loopNums p).1 w k

/-- The state in which an M-class instruction other than MCFG is held, with what it took at issue. -/
def State.heldM (s : State) (c : Nat) (p : Prog) (w : W64) (k : Pair) : State :=
  (s.loopNums p).2.xHold c 3 (s.takenM c p w k).choice k (s.loopNums p).1 none

/-- An M-class instruction other than MCFG issues, as its rules say (R188, R230, R262): no MCFG waits, it names a unit, it need not wait
for VPRED, its pair goes as `k`, its ports are in order. -/
structure MatrixIssue (s : State) (c : Nat) (p : Prog) (op : Nat) (w : W64) (k : Pair) : Prop where
  issue : EngineReady s c .execute p 4 op w
  other : 1 ≤ op
  mcfg : (s.cell c).mcfgDue = false
  pred : (wPe w && (s.cell c).predBusy) = false
  unit : (s.cell c).arr.quarter = true ∨ wQ w = 0
  pair : (s.cell c).pair (s.loopNums p).1 w = some k
  ports : (s.cell c).portFaults p (s.loopNums p).1 (mPorts op w ((s.cell c).arr.geo w)) = none

/-- Nothing stands in the way of an M-class instruction: it issues, need not wait, and passes its checks. -/
structure MatrixReady (s : State) (c : Nat) (p : Prog) (op : Nat) (w : W64) (k : Pair) : Prop where
  issue : MatrixIssue s c p op w k
  free : (s.cell c).mFree (s.cell c).xe.late (s.takenM c p w k) = true
  checks : mChecks op w (s.cell c) ((s.cell c).arr.geo w) k = none

/-! ## When a host command starts (R426, R467) -/

/-- The next command of queue `q`, of session `n`, has code `opc` and payload `p`, and may start. -/
structure HostReady (s : State) (q opc : Nat) (p : List Byte) (n : W32) (c : QCmd) : Prop where
  next : s.nextCmd q = some (n, c)
  code : c.opc = opc
  payload : c.payload = p
  may : s.mayStart c = true

/-- The state in which the command has left its queue and is counted as carried out. -/
def State.taken (s : State) (q : Nat) : State := (s.modQueue q fun y => { y with buf := y.buf.drop 1 }).count (kEth 8) 1

/-- Nothing waits for the lookout: no request, no job, no seal, no command in any queue. -/
structure State.Calm (s : State) : Prop where
  reqs : s.reqs = []
  jobs : s.eth.jobs = []
  seals : s.scaler.seals = []
  bufs : ∀ x, s.eth.session = some x → ∀ q, (x.queue q).buf = []

/-! ## When flits, packets and messages act (R382, R386, R392, R393) -/

/-- A flit of a kind with a correct CRC comes in on a link that takes flits. -/
structure FlitReady (s : State) (l kind : Nat) (f : Flit) : Prop where
  on : s.fabOn = true
  link : l < 32
  alive : (s.link l).alive = true
  kind : flKind f = kind
  good : flGood f = true

/-- A request of another member has come here, and is not fenced. -/
structure RequestReady (s : State) (p : Packet) (typ : Nat) : Prop where
  active : s.active = true
  typ : p.typ = typ
  here : s.fab.arrived.contains p = true
  near : s.fab.member p.src ≠ 2
  space : s.fab.state = .member ∨ s.fab.state = .expelled

/-- A membership message of a code has come here. -/
structure MembReady (s : State) (p : Packet) (code : Nat) : Prop where
  on : s.fabOn = true
  typ : p.typ = pkMemb
  code : mbCode p = code
  here : s.fab.arrived.contains p = true

end Sys2Proof.Machine
end

