-- ==== Sys2Proof/Certificates/Slice0/Obligations.lean ====
section
/-! DEFINITION. Certificates/Slice0/Obligations.lean: the statements for the provers. Of every constructor of `Instr` some statement concludes
that `exec` answers a next state (`exec i s = .next …` or `∃ t, exec i s = .next t ∧ …`) from conditions on the state and the operands alone; the
statement texts of OBLIGATIONS.json list them. Three parts: the machine as a whole; the commands, from the scalar class to the device's supplies
and errors; then, in the last part, further results and commands:
OperandStore (sSt); WaitOutcomes (wait); SignalDelivers (signal); PostAndFence (post, fence, fenceComplete); DispatchTakesThread (threadDispatch);
WaitersWake (threadWake, deadlineDue); TimePasses (tickBoundary, starvationLimit); LaunchOutcomes (launchA, launchX); WorkItems (wtake, wdone);
BarrierArrivals (barrier); BarrierEpisodeEnds (barrierEpisodeComplete); BarrierChannelCommands (barrierMessage, barrierChannelEnable,
barrierChannelDisable); RequestsAndAnswers (granuleDelivery, redirectReceive, homeLostReceive, requestAck, requestIssue, walkComplete); ProgramsEnd
(programComplete, programAbort, decoupleStall, chuteWaitEnd); ArrayLoads (mcfg, mldw, mpre); VectorResultsLand (vClassBusyEnd);
VectorMemoryAndSpecials (vld, vst, vsummary, vClassBusyEnd, vpred, vsegsum). -/

open Sys2Proof Sys2Proof.Machine

/-- A step with a command at the front of the queue is that command's `exec` on the state with the queue's rest. -/
def Obligations.StepRunsFrontCommand : Prop :=
  ∀ (i : Instr) (rest : List Instr) (s : State), step { s with pending := i :: rest } = exec i { s with pending := rest }

/-- No command stops the block: every command in every state answers a next state. No command's effect reaches the queue: what waits behind it
waits there still, in its order.
Readings and choices of the model's own that it rests on: log entries 1 and 11. -/
def Obligations.CommandsAnswerAndKeepQueue : Prop :=
  (∀ (i : Instr) (s : State), ∃ t, exec i s = .next t) ∧
  (∀ (i : Instr) (s t : State), exec i s = .next t → t.pending = s.pending)

/-- The canonical form of the device's data is kept by every step: memory, registers, counters and operand memories list rising keys and no
default, each slot holds 31 registers, and the tick period is not 0. -/
def Obligations.EveryStepKeepsCanonicalData : Prop := ∀ s t : State, s.Good → step s = .next t → t.Good

/-- One-time memory only ever goes forward: no step lowers the anti-rollback count, clears a revocation bit, changes an owner key that is
enrolled, or changes the device's unique number or the debug fuse. -/
def Obligations.EveryStepKeepsFuses : Prop := ∀ s t : State, step s = .next t → FusesForward s.flash t.flash

/-- Scalar register instructions: rd takes the result, PC := PC + 8, nothing else changes. -/
def Obligations.ScalarRegisterResults : Prop :=
  ∀ p ∈ ([(.sAdd, 0x01, fun a b => a + b), (.sSub, 0x02, fun a b => a - b), (.sMul, 0x03, fun a b => a * b),
      (.sMulhu, 0x04, fun a b => BitVec.ofNat 64 (a.toNat * b.toNat / 2 ^ 64)),
      (.sDivu, 0x05, fun a b => if b = 0 then BitVec.allOnes 64 else a / b), (.sRemu, 0x06, fun a b => if b = 0 then a else a % b),
      (.sAnd, 0x07, fun a b => a &&& b), (.sOr, 0x08, fun a b => a ||| b), (.sXor, 0x09, fun a b => a ^^^ b),
      (.sSll, 0x0A, fun a b => a <<< (b.toNat % 64)), (.sSrl, 0x0B, fun a b => a >>> (b.toNat % 64)),
      (.sSra, 0x0C, fun a b => BitVec.ofInt 64 (a.toInt / 2 ^ (b.toNat % 64))),
      (.sSlt, 0x0D, fun a b => if a.toInt < b.toInt then 1 else 0), (.sSltu, 0x0E, fun a b => if a.toNat < b.toNat then 1 else 0)] :
      List ((ThreadRef → W64 → Instr) × Nat × (W64 → W64 → W64))),
    ∀ (th : ThreadRef) (w : W64) (s : State), ThreadReady s th 1 p.2.1 w →
      ∃ t, exec (p.1 th w) s = .next t ∧
        ThreadStep th (fun x => retire w (p.2.2 (x.reg (wRa w)) (x.reg (wRb w))) x) s t ∧ SameMemory s t ∧ SameOpmem s t

/-- The same with an immediate, sign-extended from 32 bits. -/
def Obligations.ScalarImmediateResults : Prop :=
  ∀ p ∈ ([(.sAddi, 0x10, fun a b => a + b), (.sAndi, 0x11, fun a b => a &&& b), (.sOri, 0x12, fun a b => a ||| b),
      (.sXori, 0x13, fun a b => a ^^^ b), (.sSlli, 0x14, fun a b => a <<< (b.toNat % 64)), (.sSrli, 0x15, fun a b => a >>> (b.toNat % 64)),
      (.sSrai, 0x16, fun a b => BitVec.ofInt 64 (a.toInt / 2 ^ (b.toNat % 64))),
      (.sLih, 0x17, fun a b => b <<< 32 ||| (a &&& 0xFFFFFFFF))] :
      List ((ThreadRef → W64 → Instr) × Nat × (W64 → W64 → W64))),
    ∀ (th : ThreadRef) (w : W64) (s : State), ThreadReady s th 1 p.2.1 w →
      ∃ t, exec (p.1 th w) s = .next t ∧
        ThreadStep th (fun x => retire w (p.2.2 (x.reg (wRa w)) ((w.truncate 32).signExtend 64)) x) s t ∧ SameMemory s t ∧ SameOpmem s t

/-- S.NOP, S.TIME, S.TICK, FLAGS, MBOX, SETPRI: what each leaves in its slot; nothing outside it changes. -/
def Obligations.ScalarMovesAndFlags : Prop :=
  ∀ (th : ThreadRef) (w : W64) (s : State),
    (ThreadReady s th 1 0 w → ∃ t, exec (.sNop th w) s = .next t ∧ ThreadStep th advance s t) ∧
    (ThreadReady s th 1 0x3A w → ∃ t, exec (.sTime th w) s = .next t ∧ ThreadStep th (retire w s.timebase) s t) ∧
    (ThreadReady s th 1 0x3B w → ∃ t, exec (.sTick th w) s = .next t ∧
      ThreadStep th (retire w ((s.cell th.cell).tick.zeroExtend 64)) s t) ∧
    (ThreadReady s th 2 5 w → ∃ t, exec (.flags th w) s = .next t ∧
      ThreadStep th (fun x => { retire w (x.flags.zeroExtend 64) x with flags := x.flags &&& ~~~(w.truncate 32) }) s t) ∧
    (ThreadReady s th 2 6 w → ∃ t, exec (.mbox th w) s = .next t ∧
      ThreadStep th (fun x => { retire w x.mailbox x with unread := false }) s t) ∧
    (ThreadReady s th 2 8 w → (s.sreg th (wRa w)).toNat ≤ 7 → ∃ t, exec (.setpri th w) s = .next t ∧
      ThreadStep th (fun x => { advance x with pri := (x.reg (wRa w)).truncate 3 }) s t)

/-- A branch goes to PC + 8 × IMM when its condition holds, else to PC + 8; S.JAL and S.JALR link PC + 8; nothing else changes. -/
def Obligations.BranchAndJumpTargets : Prop :=
  (∀ p ∈ ([(.sBeq, 0x20, fun a b => a = b), (.sBne, 0x21, fun a b => a ≠ b), (.sBlt, 0x22, fun a b => a.toInt < b.toInt),
      (.sBge, 0x23, fun a b => b.toInt ≤ a.toInt), (.sBltu, 0x24, fun a b => a.toNat < b.toNat), (.sBgeu, 0x25, fun a b => b.toNat ≤ a.toNat)] :
      List ((ThreadRef → W64 → Instr) × Nat × (W64 → W64 → Prop))),
    ∀ (th : ThreadRef) (w : W64) (s : State), ThreadReady s th 1 p.2.1 w →
      (p.2.2 (s.sreg th (wRa w)) (s.sreg th (wRb w)) → (s.pcOf th) % 8 = 0 →
        ∃ t, exec (p.1 th w) s = .next t ∧ ThreadStep th (fun x => { x with pc := x.pc + 8 * (w.truncate 32).signExtend 64 }) s t) ∧
      (¬ p.2.2 (s.sreg th (wRa w)) (s.sreg th (wRb w)) → ∃ t, exec (p.1 th w) s = .next t ∧ ThreadStep th advance s t)) ∧
  (∀ (th : ThreadRef) (w : W64) (s : State),
    (ThreadReady s th 1 0x26 w → s.pcOf th % 8 = 0 → ∃ t, exec (.sJal th w) s = .next t ∧
      ThreadStep th (fun x => { x.setReg (wRd w) (x.pc + 8) with pc := x.pc + 8 * (w.truncate 32).signExtend 64 }) s t) ∧
    (ThreadReady s th 1 0x27 w → (s.sreg th (wRa w)).toNat % 8 = 0 → ∃ t, exec (.sJalr th w) s = .next t ∧
      ThreadStep th (fun x => { x.setReg (wRd w) (x.pc + 8) with pc := x.reg (wRa w) + 8 * (w.truncate 32).signExtend 64 }) s t))

/-- A load reads 1, 2, 4 or 8 bytes, least significant first, zero- or sign-extended. -/
def Obligations.OperandLoads : Prop :=
  ∀ (th : ThreadRef) (w : W64) (s : State), ∀ a n, a = (s.sreg th (wRa w) + (w.truncate 32).signExtend 64).toNat → n = wSz w →
    a % n = 0 → a + n ≤ opSoft → (s.cell th.cell).opPoisoned a n = none →
    (ThreadReady s th 1 0x30 w → ∃ t, exec (.sLd th w) s = .next t ∧
      ThreadStep th (retire w (BitVec.ofNat 64 (leNat (memRead (s.cell th.cell).opmem a n)))) s t) ∧
    (ThreadReady s th 1 0x31 w → ∃ t, exec (.sLds th w) s = .next t ∧
      ThreadStep th (retire w (BitVec.ofInt 64 (signed (8 * n) (leNat (memRead (s.cell th.cell).opmem a n))))) s t)

/-- SLEEP, YIELD and EXIT release the core and leave the slot sleeping, READY or FREE; BAD_OPERAND beyond the limit; flags do not wake a sleeper. -/
def Obligations.SleepYieldExit : Prop :=
  ∀ (th : ThreadRef) (w : W64) (s : State), ∀ tick, tick = (s.cell th.cell).tick →
    (ThreadReady s th 2 2 w → ∀ n, n = (s.sreg th (wRa w)).toNat →
      (n = 0 → ∃ t, exec (.sleep th w) s = .next t ∧ ReleaseStep th (fun x => entering .ready tick (advance x)) s t) ∧
      (1 ≤ n → n < 2 ^ 31 → ∃ t, exec (.sleep th w) s = .next t ∧ ReleaseStep th
        (fun x => entering .sleeping tick { advance x with deadline := tick + BitVec.ofNat 32 n, timed := true }) s t) ∧
      (2 ^ 31 ≤ n → ∃ t, exec (.sleep th w) s = .next t ∧ FaultStep th 0x0003 n s t)) ∧
    (ThreadReady s th 2 3 w → ∃ t, exec (.yield th w) s = .next t ∧ ReleaseStep th (fun x => entering .ready tick (advance x)) s t) ∧
    (ThreadReady s th 2 10 w → ∃ t, exec (.exit th w) s = .next t ∧ ReleaseStep th
      (fun x => { entering .free tick x with fence := none, timed := false, wake := none, reason := 0 }) s t) ∧
    (∀ (x : Thread) (m : W32), x.state = .sleeping → x.orFlags m = { x with flags := x.flags ||| m })

/-- Support instructions of both engines; loops: LOOP_DEPTH, and a straight-line body of k instructions run n times. Model's choices: log entries 26
and 31. -/
def Obligations.EngineRegistersAndLoops : Prop :=
  (∀ (c : Nat) (w : W64) (s : State) (p : Prog),
    (EngineReady s c .access p 3 0 w → ∃ t, exec (.aNop c w) s = .next t ∧ CellStep c retiredA s t) ∧
    (EngineReady s c .access p 3 1 w → ∃ t, exec (.aAdda c w) s = .next t ∧ CellStep c (fun x => retiredA { x with ae := { x.ae with
      a := x.ae.a.set (wReg w) (advAddr (x.ae.a.getD (wReg w) 0) (w.truncate 32 : W32).toInt) } }) s t) ∧
    (EngineReady s c .access p 3 2 w → ∃ t, exec (.aAddan c w) s = .next t ∧ CellStep c (fun x => retiredA { x with ae := { x.ae with
      a := x.ae.a.set (wReg w) (advAddr (x.ae.a.getD (wReg w) 0) ((x.ae.n.getD (wNj w) 0).toNat * (wSc w + 1) : Nat)) } }) s t) ∧
    (EngineReady s c .access p 3 3 w → ∃ t, exec (.aSetn c w) s = .next t ∧ CellStep c (fun x => retiredA { x with ae := { x.ae with
      n := x.ae.n.set (wNReg w) (w.truncate 32) } }) s t) ∧
    (EngineReady s c .access p 3 4 w → ∃ t, exec (.aAddn c w) s = .next t ∧ CellStep c (fun x => retiredA { x with ae := { x.ae with
      n := x.ae.n.set (wNReg w) (x.ae.n.getD (wNReg w) 0 + w.truncate 32) } }) s t)) ∧
  (∀ (c : Nat) (w : W64) (s : State) (p : Prog),
    (EngineReady s c .execute p 7 0 w → ∃ t, exec (.xNop c w) s = .next t ∧ CellStep c retiredX s t) ∧
    (EngineReady s c .execute p 7 1 w → ∃ t, exec (.xSetk c w) s = .next t ∧ CellStep c (fun x => retiredX { x with xe := { x.xe with
      k := modAt (wKj w) (fun _ => w.truncate 32) x.xe.k } }) s t) ∧
    (EngineReady s c .execute p 7 2 w → ∃ t, exec (.xAddk c w) s = .next t ∧ CellStep c (fun x => retiredX { x with xe := { x.xe with
      k := modAt (wKj w) (fun k => k + w.truncate 32) x.xe.k } }) s t) ∧
    (EngineReady s c .execute p 7 4 w → ∃ t, exec (.xMa c w) s = .next t ∧ CellStep c (fun x => retiredX { x with xe := { x.xe with
      ma := modAt (fld w 53 52) (fun _ => ⟨BitVec.ofNat 20 (fld w 51 32), BitVec.ofNat 16 (fld w 31 16),
        if fld w 15 13 = 4 then none else some (fld w 15 13)⟩) x.xe.ma } }) s t) ∧
    (EngineReady s c .execute p 7 5 w → ∃ t, exec (.vsetvl c w) s = .next t ∧ (t.cell c).xe.prog = some p.next ∧
      (t.cell c).vec.vl = Nat.min (if w.getLsbD 53 then ((s.cell c).xe.k.getD (fld w 52 50) 0).toNat else fld w 14 0) 16384 ∧ OnlyCell c s t)) ∧
  (∀ (c : Nat) (w : W64) (s : State) (p : Prog),
    (EngineReady s c .access p 3 5 w →
      (p.loops.length ≠ 4 → ∃ t, exec (.aLoop c w) s = .next t ∧ OnlyCell c s t ∧
        (t.cell c).ae.prog = some (p.loop (wLen w) ((s.cell c).ae.n.getD (wNReg w) 0).toNat) ∧ (t.cell c).wd = 0) ∧
      (p.loops.length = 4 → ∃ t, exec (.aLoop c w) s = .next t ∧ (t.cell c).ae.prog = some { p with fault := some (0x0006, p.pc, 0) })) ∧
    (EngineReady s c .execute p 7 3 w →
      (p.loops.length ≠ 4 → ∃ t, exec (.xLoop c w) s = .next t ∧ OnlyCell c s t ∧
        (t.cell c).xe.prog = some (p.loop (wLen w) ((s.cell c).xe.k.getD (wKj w) 0).toNat) ∧ (t.cell c).wd = 0) ∧
      (p.loops.length = 4 → ∃ t, exec (.xLoop c w) s = .next t ∧ (t.cell c).xe.prog = some { p with fault := some (0x0006, p.pc, 0) }))) ∧
  (∀ (p : Prog) (k n : Nat), 0 < k → p.pc + k < p.text.length → p.loops = [] →
    ∀ q, q = (List.range (n * k)).foldl (fun (r : Prog) _ => r.next) (p.loop k n) → q.pc = p.pc + k + 1 ∧ q.loops = [])

/-- A memory instruction: descriptor faults, else in flight; with a count of 0 it retires at once and asks nothing. Model's choices: log entries 15,
17 and 71. -/
def Obligations.AccessInstructionsIssue : Prop :=
  (∀ x ∈ ([(.aGather, 0x10), (.aGathercsr, 0x11), (.aStream, 0x12), (.aStreamc, 0x13), (.aLoad, 0x14), (.aPref, 0x15), (.aStore, 0x20),
      (.aStorec, 0x21), (.aScadd, 0x22), (.aHaul, 0x23)] : List ((Nat → W64 → Instr) × Nat)),
    ∀ (c : Nat) (w : W64) (s : State) (p : Prog), EngineReady s c .access p 3 x.2 w →
      (∀ code a, descFault (s.cell c) (aRoles x.2 w) = some (code, a) → ∃ t, exec (x.1 c w) s = .next t ∧
        (t.cell c).ae.prog = some { p with fault := some (BitVec.ofNat 16 code, p.pc, BitVec.ofNat 64 a) } ∧ SameMemory s t ∧ SameOpmem s t) ∧
      (descFault (s.cell c) (aRoles x.2 w) = none → exec (x.1 c w) s = .next ((s.modCell c (issuedA w)).pumpA c))) ∧
  (∀ x ∈ ([(.aGather, 0x10), (.aGathercsr, 0x11), (.aStream, 0x12), (.aStreamc, 0x13), (.aLoad, 0x14), (.aPref, 0x15), (.aStore, 0x20),
      (.aStorec, 0x21), (.aScadd, 0x22), (.aHaul, 0x23)] : List ((Nat → W64 → Instr) × Nat)),
    ∀ (c : Nat) (w : W64) (s : State) (p : Prog), EngineReady s c .access p 3 x.2 w → (s.cell c).ae.n.getD (wNr w) 0 = 0 →
      descFault (s.cell c) (aRoles x.2 w) = none → (x.2 = 0x11 → wEdgeMode w = false) → s.writesInside c p = false →
      s.readsOut c p = false →
      (x.2 = 0x21 → ∀ y, ((s.modCell c (issuedA w)).cell c).ae.op = some y → storecBad s y = none) →
      (x.2 = 0x23 → (readADesc (s.cell c) (wD1 w)).len = (readADesc (s.cell c) (wD2 w)).len) →
      ∃ t, exec (x.1 c w) s = .next t ∧ (t.cell c).ae.prog = some p.next ∧ (t.cell c).ae.op = none ∧ t.reqs = s.reqs ∧ SameMemory s t ∧ SameOpmem s t)

/-- An M-class instruction that is free to issue is held with its sources; one whose checks fail faults; one that must wait is kept. Model's choices:
log entries 37 and 38. -/
def Obligations.MatrixIssues : Prop :=
  ∀ (c : Nat) (w : W64) (s : State) (p : Prog) (k : Pair),
    (MatrixReady s c p 1 w k → exec (.mldw c w) s = .next ((s.heldM c p w k).mldwGo c w)) ∧
    (MatrixReady s c p 2 w k → exec (.mpre c w) s = .next ((s.heldM c p w k).mpreGo c w)) ∧
    (MatrixReady s c p 3 w k → exec (.mmul c w) s = .next ((s.heldM c p w k).mmulGo c w)) ∧
    (MatrixReady s c p 4 w k → exec (.mdrain c w) s = .next ((s.heldM c p w k).mdrainGo c w)) ∧
    (∀ x ∈ ([(.mldw, 1), (.mpre, 2), (.mmul, 3), (.mdrain, 4)] : List ((Nat → W64 → Instr) × Nat)), MatrixIssue s c p x.2 w k →
      ((s.cell c).mFree (s.cell c).xe.late (s.takenM c p w k) →
        ∀ code info, mChecks x.2 w (s.cell c) ((s.cell c).arr.geo w) k = some (code, info) → ∃ t, exec (x.1 c w) s = .next t ∧
          (t.cell c).xe.prog = some { p with fault := some (BitVec.ofNat 16 code, p.pc, info) } ∧ (t.cell c).arr = (s.cell c).arr ∧
          SameMemory s t ∧ SameOpmem s t) ∧
      ((s.cell c).mFree (s.cell c).xe.late (s.takenM c p w k) = false → ∃ t, exec (x.1 c w) s = .next t ∧
        (t.cell c).xe.prog = some p.next ∧ (t.cell c).xe.late = (s.cell c).xe.late ++ [s.takenM c p w k] ∧
        (t.cell c).arr = (s.cell c).arr ∧ SameMemory s t ∧ SameOpmem s t))

/-- M-class completions where none waits, and OVERFLOW_REPLAY: rows restored, tile scaled by 2^−16, pass made again. Model's choices: log entries 37.
-/
def Obligations.MatrixCompletions : Prop :=
  (∀ (c : Nat) (s : State) (o : MOp) (pre rest : List MOp), s.active → s.cellUp c → c < s.cells.length →
    (s.cell c).arr.mops = pre ++ o :: rest → (∀ q ∈ pre, q.op ≠ o.op) → (s.cell c).xe.late = [] →
    (o.op = 1 → ∃ t, exec (.mldwComplete c) s = .next t ∧ (t.cell c).arr.mops = pre ++ rest ∧
      (∀ b, (t.cell c).arr.banks[2 * o.unit + o.bank]? = some b → b.loaded) ∧
      (s.Good → t.cnt (kCell c (cMx 3)) = s.cnt (kCell c (cMx 3)) + 1)) ∧
    (o.op = 2 → ∃ t, exec (.mpreComplete c) s = .next t ∧ CellStep c (fun x => { x with arr := { x.arr with mops := pre ++ rest } }) s t) ∧
    (o.op = 3 → (s.cell c).arr.replays = [] → ∃ t, exec (.mmulComplete c) s = .next t ∧
      CellStep c (fun x => { x with arr := { x.arr with mops := pre ++ rest } }) s t) ∧
    (o.op = 4 → ∃ t, exec (.mdrainComplete c) s = .next t ∧ CellStep c (fun x => { x with arr := { x.arr with mops := pre ++ rest } }) s t)) ∧
  (∀ (c : Nat) (s : State) (r : Replay) (due : List Replay), (s.cell c).arr.replays = r :: due → s.active → s.cellUp c →
    ∀ g x y, g = r.geo (s.cell c).arr.quarter → x = s.cell c → y = (x.restoreRows g r.tile r.r0 r.m).scaleTile g r.tile →
      (∃ t, exec (.overflowReplay c) s = .next t ∧
        t = (((s.modCell c fun x => ((x.restoreRows g r.tile r.r0 r.m).scaleTile g r.tile).modArr fun a => { a with replays := due }).countC c
          (cMx 7) 1).pass c { r with taken := r.taken + 1 }).lateRun c) ∧
      (g.stat r.tile < x.arr.stat.length → y.arr.status g r.tile =
        { x.arr.status g r.tile with t := (x.arr.status g r.tile).t + 16, replays := (x.arr.status g r.tile).replays + 1 }))

/-- A V- or C-class instruction on a free engine faults by its checks, or has computed and its results wait for the busy time's end. Model's choices:
log entries 40 and 42. -/
def Obligations.VectorIssues : Prop :=
  ∀ x ∈ ([(.vmov, 5, 0x00, fun w y => y.vElt 0x00 w), (.vadd, 5, 0x01, fun w y => y.vElt 0x01 w), (.vsub, 5, 0x02, fun w y => y.vElt 0x02 w),
      (.vmul, 5, 0x03, fun w y => y.vElt 0x03 w), (.vfma, 5, 0x04, fun w y => y.vElt 0x04 w), (.vmax, 5, 0x05, fun w y => y.vElt 0x05 w),
      (.vmin, 5, 0x06, fun w y => y.vElt 0x06 w), (.vabs, 5, 0x07, fun w y => y.vElt 0x07 w), (.vneg, 5, 0x08, fun w y => y.vElt 0x08 w),
      (.viadd, 5, 0x09, fun w y => y.vElt 0x09 w), (.visub, 5, 0x0A, fun w y => y.vElt 0x0A w), (.vimul, 5, 0x0B, fun w y => y.vElt 0x0B w),
      (.vimax, 5, 0x0C, fun w y => y.vElt 0x0C w), (.vimin, 5, 0x0D, fun w y => y.vElt 0x0D w), (.vand, 5, 0x0E, fun w y => y.vElt 0x0E w),
      (.vor, 5, 0x0F, fun w y => y.vElt 0x0F w), (.vxor, 5, 0x10, fun w y => y.vElt 0x10 w), (.vsll, 5, 0x11, fun w y => y.vElt 0x11 w),
      (.vsrl, 5, 0x12, fun w y => y.vElt 0x12 w), (.vsra, 5, 0x13, fun w y => y.vElt 0x13 w), (.vcmp, 5, 0x14, fun w y => y.vCmp w),
      (.vsel, 5, 0x15, fun w y => y.vSel w)] ++
      [(.vmand, 5, 0x16, fun w y => y.vMaskOp w fun a b => a && b), (.vmor, 5, 0x17, fun w y => y.vMaskOp w fun a b => a || b),
      (.vmxor, 5, 0x18, fun w y => y.vMaskOp w fun a b => a != b), (.vmnot, 5, 0x19, fun w y => y.vMaskOp w fun a _ => !a),
      (.vmfirst, 5, 0x1A, fun w y => y.vMfirst w), (.vlmul, 5, 0x1B, fun w y => y.vLog false w), (.vladd, 5, 0x1C, fun w y => y.vLog true w),
      (.vexp, 5, 0x1D, fun w y => y.vElt 0x1D w), (.vrcp, 5, 0x1E, fun w y => y.vElt 0x1E w), (.vrsq, 5, 0x1F, fun w y => y.vElt 0x1F w),
      (.vlog2, 5, 0x20, fun w y => y.vElt 0x20 w), (.vperm, 5, 0x21, fun w y => y.vPerm w), (.vshuf, 5, 0x22, fun w y => y.vShuf w),
      (.vcompress, 5, 0x23, fun w y => y.vCompress w), (.vexpand, 5, 0x24, fun w y => y.vExpand w), (.vrsum, 5, 0x25, fun w y => y.vReduce 0 w),
      (.vrmax, 5, 0x26, fun w y => y.vReduce 1 w), (.vrmin, 5, 0x27, fun w y => y.vReduce 2 w), (.vcvt, 6, 0, fun w y => y.vCvt w),
      (.vpack, 6, 1, fun w y => y.vPack w), (.vunpack, 6, 2, fun w y => y.vUnpack w)] :
      List ((Nat → W64 → Instr) × Nat × Nat × (W64 → CellSt → VRes))),
    ∀ (c : Nat) (w : W64) (s : State) (p : Prog), EngineReady s c .execute p x.2.1 x.2.2.1 w →
      (s.cell c).vReady (accTile x.2.1 x.2.2.1 w) →
      (∀ code info, x.2.2.2 w (s.cell c) = .error (code, info) → ∃ t, exec (x.1 c w) s = .next t ∧
        (t.cell c).xe.prog = some { p with fault := some (BitVec.ofNat 16 code, p.pc, info) } ∧ (t.cell c).vec = (s.cell c).vec ∧
        SameMemory s t ∧ SameOpmem s t) ∧
      (∀ o, x.2.2.2 w (s.cell c) = .ok o → ∃ t, exec (x.1 c w) s = .next t ∧
        (t.cell c).vec = { (s.cell c).vec with busy := some o.busy, accRead := accTile x.2.1 x.2.2.1 w, fin := some o.fin } ∧
        (∃ f, (t.cell c).xe.prog = some { p.next with flags := f }) ∧ (t.cell c).arr = (s.cell c).arr ∧ SameMemory s t ∧ SameOpmem s t)

/-- Commands on objects and work with good parameters; `u` is the device whose queue the command has left. Model's choices: log entries 20, 43, 44 and
51. -/
def Obligations.HostObjectCommands : Prop :=
  ∀ (q : Nat) (p : List Byte) (n : W32) (c : QCmd) (s u : State) (d : Desc), u = s.taken q → d.steward = u.dev →
    (HostReady s q 0x10 p n c → d = createDesc p u.dev → u.createOk p d → u.desc d.handle = none →
      exec (.objCreate q p) s = .next ((u.waitOn q n c d.handle).startCreate d none none []).settle) ∧
    (p.length = 3 → u.desc (leAt p 0 3) = some d →
      (HostReady s q 0x11 p n c → freeable d →
        exec (.objFree q p) s = .next ((u.waitOn q n c (leAt p 0 3)).startFree (leAt p 0 3) none).settle) ∧
      (HostReady s q 0x12 p n c → d.state = .live → d.typ ≠ 7 → d.typ ≠ 9 → exec (.objSeal q p) s = .next (((u.waitOn q n c (leAt p 0 3)).modScaler
        fun z => { z with seals := z.seals ++ [(leAt p 0 3, none)], queue := z.queue.filter fun m => m.handle != leAt p 0 3 }).sealStep).settle) ∧
      (HostReady s q 0x13 p n c → exec (.objQuery q p) s = .next (u.complete q n c stOk (descBytes d)).settle)) ∧
    (HostReady s q 0x14 p n c → p.length = 4 → u.liveDesc (leAt p 0 3) = some d → leAt p 3 1 ≤ 3 →
      exec (.objHint q p) s = .next (((u.waitOn q n c (leAt p 0 3)).modScaler fun z => { z with hints := tblSet 0 (leAt p 0 3) (leAt p 3 1) z.hints }).completeOn
        0x14 (leAt p 0 3) stOk).settle) ∧
    (u.liveDesc (addrHandle (BitVec.ofNat 64 (leAt p 0 8))) = some d → accessLen p ≠ 0 → accessStart d p + accessLen p ≤ d.count * d.esize →
      (HostReady s q 0x15 p n c → p.length = 14 → accessLen p ≤ 8192 → exec (.objRead q p) s = .next ((u.newJob (.qct q n c)
        (addrHandle (BitVec.ofNat 64 (leAt p 0 8))) 1).2.hostAccess u.eth.nextJob .load d (accessStart d p) (accessLen p) (p.drop 16)).settle) ∧
      (HostReady s q 0x16 p n c → p.length = 16 + accessLen p → zeroAt p 14 2 → accessLen p ≤ 8176 → d.state ≠ .sealed → d.typ ≠ 9 →
        exec (.objWrite q p) s = .next ((u.newJob (.qct q n c) (addrHandle (BitVec.ofNat 64 (leAt p 0 8))) 1).2.hostAccess u.eth.nextJob .store d
          (accessStart d p) (accessLen p) (p.drop 16)).settle)) ∧
    (HostReady s q 0x18 p n c → (∀ e, p.length = 9 → leAt p 0 1 = 0 → u.liveDesc (leAt p 1 3) = some d → leAt p 4 5 < plotsOf d →
      u.mapEntry (leAt p 1 3) (leAt p 4 5) = some e → ∀ f, f = u.plotFigures (leAt p 1 3) (leAt p 4 5) →
      exec (.plcQueryPlot q p) s = .next (u.complete q n c stOk (plotReply e f.1 f.2.1 f.2.2.1 f.2.2.2)).settle)) ∧
    (HostReady s q 0x18 p n c → (∀ w, p.length = 3 → leAt p 0 1 = 1 → u.wset (leAt p 1 2) = some w →
      exec (.plcQueryWorkSet q p) s = .next (u.complete q n c stOk
        ((List.range 192).flatMap fun i => leBytes 8 (w.cells.getD i (0, 0)).1 ++ leBytes 8 (w.cells.getD i (0, 0)).2)).settle)) ∧
    (∀ (a : WorkArgs) (f e : Desc), HostReady s q 0x19 p n c → p.length = 24 → a = workArgs p → u.objOf a.rowptr 2 = some d → u.objOf a.feature 5 = some f →
      u.objOf a.col 3 = some e → a.v0 < a.v1 → a.v1 < d.count → handleOk a.partH → u.desc a.partH = none →
      exec (.workSet q p) s = .next ((u.newJob (.qct q n c) 0 1).2.hostAccess u.eth.nextJob .load d (5 * a.v0) (5 * (a.v1 + 1 - a.v0)) []).settle)

/-- Commands on cells, threads and registers with good parameters. Model's choices: log entries 51 and 58. -/
def Obligations.HostCellCommands : Prop :=
  ∀ (q : Nat) (p : List Byte) (n : W32) (c : QCmd) (s u : State), u = s.taken q →
    (HostReady s q 0x20 p n c → s.loadHeld p = false → p.length = 32 + leAt p 28 2 → 1 ≤ leAt p 28 2 → leAt p 28 2 ≤ 8160 → zeroAt p 30 2 →
      leAt p 24 4 + leAt p 28 2 ≤ opSoft → exec (.progLoad q p) s = .next ((((maskCells (leAt p 0 24)).filter u.cellUp).foldl
        (fun s i => (s.unpark i).modCell i fun x => x.opWrite (leAt p 24 4) (p.drop 32)) u).complete q n c stOk []).settle) ∧
    (HostReady s q 0x21 p n c → p.length = 40 → leAt p 0 1 = 0 → leAt p 1 1 < 192 → leAt p 2 1 < 64 → leAt p 3 1 ≤ 7 → leAt p 4 4 % 8 = 0 → leAt p 4 4 < opSoft →
      u.cellUp (leAt p 1 1) → (u.thread (leAt p 1 1) (leAt p 2 1)).state = .free → exec (.threadStart q p) s =
        .next ((((u.unpark (leAt p 1 1)).modCell (leAt p 1 1) fun x => x.startThread (leAt p 2 1) (leAt p 3 1) (leAt p 4 4)
          ((List.range 4).map fun (i : Nat) => BitVec.ofNat 64 (leAt p (8 + 8 * i) 8))).complete q n c stOk
            (leBytes 1 (leAt p 1 1) ++ leBytes 1 (leAt p 2 1))).settle)) ∧
    (leAt p 0 1 < 192 → leAt p 1 1 < 64 →
      (HostReady s q 0x22 p n c → p.length = 2 → exec (.threadStop q p) s =
        .next ((u.modCell (leAt p 0 1) fun x => x.freeSlot (leAt p 1 1)).complete q n c stOk []).settle) ∧
      (HostReady s q 0x23 p n c → p.length = 2 → (u.thread (leAt p 0 1) (leAt p 1 1)).state = .failed → exec (.threadFree q p) s =
        .next ((u.modCell (leAt p 0 1) fun x => x.freeSlot (leAt p 1 1)).complete q n c stOk []).settle) ∧
      (HostReady s q 0x24 p n c → p.length = 8 → zeroAt p 2 2 → ∀ r, r = u.signalTo (leAt p 0 1) (leAt p 1 1) (BitVec.ofNat 32 (leAt p 4 4)) →
        exec (.threadSignal q p) s = .next (r.2.complete q n c stOk (leBytes 1 (if r.1 then 0 else 1))).settle)) ∧
    (HostReady s q 8 p n c → s.regHeld p = false → p.length = 6 → regRange (leAt p 0 4) (leAt p 4 2) 256 →
      ∀ r, r = u.readRegs 0 (regRun (leAt p 0 4) (leAt p 4 2)) →
        exec (.regRead q p) s = .next (r.2.complete q n c stOk (r.1.flatMap fun v => leBytes 4 v.toNat)).settle) ∧
    (HostReady s q 9 p n c → s.regHeld p = false → p.length = 8 + 4 * leAt p 4 2 → zeroAt p 6 2 → regRange (leAt p 0 4) (leAt p 4 2) 256 →
      exec (.regWrite q p) s = .next ((u.writeRegs false ((List.range (leAt p 4 2)).map fun (i : Nat) =>
        (leAt p 0 4 + 4 * i, BitVec.ofNat 32 (leAt p (8 + 4 * i) 4)))).complete q n c stOk []).settle)

/-- Commands on the session, power, firmware, keys and RDMA with good parameters. Model's choices: log entries 3, 6, 51, 52, 53, 57 and 61. -/
def Obligations.HostDeviceCommands : Prop :=
  ∀ (q : Nat) (p : List Byte) (n : W32) (c : QCmd) (s u : State), u = s.taken q →
    (HostReady s q 2 p n c → p = [] → exec (.sessionClose q p) s = .next (u.complete q n c stOk []).closeSession.settle) ∧
    (HostReady s q 3 p n c → p = [] → exec (.keepalive q p) s = .next (u.complete q n c stOk (leBytes 8 s.timebase.toNat)).settle) ∧
    (HostReady s q 0x28 p n c → p.length = 32 → leAt p 0 1 = 0 → leAt p 1 1 ≤ 4 → zeroAt p 2 30 → s.power.busy = false →
      (s.power.rung = leAt p 1 1 → exec (.powerSetRung q p) s = .next (u.complete q n c stOk []).settle) ∧
      (s.power.rung ≠ leAt p 1 1 → exec (.powerSetRung q p) s = .next ((u.newJob (.qct q n c) 0 0).2.modPower fun y =>
        { y with target := leAt p 1 1, busy := true, since := s.timebase }).settle)) ∧
    (HostReady s q 0x28 p n c → p.length = 32 → leAt p 0 1 = 1 → leAt p 1 1 ≤ 3 → zeroAt p 2 6 → exec (.powerSetSetpoint q p) s =
      .next (((maskCells (leAt p 8 24)).foldl (fun s i => s.setRegF (rCellSp i) 1 0 (leAt p 1 1)) u).complete q n c stOk []).settle) ∧
    (HostReady s q 0x30 p n c → p.length = 33 → leAt p 32 1 = 0 → exec (.attest q p) s = .next (u.fresh.2.complete q n c stOk
      (u.attestReport (p.take 32) ++ sigField (Config.falconSign u.fresh.1 (signedMsg "QJ-ATTST" (u.attestReport (p.take 32)))) ++ [])).settle) ∧
    (HostReady s q 0x31 p n c →
      (p.length = 8 → leAt p 0 1 = 0 → zeroAt p 1 3 → u.sec.staging = none → leAt p 4 4 ≤ 2 ^ 24 → exec (.fwBegin q p) s =
        .next (((u.modFlash fun f => f.modSlot (1 - u.sec.slot) fun _ => { state := 0, image := [] }).modSec fun x =>
          { x with staging := some { slot := 1 - u.sec.slot, session := n, len := leAt p 4 4 }, committed := false }).complete q n c stOk []).settle) ∧
      (∀ g, u.sec.staging = some g →
        (8 ≤ p.length → p.length ≤ 8192 → leAt p 0 1 = 1 → zeroAt p 1 3 → leAt p 4 4 + (p.length - 8) ≤ g.len → exec (.fwData q p) s =
          .next ((u.modFlash fun f => f.modSlot g.slot fun x => { x with image := memWrite x.image (leAt p 4 4) (p.drop 8) }).complete q n c stOk []).settle) ∧
        (p = [2] → u.flash.check (u.flash.slot g.slot) [0, 1, 2] = 0 → exec (.fwCommit q p) s = .next (((u.modFlash fun f => f.mark g.slot 2).modSec fun x =>
          { x with staging := none, committed := true }).complete q n c stOk []).settle) ∧
        (p = [6] → exec (.fwAbort q p) s = .next (((u.modFlash fun f => f.modSlot g.slot fun _ => { state := 0, image := [] }).modSec fun x =>
          { x with staging := none }).complete q n c stOk []).settle)) ∧
      (p = [3] → u.sec.trial → u.flash.arb < 128 → ∃ v : State, exec (.fwConfirm q p) s = .next (v.complete q n c stOk []).settle ∧
        v.flash.arb = Nat.max u.flash.arb u.sec.svn ∧ v.flash.revoked = u.flash.revoked ||| BitVec.ofNat 4 (u.flash.slot u.sec.slot).revoke ∧
        (v.flash.slot u.sec.slot).state = 4 ∧ v.sec = { u.sec with trial := false } ∧ { v with flash := u.flash, sec := u.sec } = u) ∧
      (p = [4] → (u.flash.slot u.sec.slot).state = 4 → u.flash.arb < 128 → exec (.fwRaise q p) s =
        .next ((u.modFlash fun f => { f with arb := Nat.max f.arb u.sec.svn }).complete q n c stOk []).settle) ∧
      (p.length = 3585 → leAt p 0 1 = 5 → u.regBit rSecCtrl 0 → u.flash.owner = none → ∀ key, key = (p.drop 1).take 1793 →
        sigHolds key (p.drop 2049) "QJ-OWNER" (key ++ leBytes 16 u.flash.uid.toNat) → exec (.ownerEnrol q p) s =
          .next (((u.modFlash fun f => { f with owner := some (Config.shake256 key) }).setRegF rSecCtrl 0 0 0).complete q n c stOk []).settle)) ∧
    (HostReady s q 0x32 p n c → p.length = 64 → leAt p 0 1 ≤ 1 → leAt p 1 1 ≤ 1 → zeroAt p 2 6 →
      u.saKey (2 * leAt p 0 1 + leAt p 1 1) = none → exec (.macsecKey q p) s = .next ((u.modEth fun e => { e with
        keys := tblSet none (2 * leAt p 0 1 + leAt p 1 1) (some ⟨BitVec.ofNat 256 (leAt p 8 32), BitVec.ofNat 64 (leAt p 40 8),
          BitVec.ofNat 32 (leAt p 48 4), BitVec.ofNat 96 (leAt p 52 12)⟩) e.keys,
        txAn := if leAt p 0 1 = 0 then leAt p 1 1 else e.txAn }).complete q n c stOk []).settle) ∧
    (HostReady s q 0x38 p n c → p.length = 32 → zeroAt p 7 1 →
      (leAt p 0 1 = 0 → u.eth.qps.length < 256 → ∃ y : Qp, exec (.rdmaQpCreate q p) s =
        .next ((u.fresh.2.modEth fun e => { e with qps := e.qps ++ [y] }).complete q n c stOk (leBytes 3 y.qpn)).settle ∧
        y.partner = leAt p 4 3 ∧ y.rxPsn = BitVec.ofNat 24 (leAt p 26 3) ∧ y.error = false) ∧
      (leAt p 0 1 = 1 → (u.eth.qps.any fun y => y.qpn == leAt p 1 3) → exec (.rdmaQpDestroy q p) s =
        .next ((u.modEth fun e => { e with qps := e.qps.filter fun y => y.qpn != leAt p 1 3 }).complete q n c stOk (leBytes 3 (leAt p 1 3))).settle)) ∧
    (HostReady s q 0x39 p n c → mrShape p →
      (∀ d, leAt p 0 1 = 0 → u.liveDesc (addrHandle (BitVec.ofNat 64 (leAt p 4 8))) = some d →
        addrIndex (BitVec.ofNat 64 (leAt p 4 8)) + leAt p 12 5 ≤ d.count → ∃ k : W32, exec (.rdmaMrCreate q p) s =
          .next ((u.fresh.2.modEth fun e => { e with mrs := e.mrs ++ [⟨k, natBit (leAt p 1 1) 0, natBit (leAt p 1 1) 1,
            BitVec.ofNat 64 (leAt p 4 8), leAt p 12 5, true⟩] }).complete q n c stOk (leBytes 4 k.toNat)).settle) ∧
      (leAt p 0 1 = 1 → (u.eth.mrs.any fun y => y.rkey.toNat == leAt p 20 4) → exec (.rdmaMrDestroy q p) s =
        .next ((u.modEth fun e => { e with mrs := e.mrs.filter fun y => y.rkey.toNat != leAt p 20 4 }).complete q n c stOk (leBytes 4 (leAt p 20 4))).settle))

/-- Maintenance of all lines or of a range; INVALIDATE and UNLOCK line by line; SCALER_FRAME_INVALIDATE drops the frame's lines and no byte changes.
Model's choices: log entries 19 and 25. -/
def Obligations.CacheMaintenance : Prop :=
  (∀ (c : Nat) (s : State),
    (∀ x ∈ ([(.ccClean, 0), (.ccInvalidate, 1), (.ccCleanInv, 2), (.ccPreloadLock, 3), (.ccUnlock, 4)] : List ((Nat → Instr) × Nat)),
      s.maintReady c x.2 → (s.cc c).maint.begun = false →
        (s.maintErr (s.cc c).maint ≠ 0 → ∃ t, exec (x.1 c) s = .next t ∧
          CellStep c (fun y => { y with cc := { y.cc with maint := { y.cc.maint with begun := true, done := true, err := s.maintErr y.cc.maint } } }) s t) ∧
        ((s.cc c).maint.all → ∃ t, exec (x.1 c) s = .next t ∧ (t.cc c).maint.done ∧
          (x.2 = 1 → (∀ l ∈ (s.cc c).all, l.upset < 3) → (t.cc c).all = [] ∧ SameMemory s t ∧ SameOpmem s t) ∧
          (x.2 = 4 → (t.cc c).all = (s.cc c).all.map (fun l => { l with lock := false }) ∧ SameMemory s t ∧ SameOpmem s t)) ∧
        ((s.cc c).maint.all = false → s.maintErr (s.cc c).maint = 0 → ∃ t, exec (x.1 c) s = .next t ∧
          t = State.maintGo c (17 * ((s.cc c).maint.count + 2)) (s.maintBegin c))) ∧
    (∀ d e v, s.liveDesc (addrHandle (s.cc c).maint.addr) = some d →
      (s.cc c).maint.plot * eppOf d < addrIndex (s.cc c).maint.addr + (s.cc c).maint.count → (s.cc c).maint.got = none → (s.cc c).maint.await = false →
      s.lookup c d (s.cc c).maint.plot = (.entry e, v) → e.pstate ≠ 3 → e.dev = v.dev →
      (v.landing e.lnd).recAt e.frame = some { handle := addrHandle (s.cc c).maint.addr, plot := (s.cc c).maint.plot, gen := e.gen } →
      s.maintPlot c = ((v.maintAct c (s.cc c).maint.op
        (fun la => inFrame e.lnd e.frame la &&
          v.lineInRange (addrHandle (s.cc c).maint.addr) (addrIndex (s.cc c).maint.addr) (s.cc c).maint.count la)
        (frameRange d e.lnd e.frame (s.cc c).maint.plot (addrIndex (s.cc c).maint.addr) (s.cc c).maint.count)).maintNext c, true)) ∧
    (∀ has : Nat → Bool, (∀ l ∈ (s.cc c).all, l.upset < 3) →
      ((s.maintInvalidate c has).cc c).all = (s.cc c).all.filter (fun l => !has l.la) ∧ SameMemory s (s.maintInvalidate c has)) ∧
    (∀ has : Nat → Bool, ((s.maintUnlock c has).cc c).all = (s.cc c).all.map (fun l => if has l.la then { l with lock := false } else l) ∧
      SameMemory s (s.maintUnlock c has)) ∧
    ((s.cc c).maint.busy → (s.cc c).maint.done → (∀ i ∈ (s.cc c).maint.fills, s.req i = none) →
      ∃ t, exec (.ccMaintComplete c) s = .next t ∧
        CellStep c (fun y => { y with cc := { y.cc with maint := { y.cc.maint with busy := false, begun := false, done := false, fills := [] } } }) s t)) ∧
  (∀ (c l f : Nat) (s : State), c < 192 → (s.cell c).parked = false → s.frameDue c l f →
    (∀ x ∈ (s.cell c).scInv, ¬(x.1 = l ∧ x.2.1 = f)) → s.fillsOut c = [] → (∀ x ∈ (s.cc c).all, x.upset < 3) →
    ∃ t, exec (.scalerFrameInvalidate c l f) s = .next t ∧ (t.cc c).all = (s.cc c).all.filter (fun x => !inFrame l f x.la) ∧
      (∀ d, d ≠ c → t.cc d = s.cc d) ∧ SameMemory s t ∧ SameOpmem s t ∧ t.frameDue c l f = false)

/-- Requests served, scrub reads, zero-fills, failure; a load answered and a store applied at the frame that holds its plot. Model's choices: log
entries 22, 30, 69, 70 and 76. -/
def Obligations.LandingEvents : Prop :=
  (∀ (l : Nat) (s : State),
    (∀ r id, s.req id = some r → r.stage = .landing l → s.active → s.mayServe l r →
      exec (.landingRequest l id) s = .next (s.serve r).settle) ∧
    (s.mayScrub l → (s.landing l).scrubOn = false →
      ((s.landing l).scrubbed = some (s.scrubPeriod l) → exec (.scrubRead l) s = .next s) ∧
      ((s.landing l).scrubbed ≠ some (s.scrubPeriod l) → (s.landing l).isRetired 0 = false → tblGet 0 (l * landingGranules) s.memUpset = 0 →
        l < s.landings.length → ∃ t, exec (.scrubRead l) s = .next t ∧ (t.landing l).scrubOn ∧
          (t.landing l).scrubbed = some (s.scrubPeriod l) ∧ (t.landing l).scrub = 1 ∧ t.mem = s.mem)) ∧
    (∀ g, s.mayScrub l → (s.landing l).scrubOn → g = s.scrubNext l → (s.landing l).scrub ≤ g → g + 1 < landingGranules →
      (s.landing l).isRetired (g / 2 ^ 15) = false → tblGet 0 (l * landingGranules + g) s.memUpset = 0 → l < s.landings.length →
      ∃ t, exec (.scrubRead l) s = .next t ∧ (t.landing l).scrub = g + 1 ∧ t.mem = s.mem ∧
        (s.Good → t.cnt (kLnd l 6) = s.cnt (kLnd l 6) + 1)) ∧
    (∀ f, s.Good → s.active → f ∈ (s.landing l).zero → s.invalDone l f → l < s.landings.length →
      ∃ t, exec (.frameZeroFill l f) s = .next t ∧
      (∀ a, l * 2 ^ 36 + f * 2 ^ 21 ≤ a → a < l * 2 ^ 36 + (f + 1) * 2 ^ 21 → memGet t.mem a = 0) ∧
      (∀ a, (a < l * 2 ^ 36 + f * 2 ^ 21 ∨ l * 2 ^ 36 + (f + 1) * 2 ^ 21 ≤ a) → memGet t.mem a = memGet s.mem a) ∧
      (t.landing l).zero = (s.landing l).zero.filter (· != f)) ∧
    (l < 12 → s.power.phase = .running → s.power.rung ≠ 4 →
      exec (.landingFail l) s = .next (s.fresh.2.failLanding l (some (s.fresh.1.toNat % 64))).settle)) ∧
  (∀ (s : State) (r : Req) (f : FrameRec), (s.landing r.lnd).recAt r.frame = some f → f.handle = r.handle → f.plot = r.plot → f.gen = r.gen →
    s.moveFrom r.lnd r.frame = none → s.moveTo r.lnd r.frame = none → s.req r.id = some r → (∀ d k, r.who ≠ .dev d k) → r.wb = false →
    tblGet 0 r.la s.memUpset = 0 → memWf s.mem →
    (r.op = .load → s.deadPc r.la = false → ∃ q, (s.serve r).req r.id = some q ∧
      q.stage = .answered (.data (s.granule r.la) (s.granulePoison r.la)) ∧ SameMemory s (s.serve r)) ∧
    (r.op = .store → ∃ q, (s.serve r).req r.id = some q ∧ q.stage = .answered .ack ∧
      (∀ i, i < 64 → byteAt (granBytes ((s.serve r).granule r.la)) i =
        if r.en.getLsbD i then byteAt (granBytes r.data) i else byteAt (granBytes (s.granule r.la)) i) ∧
      (∀ k, k ≠ r.la → (s.serve r).granule k = s.granule k)))

/-- The placement interval and its review, sweeps, rebalancing, and the steps of a move at its source. Model's choices: log entries 45, 46 and 47. -/
def Obligations.PlacementEvents : Prop :=
  (∀ s : State,
    (s.power.phase = .running → s.power.rung < 3 → s.power.busy = false → s.scaler.due = [] →
      exec .placementInterval s =
        .next ((((s.closeInterval).modScaler fun z => { z with due := s.others }).tellAll .reportAsk).reviewWhenDue true).settle) ∧
    ((s.closeInterval).scaler.interval = s.scaler.interval + 1 ∧ (s.closeInterval).scaler.left = s.budget ∧
      ∀ l, l < s.landings.length → ((s.closeInterval).landing l).servedLast = (s.landing l).served - (s.landing l).servedFrom ∧
        ((s.closeInterval).landing l).servedFrom = (s.landing l).served) ∧
    (s.placementFrozen → ∀ (u : State) (k : Picking),
      u = s.modScaler (fun z => { z with trafficLast := z.gather, gather := [], due := [] }) →
      k = u.pickRetire (u.carriedOver ⟨[], u.fab.memberList.map fun d => (d, (u.landingsOf d).2.1), u.fab.memberList.map fun d => (d, (u.landingsOf d).1), []⟩) →
      s.review = (u.modScaler fun z => { z with queue := z.queue ++ k.out }).startQueued) ∧
    (∀ h x, s.scaler.sweeps.find? (fun y => y.handle == h) = some x → x.waiting = [] → (∀ m ∈ s.fab.members, m.2 ≠ 2) → ∀ u : State,
      u = (s.modScaler fun z => { z with
        sweeps := z.sweeps.filter fun y => y.handle != h,
        base := (z.startGen.filter fun y => y.1 / 2 ^ 40 == h).foldl (fun t y => tblSet 0 y.1 y.2 t) (z.base.filter fun y => y.1 / 2 ^ 40 != h),
        startGen := z.startGen.filter fun y => y.1 / 2 ^ 40 != h }).count (kPlc 5) 1 →
      (∀ p e, u.mapEntry h p = some e → u.advance h p e.gen < 16384) → exec (.sweepComplete h) s = .next (u.startQueued).settle) ∧
    (∀ c d out rest, s.active → s.cellUp c → (s.cell c).queue = [] → s.donor c = some d →
      (out, rest) = takeLast (ceilDiv (((s.cell d).queue ++ (s.cell d).held).filter fun q => q.it.kind != 2).length 2) ((s.cell d).queue ++ (s.cell d).held) →
      exec (.workItemRebalance c) s = .next (out.foldl (fun s q => (s.moveCost d q).giveItem c q)
        (s.modCell d fun x => CellSt.refill { x with queue := [], held := rest })))) ∧
  (∀ (h p : Nat) (s : State) (m : Move), s.move h p = some m → m.req.src.1 = s.dev → m.unacked = 0 → s.active →
    (m.phase = .copying → replicaMove m.req → exec (.moveCopyDone h p) s =
      .next (s.modMove h p fun x => { x with phase := .window }).settle) ∧
    (m.phase = .copying → replicaMove m.req = false → m.written.length ≤ 128 → s.mayCopy m.req plotBytes →
      exec (.moveCopyDone h p) s = .next (s.openWindow m).settle) ∧
    (m.phase = .copying → replicaMove m.req = false → 128 < m.written.length → s.mayCopy m.req (4096 * m.written.length) →
      exec (.moveCopyDone h p) s =
        .next (((s.modMove h p fun x => { x with phase := .recopied, written := [] }).copyWhere m.req (subBlock m.written)).settle)) ∧
    (m.phase = .recopied → 128 < m.written.length → exec (.moveCopyDone h p) s = .next (((s.abandonOver m.req).sealStep).startQueued).settle) ∧
    (m.phase = .window → s.stalledHere m.req = false → ∀ u : State,
      (replicaMove m.req = false → u = (s.moveParties m.req).foldl (fun s d => s.tell d (.moveFlip m.req)) s →
        exec (.moveFlip h p) s = .next (((u.onMoveFlip m.req).flipSource m.req).settle)) ∧
      (replicaMove m.req → u = (s.moveParties m.req).foldl (fun s d => s.tell d (.moveFlip m.req)) (s.count (kPlc 0) 1) →
        exec (.moveFlip h p) s = .next ((u.onMoveFlip m.req).settle))) ∧
    (m.phase = .flipped → s.allAcked m → exec (.moveInvalidateDone h p) s = .next ((((s.moveParties m.req).foldl (fun s d => s.tell d (.moveInv h p))
      (((s.releaseFrame m.req.src.2.1 m.req.src.2.2).modLanding m.req.src.2.1 fun x =>
        { x with reserved := x.reserved.filter (· != m.req.src.2.2), inval := x.inval.filter fun y => y.1 != m.req.src.2.2 }).count (kPlc 0) 1)).onMoveInv
          h p).settle)))

/-- What each kind of flit does to its link; links come up (×2 by lanes 0–1 or 2–3), speak and go down. Model's choices: log entries 54. -/
def Obligations.LinkFlits : Prop :=
  (∀ (l : Nat) (f : Flit) (s : State), s.Good → s.fabOn → l < 32 → l < s.fab.links.length → (s.link l).alive →
    (∀ x ∈ ([(.dataFlit, flData), (.idleFlit, flIdle), (.nak, flNak), (.heartbeat, flHeartbeat), (.beacon, flBeacon), (.wake, flWake), (.resume, flResume)] :
        List ((Nat → Flit → Instr) × Nat)), flKind f = x.2 → flGood f = false → ∃ t, exec (x.1 l f) s = .next t ∧
          (t.link l).lastGood = (s.link l).lastGood ∧ t.fab.router = s.fab.router ∧ SameMemory s t) ∧
    (FlitReady s l flIdle f → ∃ t, exec (.idleFlit l f) s = .next t ∧ (t.link l).lastGood = s.timebase ∧ t.fab.router = s.fab.router ∧
      ((s.link l).recovering = false → (t.link l).replay = replayAfter (flAck f) (s.link l).replay)) ∧
    (FlitReady s l flData f → (flSeq f = (s.link l).rxSeq → (s.link l).state ≠ .foreign → ∃ t, exec (.dataFlit l f) s = .next t ∧
        (t.link l).rxSeq = ((s.link l).rxSeq + 1) % 4096 ∧ t.fab.router = s.fab.router ++
          (unitPackets 32 ((if flCont f then (s.link l).part.getD (flVc f) [] else []) ++ (List.range (flUnits f)).map (flUnit f))).1) ∧
      (flSeq f ≠ (s.link l).rxSeq → ∃ t, exec (.dataFlit l f) s = .next t ∧ (t.link l).rxSeq = (s.link l).rxSeq ∧ t.fab.router = s.fab.router ∧
        ∃ g, (t.link l).sent = (s.link l).sent ++ [g] ∧ flKind g = flNak)) ∧
    (FlitReady s l flNak f → (s.link l).nakSeq ≠ some (flAck f) → (s.link l).recovering = false → ∃ t, exec (.nak l f) s = .next t ∧
      (t.link l).naks = 1 ∧ (t.link l).sent = (s.link l).sent ++ (replayAfter (flAck f) (s.link l).replay).map (·.2)) ∧
    (FlitReady s l flHeartbeat f → ∃ t, exec (.heartbeat l f) s = .next t ∧ (t.link l).farDev = flBody f 0 2 ∧ (t.link l).farKeeper = flBody f 10 2 ∧
      (t.link l).farValid ∧ ((s.link l).state = .up ∨ (s.link l).state = .foreign → ((t.link l).state = .foreign ↔
        (flBody f 2 4 ≠ (s.reg rFabSpace).toNat ∨ s.fab.member (flBody f 0 2) = 2)))) ∧
    (FlitReady s l flBeacon f → (s.link l).state = .up → ∃ t, exec (.beacon l f) s = .next t ∧ (t.link l).state = .parked) ∧
    (FlitReady s l flWake f → (s.link l).state = .beacon → exec (.wake l f) s = .next (s.flitIn l f).wakeByUse) ∧
    (FlitReady s l flResume f → (s.link l).state = .beacon → (s.link l).resumeSent → ∃ t, exec (.resume l f) s = .next t ∧ (t.link l).state = .up)) ∧
  (∀ (l : Nat) (s : State), s.fabOn → l < 32 → l < s.fab.links.length →
    (∀ n, 1 ≤ n → n < 16 → (s.reg rFabLinkEn).getLsbD l → ((s.link l).state = .training ∨ (s.link l).state = .down) →
      ∃ t, exec (.linkTrained l n) s = .next t ∧ (t.link l).state = .up ∧
        (t.link l).width = (if n = 15 then 0 else if n % 4 = 3 ∨ n / 4 = 3 then 1 else 2) ∧
        (t.link l).txSeq = 0 ∧ (t.link l).rxSeq = 0 ∧ (t.link l).inUse = List.replicate 8 0 ∧ (t.link l).lastGood = s.timebase) ∧
    ((s.link l).alive → (s.link l).lastGood.toNat + 3000 ≤ s.timebase.toNat →
      exec (.linkLivenessTimeout l) s = .next (s.linkDown l)) ∧
    ((s.link l).state = .up ∨ (s.link l).state = .foreign → ∃ t g, exec (.heartbeatSend l) s = .next t ∧ (t.link l).sent = (s.link l).sent ++ [g] ∧
      flKind g = flHeartbeat ∧ flGood g ∧ (t.link l).lastBeat = s.timebase) ∧
    ((s.link l).state = .beacon → ∃ t g, exec (.heartbeatSend l) s = .next t ∧ (t.link l).sent = (s.link l).sent ++ [g] ∧
      flKind g = flBeacon ∧ flGood g))

/-- The router's choices, the ends of holds, and what requests of other devices do. Model's choices: log entries 36 and 56. -/
def Obligations.PacketsAndRequests : Prop :=
  (∀ (p : Packet) (s : State), s.fabOn →
    (s.fab.router.contains p →
      (p.dst = s.dev → p.typ ≠ pkMemb → s.power.rung = 0 → s.power.busy = false →
        exec (.packetRoute p) s = .next ((s.dropRouted p).arrivePk p).settle) ∧
      (∀ l, p.dst ≠ s.dev → s.bestPath p (pkVc p) = some l → (s.link l).takesPk p → s.outranked p l = false → p.src ≠ s.dev → p.hops < 15 →
        exec (.packetRoute p) s = .next (((s.dropRouted p).count (kFab 0) 1).sendData l (pkVc p) { p with hops := p.hops + 1 })) ∧
      (p.dst ≠ s.dev → s.bestPath p (pkVc p) = none → p.hops < 15 → p.typ ≠ pkMemb → s.fab.member p.dst ≠ 2 → ∃ t, exec (.packetRoute p) s = .next t ∧
        t.fab.router = s.fab.router.erase p ∧ t.fab.held = s.fab.held ++ [⟨p, s.timebase, (s.parkedPath p).isSome⟩])) ∧
    (∀ h, s.fab.held.find? (fun h => h.p == p && !h.parked) = some h → h.since.toNat + 1000 * s.regF rFabDrain 31 16 ≤ s.timebase.toNat →
      exec (.norouteHoldExpiry p) s =
        .next ((((s.modFab fun f => { f with held := f.held.erase h }).count (kFab 3) 1).fabEvent (srcLink 0) 6).bounce p)) ∧
    (∀ h, s.fab.held.find? (fun h => h.p == p && h.parked) = some h → h.since.toNat + 1000000 ≤ s.timebase.toNat →
      exec (.parkedHoldExpiry p) s =
        .next ((((s.modFab fun f => { f with held := f.held.erase h }).count (kFab 1) 1).fabEvent (srcLink 0) 8).bounce p))) ∧
  (∀ (p : Packet) (s : State),
    (∀ x ∈ ([(.load, pkLoad, .load), (.store, pkStore, .store), (.add, pkAdd, .add)] : List ((Packet → Instr) × Nat × ReqOp)), RequestReady s p x.2.1 →
      exec (x.1 p) s = .next ((s.takeArrived p).landPacket p x.2.2)) ∧
    (∀ e, RequestReady s p pkWalk → s.mapEntry (uBytes (pkUnit p 0) 0 3) (uBytes (pkUnit p 0) 3 5) = some e → ∃ t, exec (.walk p) s = .next t ∧
      t.fab.router = s.fab.router ++ [s.packet p.src pkWalkResp p.tag [entryBits e]] ∧ SameMemory s t) ∧
    (∀ m : Move, RequestReady s p pkMove → s.move (uBytes (pkUnit p 0) 0 3) (uBytes (pkUnit p 0) 3 5) = some m → m.phase ≠ .flipped →
      m.req.dst = (s.dev, uBytes (pkUnit p 0) 10 1 % 16, uBytes (pkUnit p 0) 11 2 % 2 ^ 15) → memWf s.mem → ∃ t, exec (.move p) s = .next t ∧
        t.granule (laOf (uBytes (pkUnit p 0) 10 1 % 16) (uBytes (pkUnit p 0) 11 2 % 2 ^ 15) (uBytes (pkUnit p 0) 13 3 % 2 ^ 21)) =
          unitsData (p.body.drop 1)) ∧
    (∀ x ∈ ([(.load, pkLoad), (.store, pkStore), (.add, pkAdd), (.walk, pkWalk), (.move, pkMove)] : List ((Packet → Instr) × Nat)),
      s.active → p.typ = x.2 → s.fab.arrived.contains p → s.fab.member p.src = 2 →
        exec (x.1 p) s = .next (((s.takeArrived p).send (s.packet p.src pkFenced p.tag [])).count (kFab 5) 1)) ∧
    (∀ src m, s.fabOn → s.fab.member src ≠ 2 → (s.fab.state = .member ∨ s.fab.state = .joining) → s.power.rung = 0 → s.power.busy = false →
      exec (.mgmt src m) s = .next (s.mgmtIn src m).settle))

/-- What each membership message does to the device that it reaches. Model's choices: log entries 36, 54 and 55. -/
def Obligations.MembershipMessages : Prop :=
  ∀ (p : Packet) (s u : State), u = s.takeArrived p →
    (MembReady s p mbProbe → s.fab.state = .member → mbF p 1 2 = s.dev → ∃ t, exec (.probe p) s = .next t ∧ t.fab.router = s.fab.router ++
      [s.memb p.src mbProbeResp 0 [(1, 2, s.dev), (3, 4, mbF p 3 4), (7, 4, s.fab.epoch.toNat)]]) ∧
    (∀ y, MembReady s p mbProbeResp → s.fab.probes.find? (fun y => y.dev == mbF p 1 2 && y.num.toNat == mbF p 3 4) = some y → ∃ t,
      exec (.probeResp p) s = .next t ∧ t.fab.probes = s.fab.probes.filter (fun z => z.dev != y.dev) ∧
      (∀ j, y.forJoin = some j → t.fab.router = s.fab.router ++ [s.memb (mbF j 1 2) mbJoinResp 0 [(1, 1, 2), (2, 4, 0)]])) ∧
    (MembReady s p mbRecover → ∀ l, l = mbF p 3 1 % 32 → l < s.fab.links.length → ∃ t, exec (.recover p) s = .next t ∧ (t.link l).answered ∧
      (t.link l).part = List.replicate 8 [] ∧ ∃ q, t.fab.router = s.fab.router ++ [q] ∧ q.dst = p.src) ∧
    (∀ l, MembReady s p mbRecoverResp → lowest (fun l => (s.link l).recovering && (s.link l).farDev == p.src && (s.link l).farLink == mbF p 3 1) 32 0 = some l →
      ∃ t, exec (.recoverResp p) s = .next t ∧ (t.link l).replay = [] ∧ (t.link l).recovering = false) ∧
    (MembReady s p mbLinkDown → exec (.membLinkDown p) s = .next ((u.send (s.packet p.src pkAck p.tag [])).downHeard (mbF p 1 2))) ∧
    (MembReady s p mbEpoch → s.fab.seenEpochs.contains (BitVec.ofNat 32 (mbF p 1 4)) → exec (.epoch p) s = .next u) ∧
    (MembReady s p mbEpoch → s.fab.seenEpochs.contains (BitVec.ofNat 32 (mbF p 1 4)) = false → s.fab.state = .member ∨ s.fab.state = .joining →
      newer 32 (BitVec.ofNat 32 (mbF p 1 4)).toNat s.fab.epoch.toNat → ∃ v : State, exec (.epoch p) s =
        .next (v.installEpoch (BitVec.ofNat 32 (mbF p 1 4)) (mbF p 5 1) (mbF p 6 2) (mbF p 8 2)) ∧
        v = u.flood (BitVec.ofNat 32 (mbF p 1 4)) (mbF p 5 1) (mbF p 6 2) (mbF p 8 2)) ∧
    (MembReady s p mbJoin → s.isKeeper → s.fab.probes = [] →
      (s.fab.member (mbF p 1 2) = 1 → exec (.membJoin p) s = .next (u.startProbe (mbF p 1 2) (some p) false)) ∧
      (s.fab.member (mbF p 1 2) ≠ 1 → exec (.membJoin p) s = .next (u.decideJoin p))) ∧
    (MembReady s p mbJoinResp → s.fab.state = .joining →
      (mbF p 1 1 = 1 → ∃ t, exec (.joinResp p) s = .next t ∧ t.fab.state = .member ∧ t.fab.keeper = p.src ∧ t.fab.joinResult = 1) ∧
      (mbF p 1 1 ≠ 1 → ∃ t, exec (.joinResp p) s = .next t ∧ t.fab.state = (if s.fab.everMember then .expelled else .detached) ∧
        t.fab.joinResult = mbF p 1 1 % 8)) ∧
    (s.fabOn → p.typ = pkFenced → s.fab.arrived.contains p → s.byTag p = none → s.walks.all (fun w => w.tag != p.tag) →
      s.scaler.moves.all (fun m => m.tag != p.tag || m.unacked == 0) → ∃ t, exec (.fenced p) s = .next t ∧ t.fab.state = s.fab.state ∧
        (s.Good → t.cnt (kFab 2) = s.cnt (kFab 2) + 1)) ∧
    (s.fabOn → p.typ = pkFenced → s.fab.arrived.contains p → (s.byTag p).isSome → s.fab.state = .member →
      exec (.fenced p) s = .next u.expel)

/-- Probes, reports, drains and joins without an answer; FOUND and JOIN. Model's choices: log entries 55. -/
def Obligations.MembershipEvents : Prop :=
  ∀ (x : Nat) (s : State), s.fabOn →
    (∀ y, s.expired.find? (fun y => y.dev == x) = some y → s.fab.state = .member → (∀ z ∈ s.expired, x ≤ z.dev) → y.takeover = false → y.forJoin = none →
      exec (.probeTimeout x) s = .next ((s.modFab fun f => { f with probes := f.probes.filter fun z => z.dev != x, losses := [] }).change 2 x)) ∧
    (∀ r, s.fab.reports.find? (fun r => r.dev == x) = some r → r.at_.toNat + 1000 * s.regF rFabProbe 7 0 ≤ s.timebase.toNat → s.others.filter s.hasPath = [] →
      exec (.linkDownReportTimeout x) s = .next (s.modFab fun f => { f with reports := f.reports.filter fun y => y.dev != x }).expel) ∧
    (∀ w rest, s.fab.lossTimes = w :: rest → w.toNat + 1000 * s.regF rFabDrain 15 0 ≤ s.timebase.toNat → (∀ r ∈ s.reqs, r.stage ≠ .remote) →
      exec .drainTimeout s = .next (s.modFab fun f => { f with lossTimes := rest }).settle) ∧
    (∀ w, s.fab.joinAt = some w → s.fab.state = .joining → w.toNat + 1000000 ≤ s.timebase.toNat → ∃ t, exec .joinTimeout s = .next t ∧ t.fab.joinResult = 5 ∧
      t.fab.joinAt = none ∧ t.fab.state = (if s.fab.everMember then .expelled else .detached) ∧ { t with fab := s.fab } = s) ∧
    (s.fab.state = .detached → s.fab.idSet → ∃ t, exec .fabFound s = .next t ∧ t.fab.state = .member ∧ t.fab.epoch = 1 ∧ t.fab.keeper = s.dev ∧
      t.fab.member s.dev = 1 ∧ (∀ d, d ≠ s.dev → t.fab.member d = 0) ∧ { t with fab := s.fab } = s) ∧
    (∀ l, lowest (fun l => ((s.link l).state == .up || (s.link l).state == .foreign) && (s.link l).farValid) 32 0 = some l → s.fab.idSet →
      s.fab.state = .detached → s.fab.everMember = false → ∃ t, exec .fabJoin s = .next t ∧ t.fab.state = .joining ∧ t.fab.joinAt = some s.timebase ∧
        t.fab.router = s.fab.router ++ [s.memb (s.link l).farKeeper mbJoin 0
          [(1, 2, s.dev), (3, 4, (s.reg rFabSpace).toNat), (7, 1, 1), (8, 4, s.fab.epoch.toNat)]])

/-- Session packets, opening, acknowledgements, resending, the keepalive and the event queue. Model's choices: log entries 50. -/
def Obligations.SessionTransport : Prop :=
  ∀ (s : State), s.portOpen →
    (∀ (d : Datagram) h, qctHdr d.bytes = some h → h.opc = 1 → h.ackOnly = false →
      exec (.qctPacket d) s = .next ((s.count (kEth 0) 1).modEth fun e => { e with opens := e.opens ++ [d] })) ∧
    (∀ (d : Datagram), qctHdr d.bytes = none → exec (.qctPacket d) s = .next ((s.count (kEth 0) 1).count (kEth 2) 1)) ∧
    (∀ (d : Datagram) h x, qctHdr d.bytes = some h → h.opc ≠ 1 → s.eth.session = some x → s.eth.displaced = none → x.num ≠ h.session →
      exec (.qctPacket d) s = .next ((s.count (kEth 0) 1).count (kEth 12) 1)) ∧
    (∀ (d : Datagram) h x u, qctHdr d.bytes = some h → h.opc ≠ 1 → h.ackOnly = false → s.eth.session = some x → s.eth.displaced = none →
      x.ip = d.srcIp → x.port = d.srcPort → x.num = h.session → h.qid < x.q → h.qid ≠ 0x80 →
      u = ((s.count (kEth 0) 1).modEth fun e => { e with session := e.session.map fun x => { x with lastRx := s.timebase } }).ackArrive h.qid h.ackno →
      exec (.qctPacket d) s = .next (u.cmdArrive h.qid x.w h)) ∧
    (∀ (d : Datagram) rest h q p, s.eth.opens = d :: rest → qctHdr d.bytes = some h → h.qid = q → h.payload = p →
      exec (.sessionOpen q p) s = .next ((s.modEth fun e => { e with opens := rest }).sessionOpen d h)) ∧
    (∀ (d : Datagram) h, s.eth.session = none → h.qid = 0 → h.seq = 0 → h.syn → h.payload.length = 4 → leAt h.payload 3 1 ≤ 1 →
      1 ≤ leAt h.payload 0 1 → leAt h.payload 0 1 ≤ 64 → 1 ≤ leAt h.payload 1 2 → leAt h.payload 1 2 ≤ 256 → ∃ x, (s.sessionOpen d h).eth.session = some x ∧
        x.ip = d.srcIp ∧ x.port = d.srcPort ∧ x.q = leAt h.payload 0 1 ∧ x.num ≠ 0 ∧ x.num ≠ s.eth.lastSession ∧ (x.queue 0).rxNext = 1 ∧ x.anyCmd = false) ∧
    (∀ q c, s.dueCompletion q = some c → exec (.qctRetransmit q) s = .next (((s.sendCompletion q c true).count (kEth 9) 1).modQueue q fun y =>
      { y with held := y.held.map fun z => if z.seq = c.seq then { z with sentAt := s.timebase, rto := Nat.min 64000 (2 * z.rto) } else z })) ∧
    (∀ q x, s.eth.session = some x → q < x.q → (x.queue q).ackDue → exec (.ackonly q) s = .next (s.sendAckOnly q)) ∧
    (∀ x, s.eth.session = some x → x.lastRx.toNat + 3000000 * s.regF rQctTimers 15 0 ≤ s.timebase.toNat → ∃ t, exec .keepaliveLoss s = .next t ∧
      t.eth.session = none ∧ t.eth.lastSession = x.num) ∧
    (∀ x, s.eth.session = some x → (s.eth.events.filter fun e => e.seq.isNone) ≠ [] → (s.cnt (kEth 1)).toNat + 1 < 2 ^ 64 → ∃ t y, exec .eventSend s = .next t ∧ t.eth.session = some y ∧
      y.evSeq = x.evSeq + 1 ∧ t.eth.events = (s.eth.events.filter fun y => y.seq.isSome) ++
        ((s.eth.events.filter fun e => e.seq.isNone).take 64).map (fun y => { y with seq := some x.evSeq }) ++ (s.eth.events.filter fun y => y.seq.isNone).drop 64)

/-- Frames by kind, the port up and down, RoCEv2 requests, and a CNP. Model's choices: log entries 52 and 53. -/
def Obligations.PortFramesAndRdma : Prop :=
  (∀ (s : State) (f : Frame),
    (s.portOpen → f.fcsOk = false → exec (.frameReceive f) s = .next (((s.count (kEth 0) 1).errBump rErrEthFcs).seeClass 0)) ∧
    (s.portOpen → f.fcsOk → (f.len < 64 ∨ 9216 < f.len) → exec (.frameReceive f) s = .next ((s.count (kEth 0) 1).count (kEth 2) 1)) ∧
    (s.portOpen → f.fcsOk → 64 ≤ f.len → f.len ≤ 9216 → f.tags = [] → f.sec = none → ∀ u, u = s.count (kEth 0) 1 → u.regBit rEthCfg 12 = false →
      ∀ v, v = u.modEth (fun e => { e with macsecNow := false }) →
      (f.body = .pause → exec (.frameReceive f) s = .next (v.count (kEth 4) 1)) ∧
      (∀ p, f.body = .pfc p → exec (.frameReceive f) s = .next (v.pfcArrive p)) ∧
      (f.body = .arp (s.reg rEthIp4) → v.regBit rEthCfg 15 → v.reg rEthIp4 = s.reg rEthIp4 →
        exec (.frameReceive f) s = .next (v.transmit 0 (.arpReply (s.reg rEthIp4)))) ∧
      (f.body = .other → exec (.frameReceive f) s = .next (v.count (kEth 2) 1)) ∧
      (∀ src dst b sp dp, f.body = .ip false src dst false false (.udp sp dp false b) → v.regBit rEthCfg 15 → dst = v.ownIp false →
        dp.toNat = v.regF rQctCfg 15 0 → exec (.frameReceive f) s = .next (v.qctArrive ⟨src, sp, b⟩))) ∧
    (∀ p, s.portOpen → exec (.pfcFrame p) s = .next ((s.count (kEth 0) 1).pfcArrive p)) ∧
    (∀ p, (s.count (kEth 5) 1).regBit rEthCfg 3 → s.eth.txq = [] → ∃ t, t = s.pfcArrive p ∧ t.eth.paused = p &&& BitVec.ofNat 8 ((s.count (kEth 5) 1).regF rEthCfg 11 4)) ∧
    (∀ n, s.portPowered → s.regBit rEthCfg 0 → 4 ≤ n → s.eth.link ≠ 2 → ∃ t, exec (.portUp n) s = .next t ∧ t.eth.link = 2 ∧
      t.eth.slow = (decide (n < 8) || s.regBit rEthCfg 1) ∧ t.eth.paused = 0 ∧ { t with eth := s.eth } = s) ∧
    (s.eth.link = 2 → ∃ t, exec .portDown s = .next t ∧ t.eth.link = 0 ∧ { t with eth := s.eth } = s)) ∧
  (∀ (s : State) (r : RdmaReq) (q : Qp) (u v : State), s.portOpen → u = s.count (kEth 0) 1 → u.regBit rEthCfg 14 →
    u.eth.qps.find? (fun y => y.qpn == r.qpn) = some q →
    (r.op = .read → q.error = false → q.rxPsn ≠ r.psn → exec (.rdmaRead r) s = .next (u.count (kEth 2) 1)) ∧
    (q.error = false → q.rxPsn = r.psn → r.ecn = false →
      (r.op = .read → v = u.modQp q.qpn (fun y => { y with rxPsn := y.rxPsn + BitVec.ofNat 24 (Nat.max 1 (ceilDiv r.len 4096)) }) →
        (v.rdmaOk r = none → exec (.rdmaRead r) s = .next (v.rdmaNak 0 q r.psn true)) ∧
        (∀ m d, v.rdmaOk r = some (m, d) → exec (.rdmaRead r) s = .next (((v.newJob (.rdma 0 r) d.handle 1).2.hostAccess v.eth.nextJob .load d
          (rdmaStart d m r.va) r.len r.data).settle))) ∧
      (r.op = .write → v = u.modQp q.qpn (fun y => { y with rxPsn := y.rxPsn + BitVec.ofNat 24 (Nat.max 1 (ceilDiv r.data.length 4096)) }) →
        (v.rdmaOk r = none → exec (.rdmaWrite r) s = .next (v.rdmaNak 0 q r.psn true)) ∧
        (∀ m d, v.rdmaOk r = some (m, d) → exec (.rdmaWrite r) s = .next (((v.newJob (.rdma 0 r) d.handle 1).2.hostAccess v.eth.nextJob .store d
          (rdmaStart d m r.va) r.data.length r.data).settle)))) ∧
    (∀ n, s.regBit rEthCfg 14 → exec (.cnpReceive n) s = .next (u.modQp n fun y => { y with slowed := y.slowed + 1 })))

/-- The supply and reset sequence, the boot chain, and the debug unlock. Model's choices: log entries 6, 59, 60 and 62. -/
def Obligations.SupplyAndBoot : Prop :=
  (∀ s : State,
    (s.power.phase = .unpowered → ∃ t, exec .powerOn s = .next t ∧ t.power.phase = .inReset ∧ t.power.cause = 1 ∧ t.timebase = 0 ∧ t.flash = s.flash ∧
      t.pending = s.pending ∧ t.power.rstN = false ∧ t.power.faultN = false) ∧
    (s.power.phase = .inReset → s.power.pwrEn = false → s.power.vin48 → s.power.pgTimeout = false → s.power.cause ≠ 3 → ∃ t,
      exec .pwrEnRise s = .next t ∧ t.power.pwrEn ∧ t.power.rails ∧ t.power.pwrGood ∧ { t with power := s.power } = s) ∧
    (s.power.phase = .inReset → s.power.pwrEn → s.power.pwrGood = false → s.power.pgTimeout = false → s.power.cause ≠ 3 →
      s.power.since.toNat + 20000000 ≤ s.timebase.toNat → ∃ t, exec .pwrGoodTimeout s = .next t ∧ t.power.pgTimeout ∧ t.power.faultN ∧
        { t with power := s.power } = s) ∧
    (s.power.pwrEn → ∃ t, exec .pwrEnFall s = .next t ∧ t.power.pwrEn = false ∧ t.power.rails = false ∧ t.power.pwrGood = false ∧
      t.power.pgTimeout = false ∧ t.flash = s.flash) ∧
    (s.power.phase ≠ .unpowered → (s.power.rstN ∨ s.power.phase = .tripped) → ∃ t, exec .resetAssert s = .next t ∧ t.power.phase = .inReset ∧
      t.power.rstN = false ∧ t.power.trip = false ∧ t.power.cause = (if s.power.phase = .tripped then 3 else 2) ∧ t.flash = s.flash ∧ t.timebase = s.timebase ∧
      t.cells = State.reset.cells ∧ t.regs = [] ∧ t.pending = s.pending) ∧
    (s.power.phase ≠ .unpowered → ∃ t, exec .vstbyLoss s = .next t ∧ t.power.phase = .unpowered ∧ t.power.vstby = false ∧ t.power.rails = false ∧
      t.cells = State.reset.cells ∧ t.regs = []) ∧
    (s.power.phase ≠ .unpowered → s.power.pwrEn → s.power.rails → ∃ t, exec .railFailure s = .next t ∧ t.power.rails = false ∧
      t.power.pwrGood = false ∧ t.power.faultN ∧ t.power.pgTimeout) ∧
    (s.power.phase = .inReset → s.power.cause = 3 → s.power.rails = false → s.power.pwrEn → s.power.vin48 → s.power.pgTimeout = false →
      (∀ x ∈ s.power.temps, x < 100) → ∃ t, exec .tripRailReturn s = .next t ∧ t.power.rails ∧ t.power.pwrGood ∧ { t with power := s.power } = s) ∧
    (∀ i (x : Int), i < 32 → 120 ≤ x → s.power.phase ≠ .unpowered → s.power.phase ≠ .tripped → ∃ t, exec (.thermalTrip i x) s = .next t ∧
      t.power.phase = .tripped ∧ t.power.trip ∧ t.power.rails = false ∧ t.power.cause = 3) ∧
    (∀ a, s.power.phase ≠ .unpowered → s.power.rstN → exec (.i3cDynamicAddressing a) s =
      .next (s.modPower fun p => { p with dynAddr := some a }))) ∧
  (∀ s : State,
    (∀ k b, s.power.phase = .inReset → s.power.pwrGood → s.power.pgTimeout = false → s.flash.sfdp →
      (s.flash.choose.slot = none → ∃ t, exec (.bootRom k) s = .next t ∧ t.power.phase = .bootFail ∧ t.power.faultN ∧ t.sec.stage = 7) ∧
      (s.flash.choose.slot = some b → ∃ t, exec (.bootRom k) s = .next t ∧ t.power.phase = .lookout ∧ t.sec.stage = 1 ∧ t.sec.slot = b ∧
        t.flash = s.flash.choose.flash ∧ t.sec.svn = (s.flash.choose.flash.slot b).svn ∧ t.power.rstN)) ∧
    (s.power.phase = .lookout → ((s.flash.slot s.sec.slot).compOk 1 && (s.flash.slot s.sec.slot).compOk 2) → ∃ t, exec .lookoutBoot s = .next t ∧
      t.power.phase = .running ∧ t.sec.stage = 3 ∧ t.flash.incarn = s.flash.incarn + (if s.flash.copyBad then 2 else 1) ∧ t.eth.link = 1) ∧
    (s.power.phase = .lookout → ((s.flash.slot s.sec.slot).compOk 1 && (s.flash.slot s.sec.slot).compOk 2) = false → ∃ t, exec .lookoutBoot s = .next t ∧
      t.power.phase = .inReset ∧ t.power.cause = 7 ∧ (t.flash.slot s.sec.slot).state = 5) ∧
    ((s.power.phase = .running ∨ s.power.phase = .lookout) →
      (∃ t, exec .lookoutWatchdog s = .next t ∧ t.power.phase = .inReset ∧ t.power.cause = 6 ∧ t.flash = s.flash) ∧
      (∃ t, exec .deviceFatal s = .next t ∧ t.power.phase = .inReset ∧ t.power.cause = 5 ∧ t.power.faultN ∧ t.flash = s.flash)) ∧
    (s.power.phase = .running → s.power.rung = 4 → s.power.busy → s.power.vin48 → s.codeHolds → ∃ t, exec .fallowExit s = .next t ∧
      t.power.phase = .running ∧ t.power.rung = 0 ∧ t.power.rails ∧ t.power.cause = 4 ∧ t.sec.slot = s.sec.slot ∧ t.sec.meas = s.sec.meas ∧
      t.sec.jtagOpen = false ∧ t.reg rFabId = s.reg rFabId)) ∧
  (∀ (s : State), s.tapOn →
    (s.regBit rSecCtrl 1 = false → ∃ t, exec .jtagUnlockChallenge s = .next t ∧ t.sec.jtagOut = List.replicate 49 0 ∧ t.sec.challenge = s.sec.challenge) ∧
    (s.regBit rSecCtrl 1 → ∃ t c, exec .jtagUnlockChallenge s = .next t ∧ t.sec.challenge = some (c, s.timebase) ∧
      t.sec.jtagOut = leBytes 32 c.toNat ++ leBytes 16 s.flash.uid.toNat ++ [1]) ∧
    (∀ b, s.regBit rSecCtrl 1 → b.length = 3584 → s.sec.jtagFails < 3 →
      (∀ c w, s.sec.challenge = some (c, w) → s.timebase.toNat ≤ w.toNat + 60000000000 → s.unlockKey (b.take 1793) →
        sigHolds (b.take 1793) (b.drop 2048) "QJ-JTAGU" (leBytes 32 c.toNat ++ leBytes 16 s.flash.uid.toNat ++ [1]) →
        ∃ t, exec (.jtagUnlockResponse b) s = .next t ∧ t.sec.jtagOpen) ∧
      (s.sec.challenge = none → ∃ t, exec (.jtagUnlockResponse b) s = .next t ∧ t.sec.jtagFails = s.sec.jtagFails + 1 ∧ t.sec.jtagOpen = s.sec.jtagOpen)) ∧
    (∀ b, 3 ≤ s.sec.jtagFails → exec (.jtagUnlockResponse b) s = .next s))

/-- The rung ladder, setpoints, parking, throttling and THERM_N. Model's choices: log entries 57, 58 and 66. -/
def Obligations.RungsAndTemperature : Prop :=
  (∀ s : State, s.power.phase = .running →
    (s.power.busy → s.power.rung = 0 → s.power.target ≠ 0 → s.power.target < 4 → ((List.range 192).all s.cellDone) → ∃ t,
      exec .rungDrainDone s = .next t ∧ t.power.rung = s.power.target ∧ t.power.busy = false ∧ t.power.target = 0) ∧
    (s.power.busy → s.power.rung = 0 → s.power.since.toNat + 1000000 * s.regF rPwrCfg 7 0 ≤ s.timebase.toNat → exec .rungDrainTimeout s =
      .next (((s.modPower fun p => { p with target := 0, busy := false }).powerEvent 3).powerSetDone stBusy).settle) ∧
    (s.power.rstN → s.regBit rPwrCfg 8 → s.power.rung ≠ 0 → s.power.busy = false → ∃ t, exec .wakePin s = .next t ∧ t.power.busy ∧
      t.power.target = 0 ∧ t.power.rung = s.power.rung ∧ t.power.since = s.timebase ∧ { t with power := s.power } = s) ∧
    (s.power.busy → s.power.rung ≠ 0 → s.power.rung ≠ 4 → s.power.target ≠ 0 → ∃ t, exec .rungExit s = .next t ∧ t.power.rung = 0 ∧
      t.power.busy ∧ t.power.target = s.power.target) ∧
    (∀ c, c < 192 → c < s.power.cur.length → s.active → ∃ t, exec (.setpointChange c) s = .next t ∧ t.power.cur[c]? = some (s.wantedSp c) ∧
      { t with power := s.power } = s)) ∧
  (∀ s : State, s.power.phase = .running →
    (∀ c, c < s.cells.length → s.coresGo → s.cellUp c → (s.cell c).parked = false → s.regBit rPwrPark 0 → (s.cell c).quiet →
      s.scalerBusy c = false → ((s.cell c).threads.any fun t => t.wake.isSome) = false →
      (s.cell c).idleSince.toNat + 1000 * s.regF rPwrPark 16 1 ≤ s.timebase.toNat → ∃ t, exec (.cellPark c) s = .next t ∧
        t.cell c = { s.cell c with parked := true, parkRung := 1 } ∧ (∀ d, d ≠ c → t.cell d = s.cell d) ∧ (s.Good → t.cnt (kPwr 1) = s.cnt (kPwr 1) + 1)) ∧
    (∀ c, s.active → s.cellUp c → (s.cell c).parked → (s.cell c).anyDue → ∃ t, exec (.cellUnpark c) s = .next t ∧
      (t.cell c).parked = false ∧ (∀ d, d ≠ c → t.cell d = s.cell d) ∧ SameMemory s t) ∧
    (∀ i (x : Int), i < 32 → x < 120 → s.warnAt ≤ (s.modPower fun p => { p with temps := modAt i (fun _ => x) p.temps }).power.hot.2 → s.Good → ∃ t,
      exec (.thermalWarn i x) s = .next t ∧ t.power.therm ∧ t.power.temps = modAt i (fun _ => x) s.power.temps ∧ t.cells = s.cells ∧ SameMemory s t) ∧
    (∀ f, f < 4 → s.active → f < s.power.throttled.length → s.power.throttleAt.getD f none = none → s.regBit rPwrTherm 8 →
      s.warnAt ≤ (s.power.fieldHot f).2 → (((List.range 48).map (48 * f + ·)).any fun c => decide (s.wantedSp c < 3)) → ∃ t,
      exec (.throttleStep f) s = .next t ∧ t.power.throttled.getD f 0 = s.power.throttled.getD f 0 + 1 ∧ t.cells = s.cells ∧ SameMemory s t ∧
      (∀ c, c < 192 → c / 48 = f → c < s.power.cur.length → t.power.cur[c]? = some (Nat.min 3 (s.regF (rCellSp c) 1 0 + (s.power.throttled.getD f 0 + 1))))))

/-- Registers by S.RDREG and S.WRREG, over I3C and over JTAG. Model's choices: log entries 64 and 65. -/
def Obligations.RegisterAccess : Prop :=
  (∀ (th : ThreadRef) (w : W64) (s : State), ∀ o, o = (s.sreg th (wRa w) + (w.truncate 32).signExtend 64).toNat → o % 4 = 0 →
    (ThreadReady s th 1 0x38 w →
      (0x10000 ≤ o → ∃ t, exec (.sRdreg th w) s = .next t ∧ ThreadStep th (retire w 0) s t) ∧
      (o < 0x10000 → ∃ t, exec (.sRdreg th w) s = .next t ∧
        t = (s.readReg 1 (rCell th.cell o)).2.modThread th.cell th.slot (retire w ((s.readReg 1 (rCell th.cell o)).1.zeroExtend 64)))) ∧
    (ThreadReady s th 1 0x39 w →
      (0x10000 ≤ o → ∃ t, exec (.sWrreg th w) s = .next t ∧ ThreadStep th advance s t) ∧
      (o < 0x10000 → ∃ t, exec (.sWrreg th w) s = .next t ∧
        t = (s.modThread th.cell th.slot advance).writeReg false (rCell th.cell o) ((s.sreg th (wRb w)).truncate 32)))) ∧
  (∀ (s : State) (p : RegPath) (a n : Nat) (v : W32),
    (s.pathWay p a n = 4 → (p = .i3c → ∃ t, exec (.registerRead p a n) s = .next t ∧ t.power.i3cOut = (s.readRegs 0 (regRun a n)).1 ∧ t.power.i3cNak = false) ∧
      (p = .jtag → ∃ t, exec (.registerRead p a n) s = .next t ∧ t.sec.jtagOut = (s.readRegs 0 (regRun a n)).1.flatMap fun v => leBytes 4 v.toNat)) ∧
    (s.pathWay p a 1 = 4 → (p = .i3c → ∃ t, exec (.registerWrite p a v) s = .next t ∧
        t = (s.writeReg true a v).modPower fun x => { x with i3cNak := false }) ∧
      (p = .jtag → exec (.registerWrite p a v) s = .next (s.writeReg false a v))) ∧
    (s.pathWay .i3c a n = 1 → ∃ t, exec (.registerRead .i3c a n) s = .next t ∧ t.power.i3cNak ∧ { t with power := s.power } = s) ∧
    (s.pathWay p a n = 2 → exec (.registerRead p a n) s = .next s))

/-- TAKE and RELEASE, ERR_CNT_CLR, reports on their way, CELL_RESTART and its completion. Model's choices: log entries 63 and 64. -/
def Obligations.SnapshotsReportsRestarts : Prop :=
  (∀ (s : State) (j : Nat), s.power.phase = .running →
    (∀ sc : BitVec 16, j < 2 → exec (.snapshotTake j sc) s = .next ((s.setRegF (rSnap j) 23 8 sc.toNat).take j sc.toNat)) ∧
    (∀ u a, a ∈ unitRegs u → ((s.takeUnit j u).latches.head?.map fun l => (l.j, l.scope, l.time, (l.copies.find? fun e => e.1 == a).map (·.2))) =
      some (j, u, s.timebase, some (s.liveReg a))) ∧
    (j < 2 → ∃ t, exec (.snapshotRelease j) s = .next t ∧ { t with latches := s.latches } = s ∧
      (∀ us, scopeUnits (s.regF (rSnap j) 23 8) = some us → ∀ u ∈ us, t.held j u = false)) ∧
    (s.Good → ∃ t, exec .errCntClr s = .next t ∧ (∀ a, isErrCnt a → t.reg a = regReset a) ∧ (∀ a, isErrCnt a = false → t.reg a = s.reg a) ∧
      { t with regs := s.regs } = s) ∧
    (∀ f x pre post, s.supQ = pre ++ x :: post → (∀ y ∈ pre, y.1 ≠ f) → x.1 = f → ∃ t, exec (.reportForward f) s = .next t ∧ t.supQ = pre ++ post)) ∧
  (∀ (c : Nat) (s : State), s.power.phase = .running → c < 192 → c < s.cells.length →
    (s.power.rung ≠ 4 → (s.cell c).mode ≠ .offline → ∃ t, exec (.cellRestart c false) s = .next t ∧
      (t.cell c).mode = (if (s.recentRestarts c).length < 2 then .restarting else .offline) ∧ (t.cell c).ae.prog = none ∧ (t.cell c).xe.prog = none ∧
      (t.cc c).all = [] ∧ (t.cell c).opmem = [] ∧
      (∀ (k : Nat) (x : Thread), (s.cell c).threads[k]? = some x → x.state = .free → ∃ y : Thread, (t.cell c).threads[k]? = some y ∧ y.state = .free) ∧
      (∀ (k : Nat) (x : Thread), (s.cell c).threads[k]? = some x → x.state ≠ .free → ∃ y : Thread, (t.cell c).threads[k]? = some y ∧ y.state = .failed ∧ y.reason = 2)) ∧
    ((s.cell c).mode = .restarting → s.codeHolds → ∃ t, exec (.cellRestartComplete c) s = .next t ∧ (t.cell c).mode = .running ∧
      (t.cell c).threads = (s.cell c).threads ∧ (t.cell c).opmem = (s.cell c).opmem))
/-- S.ST writes the low bytes of rb at ra + IMM, and nothing else of any memory; PC := PC + 8. -/
def Obligations.OperandStore : Prop :=
  ∀ (th : ThreadRef) (w : W64) (s : State), ThreadReady s th 1 0x32 w →
    ∀ a n, a = (s.sreg th (wRa w) + (w.truncate 32).signExtend 64).toNat → n = wSz w → a % n = 0 → a + n ≤ opSoft →
      memWf (s.cell th.cell).opmem →
      ∃ t, exec (.sSt th w) s = .next t ∧
        (∀ i, i < n → (memGet (t.cell th.cell).opmem (a + i)).toNat = (s.sreg th (wRb w)).toNat / 256 ^ i % 256) ∧
        (∀ b, b < a ∨ a + n ≤ b → memGet (t.cell th.cell).opmem b = memGet (s.cell th.cell).opmem b) ∧
        memWf (t.cell th.cell).opmem ∧ t.thread th.cell th.slot = advance (s.thread th.cell th.slot) ∧
        OnlyCell th.cell s t ∧ SameMemory s t ∧ (∀ k, k ≠ th.slot → t.thread th.cell k = s.thread th.cell k) ∧
        { t.cell th.cell with threads := (s.cell th.cell).threads, opmem := (s.cell th.cell).opmem, opPoison := (s.cell th.cell).opPoison } =
          s.cell th.cell

/-- WAIT: satisfied at issue, or WAITING off its core with its deadline; when flags satisfy a mask. Model's choices: log entries 14. -/
def Obligations.WaitOutcomes : Prop :=
  (∀ (th : ThreadRef) (w : W64) (s : State), ThreadReady s th 2 1 w → ∀ m n, m = (w.truncate 32 : W32) → n = (s.sreg th (wRb w)).toNat →
    (m = 0 → ∃ t, exec (.wait th w) s = .next t ∧ FaultStep th 0x0003 0 s t) ∧
    (m ≠ 0 → 2 ^ 31 ≤ n → ∃ t, exec (.wait th w) s = .next t ∧ FaultStep th 0x0003 n s t) ∧
    (m ≠ 0 → n < 2 ^ 31 → flagsMeet (w.getLsbD 32) m (s.thread th.cell th.slot).flags → ∃ t, exec (.wait th w) s = .next t ∧
      ThreadStep th (fun x => { retire w (x.flags.zeroExtend 64) x with
        mask := m, modeAll := w.getLsbD 32, clr := w.getLsbD 33, waitRd := wRd w, wake := none,
        flags := if w.getLsbD 33 then x.flags &&& ~~~m else x.flags }) s t) ∧
    (m ≠ 0 → n < 2 ^ 31 → flagsMeet (w.getLsbD 32) m (s.thread th.cell th.slot).flags = false → ∃ t, exec (.wait th w) s = .next t ∧
      ReleaseStep th (fun x => entering .waiting (s.cell th.cell).tick { advance x with
        mask := m, modeAll := w.getLsbD 32, clr := w.getLsbD 33, waitRd := wRd w, wake := none, timed := decide (n ≠ 0),
        deadline := if n = 0 then x.deadline else (s.cell th.cell).tick + BitVec.ofNat 32 n }) s t)) ∧
  (∀ m f : W32, (flagsMeet false m f ↔ ∃ k, m.getLsbD k ∧ f.getLsbD k) ∧
    (flagsMeet true m f ↔ ∀ k, m.getLsbD k → f.getLsbD k))

/-- SIGNAL: a FREE or FAILED slot refuses (rd := 1); any other takes the flags (rd := 0). -/
def Obligations.SignalDelivers : Prop :=
  ∀ (th : ThreadRef) (w : W64) (s : State), ThreadReady s th 2 4 w → ∀ a c k, a = (s.sreg th (wRa w)).toNat → c = a / 64 → k = a % 64 →
    (192 ≤ c → ∃ t, exec (.signal th w) s = .next t ∧ FaultStep th 0x0003 a s t) ∧
    (c < 192 → ((s.thread c k).state = .free ∨ (s.thread c k).state = .failed) → ∃ t, exec (.signal th w) s = .next t ∧
      ThreadStep th (retire w 1) s t) ∧
    (c < 192 → (s.thread c k).state ≠ .free → (s.thread c k).state ≠ .failed → ∃ t, exec (.signal th w) s = .next t ∧
      t.thread th.cell th.slot = retire w 0 (if c = th.cell ∧ k = th.slot then (s.thread c k).orFlags (w.truncate 32) else s.thread th.cell th.slot) ∧
      (¬ (c = th.cell ∧ k = th.slot) → t.thread c k = (s.thread c k).orFlags (w.truncate 32)) ∧
      (∀ d j, ¬ (d = c ∧ j = k) → ¬ (d = th.cell ∧ j = th.slot) → t.thread d j = s.thread d j) ∧
      { t with cells := s.cells } = s ∧ SameOpmem s t)

/-- POST queues its record last, or drops and counts it; FENCE holds its thread until what it covers is visible, and then it goes on. Model's choices:
log entries 29 and 68. -/
def Obligations.PostAndFence : Prop :=
  (∀ (th : ThreadRef) (w : W64) (s : State), ThreadReady s th 2 9 w → ∀ tag, tag = (w.truncate 32 : W32).toNat →
    (65536 ≤ tag → ∃ t, exec (.post th w) s = .next t ∧ FaultStep th 0x0003 0 s t) ∧
    (tag < 65536 → s.eth.events.length < 4096 → s.eth.lost = 0 → ∃ t, exec (.post th w) s = .next t ∧
      t.eth.events = s.eth.events ++ [⟨⟨4, 0x2000 + th.cell, s.timebase, BitVec.ofNat 160 ((s.sreg th (wRa w)).toNat + tag * 2 ^ 64)⟩, none⟩] ∧
      t.thread th.cell th.slot = advance (s.thread th.cell th.slot)) ∧
    (tag < 65536 → 4096 ≤ s.eth.events.length → s.Good → ∃ t, exec (.post th w) s = .next t ∧ t.eth.events = s.eth.events ∧
      t.cnt (kCell th.cell cPostDrop) = s.cnt (kCell th.cell cPostDrop) + 1 ∧
      t.thread th.cell th.slot = advance (s.thread th.cell th.slot))) ∧
  (∀ (th : ThreadRef) (w : W64) (s : State),
    (ThreadReady s th 2 0 w → wScope w = 0 → ∃ t, exec (.fence th w) s = .next t ∧
      ThreadStep th (fun x => { x with fence := some { scope := 0, covers := s.fenceCovers th (wKind w) } }) s t) ∧
    (ThreadReady s th 2 0 w → wScope w ≠ 0 → ∃ t f, exec (.fence th w) s = .next t ∧ (t.thread th.cell th.slot).fence = some f ∧
      f.scope = wScope w ∧ (t.thread th.cell th.slot).pc = (s.thread th.cell th.slot).pc ∧ t.runs th = false) ∧
    (∀ f, s.active → s.cellUp th.cell → s.Good → (s.thread th.cell th.slot).fence = some f →
      f.covers.all (s.visible f.scope) →
      (f.scope = 0 ∨ (s.dirtyLines th.cell (fun _ => true) = [] ∧ s.backsOut th.cell (fun _ => true) = [])) →
      ∃ t, exec (.fenceComplete th) s = .next t ∧ t.thread th.cell th.slot = { advance (s.thread th.cell th.slot) with fence := none } ∧
        (s.landings.length ≤ 12 → t.cnt (kCell th.cell cFence) = s.cnt (kCell th.cell cFence) + 1) ∧ SameMemory s t ∧ SameOpmem s t))

/-- The thread that a free core takes: highest priority, last core preferred; the lowest-numbered free core first. -/
def Obligations.DispatchTakesThread : Prop :=
  (∀ (x : CellSt) (core k : Nat), x.mayTake core k ↔
    (k < 64 ∧ (x.thread k).state = .ready ∧ (∀ u, u < 64 → (x.thread u).state = .ready → (x.thread u).pri.toNat ≤ (x.thread k).pri.toNat) ∧
      (((x.thread k).lcv ∧ (x.thread k).lastCore.toNat = core) ∨
        ∀ u, u < 64 → (x.thread u).state = .ready → (x.thread u).pri = (x.thread k).pri →
          ¬ ((x.thread u).lcv ∧ (x.thread u).lastCore.toNat = core)))) ∧
  (∀ (c core k : Nat) (s : State), s.Good → s.coresGo → s.cellUp c → (s.cell c).parked = false → core < 4 →
    (∃ y, (s.cell c).cores[core]? = some y ∧ y.slot = none) → (∀ j, j < core → (s.cell c).coreFree j = false) →
    (s.cell c).mayTake core k →
    ∃ t, exec (.threadDispatch c core k) s = .next t ∧
      t.thread c k = { entering .running (s.cell c).tick (s.thread c k) with lastCore := BitVec.ofNat 2 core, lcv := true } ∧
      (∃ y, (t.cell c).cores[core]? = some y ∧ y.slot = some k) ∧ (∀ u, u ≠ k → t.thread c u = s.thread c u) ∧
      (∀ d, d ≠ c → t.cell d = s.cell d) ∧
      t.cnt (kCell c (cDispatch (s.thread c k).pri.toNat)) = s.cnt (kCell c (cDispatch (s.thread c k).pri.toNat)) + 1 ∧ SameMemory s t)

/-- Satisfied waits and due deadlines make slots READY with their rd; every other slot is left. -/
def Obligations.WaitersWake : Prop :=
  (∀ (th : ThreadRef) (s : State) (f : W32), (s.thread th.cell th.slot).state = .waiting → (s.thread th.cell th.slot).wake = some f →
    s.schedules th.cell →
    ∃ t, exec (.threadWake th) s = .next t ∧ (t.thread th.cell th.slot).state = .ready ∧
      (t.thread th.cell th.slot).regs = ((s.thread th.cell th.slot).setReg (s.thread th.cell th.slot).waitRd (f.zeroExtend 64)).regs ∧
      (t.thread th.cell th.slot).flags = (s.thread th.cell th.slot).flags ∧ (t.thread th.cell th.slot).timed = false ∧
      (t.thread th.cell th.slot).pc = (s.thread th.cell th.slot).pc ∧ (∀ u, u ≠ th.slot → t.thread th.cell u = s.thread th.cell u) ∧ SameOpmem s t) ∧
  (∀ (c : Nat) (s : State), s.schedules c →
    ∃ t, exec (.deadlineDue c) s = .next t ∧ ∀ k, k < 64 →
      (let x := s.thread c k
       let y := t.thread c k
       let due := x.timed ∧ ((s.cell c).tick - x.deadline).toNat < 2 ^ 31
       (due → x.state = .sleeping → y = entering .ready (s.cell c).tick { x with timed := false }) ∧
       (due → x.state = .waiting → x.wake = none →
         y.state = .ready ∧ y.regs = (x.setReg x.waitRd 0).regs ∧ y.flags = x.flags ∧ y.timed = false ∧ y.pc = x.pc) ∧
       (¬ due → y = x) ∧ (x.state = .waiting → x.wake ≠ none → y = x) ∧ (x.state ≠ .waiting → x.state ≠ .sleeping → y = x)))

/-- The timebase on an empty queue (log entry 2, DESIGN CHOICE), the tick boundary, and the note of a starved thread. -/
def Obligations.TimePasses : Prop :=
  (∀ s : State, s.pending = [] →
    ∃ t, step s = .next t ∧ t.pending = [] ∧
      (s.power.phase = .unpowered → t = s) ∧ (s.power.phase ≠ .unpowered → t.timebase = s.timebase + 1)) ∧
  (∀ s : State, s.Good → s.power.phase = .running → s.power.rung ≠ 4 →
    ∃ t, exec .tickBoundary s = .next t ∧ t.timebase = s.timebase + BitVec.ofNat 64 s.toBoundary ∧
      (s.timebase.toNat + s.toBoundary < 2 ^ 64 → t.timebase.toNat % (250 * s.tickPeriod) = 0 ∧
        ∀ c, c < s.cells.length → (t.cell c).tick = (s.cell c).tick + 1)) ∧
  (∀ (th : ThreadRef) (s : State), s.Good → s.active → s.cellUp th.cell → th.slot < 64 →
    (s.thread th.cell th.slot).state = .ready → (s.thread th.cell th.slot).starved = false →
    s.reg (rCell th.cell 0x304) ≠ 0 → (s.reg (rCell th.cell 0x304)).toNat ≤ (s.thread th.cell th.slot).readyTicks →
    ∃ t, exec (.starvationLimit th) s = .next t ∧ t.thread th.cell th.slot = { s.thread th.cell th.slot with starved := true } ∧
      t.regBit (rCell th.cell (if th.slot < 32 then 0x310 else 0x314)) (th.slot % 32) ∧ t.regBit (rCell th.cell 0x308) 0 ∧
      t.cnt (kCell th.cell cStarve) = s.cnt (kCell th.cell cStarve) + 1)

/-- LAUNCH: 1 busy, 3 malformed, else 0 and the program runs; what it starts with. Model's choices: log entries 67. -/
def Obligations.LaunchOutcomes : Prop :=
  (∀ p ∈ ([(.launchA, 0x3E, .access), (.launchX, 0x3F, .execute)] : List ((ThreadRef → W64 → Instr) × Nat × Engine)),
    ∀ (th : ThreadRef) (w : W64) (s : State), ThreadReady s th 1 p.2.1 w → ∀ a, a = (s.sreg th (wRa w)).toNat →
      (((s.cell th.cell).prog p.2.2).isSome → ∃ t, exec (p.1 th w) s = .next t ∧ ThreadStep th (retire w 1) s t) ∧
      ((s.cell th.cell).prog p.2.2 = none → (a % 32 ≠ 0 ∨ opSoft < a + 256) → ∃ t, exec (p.1 th w) s = .next t ∧
        ThreadStep th (retire w 3) s t) ∧
      ((s.cell th.cell).prog p.2.2 = none → a % 32 = 0 → a + 256 ≤ opSoft → (s.cell th.cell).opPoisoned a 256 = none →
        ∀ l, l = launchOf (memRead (s.cell th.cell).opmem a 256) →
          (l.ok = false → ∃ t, exec (p.1 th w) s = .next t ∧ ThreadStep th (retire w 3) s t) ∧
          (l.ok → l.clr → (s.cell th.cell).declaredBy (otherEngine p.2.2) l.ich l.och →
            ∃ t, exec (p.1 th w) s = .next t ∧ ThreadStep th (retire w 2) s t) ∧
          (l.ok → (l.clr → (s.cell th.cell).declaredBy (otherEngine p.2.2) l.ich l.och = false) →
            ∃ t, exec (p.1 th w) s = .next t ∧ t.thread th.cell th.slot = retire w 0 (s.thread th.cell th.slot) ∧
              (t.cell th.cell).prog p.2.2 = some (launchProg (s.cell th.cell) th.slot (s.thread th.cell th.slot).token l) ∧
              (t.cell th.cell).prog (otherEngine p.2.2) = (s.cell th.cell).prog (otherEngine p.2.2) ∧ SameMemory s t ∧ SameOpmem s t))) ∧
  (∀ (x : CellSt) (slot token : Nat) (b : List Byte), ∀ p, p = launchProg x slot token (launchOf b) →
    p.pc = 0 ∧ p.loops = [] ∧ p.flags = 0 ∧ p.fault = none ∧ p.aborted = false ∧ p.cycles = 0 ∧ p.launcher = slot ∧ p.token = token ∧
    p.text.length = leAt b 4 2 ∧ (∀ i, i < leAt b 4 2 → p.text[i]? = some (BitVec.ofNat 64 (x.opNat (leAt b 0 4 + 8 * i) 8))) ∧
    p.evt = leAt b 6 1 % 32 ∧ p.lenient = (leAt b 7 1).testBit 0 ∧ p.ichUse = byteAt b 8 ∧ p.sum = leAt b 12 4)

/-- WTAKE takes an item and writes its record at ra, or 1, 3 or OPMEM_PROT; WDONE reports an item once. Model's choices: log entries 47. -/
def Obligations.WorkItems : Prop :=
  (∀ (th : ThreadRef) (w : W64) (s : State), ThreadReady s th 1 0x3C w → ∀ a b, a = (s.sreg th (wRa w)).toNat → b = (s.sreg th (wRb w)).toNat →
    (2 ^ 20 ≤ a → ∃ t, exec (.wtake th w) s = .next t ∧ FaultStep th 0x0005 a s t) ∧
    (a < 2 ^ 20 → s.scaler.sets.filter (fun x => b.testBit 16 || x.num == b % 65536) = [] → ∃ t, exec (.wtake th w) s = .next t ∧
      ThreadStep th (retire w (if b.testBit 16 then 1 else 3)) s t) ∧
    (∀ q, a < 2 ^ 20 → s.scaler.sets.filter (fun x => b.testBit 16 || x.num == b % 65536) ≠ [] →
      s.nextItem th.cell (fun n => b.testBit 16 || n == b % 65536) = some q → q.it.kind ≠ 2 → a + 32 ≤ opSoft → (s.cell th.cell).held = [] →
      memWf (s.cell th.cell).opmem → ∃ t, exec (.wtake th w) s = .next t ∧
        t.thread th.cell th.slot = retire w 0 (s.thread th.cell th.slot) ∧
        (t.cell th.cell).queue = (s.cell th.cell).queue.erase q ∧ (t.cell th.cell).taken = (s.cell th.cell).taken ++ [q] ∧
        memRead (t.cell th.cell).opmem a 32 = workRecord q.it)) ∧
  (∀ (th : ThreadRef) (w : W64) (s : State), ThreadReady s th 1 0x3D w → ∀ a, a = (s.sreg th (wRa w)).toNat →
    (opSoft < a + 32 → ∃ t, exec (.wdone th w) s = .next t ∧ FaultStep th 0x0005 a s t) ∧
    (a + 32 ≤ opSoft → (s.cell th.cell).opPoisoned a 8 = none →
      ∀ f, f = (fun (q : QItem) => q.it.wset == leNat (memRead (s.cell th.cell).opmem (a + 2) 2) &&
          q.it.item == leNat (memRead (s.cell th.cell).opmem (a + 4) 4)) →
        ((s.cell th.cell).taken.find? f = none → ∃ t, exec (.wdone th w) s = .next t ∧ ThreadStep th (retire w 1) s t) ∧
        (∀ q, s.Good → (s.cell th.cell).taken.find? f = some q → (s.wset q.it.wset).isSome = false → ∃ t, exec (.wdone th w) s = .next t ∧
          t.thread th.cell th.slot = retire w 0 (s.thread th.cell th.slot) ∧
          (t.cell th.cell).taken = (s.cell th.cell).taken.erase q ∧ t.cnt (kPlc 7) = s.cnt (kPlc 7) + 1)))

/-- BARRIER never blocks: an arrival is counted for the present episode, or waits for the next. Model's choices: log entries 49. -/
def Obligations.BarrierArrivals : Prop :=
  ∀ (th : ThreadRef) (w : W64) (s : State), ThreadReady s th 2 7 w → ∀ a n f, a = (s.sreg th (wRa w)).toNat → n = wChan w →
    f = (w.truncate 32 : W32).toNat →
    (256 ≤ a → ∃ t, exec (.barrier th w) s = .next t ∧ FaultStep th 0x0003 a s t) ∧
    (a < 256 → 32 ≤ f → ∃ t, exec (.barrier th w) s = .next t ∧ FaultStep th 0x0003 0 s t) ∧
    (a < 256 → f < 32 → (s.bar n).en → (s.bar n).broken = false → s.barExp th.cell n ≠ 0 → ∀ b, b = s.barCell th.cell n →
      (b.episode.toNat = a → ∃ t, exec (.barrier th w) s = .next t ∧
        (t.barCell th.cell n).now = b.now ++ [(th.slot, (s.thread th.cell th.slot).token, f)] ∧ (t.barCell th.cell n).early = b.early ∧
        t.thread th.cell th.slot = advance (s.thread th.cell th.slot) ∧ SameMemory s t ∧ SameOpmem s t) ∧
      ((b.episode + 1).toNat = a → ∃ t, exec (.barrier th w) s = .next t ∧
        (t.barCell th.cell n).early = b.early ++ [(th.slot, (s.thread th.cell th.slot).token, f)] ∧ (t.barCell th.cell n).now = b.now ∧
        t.thread th.cell th.slot = advance (s.thread th.cell th.slot) ∧ SameMemory s t ∧ SameOpmem s t) ∧
      (b.episode.toNat ≠ a → (b.episode + 1).toNat ≠ a → ∃ t, exec (.barrier th w) s = .next t ∧
        (t.thread th.cell th.slot).state = .failed ∧ (t.thread th.cell th.slot).faultCode = 0x0050 ∧
        (t.thread th.cell th.slot).pc = (s.thread th.cell th.slot).pc)) ∧
    (s.Good → a < 256 → f < 32 → ((s.bar n).en = false ∨ (s.bar n).broken ∨ s.barExp th.cell n = 0) →
      ∃ t, exec (.barrier th w) s = .next t ∧ t.cnt (kBar 1) = s.cnt (kBar 1) + 1 ∧ t.regBit rBarEvent 1 ∧
        t.thread th.cell th.slot = advance (s.thread th.cell th.slot))

/-- Channel and cells go to the next episode, its arrivals become present, the flags reach their threads, and it is counted. -/
def Obligations.BarrierEpisodeEnds : Prop :=
  ∀ (n : Nat) (s : State), s.Good → n < 80 → (s.bar n).en → (s.bar n).broken = false → (s.bar n).reached →
    ∃ t, exec (.barrierEpisodeComplete n) s = .next t ∧ (t.bar n).done = (s.bar n).done + 1 ∧ (t.bar n).kids = (s.bar n).kidsNext ∧
      t.cnt (kBar 0) = s.cnt (kBar 0) + 1 ∧
      ∀ c ∈ s.barCells n, c < s.cells.length →
        (t.barCell c n).episode = (s.barCell c n).episode + 1 ∧ (t.barCell c n).now = (s.barCell c n).early ∧ (t.barCell c n).early = [] ∧
        ∀ a ∈ (s.barCell c n).now, (s.thread c a.1).token = a.2.1 →
          ((s.thread c a.1).state = .ready ∨ (s.thread c a.1).state = .running ∨ (s.thread c a.1).state = .sleeping) → a.2.2 < 32 →
          (t.thread c a.1).flags.getLsbD a.2.2

/-- Tree messages (completion, PARITY break, drop), and enabling and disabling a channel. Model's choices: log entries 28 and 49. -/
def Obligations.BarrierChannelCommands : Prop :=
  (∀ (m : BarMsg) (s : State), s.active → 64 ≤ m.chan → m.chan < 80 →
    ((s.bar m.chan).en → (s.bar m.chan).broken = false → m.brk = 0 → m.parity = parityOf m.episode →
      (s.barChild m.chan m.link → m.episode = (s.bar m.chan).done → ∃ t, exec (.barrierMessage m) s = .next t ∧
        m.link ∈ (t.bar m.chan).kids ∧ (∀ k, k ∈ (s.bar m.chan).kids → k ∈ (t.bar m.chan).kids)) ∧
      (s.barChild m.chan m.link = false → s.barRoot m.chan = false → m.link = s.barParent m.chan → m.episode = (s.bar m.chan).done →
        (s.bar m.chan).sentUp → ∃ t, exec (.barrierMessage m) s = .next t ∧ (t.bar m.chan).reached)) ∧
    ((s.bar m.chan).en → (s.bar m.chan).broken = false → m.parity ≠ parityOf m.episode →
      ∃ t, exec (.barrierMessage m) s = .next t ∧ (t.bar m.chan).broken ∧ (t.bar m.chan).cause = 3) ∧
    (s.Good → ((s.bar m.chan).en = false ∨ (s.bar m.chan).broken) → ∃ t, exec (.barrierMessage m) s = .next t ∧
      t.cnt (kBar 1) = s.cnt (kBar 1) + 1)) ∧
  (∀ (n : Nat) (s : State), s.Good → n < 80 →
    ((s.bar n).en = false → ∃ t, exec (.barrierChannelEnable n) s = .next t ∧ t.bar n = { BarChan.reset with en := true } ∧
      (∀ c, t.barCell c n = BarCell.reset) ∧ (∀ c k, t.thread c k = s.thread c k) ∧ SameMemory s t ∧ SameOpmem s t) ∧
    ((s.bar n).en → ∃ t, exec (.barrierChannelDisable n) s = .next t ∧ (t.bar n).en = false ∧
      (∀ c, (t.barCell c n).now = [] ∧ (t.barCell c n).early = []) ∧ t.cnt (kBar 1) = s.cnt (kBar 1) + BitVec.ofNat 64 (s.barPending n) ∧
      SameMemory s t ∧ SameOpmem s t))

/-- Answers that reach a cell (data, redirect, HOME-LOST, acknowledgement), the sort window's cycle, and the end of a walk. Model's choices: log
entries 15, 19, 22 and 27. -/
def Obligations.RequestsAndAnswers : Prop :=
  (∀ (c id : Nat) (s : State) (r : Req), s.req id = some r →
    (∀ d p, r.stage = .answered (.data d p) → r.who = .cell c → exec (.granuleDelivery c id) s = .next ((s.takeData c r d p).pumpA c)) ∧
    (∀ d p, r.stage = .answered (.data d p) → r.who = .maint c → exec (.granuleDelivery c id) s = .next (s.maintData c r d p)) ∧
    (∀ e, r.stage = .answered (.redirect e) → r.who = .cell c → ∀ u, u = s.count (kPlc 12) 1 →
      (r.op = .pref → exec (.redirectReceive c id) s = .next (((u.dropReq id).countC c (cAe 6) 1).pumpA c)) ∧
      (r.op ≠ .pref → r.redirects = 15 → exec (.redirectReceive c id) s =
        .next (((u.dropReq id).reqFault c r (some (fRedirectLimit, r.addr))).pumpA c)) ∧
      (r.op ≠ .pref → r.redirects ≠ 15 → (u.liveDesc r.handle).isSome → ∀ q, q = { r with redirects := r.redirects + 1 } →
        (∀ m v, pickEntry r.gen ((u.cell c).ptcFind r.handle r.plot) e = some m → v = (u.ptcInstall c r.handle r.plot m).routeReq c q m →
          exec (.redirectReceive c id) s = .next ((v.1.reqFault c r v.2).pumpA c)) ∧
        (pickEntry r.gen ((u.cell c).ptcFind r.handle r.plot) e = none → exec (.redirectReceive c id) s = .next ((u.rewalk c q).pumpA c)))) ∧
    (r.stage = .answered .homeLost → r.who = .cell c → ∀ u, u = (s.dropReq id).count (kPlc 13) 1 →
      (r.op = .pref → exec (.homeLostReceive c id) s = .next ((u.countC c (cAe 6) 1).pumpA c)) ∧
      (r.op = .load → exec (.homeLostReceive c id) s = .next ((u.deliverLost c r true).pumpA c)) ∧
      ((r.op = .store ∨ r.op = .add) → exec (.homeLostReceive c id) s =
        .next ((u.sumFlagIf c .access sHomeLost ((u.cell c).owns r)).pumpA c))) ∧
    (r.who = .cell c → (r.op = .store ∨ r.op = .add) →
      (r.stage = .answered .ack → exec (.requestAck c id) s = .next ((s.dropReq id).pumpA c)) ∧
      (r.stage = .answered .badHandle → exec (.requestAck c id) s = .next (((s.dropReq id).count (kPlc 14) 1).pumpA c)))) ∧
  (∀ (s : State) (c : Nat) (r : Req) (d : BitVec 512) (p : Bool) (o : AOp), c < s.cells.length → (s.cell c).ae.op = some o → (s.cell c).owns r →
    r.op = .load → r.keys.all o.ahead.contains = false → ∀ t, t = s.takeData c r d p →
      (t.cell c).ae.op = some { o with got := o.got ++ r.keys.map fun k => ⟨k, d, p, false, none, []⟩ } ∧
      (r.id < s.nextReq → ∀ q ∈ t.reqs, q.id ≠ r.id)) ∧
  (∀ (c : Nat) (s : State), s.active → c < 192 →
    exec (.requestIssue c) s = .next ((s.issueCycle c).pumpA c) ∧
    (∀ u, u = (s.letIn c).noteCap c →
      (∀ r, u.pickIssue c = some r → s.issueCycle c = ((((u.issueReq c r).issueUpTo c 3).letIn c).noteCap c)) ∧
      (u.pickIssue c = none → s.issueCycle c = ((u.letIn c).noteCap c)))) ∧
  ((∀ (c h q : Nat) (s : State) (wk : Walk) (m : MapEntry), c < 192 →
    s.walks.find? (fun w => w.cell == c && w.handle == h && w.plot == q) = some wk → s.walkEnd wk = some (.entry m) →
    (∀ u, u = (s.endWalk wk).ptcInstall c h q m → exec (.walkComplete c h q) s = .next (((u.resume c (.entry m)
      (u.reqs.filter fun r => r.ofCell c && r.stage == .walking && r.handle == h && r.plot == q)).maintWalked c h q (.entry m)).pumpA c)) ∧
    (∀ w ∈ (s.endWalk wk).walks, w ≠ wk)) ∧
  (∀ (x : CellSt) (e : PtcEntry), tblWf (fun _ => none) x.ptc → (x.ptcInstall e).ptcFind e.handle e.plot = some e.entry))

/-- PROGRAM_COMPLETE: summary and flag; PROGRAM_ABORT: both engines idle, chutes empty; DECOUPLE_STALL; CHUTE_WAIT_END, a VST's push. Model's choices:
log entries 72. -/
def Obligations.ProgramsEnd : Prop :=
  (∀ (c : Nat) (e : Engine) (s : State) (p : Prog), s.Good → s.engineIssues c e = some p → s.progDone c e p →
    ∃ t, exec (.programComplete c e) s = .next t ∧ (t.cell c).prog e = none ∧
      (t.cell c).prog (otherEngine e) = (s.cell c).prog (otherEngine e) ∧ memRead (t.cell c).opmem p.sum 32 = p.summary ∧
      (∀ b, b < p.sum ∨ p.sum + 32 ≤ b → memGet (t.cell c).opmem b = memGet (s.cell c).opmem b) ∧ SameMemory s t ∧
      ((s.thread c p.launcher).token = p.token → ((s.thread c p.launcher).state = .ready ∨ (s.thread c p.launcher).state = .running ∨
        (s.thread c p.launcher).state = .sleeping) → p.evt < 32 → (t.thread c p.launcher).flags.getLsbD p.evt)) ∧
  (∀ (c : Nat) (e : Engine) (s : State) (p : Prog), s.active → s.cellUp c → (s.cell c).prog e = some p → p.fault.isSome →
    ((s.cell c).prog (otherEngine e) = none ∨ (s.cell c).faulted (otherEngine e) ∨ (s.cell c).atBoundary (otherEngine e)) →
    ∃ t, exec (.programAbort c) s = .next t ∧ (t.cell c).ae.prog = none ∧ (t.cell c).xe.prog = none ∧
      (∀ k h, k < 8 → p.ichUse.getLsbD k → (t.cell c).ich[k]? = some h → h = Chute.empty) ∧ SameMemory s t) ∧
  (∀ (c : Nat) (s : State), s.active → s.cellUp c → s.regBit (rCell c 0x10) 0 → 2 ^ 20 ≤ (s.cell c).wd →
    ∀ k, (s.cell c).ae.wait = some k → (s.cell c).xe.wait = none → ∀ p, (s.cell c).ae.prog = some p →
      ∃ t, exec (.decoupleStall c) s = .next t ∧ (t.cell c).wd = 0 ∧
        (t.cell c).ae.prog = some { p with fault := some (0x0022, p.pc, BitVec.ofNat 64 (k + 256 * 0xFF)) } ∧
        (t.cell c).xe.prog = (s.cell c).xe.prog) ∧
  (∀ (c : Nat) (s : State) (p : Prog),
    (s.engineRuns c .access = some p → (s.cell c).ae.wait.isSome → exec (.chuteWaitEnd c .access) s = .next (s.pumpA c)) ∧
    (∀ w, s.engineRuns c .execute = some p → (s.cell c).xe.wait.isSome → (s.cell c).heldWord = some w →
      exec (.chuteWaitEnd c .execute) s = .next ((s.xResume c w).lateRun c) ∧
      (wCls w = 5 → wOp w = 0x2A → isChute (wPort w) → (s.cell c).heldLate = none → (s.cell c).xe.late = [] →
        (s.cell c).xhold.row = 0 → 0 < (s.cell c).credits (wPort w) → ((s.cell c).vstBytes w).length ≤ slotBytes → ∃ t,
        exec (.chuteWaitEnd c .execute) s = .next t ∧ (t.cell c).xe.prog = some p.next ∧ (t.cell c).xe.wait = none)))

/-- MCFG, MLDW of operand memory and MPRE with MD 0: the configuration, the bank and the tile that they leave. Model's choices: log entries 37 and 39.
-/
def Obligations.ArrayLoads : Prop :=
  (∀ (c : Nat) (w : W64) (s : State) (p : Prog), EngineReady s c .execute p 4 0 w → (s.cell c).arr.mops = [] → (s.cell c).xe.late = [] →
    ∃ t, exec (.mcfg c w) s = .next t ∧ (t.cell c).arr.quarter = w.getLsbD 10 ∧ (∀ b ∈ (t.cell c).arr.banks, b = Bank.empty) ∧
      (∀ q ∈ (t.cell c).arr.stat, q.cls = 0) ∧ (t.cell c).arr.acc = (s.cell c).arr.acc ∧ (t.cell c).xe.prog = some p.next ∧
      OnlyCell c s t ∧ (∀ a, a < opSoft → memGet (t.cell c).opmem a = memGet (s.cell c).opmem a)) ∧
  (∀ (c : Nat) (w : W64) (s : State) (p : Prog) (audit : Bool), MatrixReady s c p 1 w (.runs audit) → 12 ≤ wP1 w → fmtIsScaled (wFmt w) = false →
    ∀ g u a n, g = (s.cell c).arr.geo w → u = s.heldM c p w (.runs audit) → a = (u.cell c).portAddr (wP1 w) →
      n = packedBytes (wFmt w) (g.k (wFmt w) * g.n) → (s.cell c).opPoisoned a n = none → g.bank (wBank w) < (s.cell c).arr.banks.length →
      ∃ t, exec (.mldw c w) s = .next t ∧
        (t.cell c).arr.bankOf g (wBank w) = ⟨((s.cell c).arr.bankOf g (wBank w)).loaded, wFmt w, memRead (s.cell c).opmem a n, []⟩ ∧
        (t.cell c).arr.mops = (s.cell c).arr.mops ++ [⟨1, g.u, wT w, wBank w⟩] ∧ (t.cell c).xe.prog = some p.next ∧ SameMemory s t ∧ SameOpmem s t) ∧
  (∀ (c : Nat) (w : W64) (s : State) (p : Prog) (audit : Bool), MatrixReady s c p 2 w (.runs audit) → wMd w = 0 →
    ∀ g, g = (s.cell c).arr.geo w → tblWf (fun _ => (0 : W32)) (s.cell c).arr.acc → g.stat (wT w) < (s.cell c).arr.stat.length →
      ∃ t, exec (.mpre c w) s = .next t ∧ (∀ r j, r < g.n → j < g.n → tblGet 0 (accKey g (wT w) r j) (t.cell c).arr.acc = 0) ∧
        (t.cell c).arr.status g (wT w) = s.preStatus c w ∧ (t.cell c).xe.prog = some p.next ∧ SameMemory s t ∧
        (∀ a, a < opSoft → memGet (t.cell c).opmem a = memGet (s.cell c).opmem a))

/-- The end of the busy time: registers, masks, vl and the carry are what the instruction left. Model's choices: log entries 42. -/
def Obligations.VectorResultsLand : Prop :=
  ∀ (c : Nat) (s : State) (f : VecFin), s.active → s.cellUp c → (s.cell c).vec.fin = some f → f.post = none → (s.cell c).xe.late = [] →
    memWf (s.cell c).opmem →
    ∃ t, exec (.vClassBusyEnd c) s = .next t ∧ (t.cell c).vec = ⟨f.vt, f.vm, f.vl, f.carry, none, none, none⟩ ∧
      (f.store = none → SameOpmem s t) ∧
      (∀ a b, f.store = some (a, b) → memRead (t.cell c).opmem a b.length = b ∧
        ∀ k, k < a ∨ a + b.length ≤ k → memGet (t.cell c).opmem k = memGet (s.cell c).opmem k) ∧ SameMemory s t

/-- VLD, VST, VSUMMARY, VPRED with PRED_EN 0, and VSEGSUM: issue and results. Model's choices: log entries 35, 40 and 42. -/
def Obligations.VectorMemoryAndSpecials : Prop :=
  (∀ (c : Nat) (w : W64) (s : State) (p : Prog), ∀ u li, u = s.heldX c p → li = (s.loopNums p).1 → 12 ≤ wPort w →
    (EngineReady s c .execute p 5 0x29 w → (s.cell c).vReady none → ∀ n a, n = vCount (s.cell c).vec false w → a = (u.cell c).portAddr (wPort w) →
      (s.cell c).vClear [(s.cell c).portUse li (wPort w) (4 * n) false] →
      groupFits (wVd w) n → maskFits w n → (s.cell c).vPortFault p li w (wPort w) (4 * n) = none → 0 < n →
      (s.cell c).opPoisoned a (4 * n) = none →
      ∃ t, exec (.vld c w) s = .next t ∧ (t.cell c).vec.busy = some (2 + ceilDiv (4 * n) 1024) ∧
        (t.cell c).vec.fin = some ((s.cell c).vec.putLanes (wVd w)
          ((elems 10 n (memRead (s.cell c).opmem a (4 * n))).map (BitVec.ofNat 32)) ((s.cell c).vec.live w) (wZ w)).finish ∧
        (t.cell c).xe.prog = some p.next) ∧
    (EngineReady s c .execute p 5 0x2A w → (s.cell c).vReady (accTile 5 0x2A w) → ∀ n, n = vCount (s.cell c).vec (srcIsAcc (wSa w)) w →
      (s.cell c).vClear [(s.cell c).portUse li (wPort w) (4 * n) true] → maskFits w n →
      (s.cell c).srcFault w n (wSa w) = none → (s.cell c).vPortFault p li w (wPort w) (4 * n) = none →
      ∃ t, exec (.vst c w) s = .next t ∧ (t.cell c).xe.prog = some p.next ∧ SameOpmem s t ∧
        ∃ f, (t.cell c).vec.fin = some f ∧ f.store = some ((u.cell c).portAddr (wPort w), ((s.cell c).srcList n (wSa w)).flatMap fun v => leBytes 4 v.toNat) ∧
          { f with store := (s.cell c).vec.finish.store } = (s.cell c).vec.finish)) ∧
  ((∀ (c : Nat) (w : W64) (s : State) (p : Prog), EngineReady s c .execute p 5 0x2B w → (s.cell c).vReady none → (s.cell c).arr.mops = [] →
    (s.cell c).xe.late = [] → ∀ b, wSa w = .tile b →
    ∃ t, exec (.vsummary c w) s = .next t ∧ (t.cell c).xe.prog = some p.next ∧ (t.cell c).vec.busy = some 4 ∧
      ∃ f, (t.cell c).vec.fin = some f ∧ { f with post := none } = { (s.cell c).vec.finish with post := none } ∧
      f.post = some (BitVec.ofNat 64 (((s.cell c).vec.lane (1024 * b)).toNat + 2 ^ 32 * ((s.cell c).vec.lane (1024 * b + 1)).toNat), fld w 22 18)) ∧
  (∀ (c : Nat) (s : State) (f : VecFin) (p : Prog) (v : W64) (k : Nat), s.active → s.cellUp c → (s.cell c).vec.fin = some f →
    f.post = some (v, k) → (s.cell c).xe.prog = some p → (s.cell c).xe.late = [] → (s.thread c p.launcher).token = p.token →
    ((s.thread c p.launcher).state = .ready ∨ (s.thread c p.launcher).state = .running ∨ (s.thread c p.launcher).state = .sleeping) →
    ∃ t, exec (.vClassBusyEnd c) s = .next t ∧ (t.thread c p.launcher).mailbox = v ∧ (t.thread c p.launcher).unread ∧
      (t.thread c p.launcher).flags = (s.thread c p.launcher).flags ||| BitVec.ofNat 32 (2 ^ k))) ∧
  (∀ (c : Nat) (w : W64) (s : State) (p : Prog), EngineReady s c .execute p 5 0x2C w → (s.cell c).vReady none →
    (s.cell c).vClear [⟨wPort w, 0, opSoft, false⟩] → (s.cell c).arr.quarter = false →
    srcFits (128 * (fld w 22 18 + 1)) (wSa w) → groupFits (wVd w) 2 → s.regBit (rCell c 0xB0) 0 = false →
    ∀ a : Nat, (s.cell c).maAddr (s.loopNums p).1 (wPort w) = a → a + 64 ≤ opSoft → a % 32 = 0 → (s.cell c).opPoisoned a 64 = none →
      pDescOk (memRead (s.cell c).opmem a 64) → ∀ n, n = (pDescOf (memRead (s.cell c).opmem a 64)).blocks →
      ∃ t f, exec (.vpred c w) s = .next t ∧ (t.cell c).vec.fin = some f ∧ f.pred = some (BitVec.ofNat 32 (2 ^ n - 1), 0, n) ∧
        (t.cell c).xe.prog = some p.next ∧ (t.cell c).pred = (s.cell c).pred ∧ SameOpmem s t) ∧
  (∀ (c : Nat) (w : W64) (s : State) (p : Prog), EngineReady s c .execute p 5 0x28 w → (s.cell c).vReady (accTile 5 0x28 w) →
    (s.cell c).vClear [(s.cell c).portUse (s.loopNums p).1 (segLen w) 4 false, (s.cell c).portUse (s.loopNums p).1 (segDst w) opSoft true] →
    (∀ code info, ((s.cell c).segChecks w p (s.loopNums p).1).findSome? id = some (code, info) → ∃ t, exec (.vsegsum c w) s = .next t ∧
      (t.cell c).xe.prog = some { p with fault := some (BitVec.ofNat 16 code, p.pc, info) } ∧ SameMemory s t ∧ SameOpmem s t) ∧
    (((s.cell c).segChecks w p (s.loopNums p).1).findSome? id = none → ∀ k, k = (s.cell c).vec.carry →
      (∀ u, u = (if segStart w then (s.heldX c p).modCarry c fun k => { k with isOpen := false, closed := 0 } else s.heldX c p) →
        exec (.vsegsum c w) s = .next (u.segGo c w p segFuel)) ∧
      (segStart w = false → segFinal w = false → segM w = 1 → k.isOpen → k.rem ≠ 1 →
        ∃ t, exec (.vsegsum c w) s = .next t ∧ (t.cell c).xe.prog = some p.next ∧ (t.cell c).vec.busy = some (8 + ceilDiv (segW w) 1024) ∧
          (t.cell c).vec.carry = { k with rem := k.rem - 1, row := (k.row.zip ((s.cell c).segRow w 0)).map fun e => f32Add e.1 e.2 } ∧
          SameMemory s t ∧ SameOpmem s t)))

/-- Reset: an empty queue, memory with nothing listed and in its canonical form, no session, the device number 0 and no space joined, every
thread slot FREE, every link OFF, every register at the reset value of its fields.
Readings and choices of the model's own that it rests on: log entries 4, 10 and 69. -/
def Obligations.ResetState : Prop :=
  State.reset.pending = [] ∧ State.reset.Good ∧ (∀ a, memGet State.reset.mem a = 0) ∧
  State.reset.eth.session = none ∧ State.reset.dev = 0 ∧ State.reset.fab.state = .detached ∧
  (∀ c t, (State.reset.thread c t).state = .free) ∧ (∀ l, (State.reset.link l).state = .off) ∧
  (∀ a, State.reset.reg a = regReset a) ∧ (∀ k, State.reset.cnt k = 0)

/-- s0 reads 0 and discards writes; a write of another register changes it alone (for a slot that holds its 31 registers). -/
def Obligations.ScalarRegisterFile : Prop :=
  ∀ (t : Thread) (r : Nat) (v : W64), t.regs.length = 31 → r < 32 →
    t.reg 0 = 0 ∧ t.setReg 0 v = t ∧ (r ≠ 0 → (t.setReg r v).reg r = v) ∧ (∀ k, k ≠ r → (t.setReg r v).reg k = t.reg k) ∧
    { t.setReg r v with regs := t.regs } = t

/-- Faults at the fetch, the decode, and the scalar class's operands (MISALIGNED, OPMEM_PROT, POISONED). -/
def Obligations.ThreadFaults : Prop :=
  (∀ (th : ThreadRef) (w : W64) (s : State), ∀ i ∈ threadInstrs th w, s.runs th →
    (opSoft < s.pcOf th + 8 → ∃ t, exec i s = .next t ∧ FaultStep th 0x0005 (s.pcOf th) s t) ∧
    (∀ b, s.pcOf th + 8 ≤ opSoft → (s.cell th.cell).opPoisoned (s.pcOf th) 8 = some b →
      ∃ t, exec i s = .next t ∧ FaultStep th 0x0040 b s t) ∧
    (∀ code, ThreadAt s th w → decodeFault .core w = some code → ∃ t, exec i s = .next t ∧ FaultStep th code w.toNat s t)) ∧
  (∀ (th : ThreadRef) (w : W64) (s : State),
    (∀ p ∈ ([(.sLd, 0x30), (.sLds, 0x31), (.sSt, 0x32)] : List ((ThreadRef → W64 → Instr) × Nat)), ThreadReady s th 1 p.2 w →
      ∀ a, a = (s.sreg th (wRa w) + (w.truncate 32).signExtend 64).toNat →
        (a % wSz w ≠ 0 → ∃ t, exec (p.1 th w) s = .next t ∧ FaultStep th 0x0004 a s t) ∧
        (a % wSz w = 0 → opSoft < a + wSz w → ∃ t, exec (p.1 th w) s = .next t ∧ FaultStep th 0x0005 a s t) ∧
        (∀ b, p.2 ≠ 0x32 → a % wSz w = 0 → a + wSz w ≤ opSoft → (s.cell th.cell).opPoisoned a (wSz w) = some b →
          ∃ t, exec (p.1 th w) s = .next t ∧ FaultStep th 0x0040 b s t)) ∧
    (∀ p ∈ ([(.sRdreg, 0x38), (.sWrreg, 0x39)] : List ((ThreadRef → W64 → Instr) × Nat)), ThreadReady s th 1 p.2 w →
      ∀ a, a = (s.sreg th (wRa w) + (w.truncate 32).signExtend 64).toNat → a % 4 ≠ 0 →
        ∃ t, exec (p.1 th w) s = .next t ∧ FaultStep th 0x0004 a s t) ∧
    (ThreadReady s th 1 0x26 w → s.pcOf th % 8 ≠ 0 → ∃ t, exec (.sJal th w) s = .next t ∧
      FaultStep th 0x0004 ((s.thread th.cell th.slot).pc + 8 * (w.truncate 32).signExtend 64).toNat s t) ∧
    (ThreadReady s th 1 0x27 w → (s.sreg th (wRa w)).toNat % 8 ≠ 0 → ∃ t, exec (.sJalr th w) s = .next t ∧
      FaultStep th 0x0004 (s.sreg th (wRa w) + 8 * (w.truncate 32).signExtend 64).toNat s t))

/-- Flags that reach a slot are ORed in; a WAITING slot that they first satisfy keeps them for its rd. -/
def Obligations.FlagsReachSlot : Prop :=
  ∀ (t : Thread) (m : W32),
    (t.state = .ready ∨ t.state = .running ∨ t.state = .sleeping → t.orFlags m = { t with flags := t.flags ||| m }) ∧
    (t.state = .waiting → t.wake = none → flagsMeet t.modeAll t.mask (t.flags ||| m) →
      t.orFlags m = { t with
        wake := some (t.flags ||| m),
        flags := if t.clr then (t.flags ||| m) &&& ~~~t.mask else t.flags ||| m }) ∧
    (t.state = .waiting → flagsMeet t.modeAll t.mask (t.flags ||| m) = false → t.orFlags m = { t with flags := t.flags ||| m }) ∧
    (t.state = .free ∨ t.state = .failed → t.orFlags m = t)

/-- MMUL issues; its pass, SCALE_MISMATCH, an overflow's wait for its replay, and a skipped pair. Model's choices: log entries 33, 37 and 38. -/
def Obligations.MultiplyPasses : Prop :=
  ((∀ (c : Nat) (w : W64) (s : State) (p : Prog) (audit : Bool), MatrixReady s c p 3 w (.runs audit) → w.getLsbD 10 = false → 12 ≤ wP1 w →
    fmtIsScaled (wFmt w) = false → ∀ g u a n, g = (s.cell c).arr.geo w → u = s.heldM c p w (.runs audit) → a = (u.cell c).portAddr (wP1 w) →
      n = actBytes g (wFmt w) → (s.cell c).opPoisoned a (wM w * n) = none →
      ∃ t f, exec (.mmul c w) s = .next t ∧ (t.cell c).xe.prog = some { p.next with flags := f } ∧
        (t.cell c).arr.mops = (s.cell c).arr.mops ++ [⟨3, g.u, wT w, wBank w⟩] ∧
        ∀ rows, rows = chunks n (wM w) (memRead (s.cell c).opmem a (wM w * n)) →
          t = (u.modHold c fun y => { y with ins := modAt 0 (· ++ memRead (s.cell c).opmem a (wM w * n)) y.ins }).mmulEnter c w rows
            (rowGroups g (wFmt w) rows) []) ∧
  (∀ (s : State) (c : Nat) (w : W64) (rows : List (List Byte)) (nz : List (List Nat)) (scales : List Byte), ∀ g, g = (s.cell c).arr.geo w →
    (∀ i k, wFmt w = 5 → scaleClash (s.cell c).arr g (wT w) (wR0 w) scales ((s.cell c).arr.bankOf g (wBank w)).scale = some (i, k) →
      s.mmulEnter c w rows nz scales = s.xFault c fScaleMismatch (wT w + 256 * i + 65536 * k)) ∧
    (∀ sp a, wFmt w ≠ 5 → (s.cell c).xhold.choice = (sp, none) →
      a = s.modArr c (fun a => a.modStatus g (wT w) fun q => { q with cls := clsOf q.cls (wFmt w), replays := 0 }) →
      s.mmulEnter c w rows nz scales = ((((a.spill c g (wT w) (wR0 w) (wM w)).mStart c 3 g w).pass c
        ⟨wT w, g.u, wR0 w, wM w, wBank w, wFmt w, sp, rows, nz, scales, 0⟩).retire c .execute)))) ∧
  (∀ (s : State) (c : Nat) (r : Replay), c < s.cells.length → ∀ g st f, g = r.geo (s.cell c).arr.quarter → st = (s.cell c).arr.status g r.tile →
    f = passFeet (s.cell c).arr g r (slabPass r.fmt g.blocks (if r.sparse then r.nz else []) s.free) →
    ∀ rest, rest = (s.cell c).arr.replays.filter (fun y => y.q != r.q) →
    ((st.cls = 3 ∨ st.cls = 4) → (f.any fun l => l.any (·.ovf)) → r.taken < 4 → st.t + 16 ≤ 64 →
      (((s.pass c r).cell c).arr.replays = rest ++ [r] ∧ ((s.pass c r).cell c).arr.acc = (s.cell c).arr.acc)) ∧
    ((st.cls ≠ 3 ∧ st.cls ≠ 4) → ((s.pass c r).cell c).arr.replays = rest)) ∧
  (∀ (c : Nat) (w : W64) (s : State) (p : Prog), MatrixReady s c p 3 w .skipped → w.getLsbD 10 = false → 12 ≤ wP1 w → fmtIsScaled (wFmt w) = false →
    ∃ t, exec (.mmul c w) s = .next t ∧ (t.cell c).xe.prog = some p.next ∧ (t.cell c).arr = (s.cell c).arr ∧ t.cnts = s.cnts ∧
      SameMemory s t ∧ SameOpmem s t)

/-- MDRAIN of one row into operand memory: the row's converted elements. Model's choices: log entries 32 and 37. -/
def Obligations.DrainWritesRow : Prop :=
  ∀ (c : Nat) (w : W64) (s : State) (p : Prog), s.Good → MatrixReady s c p 4 w (.runs false) → wM w = 1 → wMd w = 0 → wRed w = 0 →
    fmtIsScaled (wFmt w) = false → 12 ≤ wP1 w →
    ∀ g u d, g = (s.cell c).arr.geo w → u = s.heldM c p w (.runs false) → d = (u.cell c).drainOne g w false 0 → d.out ≠ [] →
      ∃ t f, exec (.mdrain c w) s = .next t ∧ memRead (t.cell c).opmem ((u.cell c).portAddr (wP1 w)) d.out.length = d.out ∧
        t.cnt (kCell c (cMx 5)) = s.cnt (kCell c (cMx 5)) + 1 ∧
        (t.cell c).arr.mops = (s.cell c).arr.mops ++ [⟨4, g.u, wT w, wBank w⟩] ∧ (t.cell c).xe.prog = some { p.next with flags := f } ∧ SameMemory s t

/-- Lane e is the instruction's function of the sources' elements e; a masked lane keeps its value, or is 0 with Z. Model's choices: log entries 41.
-/
def Obligations.VectorLaneResults : Prop :=
  ∀ (x : CellSt) (w : W64) (o : VOut), tblWf (fun _ => (0 : W32)) x.vec.vt →
    ∀ q ∈ ([(0x00, fun a _ => a), (0x01, f32Add), (0x02, f32Sub), (0x03, f32Mul), (0x05, f32Max), (0x06, f32Min), (0x09, fun a b => a + b),
        (0x0A, fun a b => a - b), (0x0B, fun a b => a * b), (0x0C, fun a b => if a.toInt < b.toInt then b else a),
        (0x0D, fun a b => if b.toInt < a.toInt then b else a), (0x0E, fun a b => a &&& b), (0x0F, fun a b => a ||| b), (0x10, fun a b => a ^^^ b),
        (0x11, fun a b => a <<< (b.toNat % 32)), (0x12, fun a b => a >>> (b.toNat % 32)), (0x13, fun a b => a.sshiftRight (b.toNat % 32))] :
        List (Nat × (W32 → W32 → W32))),
      x.vElt q.1 w = .ok o → ∀ n, n = vCount x.vec (srcIsAcc (wSa w)) w →
        (∀ e, e < n → tblGet 0 (1024 * wVd w + e) o.fin.vt =
          if x.vec.live w e then q.2 (x.srcAt e (wSa w)) (x.srcAt e (wSb w)) else if wZ w then 0 else x.vec.lane (1024 * wVd w + e)) ∧
        (∀ k, k < 1024 * wVd w ∨ 1024 * wVd w + n ≤ k → tblGet 0 k o.fin.vt = x.vec.lane k) ∧
        o.fin.vm = x.vec.vm ∧ o.fin.vl = x.vec.vl ∧ o.fin.store = none ∧ o.fin.post = none

/-- A completion is its queue's youngest held one; a closed session gets none; settling changes nothing where nothing waits. -/
def Obligations.CompletionIsHeld : Prop :=
  (∀ (s t : State) (q : Nat) (n : W32) (c : QCmd) (st : Nat) (b : List Byte), t = s.complete q n c st b →
    (s.eth.session = none → t = s) ∧
    (∀ x, s.eth.session = some x → x.num ≠ n → t = s) ∧
    (∀ x, s.eth.session = some x → x.num = n → q < x.queues.length → 0 < x.w → ∃ y d,
      t.eth.session = some y ∧ y.num = x.num ∧ (y.queue q).txNext = (x.queue q).txNext + 1 ∧ (y.queue q).held.getLast? = some d ∧
      d.seq = (x.queue q).txNext ∧ d.cmdSeq = c.seq ∧ d.opc = c.opc ∧ d.tag = c.tag ∧ d.status = st ∧ d.payload = b ∧ d.acked = false ∧
      (y.queue q).held.length ≤ x.w ∧ (∀ k, k ≠ q → y.queue k = x.queue k) ∧ t.cells = s.cells ∧ t.mem = s.mem ∧ t.scaler = s.scaler ∧ t.reqs = s.reqs)) ∧
  (∀ s : State, s.Calm → s.settle = s)

/-- A granule reads as written; no other granule changes; a write of part keeps the other bytes. Model's choices: log entries 69 and 70. -/
def Obligations.GranuleReadAfterWrite : Prop :=
  ∀ (s : State) (la : Nat) (d : BitVec 512) (p : Bool), memWf s.mem →
    (∀ t, t = s.writeGranule la d (BitVec.allOnes 64) p →
      t.granule la = d ∧ (∀ k, k ≠ la → t.granule k = s.granule k) ∧ memWf t.mem ∧
      (tblWf (fun _ => false) s.memPoison → t.granulePoison la = p)) ∧
    (∀ en t, badSymbols (tblGet 0 la s.memUpset) ≤ 2 → t = s.writeGranule la d en p → ∀ i, i < 64 → byteAt (granBytes (t.granule la)) i =
      if en.getLsbD i then byteAt (granBytes d) i else byteAt (granBytes (s.granule la)) i) ∧
    (tblGet 0 la s.memUpset = 0 → (s.readGranule la).1.1 = s.granule la ∧ SameMemory s (s.readGranule la).2)

/-- An add to a poisoned granule: no byte changes, it stays poisoned, it is counted, and it is acknowledged. -/
def Obligations.PoisonedAddIsDropped : Prop :=
  ∀ (s : State) (r : Req) (f : FrameRec), s.Good → (s.landing r.lnd).recAt r.frame = some f → f.handle = r.handle → f.plot = r.plot → f.gen = r.gen →
    s.moveFrom r.lnd r.frame = none → s.moveTo r.lnd r.frame = none → s.req r.id = some r → (∀ d k, r.who ≠ .dev d k) → r.wb = false → r.op = .add →
    s.granulePoison r.la →
    (s.serve r).mem = s.mem ∧ (s.serve r).granulePoison r.la ∧
      (s.serve r).cnt (kLnd (laLanding r.la) 5) = s.cnt (kLnd (laLanding r.la) 5) + 1 ∧ ∃ q, (s.serve r).req r.id = some q ∧ q.stage = .answered .ack

/-- A RW field takes its bits clamped, a W1C bit is cleared by 1, every other bit is kept. -/
def Obligations.RegisterWriteRules : Prop :=
  ∀ (a : Nat) (old v : W32),
    (∀ f ∈ regFlds a, fld (plainWrite a old v) (f.lo + f.w - 1) f.lo = Nat.max f.min (Nat.min f.max (fld v (f.lo + f.w - 1) f.lo))) ∧
    (∀ i, i < 32 → (∀ f ∈ regFlds a, i < f.lo ∨ f.lo + f.w ≤ i) →
      (plainWrite a old v).getLsbD i = (old.getLsbD i && !((regW1c a).testBit i && v.getLsbD i)))

/-- SEC_CTRL takes a write over I3C alone; every other register is written alike on every path. -/
def Obligations.SecurityControlWrites : Prop :=
  ∀ (s : State) (v : W32),
    (s.pathWay .jtag rSecCtrl 1 = 4 → exec (.registerWrite .jtag rSecCtrl v) s = .next s) ∧ s.writeRegs false [(rSecCtrl, v)] = s ∧
    (s.pathWay .i3c rSecCtrl 1 = 4 → exec (.registerWrite .i3c rSecCtrl v) s =
      .next ((s.setReg rSecCtrl (plainWrite rSecCtrl (s.reg rSecCtrl) v)).modPower fun x => { x with i3cNak := false })) ∧
    (∀ a, a ≠ rSecCtrl → s.writeReg true a v = s.writeReg false a v)
end

