-- ==== Sys2Proof/Laws/State.lean ====
section
/-! SUPPORT. Laws/State.lean: for every plain update of State, what each field holds after it. All are true by unfolding the update, so
that no later proof has to. -/

namespace Sys2Proof.Machine

variable (s : State)

/-! ## setReg -/

@[simp] theorem State.setReg_pending (a : Nat) (v : W32) : (s.setReg a v).pending = s.pending := rfl
@[simp] theorem State.setReg_timebase (a : Nat) (v : W32) : (s.setReg a v).timebase = s.timebase := rfl
@[simp] theorem State.setReg_tickPeriod (a : Nat) (v : W32) : (s.setReg a v).tickPeriod = s.tickPeriod := rfl
@[simp] theorem State.setReg_regs (a : Nat) (v : W32) : (s.setReg a v).regs = tblSet (regReset a) a v s.regs := rfl
@[simp] theorem State.setReg_cnts (a : Nat) (v : W32) : (s.setReg a v).cnts = s.cnts := rfl
@[simp] theorem State.setReg_latches (a : Nat) (v : W32) : (s.setReg a v).latches = s.latches := rfl
@[simp] theorem State.setReg_snapTimes (a : Nat) (v : W32) : (s.setReg a v).snapTimes = s.snapTimes := rfl
@[simp] theorem State.setReg_cells (a : Nat) (v : W32) : (s.setReg a v).cells = s.cells := rfl
@[simp] theorem State.setReg_reqs (a : Nat) (v : W32) : (s.setReg a v).reqs = s.reqs := rfl
@[simp] theorem State.setReg_walks (a : Nat) (v : W32) : (s.setReg a v).walks = s.walks := rfl
@[simp] theorem State.setReg_nextReq (a : Nat) (v : W32) : (s.setReg a v).nextReq = s.nextReq := rfl
@[simp] theorem State.setReg_mem (a : Nat) (v : W32) : (s.setReg a v).mem = s.mem := rfl
@[simp] theorem State.setReg_memPoison (a : Nat) (v : W32) : (s.setReg a v).memPoison = s.memPoison := rfl
@[simp] theorem State.setReg_memUpset (a : Nat) (v : W32) : (s.setReg a v).memUpset = s.memUpset := rfl
@[simp] theorem State.setReg_landings (a : Nat) (v : W32) : (s.setReg a v).landings = s.landings := rfl
@[simp] theorem State.setReg_scaler (a : Nat) (v : W32) : (s.setReg a v).scaler = s.scaler := rfl
@[simp] theorem State.setReg_bars (a : Nat) (v : W32) : (s.setReg a v).bars = s.bars := rfl
@[simp] theorem State.setReg_barOut (a : Nat) (v : W32) : (s.setReg a v).barOut = s.barOut := rfl
@[simp] theorem State.setReg_fab (a : Nat) (v : W32) : (s.setReg a v).fab = s.fab := rfl
@[simp] theorem State.setReg_eth (a : Nat) (v : W32) : (s.setReg a v).eth = s.eth := rfl
@[simp] theorem State.setReg_flash (a : Nat) (v : W32) : (s.setReg a v).flash = s.flash := rfl
@[simp] theorem State.setReg_sec (a : Nat) (v : W32) : (s.setReg a v).sec = s.sec := rfl
@[simp] theorem State.setReg_power (a : Nat) (v : W32) : (s.setReg a v).power = s.power := rfl
@[simp] theorem State.setReg_errSeen (a : Nat) (v : W32) : (s.setReg a v).errSeen = s.errSeen := rfl
@[simp] theorem State.setReg_supQ (a : Nat) (v : W32) : (s.setReg a v).supQ = s.supQ := rfl
@[simp] theorem State.setReg_recent (a : Nat) (v : W32) : (s.setReg a v).recent = s.recent := rfl
@[simp] theorem State.setReg_muted (a : Nat) (v : W32) : (s.setReg a v).muted = s.muted := rfl
@[simp] theorem State.setReg_free (a : Nat) (v : W32) : (s.setReg a v).free = s.free := rfl

/-! ## setRegF -/

@[simp] theorem State.setRegF_pending (a hi lo x : Nat) : (s.setRegF a hi lo x).pending = s.pending := rfl
@[simp] theorem State.setRegF_timebase (a hi lo x : Nat) : (s.setRegF a hi lo x).timebase = s.timebase := rfl
@[simp] theorem State.setRegF_tickPeriod (a hi lo x : Nat) : (s.setRegF a hi lo x).tickPeriod = s.tickPeriod := rfl
@[simp] theorem State.setRegF_regs (a hi lo x : Nat) : (s.setRegF a hi lo x).regs = (s.setReg a (setFld (s.reg a) hi lo x)).regs := rfl
@[simp] theorem State.setRegF_cnts (a hi lo x : Nat) : (s.setRegF a hi lo x).cnts = s.cnts := rfl
@[simp] theorem State.setRegF_latches (a hi lo x : Nat) : (s.setRegF a hi lo x).latches = s.latches := rfl
@[simp] theorem State.setRegF_snapTimes (a hi lo x : Nat) : (s.setRegF a hi lo x).snapTimes = s.snapTimes := rfl
@[simp] theorem State.setRegF_cells (a hi lo x : Nat) : (s.setRegF a hi lo x).cells = s.cells := rfl
@[simp] theorem State.setRegF_reqs (a hi lo x : Nat) : (s.setRegF a hi lo x).reqs = s.reqs := rfl
@[simp] theorem State.setRegF_walks (a hi lo x : Nat) : (s.setRegF a hi lo x).walks = s.walks := rfl
@[simp] theorem State.setRegF_nextReq (a hi lo x : Nat) : (s.setRegF a hi lo x).nextReq = s.nextReq := rfl
@[simp] theorem State.setRegF_mem (a hi lo x : Nat) : (s.setRegF a hi lo x).mem = s.mem := rfl
@[simp] theorem State.setRegF_memPoison (a hi lo x : Nat) : (s.setRegF a hi lo x).memPoison = s.memPoison := rfl
@[simp] theorem State.setRegF_memUpset (a hi lo x : Nat) : (s.setRegF a hi lo x).memUpset = s.memUpset := rfl
@[simp] theorem State.setRegF_landings (a hi lo x : Nat) : (s.setRegF a hi lo x).landings = s.landings := rfl
@[simp] theorem State.setRegF_scaler (a hi lo x : Nat) : (s.setRegF a hi lo x).scaler = s.scaler := rfl
@[simp] theorem State.setRegF_bars (a hi lo x : Nat) : (s.setRegF a hi lo x).bars = s.bars := rfl
@[simp] theorem State.setRegF_barOut (a hi lo x : Nat) : (s.setRegF a hi lo x).barOut = s.barOut := rfl
@[simp] theorem State.setRegF_fab (a hi lo x : Nat) : (s.setRegF a hi lo x).fab = s.fab := rfl
@[simp] theorem State.setRegF_eth (a hi lo x : Nat) : (s.setRegF a hi lo x).eth = s.eth := rfl
@[simp] theorem State.setRegF_flash (a hi lo x : Nat) : (s.setRegF a hi lo x).flash = s.flash := rfl
@[simp] theorem State.setRegF_sec (a hi lo x : Nat) : (s.setRegF a hi lo x).sec = s.sec := rfl
@[simp] theorem State.setRegF_power (a hi lo x : Nat) : (s.setRegF a hi lo x).power = s.power := rfl
@[simp] theorem State.setRegF_errSeen (a hi lo x : Nat) : (s.setRegF a hi lo x).errSeen = s.errSeen := rfl
@[simp] theorem State.setRegF_supQ (a hi lo x : Nat) : (s.setRegF a hi lo x).supQ = s.supQ := rfl
@[simp] theorem State.setRegF_recent (a hi lo x : Nat) : (s.setRegF a hi lo x).recent = s.recent := rfl
@[simp] theorem State.setRegF_muted (a hi lo x : Nat) : (s.setRegF a hi lo x).muted = s.muted := rfl
@[simp] theorem State.setRegF_free (a hi lo x : Nat) : (s.setRegF a hi lo x).free = s.free := rfl

/-! ## setBits -/

@[simp] theorem State.setBits_pending (a : Nat) (m : W32) : (s.setBits a m).pending = s.pending := rfl
@[simp] theorem State.setBits_timebase (a : Nat) (m : W32) : (s.setBits a m).timebase = s.timebase := rfl
@[simp] theorem State.setBits_tickPeriod (a : Nat) (m : W32) : (s.setBits a m).tickPeriod = s.tickPeriod := rfl
@[simp] theorem State.setBits_regs (a : Nat) (m : W32) : (s.setBits a m).regs = (s.setReg a (s.reg a ||| m)).regs := rfl
@[simp] theorem State.setBits_cnts (a : Nat) (m : W32) : (s.setBits a m).cnts = s.cnts := rfl
@[simp] theorem State.setBits_latches (a : Nat) (m : W32) : (s.setBits a m).latches = s.latches := rfl
@[simp] theorem State.setBits_snapTimes (a : Nat) (m : W32) : (s.setBits a m).snapTimes = s.snapTimes := rfl
@[simp] theorem State.setBits_cells (a : Nat) (m : W32) : (s.setBits a m).cells = s.cells := rfl
@[simp] theorem State.setBits_reqs (a : Nat) (m : W32) : (s.setBits a m).reqs = s.reqs := rfl
@[simp] theorem State.setBits_walks (a : Nat) (m : W32) : (s.setBits a m).walks = s.walks := rfl
@[simp] theorem State.setBits_nextReq (a : Nat) (m : W32) : (s.setBits a m).nextReq = s.nextReq := rfl
@[simp] theorem State.setBits_mem (a : Nat) (m : W32) : (s.setBits a m).mem = s.mem := rfl
@[simp] theorem State.setBits_memPoison (a : Nat) (m : W32) : (s.setBits a m).memPoison = s.memPoison := rfl
@[simp] theorem State.setBits_memUpset (a : Nat) (m : W32) : (s.setBits a m).memUpset = s.memUpset := rfl
@[simp] theorem State.setBits_landings (a : Nat) (m : W32) : (s.setBits a m).landings = s.landings := rfl
@[simp] theorem State.setBits_scaler (a : Nat) (m : W32) : (s.setBits a m).scaler = s.scaler := rfl
@[simp] theorem State.setBits_bars (a : Nat) (m : W32) : (s.setBits a m).bars = s.bars := rfl
@[simp] theorem State.setBits_barOut (a : Nat) (m : W32) : (s.setBits a m).barOut = s.barOut := rfl
@[simp] theorem State.setBits_fab (a : Nat) (m : W32) : (s.setBits a m).fab = s.fab := rfl
@[simp] theorem State.setBits_eth (a : Nat) (m : W32) : (s.setBits a m).eth = s.eth := rfl
@[simp] theorem State.setBits_flash (a : Nat) (m : W32) : (s.setBits a m).flash = s.flash := rfl
@[simp] theorem State.setBits_sec (a : Nat) (m : W32) : (s.setBits a m).sec = s.sec := rfl
@[simp] theorem State.setBits_power (a : Nat) (m : W32) : (s.setBits a m).power = s.power := rfl
@[simp] theorem State.setBits_errSeen (a : Nat) (m : W32) : (s.setBits a m).errSeen = s.errSeen := rfl
@[simp] theorem State.setBits_supQ (a : Nat) (m : W32) : (s.setBits a m).supQ = s.supQ := rfl
@[simp] theorem State.setBits_recent (a : Nat) (m : W32) : (s.setBits a m).recent = s.recent := rfl
@[simp] theorem State.setBits_muted (a : Nat) (m : W32) : (s.setBits a m).muted = s.muted := rfl
@[simp] theorem State.setBits_free (a : Nat) (m : W32) : (s.setBits a m).free = s.free := rfl

/-! ## modCell -/

@[simp] theorem State.modCell_pending (c : Nat) (f : CellSt → CellSt) : (s.modCell c f).pending = s.pending := rfl
@[simp] theorem State.modCell_timebase (c : Nat) (f : CellSt → CellSt) : (s.modCell c f).timebase = s.timebase := rfl
@[simp] theorem State.modCell_tickPeriod (c : Nat) (f : CellSt → CellSt) : (s.modCell c f).tickPeriod = s.tickPeriod := rfl
@[simp] theorem State.modCell_regs (c : Nat) (f : CellSt → CellSt) : (s.modCell c f).regs = s.regs := rfl
@[simp] theorem State.modCell_cnts (c : Nat) (f : CellSt → CellSt) : (s.modCell c f).cnts = s.cnts := rfl
@[simp] theorem State.modCell_latches (c : Nat) (f : CellSt → CellSt) : (s.modCell c f).latches = s.latches := rfl
@[simp] theorem State.modCell_snapTimes (c : Nat) (f : CellSt → CellSt) : (s.modCell c f).snapTimes = s.snapTimes := rfl
@[simp] theorem State.modCell_cells (c : Nat) (f : CellSt → CellSt) : (s.modCell c f).cells = modAt c f s.cells := rfl
@[simp] theorem State.modCell_reqs (c : Nat) (f : CellSt → CellSt) : (s.modCell c f).reqs = s.reqs := rfl
@[simp] theorem State.modCell_walks (c : Nat) (f : CellSt → CellSt) : (s.modCell c f).walks = s.walks := rfl
@[simp] theorem State.modCell_nextReq (c : Nat) (f : CellSt → CellSt) : (s.modCell c f).nextReq = s.nextReq := rfl
@[simp] theorem State.modCell_mem (c : Nat) (f : CellSt → CellSt) : (s.modCell c f).mem = s.mem := rfl
@[simp] theorem State.modCell_memPoison (c : Nat) (f : CellSt → CellSt) : (s.modCell c f).memPoison = s.memPoison := rfl
@[simp] theorem State.modCell_memUpset (c : Nat) (f : CellSt → CellSt) : (s.modCell c f).memUpset = s.memUpset := rfl
@[simp] theorem State.modCell_landings (c : Nat) (f : CellSt → CellSt) : (s.modCell c f).landings = s.landings := rfl
@[simp] theorem State.modCell_scaler (c : Nat) (f : CellSt → CellSt) : (s.modCell c f).scaler = s.scaler := rfl
@[simp] theorem State.modCell_bars (c : Nat) (f : CellSt → CellSt) : (s.modCell c f).bars = s.bars := rfl
@[simp] theorem State.modCell_barOut (c : Nat) (f : CellSt → CellSt) : (s.modCell c f).barOut = s.barOut := rfl
@[simp] theorem State.modCell_fab (c : Nat) (f : CellSt → CellSt) : (s.modCell c f).fab = s.fab := rfl
@[simp] theorem State.modCell_eth (c : Nat) (f : CellSt → CellSt) : (s.modCell c f).eth = s.eth := rfl
@[simp] theorem State.modCell_flash (c : Nat) (f : CellSt → CellSt) : (s.modCell c f).flash = s.flash := rfl
@[simp] theorem State.modCell_sec (c : Nat) (f : CellSt → CellSt) : (s.modCell c f).sec = s.sec := rfl
@[simp] theorem State.modCell_power (c : Nat) (f : CellSt → CellSt) : (s.modCell c f).power = s.power := rfl
@[simp] theorem State.modCell_errSeen (c : Nat) (f : CellSt → CellSt) : (s.modCell c f).errSeen = s.errSeen := rfl
@[simp] theorem State.modCell_supQ (c : Nat) (f : CellSt → CellSt) : (s.modCell c f).supQ = s.supQ := rfl
@[simp] theorem State.modCell_recent (c : Nat) (f : CellSt → CellSt) : (s.modCell c f).recent = s.recent := rfl
@[simp] theorem State.modCell_muted (c : Nat) (f : CellSt → CellSt) : (s.modCell c f).muted = s.muted := rfl
@[simp] theorem State.modCell_free (c : Nat) (f : CellSt → CellSt) : (s.modCell c f).free = s.free := rfl

/-! ## setCell -/

@[simp] theorem State.setCell_pending (c : Nat) (x : CellSt) : (s.setCell c x).pending = s.pending := rfl
@[simp] theorem State.setCell_timebase (c : Nat) (x : CellSt) : (s.setCell c x).timebase = s.timebase := rfl
@[simp] theorem State.setCell_tickPeriod (c : Nat) (x : CellSt) : (s.setCell c x).tickPeriod = s.tickPeriod := rfl
@[simp] theorem State.setCell_regs (c : Nat) (x : CellSt) : (s.setCell c x).regs = s.regs := rfl
@[simp] theorem State.setCell_cnts (c : Nat) (x : CellSt) : (s.setCell c x).cnts = s.cnts := rfl
@[simp] theorem State.setCell_latches (c : Nat) (x : CellSt) : (s.setCell c x).latches = s.latches := rfl
@[simp] theorem State.setCell_snapTimes (c : Nat) (x : CellSt) : (s.setCell c x).snapTimes = s.snapTimes := rfl
@[simp] theorem State.setCell_cells (c : Nat) (x : CellSt) : (s.setCell c x).cells = modAt c (fun _ => x) s.cells := rfl
@[simp] theorem State.setCell_reqs (c : Nat) (x : CellSt) : (s.setCell c x).reqs = s.reqs := rfl
@[simp] theorem State.setCell_walks (c : Nat) (x : CellSt) : (s.setCell c x).walks = s.walks := rfl
@[simp] theorem State.setCell_nextReq (c : Nat) (x : CellSt) : (s.setCell c x).nextReq = s.nextReq := rfl
@[simp] theorem State.setCell_mem (c : Nat) (x : CellSt) : (s.setCell c x).mem = s.mem := rfl
@[simp] theorem State.setCell_memPoison (c : Nat) (x : CellSt) : (s.setCell c x).memPoison = s.memPoison := rfl
@[simp] theorem State.setCell_memUpset (c : Nat) (x : CellSt) : (s.setCell c x).memUpset = s.memUpset := rfl
@[simp] theorem State.setCell_landings (c : Nat) (x : CellSt) : (s.setCell c x).landings = s.landings := rfl
@[simp] theorem State.setCell_scaler (c : Nat) (x : CellSt) : (s.setCell c x).scaler = s.scaler := rfl
@[simp] theorem State.setCell_bars (c : Nat) (x : CellSt) : (s.setCell c x).bars = s.bars := rfl
@[simp] theorem State.setCell_barOut (c : Nat) (x : CellSt) : (s.setCell c x).barOut = s.barOut := rfl
@[simp] theorem State.setCell_fab (c : Nat) (x : CellSt) : (s.setCell c x).fab = s.fab := rfl
@[simp] theorem State.setCell_eth (c : Nat) (x : CellSt) : (s.setCell c x).eth = s.eth := rfl
@[simp] theorem State.setCell_flash (c : Nat) (x : CellSt) : (s.setCell c x).flash = s.flash := rfl
@[simp] theorem State.setCell_sec (c : Nat) (x : CellSt) : (s.setCell c x).sec = s.sec := rfl
@[simp] theorem State.setCell_power (c : Nat) (x : CellSt) : (s.setCell c x).power = s.power := rfl
@[simp] theorem State.setCell_errSeen (c : Nat) (x : CellSt) : (s.setCell c x).errSeen = s.errSeen := rfl
@[simp] theorem State.setCell_supQ (c : Nat) (x : CellSt) : (s.setCell c x).supQ = s.supQ := rfl
@[simp] theorem State.setCell_recent (c : Nat) (x : CellSt) : (s.setCell c x).recent = s.recent := rfl
@[simp] theorem State.setCell_muted (c : Nat) (x : CellSt) : (s.setCell c x).muted = s.muted := rfl
@[simp] theorem State.setCell_free (c : Nat) (x : CellSt) : (s.setCell c x).free = s.free := rfl

/-! ## modThread -/

@[simp] theorem State.modThread_pending (c t : Nat) (f : Thread → Thread) : (s.modThread c t f).pending = s.pending := rfl
@[simp] theorem State.modThread_timebase (c t : Nat) (f : Thread → Thread) : (s.modThread c t f).timebase = s.timebase := rfl
@[simp] theorem State.modThread_tickPeriod (c t : Nat) (f : Thread → Thread) : (s.modThread c t f).tickPeriod = s.tickPeriod := rfl
@[simp] theorem State.modThread_regs (c t : Nat) (f : Thread → Thread) : (s.modThread c t f).regs = s.regs := rfl
@[simp] theorem State.modThread_cnts (c t : Nat) (f : Thread → Thread) : (s.modThread c t f).cnts = s.cnts := rfl
@[simp] theorem State.modThread_latches (c t : Nat) (f : Thread → Thread) : (s.modThread c t f).latches = s.latches := rfl
@[simp] theorem State.modThread_snapTimes (c t : Nat) (f : Thread → Thread) : (s.modThread c t f).snapTimes = s.snapTimes := rfl
@[simp] theorem State.modThread_cells (c t : Nat) (f : Thread → Thread) : (s.modThread c t f).cells = modAt c (fun x => { x with threads := modAt t f x.threads }) s.cells := rfl
@[simp] theorem State.modThread_reqs (c t : Nat) (f : Thread → Thread) : (s.modThread c t f).reqs = s.reqs := rfl
@[simp] theorem State.modThread_walks (c t : Nat) (f : Thread → Thread) : (s.modThread c t f).walks = s.walks := rfl
@[simp] theorem State.modThread_nextReq (c t : Nat) (f : Thread → Thread) : (s.modThread c t f).nextReq = s.nextReq := rfl
@[simp] theorem State.modThread_mem (c t : Nat) (f : Thread → Thread) : (s.modThread c t f).mem = s.mem := rfl
@[simp] theorem State.modThread_memPoison (c t : Nat) (f : Thread → Thread) : (s.modThread c t f).memPoison = s.memPoison := rfl
@[simp] theorem State.modThread_memUpset (c t : Nat) (f : Thread → Thread) : (s.modThread c t f).memUpset = s.memUpset := rfl
@[simp] theorem State.modThread_landings (c t : Nat) (f : Thread → Thread) : (s.modThread c t f).landings = s.landings := rfl
@[simp] theorem State.modThread_scaler (c t : Nat) (f : Thread → Thread) : (s.modThread c t f).scaler = s.scaler := rfl
@[simp] theorem State.modThread_bars (c t : Nat) (f : Thread → Thread) : (s.modThread c t f).bars = s.bars := rfl
@[simp] theorem State.modThread_barOut (c t : Nat) (f : Thread → Thread) : (s.modThread c t f).barOut = s.barOut := rfl
@[simp] theorem State.modThread_fab (c t : Nat) (f : Thread → Thread) : (s.modThread c t f).fab = s.fab := rfl
@[simp] theorem State.modThread_eth (c t : Nat) (f : Thread → Thread) : (s.modThread c t f).eth = s.eth := rfl
@[simp] theorem State.modThread_flash (c t : Nat) (f : Thread → Thread) : (s.modThread c t f).flash = s.flash := rfl
@[simp] theorem State.modThread_sec (c t : Nat) (f : Thread → Thread) : (s.modThread c t f).sec = s.sec := rfl
@[simp] theorem State.modThread_power (c t : Nat) (f : Thread → Thread) : (s.modThread c t f).power = s.power := rfl
@[simp] theorem State.modThread_errSeen (c t : Nat) (f : Thread → Thread) : (s.modThread c t f).errSeen = s.errSeen := rfl
@[simp] theorem State.modThread_supQ (c t : Nat) (f : Thread → Thread) : (s.modThread c t f).supQ = s.supQ := rfl
@[simp] theorem State.modThread_recent (c t : Nat) (f : Thread → Thread) : (s.modThread c t f).recent = s.recent := rfl
@[simp] theorem State.modThread_muted (c t : Nat) (f : Thread → Thread) : (s.modThread c t f).muted = s.muted := rfl
@[simp] theorem State.modThread_free (c t : Nat) (f : Thread → Thread) : (s.modThread c t f).free = s.free := rfl

/-! ## setBarCell -/

@[simp] theorem State.setBarCell_pending (c n : Nat) (b : BarCell) : (s.setBarCell c n b).pending = s.pending := rfl
@[simp] theorem State.setBarCell_timebase (c n : Nat) (b : BarCell) : (s.setBarCell c n b).timebase = s.timebase := rfl
@[simp] theorem State.setBarCell_tickPeriod (c n : Nat) (b : BarCell) : (s.setBarCell c n b).tickPeriod = s.tickPeriod := rfl
@[simp] theorem State.setBarCell_regs (c n : Nat) (b : BarCell) : (s.setBarCell c n b).regs = s.regs := rfl
@[simp] theorem State.setBarCell_cnts (c n : Nat) (b : BarCell) : (s.setBarCell c n b).cnts = s.cnts := rfl
@[simp] theorem State.setBarCell_latches (c n : Nat) (b : BarCell) : (s.setBarCell c n b).latches = s.latches := rfl
@[simp] theorem State.setBarCell_snapTimes (c n : Nat) (b : BarCell) : (s.setBarCell c n b).snapTimes = s.snapTimes := rfl
@[simp] theorem State.setBarCell_cells (c n : Nat) (b : BarCell) : (s.setBarCell c n b).cells = modAt c (fun x => { x with bars := tblSet BarCell.reset n b x.bars }) s.cells := rfl
@[simp] theorem State.setBarCell_reqs (c n : Nat) (b : BarCell) : (s.setBarCell c n b).reqs = s.reqs := rfl
@[simp] theorem State.setBarCell_walks (c n : Nat) (b : BarCell) : (s.setBarCell c n b).walks = s.walks := rfl
@[simp] theorem State.setBarCell_nextReq (c n : Nat) (b : BarCell) : (s.setBarCell c n b).nextReq = s.nextReq := rfl
@[simp] theorem State.setBarCell_mem (c n : Nat) (b : BarCell) : (s.setBarCell c n b).mem = s.mem := rfl
@[simp] theorem State.setBarCell_memPoison (c n : Nat) (b : BarCell) : (s.setBarCell c n b).memPoison = s.memPoison := rfl
@[simp] theorem State.setBarCell_memUpset (c n : Nat) (b : BarCell) : (s.setBarCell c n b).memUpset = s.memUpset := rfl
@[simp] theorem State.setBarCell_landings (c n : Nat) (b : BarCell) : (s.setBarCell c n b).landings = s.landings := rfl
@[simp] theorem State.setBarCell_scaler (c n : Nat) (b : BarCell) : (s.setBarCell c n b).scaler = s.scaler := rfl
@[simp] theorem State.setBarCell_bars (c n : Nat) (b : BarCell) : (s.setBarCell c n b).bars = s.bars := rfl
@[simp] theorem State.setBarCell_barOut (c n : Nat) (b : BarCell) : (s.setBarCell c n b).barOut = s.barOut := rfl
@[simp] theorem State.setBarCell_fab (c n : Nat) (b : BarCell) : (s.setBarCell c n b).fab = s.fab := rfl
@[simp] theorem State.setBarCell_eth (c n : Nat) (b : BarCell) : (s.setBarCell c n b).eth = s.eth := rfl
@[simp] theorem State.setBarCell_flash (c n : Nat) (b : BarCell) : (s.setBarCell c n b).flash = s.flash := rfl
@[simp] theorem State.setBarCell_sec (c n : Nat) (b : BarCell) : (s.setBarCell c n b).sec = s.sec := rfl
@[simp] theorem State.setBarCell_power (c n : Nat) (b : BarCell) : (s.setBarCell c n b).power = s.power := rfl
@[simp] theorem State.setBarCell_errSeen (c n : Nat) (b : BarCell) : (s.setBarCell c n b).errSeen = s.errSeen := rfl
@[simp] theorem State.setBarCell_supQ (c n : Nat) (b : BarCell) : (s.setBarCell c n b).supQ = s.supQ := rfl
@[simp] theorem State.setBarCell_recent (c n : Nat) (b : BarCell) : (s.setBarCell c n b).recent = s.recent := rfl
@[simp] theorem State.setBarCell_muted (c n : Nat) (b : BarCell) : (s.setBarCell c n b).muted = s.muted := rfl
@[simp] theorem State.setBarCell_free (c n : Nat) (b : BarCell) : (s.setBarCell c n b).free = s.free := rfl

/-! ## modLanding -/

@[simp] theorem State.modLanding_pending (l : Nat) (f : Landing → Landing) : (s.modLanding l f).pending = s.pending := rfl
@[simp] theorem State.modLanding_timebase (l : Nat) (f : Landing → Landing) : (s.modLanding l f).timebase = s.timebase := rfl
@[simp] theorem State.modLanding_tickPeriod (l : Nat) (f : Landing → Landing) : (s.modLanding l f).tickPeriod = s.tickPeriod := rfl
@[simp] theorem State.modLanding_regs (l : Nat) (f : Landing → Landing) : (s.modLanding l f).regs = s.regs := rfl
@[simp] theorem State.modLanding_cnts (l : Nat) (f : Landing → Landing) : (s.modLanding l f).cnts = s.cnts := rfl
@[simp] theorem State.modLanding_latches (l : Nat) (f : Landing → Landing) : (s.modLanding l f).latches = s.latches := rfl
@[simp] theorem State.modLanding_snapTimes (l : Nat) (f : Landing → Landing) : (s.modLanding l f).snapTimes = s.snapTimes := rfl
@[simp] theorem State.modLanding_cells (l : Nat) (f : Landing → Landing) : (s.modLanding l f).cells = s.cells := rfl
@[simp] theorem State.modLanding_reqs (l : Nat) (f : Landing → Landing) : (s.modLanding l f).reqs = s.reqs := rfl
@[simp] theorem State.modLanding_walks (l : Nat) (f : Landing → Landing) : (s.modLanding l f).walks = s.walks := rfl
@[simp] theorem State.modLanding_nextReq (l : Nat) (f : Landing → Landing) : (s.modLanding l f).nextReq = s.nextReq := rfl
@[simp] theorem State.modLanding_mem (l : Nat) (f : Landing → Landing) : (s.modLanding l f).mem = s.mem := rfl
@[simp] theorem State.modLanding_memPoison (l : Nat) (f : Landing → Landing) : (s.modLanding l f).memPoison = s.memPoison := rfl
@[simp] theorem State.modLanding_memUpset (l : Nat) (f : Landing → Landing) : (s.modLanding l f).memUpset = s.memUpset := rfl
@[simp] theorem State.modLanding_landings (l : Nat) (f : Landing → Landing) : (s.modLanding l f).landings = modAt l f s.landings := rfl
@[simp] theorem State.modLanding_scaler (l : Nat) (f : Landing → Landing) : (s.modLanding l f).scaler = s.scaler := rfl
@[simp] theorem State.modLanding_bars (l : Nat) (f : Landing → Landing) : (s.modLanding l f).bars = s.bars := rfl
@[simp] theorem State.modLanding_barOut (l : Nat) (f : Landing → Landing) : (s.modLanding l f).barOut = s.barOut := rfl
@[simp] theorem State.modLanding_fab (l : Nat) (f : Landing → Landing) : (s.modLanding l f).fab = s.fab := rfl
@[simp] theorem State.modLanding_eth (l : Nat) (f : Landing → Landing) : (s.modLanding l f).eth = s.eth := rfl
@[simp] theorem State.modLanding_flash (l : Nat) (f : Landing → Landing) : (s.modLanding l f).flash = s.flash := rfl
@[simp] theorem State.modLanding_sec (l : Nat) (f : Landing → Landing) : (s.modLanding l f).sec = s.sec := rfl
@[simp] theorem State.modLanding_power (l : Nat) (f : Landing → Landing) : (s.modLanding l f).power = s.power := rfl
@[simp] theorem State.modLanding_errSeen (l : Nat) (f : Landing → Landing) : (s.modLanding l f).errSeen = s.errSeen := rfl
@[simp] theorem State.modLanding_supQ (l : Nat) (f : Landing → Landing) : (s.modLanding l f).supQ = s.supQ := rfl
@[simp] theorem State.modLanding_recent (l : Nat) (f : Landing → Landing) : (s.modLanding l f).recent = s.recent := rfl
@[simp] theorem State.modLanding_muted (l : Nat) (f : Landing → Landing) : (s.modLanding l f).muted = s.muted := rfl
@[simp] theorem State.modLanding_free (l : Nat) (f : Landing → Landing) : (s.modLanding l f).free = s.free := rfl

/-! ## modFab -/

@[simp] theorem State.modFab_pending (f : FabSt → FabSt) : (s.modFab f).pending = s.pending := rfl
@[simp] theorem State.modFab_timebase (f : FabSt → FabSt) : (s.modFab f).timebase = s.timebase := rfl
@[simp] theorem State.modFab_tickPeriod (f : FabSt → FabSt) : (s.modFab f).tickPeriod = s.tickPeriod := rfl
@[simp] theorem State.modFab_regs (f : FabSt → FabSt) : (s.modFab f).regs = s.regs := rfl
@[simp] theorem State.modFab_cnts (f : FabSt → FabSt) : (s.modFab f).cnts = s.cnts := rfl
@[simp] theorem State.modFab_latches (f : FabSt → FabSt) : (s.modFab f).latches = s.latches := rfl
@[simp] theorem State.modFab_snapTimes (f : FabSt → FabSt) : (s.modFab f).snapTimes = s.snapTimes := rfl
@[simp] theorem State.modFab_cells (f : FabSt → FabSt) : (s.modFab f).cells = s.cells := rfl
@[simp] theorem State.modFab_reqs (f : FabSt → FabSt) : (s.modFab f).reqs = s.reqs := rfl
@[simp] theorem State.modFab_walks (f : FabSt → FabSt) : (s.modFab f).walks = s.walks := rfl
@[simp] theorem State.modFab_nextReq (f : FabSt → FabSt) : (s.modFab f).nextReq = s.nextReq := rfl
@[simp] theorem State.modFab_mem (f : FabSt → FabSt) : (s.modFab f).mem = s.mem := rfl
@[simp] theorem State.modFab_memPoison (f : FabSt → FabSt) : (s.modFab f).memPoison = s.memPoison := rfl
@[simp] theorem State.modFab_memUpset (f : FabSt → FabSt) : (s.modFab f).memUpset = s.memUpset := rfl
@[simp] theorem State.modFab_landings (f : FabSt → FabSt) : (s.modFab f).landings = s.landings := rfl
@[simp] theorem State.modFab_scaler (f : FabSt → FabSt) : (s.modFab f).scaler = s.scaler := rfl
@[simp] theorem State.modFab_bars (f : FabSt → FabSt) : (s.modFab f).bars = s.bars := rfl
@[simp] theorem State.modFab_barOut (f : FabSt → FabSt) : (s.modFab f).barOut = s.barOut := rfl
@[simp] theorem State.modFab_fab (f : FabSt → FabSt) : (s.modFab f).fab = f s.fab := rfl
@[simp] theorem State.modFab_eth (f : FabSt → FabSt) : (s.modFab f).eth = s.eth := rfl
@[simp] theorem State.modFab_flash (f : FabSt → FabSt) : (s.modFab f).flash = s.flash := rfl
@[simp] theorem State.modFab_sec (f : FabSt → FabSt) : (s.modFab f).sec = s.sec := rfl
@[simp] theorem State.modFab_power (f : FabSt → FabSt) : (s.modFab f).power = s.power := rfl
@[simp] theorem State.modFab_errSeen (f : FabSt → FabSt) : (s.modFab f).errSeen = s.errSeen := rfl
@[simp] theorem State.modFab_supQ (f : FabSt → FabSt) : (s.modFab f).supQ = s.supQ := rfl
@[simp] theorem State.modFab_recent (f : FabSt → FabSt) : (s.modFab f).recent = s.recent := rfl
@[simp] theorem State.modFab_muted (f : FabSt → FabSt) : (s.modFab f).muted = s.muted := rfl
@[simp] theorem State.modFab_free (f : FabSt → FabSt) : (s.modFab f).free = s.free := rfl

/-! ## modLink -/

@[simp] theorem State.modLink_pending (l : Nat) (f : Link → Link) : (s.modLink l f).pending = s.pending := rfl
@[simp] theorem State.modLink_timebase (l : Nat) (f : Link → Link) : (s.modLink l f).timebase = s.timebase := rfl
@[simp] theorem State.modLink_tickPeriod (l : Nat) (f : Link → Link) : (s.modLink l f).tickPeriod = s.tickPeriod := rfl
@[simp] theorem State.modLink_regs (l : Nat) (f : Link → Link) : (s.modLink l f).regs = s.regs := rfl
@[simp] theorem State.modLink_cnts (l : Nat) (f : Link → Link) : (s.modLink l f).cnts = s.cnts := rfl
@[simp] theorem State.modLink_latches (l : Nat) (f : Link → Link) : (s.modLink l f).latches = s.latches := rfl
@[simp] theorem State.modLink_snapTimes (l : Nat) (f : Link → Link) : (s.modLink l f).snapTimes = s.snapTimes := rfl
@[simp] theorem State.modLink_cells (l : Nat) (f : Link → Link) : (s.modLink l f).cells = s.cells := rfl
@[simp] theorem State.modLink_reqs (l : Nat) (f : Link → Link) : (s.modLink l f).reqs = s.reqs := rfl
@[simp] theorem State.modLink_walks (l : Nat) (f : Link → Link) : (s.modLink l f).walks = s.walks := rfl
@[simp] theorem State.modLink_nextReq (l : Nat) (f : Link → Link) : (s.modLink l f).nextReq = s.nextReq := rfl
@[simp] theorem State.modLink_mem (l : Nat) (f : Link → Link) : (s.modLink l f).mem = s.mem := rfl
@[simp] theorem State.modLink_memPoison (l : Nat) (f : Link → Link) : (s.modLink l f).memPoison = s.memPoison := rfl
@[simp] theorem State.modLink_memUpset (l : Nat) (f : Link → Link) : (s.modLink l f).memUpset = s.memUpset := rfl
@[simp] theorem State.modLink_landings (l : Nat) (f : Link → Link) : (s.modLink l f).landings = s.landings := rfl
@[simp] theorem State.modLink_scaler (l : Nat) (f : Link → Link) : (s.modLink l f).scaler = s.scaler := rfl
@[simp] theorem State.modLink_bars (l : Nat) (f : Link → Link) : (s.modLink l f).bars = s.bars := rfl
@[simp] theorem State.modLink_barOut (l : Nat) (f : Link → Link) : (s.modLink l f).barOut = s.barOut := rfl
@[simp] theorem State.modLink_fab (l : Nat) (f : Link → Link) : (s.modLink l f).fab = { s.fab with links := modAt l f s.fab.links } := rfl
@[simp] theorem State.modLink_eth (l : Nat) (f : Link → Link) : (s.modLink l f).eth = s.eth := rfl
@[simp] theorem State.modLink_flash (l : Nat) (f : Link → Link) : (s.modLink l f).flash = s.flash := rfl
@[simp] theorem State.modLink_sec (l : Nat) (f : Link → Link) : (s.modLink l f).sec = s.sec := rfl
@[simp] theorem State.modLink_power (l : Nat) (f : Link → Link) : (s.modLink l f).power = s.power := rfl
@[simp] theorem State.modLink_errSeen (l : Nat) (f : Link → Link) : (s.modLink l f).errSeen = s.errSeen := rfl
@[simp] theorem State.modLink_supQ (l : Nat) (f : Link → Link) : (s.modLink l f).supQ = s.supQ := rfl
@[simp] theorem State.modLink_recent (l : Nat) (f : Link → Link) : (s.modLink l f).recent = s.recent := rfl
@[simp] theorem State.modLink_muted (l : Nat) (f : Link → Link) : (s.modLink l f).muted = s.muted := rfl
@[simp] theorem State.modLink_free (l : Nat) (f : Link → Link) : (s.modLink l f).free = s.free := rfl

/-! ## send -/

@[simp] theorem State.send_pending (p : Packet) : (s.send p).pending = s.pending := rfl
@[simp] theorem State.send_timebase (p : Packet) : (s.send p).timebase = s.timebase := rfl
@[simp] theorem State.send_tickPeriod (p : Packet) : (s.send p).tickPeriod = s.tickPeriod := rfl
@[simp] theorem State.send_regs (p : Packet) : (s.send p).regs = s.regs := rfl
@[simp] theorem State.send_cnts (p : Packet) : (s.send p).cnts = s.cnts := rfl
@[simp] theorem State.send_latches (p : Packet) : (s.send p).latches = s.latches := rfl
@[simp] theorem State.send_snapTimes (p : Packet) : (s.send p).snapTimes = s.snapTimes := rfl
@[simp] theorem State.send_cells (p : Packet) : (s.send p).cells = s.cells := rfl
@[simp] theorem State.send_reqs (p : Packet) : (s.send p).reqs = s.reqs := rfl
@[simp] theorem State.send_walks (p : Packet) : (s.send p).walks = s.walks := rfl
@[simp] theorem State.send_nextReq (p : Packet) : (s.send p).nextReq = s.nextReq := rfl
@[simp] theorem State.send_mem (p : Packet) : (s.send p).mem = s.mem := rfl
@[simp] theorem State.send_memPoison (p : Packet) : (s.send p).memPoison = s.memPoison := rfl
@[simp] theorem State.send_memUpset (p : Packet) : (s.send p).memUpset = s.memUpset := rfl
@[simp] theorem State.send_landings (p : Packet) : (s.send p).landings = s.landings := rfl
@[simp] theorem State.send_scaler (p : Packet) : (s.send p).scaler = s.scaler := rfl
@[simp] theorem State.send_bars (p : Packet) : (s.send p).bars = s.bars := rfl
@[simp] theorem State.send_barOut (p : Packet) : (s.send p).barOut = s.barOut := rfl
@[simp] theorem State.send_fab (p : Packet) : (s.send p).fab = { s.fab with router := s.fab.router ++ [p] } := rfl
@[simp] theorem State.send_eth (p : Packet) : (s.send p).eth = s.eth := rfl
@[simp] theorem State.send_flash (p : Packet) : (s.send p).flash = s.flash := rfl
@[simp] theorem State.send_sec (p : Packet) : (s.send p).sec = s.sec := rfl
@[simp] theorem State.send_power (p : Packet) : (s.send p).power = s.power := rfl
@[simp] theorem State.send_errSeen (p : Packet) : (s.send p).errSeen = s.errSeen := rfl
@[simp] theorem State.send_supQ (p : Packet) : (s.send p).supQ = s.supQ := rfl
@[simp] theorem State.send_recent (p : Packet) : (s.send p).recent = s.recent := rfl
@[simp] theorem State.send_muted (p : Packet) : (s.send p).muted = s.muted := rfl
@[simp] theorem State.send_free (p : Packet) : (s.send p).free = s.free := rfl

/-! ## tell -/

@[simp] theorem State.tell_pending (d : Nat) (m : MgmtMsg) : (s.tell d m).pending = s.pending := rfl
@[simp] theorem State.tell_timebase (d : Nat) (m : MgmtMsg) : (s.tell d m).timebase = s.timebase := rfl
@[simp] theorem State.tell_tickPeriod (d : Nat) (m : MgmtMsg) : (s.tell d m).tickPeriod = s.tickPeriod := rfl
@[simp] theorem State.tell_regs (d : Nat) (m : MgmtMsg) : (s.tell d m).regs = s.regs := rfl
@[simp] theorem State.tell_cnts (d : Nat) (m : MgmtMsg) : (s.tell d m).cnts = s.cnts := rfl
@[simp] theorem State.tell_latches (d : Nat) (m : MgmtMsg) : (s.tell d m).latches = s.latches := rfl
@[simp] theorem State.tell_snapTimes (d : Nat) (m : MgmtMsg) : (s.tell d m).snapTimes = s.snapTimes := rfl
@[simp] theorem State.tell_cells (d : Nat) (m : MgmtMsg) : (s.tell d m).cells = s.cells := rfl
@[simp] theorem State.tell_reqs (d : Nat) (m : MgmtMsg) : (s.tell d m).reqs = s.reqs := rfl
@[simp] theorem State.tell_walks (d : Nat) (m : MgmtMsg) : (s.tell d m).walks = s.walks := rfl
@[simp] theorem State.tell_nextReq (d : Nat) (m : MgmtMsg) : (s.tell d m).nextReq = s.nextReq := rfl
@[simp] theorem State.tell_mem (d : Nat) (m : MgmtMsg) : (s.tell d m).mem = s.mem := rfl
@[simp] theorem State.tell_memPoison (d : Nat) (m : MgmtMsg) : (s.tell d m).memPoison = s.memPoison := rfl
@[simp] theorem State.tell_memUpset (d : Nat) (m : MgmtMsg) : (s.tell d m).memUpset = s.memUpset := rfl
@[simp] theorem State.tell_landings (d : Nat) (m : MgmtMsg) : (s.tell d m).landings = s.landings := rfl
@[simp] theorem State.tell_scaler (d : Nat) (m : MgmtMsg) : (s.tell d m).scaler = s.scaler := rfl
@[simp] theorem State.tell_bars (d : Nat) (m : MgmtMsg) : (s.tell d m).bars = s.bars := rfl
@[simp] theorem State.tell_barOut (d : Nat) (m : MgmtMsg) : (s.tell d m).barOut = s.barOut := rfl
@[simp] theorem State.tell_fab (d : Nat) (m : MgmtMsg) : (s.tell d m).fab = { s.fab with mgmtOut := s.fab.mgmtOut ++ [(d, m)] } := rfl
@[simp] theorem State.tell_eth (d : Nat) (m : MgmtMsg) : (s.tell d m).eth = s.eth := rfl
@[simp] theorem State.tell_flash (d : Nat) (m : MgmtMsg) : (s.tell d m).flash = s.flash := rfl
@[simp] theorem State.tell_sec (d : Nat) (m : MgmtMsg) : (s.tell d m).sec = s.sec := rfl
@[simp] theorem State.tell_power (d : Nat) (m : MgmtMsg) : (s.tell d m).power = s.power := rfl
@[simp] theorem State.tell_errSeen (d : Nat) (m : MgmtMsg) : (s.tell d m).errSeen = s.errSeen := rfl
@[simp] theorem State.tell_supQ (d : Nat) (m : MgmtMsg) : (s.tell d m).supQ = s.supQ := rfl
@[simp] theorem State.tell_recent (d : Nat) (m : MgmtMsg) : (s.tell d m).recent = s.recent := rfl
@[simp] theorem State.tell_muted (d : Nat) (m : MgmtMsg) : (s.tell d m).muted = s.muted := rfl
@[simp] theorem State.tell_free (d : Nat) (m : MgmtMsg) : (s.tell d m).free = s.free := rfl

/-! ## modEth -/

@[simp] theorem State.modEth_pending (f : EthSt → EthSt) : (s.modEth f).pending = s.pending := rfl
@[simp] theorem State.modEth_timebase (f : EthSt → EthSt) : (s.modEth f).timebase = s.timebase := rfl
@[simp] theorem State.modEth_tickPeriod (f : EthSt → EthSt) : (s.modEth f).tickPeriod = s.tickPeriod := rfl
@[simp] theorem State.modEth_regs (f : EthSt → EthSt) : (s.modEth f).regs = s.regs := rfl
@[simp] theorem State.modEth_cnts (f : EthSt → EthSt) : (s.modEth f).cnts = s.cnts := rfl
@[simp] theorem State.modEth_latches (f : EthSt → EthSt) : (s.modEth f).latches = s.latches := rfl
@[simp] theorem State.modEth_snapTimes (f : EthSt → EthSt) : (s.modEth f).snapTimes = s.snapTimes := rfl
@[simp] theorem State.modEth_cells (f : EthSt → EthSt) : (s.modEth f).cells = s.cells := rfl
@[simp] theorem State.modEth_reqs (f : EthSt → EthSt) : (s.modEth f).reqs = s.reqs := rfl
@[simp] theorem State.modEth_walks (f : EthSt → EthSt) : (s.modEth f).walks = s.walks := rfl
@[simp] theorem State.modEth_nextReq (f : EthSt → EthSt) : (s.modEth f).nextReq = s.nextReq := rfl
@[simp] theorem State.modEth_mem (f : EthSt → EthSt) : (s.modEth f).mem = s.mem := rfl
@[simp] theorem State.modEth_memPoison (f : EthSt → EthSt) : (s.modEth f).memPoison = s.memPoison := rfl
@[simp] theorem State.modEth_memUpset (f : EthSt → EthSt) : (s.modEth f).memUpset = s.memUpset := rfl
@[simp] theorem State.modEth_landings (f : EthSt → EthSt) : (s.modEth f).landings = s.landings := rfl
@[simp] theorem State.modEth_scaler (f : EthSt → EthSt) : (s.modEth f).scaler = s.scaler := rfl
@[simp] theorem State.modEth_bars (f : EthSt → EthSt) : (s.modEth f).bars = s.bars := rfl
@[simp] theorem State.modEth_barOut (f : EthSt → EthSt) : (s.modEth f).barOut = s.barOut := rfl
@[simp] theorem State.modEth_fab (f : EthSt → EthSt) : (s.modEth f).fab = s.fab := rfl
@[simp] theorem State.modEth_eth (f : EthSt → EthSt) : (s.modEth f).eth = f s.eth := rfl
@[simp] theorem State.modEth_flash (f : EthSt → EthSt) : (s.modEth f).flash = s.flash := rfl
@[simp] theorem State.modEth_sec (f : EthSt → EthSt) : (s.modEth f).sec = s.sec := rfl
@[simp] theorem State.modEth_power (f : EthSt → EthSt) : (s.modEth f).power = s.power := rfl
@[simp] theorem State.modEth_errSeen (f : EthSt → EthSt) : (s.modEth f).errSeen = s.errSeen := rfl
@[simp] theorem State.modEth_supQ (f : EthSt → EthSt) : (s.modEth f).supQ = s.supQ := rfl
@[simp] theorem State.modEth_recent (f : EthSt → EthSt) : (s.modEth f).recent = s.recent := rfl
@[simp] theorem State.modEth_muted (f : EthSt → EthSt) : (s.modEth f).muted = s.muted := rfl
@[simp] theorem State.modEth_free (f : EthSt → EthSt) : (s.modEth f).free = s.free := rfl

/-! ## modScaler -/

@[simp] theorem State.modScaler_pending (f : ScalerSt → ScalerSt) : (s.modScaler f).pending = s.pending := rfl
@[simp] theorem State.modScaler_timebase (f : ScalerSt → ScalerSt) : (s.modScaler f).timebase = s.timebase := rfl
@[simp] theorem State.modScaler_tickPeriod (f : ScalerSt → ScalerSt) : (s.modScaler f).tickPeriod = s.tickPeriod := rfl
@[simp] theorem State.modScaler_regs (f : ScalerSt → ScalerSt) : (s.modScaler f).regs = s.regs := rfl
@[simp] theorem State.modScaler_cnts (f : ScalerSt → ScalerSt) : (s.modScaler f).cnts = s.cnts := rfl
@[simp] theorem State.modScaler_latches (f : ScalerSt → ScalerSt) : (s.modScaler f).latches = s.latches := rfl
@[simp] theorem State.modScaler_snapTimes (f : ScalerSt → ScalerSt) : (s.modScaler f).snapTimes = s.snapTimes := rfl
@[simp] theorem State.modScaler_cells (f : ScalerSt → ScalerSt) : (s.modScaler f).cells = s.cells := rfl
@[simp] theorem State.modScaler_reqs (f : ScalerSt → ScalerSt) : (s.modScaler f).reqs = s.reqs := rfl
@[simp] theorem State.modScaler_walks (f : ScalerSt → ScalerSt) : (s.modScaler f).walks = s.walks := rfl
@[simp] theorem State.modScaler_nextReq (f : ScalerSt → ScalerSt) : (s.modScaler f).nextReq = s.nextReq := rfl
@[simp] theorem State.modScaler_mem (f : ScalerSt → ScalerSt) : (s.modScaler f).mem = s.mem := rfl
@[simp] theorem State.modScaler_memPoison (f : ScalerSt → ScalerSt) : (s.modScaler f).memPoison = s.memPoison := rfl
@[simp] theorem State.modScaler_memUpset (f : ScalerSt → ScalerSt) : (s.modScaler f).memUpset = s.memUpset := rfl
@[simp] theorem State.modScaler_landings (f : ScalerSt → ScalerSt) : (s.modScaler f).landings = s.landings := rfl
@[simp] theorem State.modScaler_scaler (f : ScalerSt → ScalerSt) : (s.modScaler f).scaler = f s.scaler := rfl
@[simp] theorem State.modScaler_bars (f : ScalerSt → ScalerSt) : (s.modScaler f).bars = s.bars := rfl
@[simp] theorem State.modScaler_barOut (f : ScalerSt → ScalerSt) : (s.modScaler f).barOut = s.barOut := rfl
@[simp] theorem State.modScaler_fab (f : ScalerSt → ScalerSt) : (s.modScaler f).fab = s.fab := rfl
@[simp] theorem State.modScaler_eth (f : ScalerSt → ScalerSt) : (s.modScaler f).eth = s.eth := rfl
@[simp] theorem State.modScaler_flash (f : ScalerSt → ScalerSt) : (s.modScaler f).flash = s.flash := rfl
@[simp] theorem State.modScaler_sec (f : ScalerSt → ScalerSt) : (s.modScaler f).sec = s.sec := rfl
@[simp] theorem State.modScaler_power (f : ScalerSt → ScalerSt) : (s.modScaler f).power = s.power := rfl
@[simp] theorem State.modScaler_errSeen (f : ScalerSt → ScalerSt) : (s.modScaler f).errSeen = s.errSeen := rfl
@[simp] theorem State.modScaler_supQ (f : ScalerSt → ScalerSt) : (s.modScaler f).supQ = s.supQ := rfl
@[simp] theorem State.modScaler_recent (f : ScalerSt → ScalerSt) : (s.modScaler f).recent = s.recent := rfl
@[simp] theorem State.modScaler_muted (f : ScalerSt → ScalerSt) : (s.modScaler f).muted = s.muted := rfl
@[simp] theorem State.modScaler_free (f : ScalerSt → ScalerSt) : (s.modScaler f).free = s.free := rfl

/-! ## modPower -/

@[simp] theorem State.modPower_pending (f : PowerSt → PowerSt) : (s.modPower f).pending = s.pending := rfl
@[simp] theorem State.modPower_timebase (f : PowerSt → PowerSt) : (s.modPower f).timebase = s.timebase := rfl
@[simp] theorem State.modPower_tickPeriod (f : PowerSt → PowerSt) : (s.modPower f).tickPeriod = s.tickPeriod := rfl
@[simp] theorem State.modPower_regs (f : PowerSt → PowerSt) : (s.modPower f).regs = s.regs := rfl
@[simp] theorem State.modPower_cnts (f : PowerSt → PowerSt) : (s.modPower f).cnts = s.cnts := rfl
@[simp] theorem State.modPower_latches (f : PowerSt → PowerSt) : (s.modPower f).latches = s.latches := rfl
@[simp] theorem State.modPower_snapTimes (f : PowerSt → PowerSt) : (s.modPower f).snapTimes = s.snapTimes := rfl
@[simp] theorem State.modPower_cells (f : PowerSt → PowerSt) : (s.modPower f).cells = s.cells := rfl
@[simp] theorem State.modPower_reqs (f : PowerSt → PowerSt) : (s.modPower f).reqs = s.reqs := rfl
@[simp] theorem State.modPower_walks (f : PowerSt → PowerSt) : (s.modPower f).walks = s.walks := rfl
@[simp] theorem State.modPower_nextReq (f : PowerSt → PowerSt) : (s.modPower f).nextReq = s.nextReq := rfl
@[simp] theorem State.modPower_mem (f : PowerSt → PowerSt) : (s.modPower f).mem = s.mem := rfl
@[simp] theorem State.modPower_memPoison (f : PowerSt → PowerSt) : (s.modPower f).memPoison = s.memPoison := rfl
@[simp] theorem State.modPower_memUpset (f : PowerSt → PowerSt) : (s.modPower f).memUpset = s.memUpset := rfl
@[simp] theorem State.modPower_landings (f : PowerSt → PowerSt) : (s.modPower f).landings = s.landings := rfl
@[simp] theorem State.modPower_scaler (f : PowerSt → PowerSt) : (s.modPower f).scaler = s.scaler := rfl
@[simp] theorem State.modPower_bars (f : PowerSt → PowerSt) : (s.modPower f).bars = s.bars := rfl
@[simp] theorem State.modPower_barOut (f : PowerSt → PowerSt) : (s.modPower f).barOut = s.barOut := rfl
@[simp] theorem State.modPower_fab (f : PowerSt → PowerSt) : (s.modPower f).fab = s.fab := rfl
@[simp] theorem State.modPower_eth (f : PowerSt → PowerSt) : (s.modPower f).eth = s.eth := rfl
@[simp] theorem State.modPower_flash (f : PowerSt → PowerSt) : (s.modPower f).flash = s.flash := rfl
@[simp] theorem State.modPower_sec (f : PowerSt → PowerSt) : (s.modPower f).sec = s.sec := rfl
@[simp] theorem State.modPower_power (f : PowerSt → PowerSt) : (s.modPower f).power = f s.power := rfl
@[simp] theorem State.modPower_errSeen (f : PowerSt → PowerSt) : (s.modPower f).errSeen = s.errSeen := rfl
@[simp] theorem State.modPower_supQ (f : PowerSt → PowerSt) : (s.modPower f).supQ = s.supQ := rfl
@[simp] theorem State.modPower_recent (f : PowerSt → PowerSt) : (s.modPower f).recent = s.recent := rfl
@[simp] theorem State.modPower_muted (f : PowerSt → PowerSt) : (s.modPower f).muted = s.muted := rfl
@[simp] theorem State.modPower_free (f : PowerSt → PowerSt) : (s.modPower f).free = s.free := rfl

/-! ## modSec -/

@[simp] theorem State.modSec_pending (f : SecSt → SecSt) : (s.modSec f).pending = s.pending := rfl
@[simp] theorem State.modSec_timebase (f : SecSt → SecSt) : (s.modSec f).timebase = s.timebase := rfl
@[simp] theorem State.modSec_tickPeriod (f : SecSt → SecSt) : (s.modSec f).tickPeriod = s.tickPeriod := rfl
@[simp] theorem State.modSec_regs (f : SecSt → SecSt) : (s.modSec f).regs = s.regs := rfl
@[simp] theorem State.modSec_cnts (f : SecSt → SecSt) : (s.modSec f).cnts = s.cnts := rfl
@[simp] theorem State.modSec_latches (f : SecSt → SecSt) : (s.modSec f).latches = s.latches := rfl
@[simp] theorem State.modSec_snapTimes (f : SecSt → SecSt) : (s.modSec f).snapTimes = s.snapTimes := rfl
@[simp] theorem State.modSec_cells (f : SecSt → SecSt) : (s.modSec f).cells = s.cells := rfl
@[simp] theorem State.modSec_reqs (f : SecSt → SecSt) : (s.modSec f).reqs = s.reqs := rfl
@[simp] theorem State.modSec_walks (f : SecSt → SecSt) : (s.modSec f).walks = s.walks := rfl
@[simp] theorem State.modSec_nextReq (f : SecSt → SecSt) : (s.modSec f).nextReq = s.nextReq := rfl
@[simp] theorem State.modSec_mem (f : SecSt → SecSt) : (s.modSec f).mem = s.mem := rfl
@[simp] theorem State.modSec_memPoison (f : SecSt → SecSt) : (s.modSec f).memPoison = s.memPoison := rfl
@[simp] theorem State.modSec_memUpset (f : SecSt → SecSt) : (s.modSec f).memUpset = s.memUpset := rfl
@[simp] theorem State.modSec_landings (f : SecSt → SecSt) : (s.modSec f).landings = s.landings := rfl
@[simp] theorem State.modSec_scaler (f : SecSt → SecSt) : (s.modSec f).scaler = s.scaler := rfl
@[simp] theorem State.modSec_bars (f : SecSt → SecSt) : (s.modSec f).bars = s.bars := rfl
@[simp] theorem State.modSec_barOut (f : SecSt → SecSt) : (s.modSec f).barOut = s.barOut := rfl
@[simp] theorem State.modSec_fab (f : SecSt → SecSt) : (s.modSec f).fab = s.fab := rfl
@[simp] theorem State.modSec_eth (f : SecSt → SecSt) : (s.modSec f).eth = s.eth := rfl
@[simp] theorem State.modSec_flash (f : SecSt → SecSt) : (s.modSec f).flash = s.flash := rfl
@[simp] theorem State.modSec_sec (f : SecSt → SecSt) : (s.modSec f).sec = f s.sec := rfl
@[simp] theorem State.modSec_power (f : SecSt → SecSt) : (s.modSec f).power = s.power := rfl
@[simp] theorem State.modSec_errSeen (f : SecSt → SecSt) : (s.modSec f).errSeen = s.errSeen := rfl
@[simp] theorem State.modSec_supQ (f : SecSt → SecSt) : (s.modSec f).supQ = s.supQ := rfl
@[simp] theorem State.modSec_recent (f : SecSt → SecSt) : (s.modSec f).recent = s.recent := rfl
@[simp] theorem State.modSec_muted (f : SecSt → SecSt) : (s.modSec f).muted = s.muted := rfl
@[simp] theorem State.modSec_free (f : SecSt → SecSt) : (s.modSec f).free = s.free := rfl

/-! ## modFlash -/

@[simp] theorem State.modFlash_pending (f : FlashSt → FlashSt) : (s.modFlash f).pending = s.pending := rfl
@[simp] theorem State.modFlash_timebase (f : FlashSt → FlashSt) : (s.modFlash f).timebase = s.timebase := rfl
@[simp] theorem State.modFlash_tickPeriod (f : FlashSt → FlashSt) : (s.modFlash f).tickPeriod = s.tickPeriod := rfl
@[simp] theorem State.modFlash_regs (f : FlashSt → FlashSt) : (s.modFlash f).regs = s.regs := rfl
@[simp] theorem State.modFlash_cnts (f : FlashSt → FlashSt) : (s.modFlash f).cnts = s.cnts := rfl
@[simp] theorem State.modFlash_latches (f : FlashSt → FlashSt) : (s.modFlash f).latches = s.latches := rfl
@[simp] theorem State.modFlash_snapTimes (f : FlashSt → FlashSt) : (s.modFlash f).snapTimes = s.snapTimes := rfl
@[simp] theorem State.modFlash_cells (f : FlashSt → FlashSt) : (s.modFlash f).cells = s.cells := rfl
@[simp] theorem State.modFlash_reqs (f : FlashSt → FlashSt) : (s.modFlash f).reqs = s.reqs := rfl
@[simp] theorem State.modFlash_walks (f : FlashSt → FlashSt) : (s.modFlash f).walks = s.walks := rfl
@[simp] theorem State.modFlash_nextReq (f : FlashSt → FlashSt) : (s.modFlash f).nextReq = s.nextReq := rfl
@[simp] theorem State.modFlash_mem (f : FlashSt → FlashSt) : (s.modFlash f).mem = s.mem := rfl
@[simp] theorem State.modFlash_memPoison (f : FlashSt → FlashSt) : (s.modFlash f).memPoison = s.memPoison := rfl
@[simp] theorem State.modFlash_memUpset (f : FlashSt → FlashSt) : (s.modFlash f).memUpset = s.memUpset := rfl
@[simp] theorem State.modFlash_landings (f : FlashSt → FlashSt) : (s.modFlash f).landings = s.landings := rfl
@[simp] theorem State.modFlash_scaler (f : FlashSt → FlashSt) : (s.modFlash f).scaler = s.scaler := rfl
@[simp] theorem State.modFlash_bars (f : FlashSt → FlashSt) : (s.modFlash f).bars = s.bars := rfl
@[simp] theorem State.modFlash_barOut (f : FlashSt → FlashSt) : (s.modFlash f).barOut = s.barOut := rfl
@[simp] theorem State.modFlash_fab (f : FlashSt → FlashSt) : (s.modFlash f).fab = s.fab := rfl
@[simp] theorem State.modFlash_eth (f : FlashSt → FlashSt) : (s.modFlash f).eth = s.eth := rfl
@[simp] theorem State.modFlash_flash (f : FlashSt → FlashSt) : (s.modFlash f).flash = f s.flash := rfl
@[simp] theorem State.modFlash_sec (f : FlashSt → FlashSt) : (s.modFlash f).sec = s.sec := rfl
@[simp] theorem State.modFlash_power (f : FlashSt → FlashSt) : (s.modFlash f).power = s.power := rfl
@[simp] theorem State.modFlash_errSeen (f : FlashSt → FlashSt) : (s.modFlash f).errSeen = s.errSeen := rfl
@[simp] theorem State.modFlash_supQ (f : FlashSt → FlashSt) : (s.modFlash f).supQ = s.supQ := rfl
@[simp] theorem State.modFlash_recent (f : FlashSt → FlashSt) : (s.modFlash f).recent = s.recent := rfl
@[simp] theorem State.modFlash_muted (f : FlashSt → FlashSt) : (s.modFlash f).muted = s.muted := rfl
@[simp] theorem State.modFlash_free (f : FlashSt → FlashSt) : (s.modFlash f).free = s.free := rfl

/-! ## setBar -/

@[simp] theorem State.setBar_pending (n : Nat) (b : BarChan) : (s.setBar n b).pending = s.pending := rfl
@[simp] theorem State.setBar_timebase (n : Nat) (b : BarChan) : (s.setBar n b).timebase = s.timebase := rfl
@[simp] theorem State.setBar_tickPeriod (n : Nat) (b : BarChan) : (s.setBar n b).tickPeriod = s.tickPeriod := rfl
@[simp] theorem State.setBar_regs (n : Nat) (b : BarChan) : (s.setBar n b).regs = s.regs := rfl
@[simp] theorem State.setBar_cnts (n : Nat) (b : BarChan) : (s.setBar n b).cnts = s.cnts := rfl
@[simp] theorem State.setBar_latches (n : Nat) (b : BarChan) : (s.setBar n b).latches = s.latches := rfl
@[simp] theorem State.setBar_snapTimes (n : Nat) (b : BarChan) : (s.setBar n b).snapTimes = s.snapTimes := rfl
@[simp] theorem State.setBar_cells (n : Nat) (b : BarChan) : (s.setBar n b).cells = s.cells := rfl
@[simp] theorem State.setBar_reqs (n : Nat) (b : BarChan) : (s.setBar n b).reqs = s.reqs := rfl
@[simp] theorem State.setBar_walks (n : Nat) (b : BarChan) : (s.setBar n b).walks = s.walks := rfl
@[simp] theorem State.setBar_nextReq (n : Nat) (b : BarChan) : (s.setBar n b).nextReq = s.nextReq := rfl
@[simp] theorem State.setBar_mem (n : Nat) (b : BarChan) : (s.setBar n b).mem = s.mem := rfl
@[simp] theorem State.setBar_memPoison (n : Nat) (b : BarChan) : (s.setBar n b).memPoison = s.memPoison := rfl
@[simp] theorem State.setBar_memUpset (n : Nat) (b : BarChan) : (s.setBar n b).memUpset = s.memUpset := rfl
@[simp] theorem State.setBar_landings (n : Nat) (b : BarChan) : (s.setBar n b).landings = s.landings := rfl
@[simp] theorem State.setBar_scaler (n : Nat) (b : BarChan) : (s.setBar n b).scaler = s.scaler := rfl
@[simp] theorem State.setBar_bars (n : Nat) (b : BarChan) : (s.setBar n b).bars = tblSet BarChan.reset n b s.bars := rfl
@[simp] theorem State.setBar_barOut (n : Nat) (b : BarChan) : (s.setBar n b).barOut = s.barOut := rfl
@[simp] theorem State.setBar_fab (n : Nat) (b : BarChan) : (s.setBar n b).fab = s.fab := rfl
@[simp] theorem State.setBar_eth (n : Nat) (b : BarChan) : (s.setBar n b).eth = s.eth := rfl
@[simp] theorem State.setBar_flash (n : Nat) (b : BarChan) : (s.setBar n b).flash = s.flash := rfl
@[simp] theorem State.setBar_sec (n : Nat) (b : BarChan) : (s.setBar n b).sec = s.sec := rfl
@[simp] theorem State.setBar_power (n : Nat) (b : BarChan) : (s.setBar n b).power = s.power := rfl
@[simp] theorem State.setBar_errSeen (n : Nat) (b : BarChan) : (s.setBar n b).errSeen = s.errSeen := rfl
@[simp] theorem State.setBar_supQ (n : Nat) (b : BarChan) : (s.setBar n b).supQ = s.supQ := rfl
@[simp] theorem State.setBar_recent (n : Nat) (b : BarChan) : (s.setBar n b).recent = s.recent := rfl
@[simp] theorem State.setBar_muted (n : Nat) (b : BarChan) : (s.setBar n b).muted = s.muted := rfl
@[simp] theorem State.setBar_free (n : Nat) (b : BarChan) : (s.setBar n b).free = s.free := rfl

/-! ## supReport -/

@[simp] theorem State.supReport_pending (f : Nat) (r : Report) : (s.supReport f r).pending = s.pending := rfl
@[simp] theorem State.supReport_timebase (f : Nat) (r : Report) : (s.supReport f r).timebase = s.timebase := rfl
@[simp] theorem State.supReport_tickPeriod (f : Nat) (r : Report) : (s.supReport f r).tickPeriod = s.tickPeriod := rfl
@[simp] theorem State.supReport_regs (f : Nat) (r : Report) : (s.supReport f r).regs = s.regs := rfl
@[simp] theorem State.supReport_cnts (f : Nat) (r : Report) : (s.supReport f r).cnts = s.cnts := rfl
@[simp] theorem State.supReport_latches (f : Nat) (r : Report) : (s.supReport f r).latches = s.latches := rfl
@[simp] theorem State.supReport_snapTimes (f : Nat) (r : Report) : (s.supReport f r).snapTimes = s.snapTimes := rfl
@[simp] theorem State.supReport_cells (f : Nat) (r : Report) : (s.supReport f r).cells = s.cells := rfl
@[simp] theorem State.supReport_reqs (f : Nat) (r : Report) : (s.supReport f r).reqs = s.reqs := rfl
@[simp] theorem State.supReport_walks (f : Nat) (r : Report) : (s.supReport f r).walks = s.walks := rfl
@[simp] theorem State.supReport_nextReq (f : Nat) (r : Report) : (s.supReport f r).nextReq = s.nextReq := rfl
@[simp] theorem State.supReport_mem (f : Nat) (r : Report) : (s.supReport f r).mem = s.mem := rfl
@[simp] theorem State.supReport_memPoison (f : Nat) (r : Report) : (s.supReport f r).memPoison = s.memPoison := rfl
@[simp] theorem State.supReport_memUpset (f : Nat) (r : Report) : (s.supReport f r).memUpset = s.memUpset := rfl
@[simp] theorem State.supReport_landings (f : Nat) (r : Report) : (s.supReport f r).landings = s.landings := rfl
@[simp] theorem State.supReport_scaler (f : Nat) (r : Report) : (s.supReport f r).scaler = s.scaler := rfl
@[simp] theorem State.supReport_bars (f : Nat) (r : Report) : (s.supReport f r).bars = s.bars := rfl
@[simp] theorem State.supReport_barOut (f : Nat) (r : Report) : (s.supReport f r).barOut = s.barOut := rfl
@[simp] theorem State.supReport_fab (f : Nat) (r : Report) : (s.supReport f r).fab = s.fab := rfl
@[simp] theorem State.supReport_eth (f : Nat) (r : Report) : (s.supReport f r).eth = s.eth := rfl
@[simp] theorem State.supReport_flash (f : Nat) (r : Report) : (s.supReport f r).flash = s.flash := rfl
@[simp] theorem State.supReport_sec (f : Nat) (r : Report) : (s.supReport f r).sec = s.sec := rfl
@[simp] theorem State.supReport_power (f : Nat) (r : Report) : (s.supReport f r).power = s.power := rfl
@[simp] theorem State.supReport_errSeen (f : Nat) (r : Report) : (s.supReport f r).errSeen = s.errSeen := rfl
@[simp] theorem State.supReport_supQ (f : Nat) (r : Report) : (s.supReport f r).supQ = s.supQ ++ [(f, r)] := rfl
@[simp] theorem State.supReport_recent (f : Nat) (r : Report) : (s.supReport f r).recent = s.recent := rfl
@[simp] theorem State.supReport_muted (f : Nat) (r : Report) : (s.supReport f r).muted = s.muted := rfl
@[simp] theorem State.supReport_free (f : Nat) (r : Report) : (s.supReport f r).free = s.free := rfl

/-! ## fresh -/

@[simp] theorem State.fresh_pending : (s.fresh.2).pending = s.pending := rfl
@[simp] theorem State.fresh_timebase : (s.fresh.2).timebase = s.timebase := rfl
@[simp] theorem State.fresh_tickPeriod : (s.fresh.2).tickPeriod = s.tickPeriod := rfl
@[simp] theorem State.fresh_regs : (s.fresh.2).regs = s.regs := rfl
@[simp] theorem State.fresh_cnts : (s.fresh.2).cnts = s.cnts := rfl
@[simp] theorem State.fresh_latches : (s.fresh.2).latches = s.latches := rfl
@[simp] theorem State.fresh_snapTimes : (s.fresh.2).snapTimes = s.snapTimes := rfl
@[simp] theorem State.fresh_cells : (s.fresh.2).cells = s.cells := rfl
@[simp] theorem State.fresh_reqs : (s.fresh.2).reqs = s.reqs := rfl
@[simp] theorem State.fresh_walks : (s.fresh.2).walks = s.walks := rfl
@[simp] theorem State.fresh_nextReq : (s.fresh.2).nextReq = s.nextReq := rfl
@[simp] theorem State.fresh_mem : (s.fresh.2).mem = s.mem := rfl
@[simp] theorem State.fresh_memPoison : (s.fresh.2).memPoison = s.memPoison := rfl
@[simp] theorem State.fresh_memUpset : (s.fresh.2).memUpset = s.memUpset := rfl
@[simp] theorem State.fresh_landings : (s.fresh.2).landings = s.landings := rfl
@[simp] theorem State.fresh_scaler : (s.fresh.2).scaler = s.scaler := rfl
@[simp] theorem State.fresh_bars : (s.fresh.2).bars = s.bars := rfl
@[simp] theorem State.fresh_barOut : (s.fresh.2).barOut = s.barOut := rfl
@[simp] theorem State.fresh_fab : (s.fresh.2).fab = s.fab := rfl
@[simp] theorem State.fresh_eth : (s.fresh.2).eth = s.eth := rfl
@[simp] theorem State.fresh_flash : (s.fresh.2).flash = s.flash := rfl
@[simp] theorem State.fresh_sec : (s.fresh.2).sec = s.sec := rfl
@[simp] theorem State.fresh_power : (s.fresh.2).power = s.power := rfl
@[simp] theorem State.fresh_errSeen : (s.fresh.2).errSeen = s.errSeen := rfl
@[simp] theorem State.fresh_supQ : (s.fresh.2).supQ = s.supQ := rfl
@[simp] theorem State.fresh_recent : (s.fresh.2).recent = s.recent := rfl
@[simp] theorem State.fresh_muted : (s.fresh.2).muted = s.muted := rfl
@[simp] theorem State.fresh_free : (s.fresh.2).free = s.free + 1 := rfl

/-! ## modReq -/

@[simp] theorem State.modReq_pending (id : Nat) (f : Req → Req) : (s.modReq id f).pending = s.pending := rfl
@[simp] theorem State.modReq_timebase (id : Nat) (f : Req → Req) : (s.modReq id f).timebase = s.timebase := rfl
@[simp] theorem State.modReq_tickPeriod (id : Nat) (f : Req → Req) : (s.modReq id f).tickPeriod = s.tickPeriod := rfl
@[simp] theorem State.modReq_regs (id : Nat) (f : Req → Req) : (s.modReq id f).regs = s.regs := rfl
@[simp] theorem State.modReq_cnts (id : Nat) (f : Req → Req) : (s.modReq id f).cnts = s.cnts := rfl
@[simp] theorem State.modReq_latches (id : Nat) (f : Req → Req) : (s.modReq id f).latches = s.latches := rfl
@[simp] theorem State.modReq_snapTimes (id : Nat) (f : Req → Req) : (s.modReq id f).snapTimes = s.snapTimes := rfl
@[simp] theorem State.modReq_cells (id : Nat) (f : Req → Req) : (s.modReq id f).cells = s.cells := rfl
@[simp] theorem State.modReq_walks (id : Nat) (f : Req → Req) : (s.modReq id f).walks = s.walks := rfl
@[simp] theorem State.modReq_nextReq (id : Nat) (f : Req → Req) : (s.modReq id f).nextReq = s.nextReq := rfl
@[simp] theorem State.modReq_mem (id : Nat) (f : Req → Req) : (s.modReq id f).mem = s.mem := rfl
@[simp] theorem State.modReq_memPoison (id : Nat) (f : Req → Req) : (s.modReq id f).memPoison = s.memPoison := rfl
@[simp] theorem State.modReq_memUpset (id : Nat) (f : Req → Req) : (s.modReq id f).memUpset = s.memUpset := rfl
@[simp] theorem State.modReq_landings (id : Nat) (f : Req → Req) : (s.modReq id f).landings = s.landings := rfl
@[simp] theorem State.modReq_scaler (id : Nat) (f : Req → Req) : (s.modReq id f).scaler = s.scaler := rfl
@[simp] theorem State.modReq_bars (id : Nat) (f : Req → Req) : (s.modReq id f).bars = s.bars := rfl
@[simp] theorem State.modReq_barOut (id : Nat) (f : Req → Req) : (s.modReq id f).barOut = s.barOut := rfl
@[simp] theorem State.modReq_fab (id : Nat) (f : Req → Req) : (s.modReq id f).fab = s.fab := rfl
@[simp] theorem State.modReq_eth (id : Nat) (f : Req → Req) : (s.modReq id f).eth = s.eth := rfl
@[simp] theorem State.modReq_flash (id : Nat) (f : Req → Req) : (s.modReq id f).flash = s.flash := rfl
@[simp] theorem State.modReq_sec (id : Nat) (f : Req → Req) : (s.modReq id f).sec = s.sec := rfl
@[simp] theorem State.modReq_power (id : Nat) (f : Req → Req) : (s.modReq id f).power = s.power := rfl
@[simp] theorem State.modReq_errSeen (id : Nat) (f : Req → Req) : (s.modReq id f).errSeen = s.errSeen := rfl
@[simp] theorem State.modReq_supQ (id : Nat) (f : Req → Req) : (s.modReq id f).supQ = s.supQ := rfl
@[simp] theorem State.modReq_recent (id : Nat) (f : Req → Req) : (s.modReq id f).recent = s.recent := rfl
@[simp] theorem State.modReq_muted (id : Nat) (f : Req → Req) : (s.modReq id f).muted = s.muted := rfl
@[simp] theorem State.modReq_free (id : Nat) (f : Req → Req) : (s.modReq id f).free = s.free := rfl

/-! ## dropReq -/

@[simp] theorem State.dropReq_pending (id : Nat) : (s.dropReq id).pending = s.pending := rfl
@[simp] theorem State.dropReq_timebase (id : Nat) : (s.dropReq id).timebase = s.timebase := rfl
@[simp] theorem State.dropReq_tickPeriod (id : Nat) : (s.dropReq id).tickPeriod = s.tickPeriod := rfl
@[simp] theorem State.dropReq_regs (id : Nat) : (s.dropReq id).regs = s.regs := rfl
@[simp] theorem State.dropReq_cnts (id : Nat) : (s.dropReq id).cnts = s.cnts := rfl
@[simp] theorem State.dropReq_latches (id : Nat) : (s.dropReq id).latches = s.latches := rfl
@[simp] theorem State.dropReq_snapTimes (id : Nat) : (s.dropReq id).snapTimes = s.snapTimes := rfl
@[simp] theorem State.dropReq_cells (id : Nat) : (s.dropReq id).cells = s.cells := rfl
@[simp] theorem State.dropReq_reqs (id : Nat) : (s.dropReq id).reqs = s.reqs.filter (·.id != id) := rfl
@[simp] theorem State.dropReq_walks (id : Nat) : (s.dropReq id).walks = s.walks := rfl
@[simp] theorem State.dropReq_nextReq (id : Nat) : (s.dropReq id).nextReq = s.nextReq := rfl
@[simp] theorem State.dropReq_mem (id : Nat) : (s.dropReq id).mem = s.mem := rfl
@[simp] theorem State.dropReq_memPoison (id : Nat) : (s.dropReq id).memPoison = s.memPoison := rfl
@[simp] theorem State.dropReq_memUpset (id : Nat) : (s.dropReq id).memUpset = s.memUpset := rfl
@[simp] theorem State.dropReq_landings (id : Nat) : (s.dropReq id).landings = s.landings := rfl
@[simp] theorem State.dropReq_scaler (id : Nat) : (s.dropReq id).scaler = s.scaler := rfl
@[simp] theorem State.dropReq_bars (id : Nat) : (s.dropReq id).bars = s.bars := rfl
@[simp] theorem State.dropReq_barOut (id : Nat) : (s.dropReq id).barOut = s.barOut := rfl
@[simp] theorem State.dropReq_fab (id : Nat) : (s.dropReq id).fab = s.fab := rfl
@[simp] theorem State.dropReq_eth (id : Nat) : (s.dropReq id).eth = s.eth := rfl
@[simp] theorem State.dropReq_flash (id : Nat) : (s.dropReq id).flash = s.flash := rfl
@[simp] theorem State.dropReq_sec (id : Nat) : (s.dropReq id).sec = s.sec := rfl
@[simp] theorem State.dropReq_power (id : Nat) : (s.dropReq id).power = s.power := rfl
@[simp] theorem State.dropReq_errSeen (id : Nat) : (s.dropReq id).errSeen = s.errSeen := rfl
@[simp] theorem State.dropReq_supQ (id : Nat) : (s.dropReq id).supQ = s.supQ := rfl
@[simp] theorem State.dropReq_recent (id : Nat) : (s.dropReq id).recent = s.recent := rfl
@[simp] theorem State.dropReq_muted (id : Nat) : (s.dropReq id).muted = s.muted := rfl
@[simp] theorem State.dropReq_free (id : Nat) : (s.dropReq id).free = s.free := rfl

/-! ## putReq -/

@[simp] theorem State.putReq_pending (r : Req) : (s.putReq r).pending = s.pending := rfl
@[simp] theorem State.putReq_timebase (r : Req) : (s.putReq r).timebase = s.timebase := rfl
@[simp] theorem State.putReq_tickPeriod (r : Req) : (s.putReq r).tickPeriod = s.tickPeriod := rfl
@[simp] theorem State.putReq_regs (r : Req) : (s.putReq r).regs = s.regs := rfl
@[simp] theorem State.putReq_cnts (r : Req) : (s.putReq r).cnts = s.cnts := rfl
@[simp] theorem State.putReq_latches (r : Req) : (s.putReq r).latches = s.latches := rfl
@[simp] theorem State.putReq_snapTimes (r : Req) : (s.putReq r).snapTimes = s.snapTimes := rfl
@[simp] theorem State.putReq_cells (r : Req) : (s.putReq r).cells = s.cells := rfl
@[simp] theorem State.putReq_reqs (r : Req) : (s.putReq r).reqs = s.reqs.filter (·.id != r.id) ++ [r] := rfl
@[simp] theorem State.putReq_walks (r : Req) : (s.putReq r).walks = s.walks := rfl
@[simp] theorem State.putReq_nextReq (r : Req) : (s.putReq r).nextReq = s.nextReq := rfl
@[simp] theorem State.putReq_mem (r : Req) : (s.putReq r).mem = s.mem := rfl
@[simp] theorem State.putReq_memPoison (r : Req) : (s.putReq r).memPoison = s.memPoison := rfl
@[simp] theorem State.putReq_memUpset (r : Req) : (s.putReq r).memUpset = s.memUpset := rfl
@[simp] theorem State.putReq_landings (r : Req) : (s.putReq r).landings = s.landings := rfl
@[simp] theorem State.putReq_scaler (r : Req) : (s.putReq r).scaler = s.scaler := rfl
@[simp] theorem State.putReq_bars (r : Req) : (s.putReq r).bars = s.bars := rfl
@[simp] theorem State.putReq_barOut (r : Req) : (s.putReq r).barOut = s.barOut := rfl
@[simp] theorem State.putReq_fab (r : Req) : (s.putReq r).fab = s.fab := rfl
@[simp] theorem State.putReq_eth (r : Req) : (s.putReq r).eth = s.eth := rfl
@[simp] theorem State.putReq_flash (r : Req) : (s.putReq r).flash = s.flash := rfl
@[simp] theorem State.putReq_sec (r : Req) : (s.putReq r).sec = s.sec := rfl
@[simp] theorem State.putReq_power (r : Req) : (s.putReq r).power = s.power := rfl
@[simp] theorem State.putReq_errSeen (r : Req) : (s.putReq r).errSeen = s.errSeen := rfl
@[simp] theorem State.putReq_supQ (r : Req) : (s.putReq r).supQ = s.supQ := rfl
@[simp] theorem State.putReq_recent (r : Req) : (s.putReq r).recent = s.recent := rfl
@[simp] theorem State.putReq_muted (r : Req) : (s.putReq r).muted = s.muted := rfl
@[simp] theorem State.putReq_free (r : Req) : (s.putReq r).free = s.free := rfl

/-! ## modCc -/

@[simp] theorem State.modCc_pending (c : Nat) (f : CacheSt → CacheSt) : (s.modCc c f).pending = s.pending := rfl
@[simp] theorem State.modCc_timebase (c : Nat) (f : CacheSt → CacheSt) : (s.modCc c f).timebase = s.timebase := rfl
@[simp] theorem State.modCc_tickPeriod (c : Nat) (f : CacheSt → CacheSt) : (s.modCc c f).tickPeriod = s.tickPeriod := rfl
@[simp] theorem State.modCc_regs (c : Nat) (f : CacheSt → CacheSt) : (s.modCc c f).regs = s.regs := rfl
@[simp] theorem State.modCc_cnts (c : Nat) (f : CacheSt → CacheSt) : (s.modCc c f).cnts = s.cnts := rfl
@[simp] theorem State.modCc_latches (c : Nat) (f : CacheSt → CacheSt) : (s.modCc c f).latches = s.latches := rfl
@[simp] theorem State.modCc_snapTimes (c : Nat) (f : CacheSt → CacheSt) : (s.modCc c f).snapTimes = s.snapTimes := rfl
@[simp] theorem State.modCc_cells (c : Nat) (f : CacheSt → CacheSt) : (s.modCc c f).cells = modAt c (fun x => { x with cc := f x.cc }) s.cells := rfl
@[simp] theorem State.modCc_reqs (c : Nat) (f : CacheSt → CacheSt) : (s.modCc c f).reqs = s.reqs := rfl
@[simp] theorem State.modCc_walks (c : Nat) (f : CacheSt → CacheSt) : (s.modCc c f).walks = s.walks := rfl
@[simp] theorem State.modCc_nextReq (c : Nat) (f : CacheSt → CacheSt) : (s.modCc c f).nextReq = s.nextReq := rfl
@[simp] theorem State.modCc_mem (c : Nat) (f : CacheSt → CacheSt) : (s.modCc c f).mem = s.mem := rfl
@[simp] theorem State.modCc_memPoison (c : Nat) (f : CacheSt → CacheSt) : (s.modCc c f).memPoison = s.memPoison := rfl
@[simp] theorem State.modCc_memUpset (c : Nat) (f : CacheSt → CacheSt) : (s.modCc c f).memUpset = s.memUpset := rfl
@[simp] theorem State.modCc_landings (c : Nat) (f : CacheSt → CacheSt) : (s.modCc c f).landings = s.landings := rfl
@[simp] theorem State.modCc_scaler (c : Nat) (f : CacheSt → CacheSt) : (s.modCc c f).scaler = s.scaler := rfl
@[simp] theorem State.modCc_bars (c : Nat) (f : CacheSt → CacheSt) : (s.modCc c f).bars = s.bars := rfl
@[simp] theorem State.modCc_barOut (c : Nat) (f : CacheSt → CacheSt) : (s.modCc c f).barOut = s.barOut := rfl
@[simp] theorem State.modCc_fab (c : Nat) (f : CacheSt → CacheSt) : (s.modCc c f).fab = s.fab := rfl
@[simp] theorem State.modCc_eth (c : Nat) (f : CacheSt → CacheSt) : (s.modCc c f).eth = s.eth := rfl
@[simp] theorem State.modCc_flash (c : Nat) (f : CacheSt → CacheSt) : (s.modCc c f).flash = s.flash := rfl
@[simp] theorem State.modCc_sec (c : Nat) (f : CacheSt → CacheSt) : (s.modCc c f).sec = s.sec := rfl
@[simp] theorem State.modCc_power (c : Nat) (f : CacheSt → CacheSt) : (s.modCc c f).power = s.power := rfl
@[simp] theorem State.modCc_errSeen (c : Nat) (f : CacheSt → CacheSt) : (s.modCc c f).errSeen = s.errSeen := rfl
@[simp] theorem State.modCc_supQ (c : Nat) (f : CacheSt → CacheSt) : (s.modCc c f).supQ = s.supQ := rfl
@[simp] theorem State.modCc_recent (c : Nat) (f : CacheSt → CacheSt) : (s.modCc c f).recent = s.recent := rfl
@[simp] theorem State.modCc_muted (c : Nat) (f : CacheSt → CacheSt) : (s.modCc c f).muted = s.muted := rfl
@[simp] theorem State.modCc_free (c : Nat) (f : CacheSt → CacheSt) : (s.modCc c f).free = s.free := rfl

/-! ## modMaint -/

@[simp] theorem State.modMaint_pending (c : Nat) (f : Maint → Maint) : (s.modMaint c f).pending = s.pending := rfl
@[simp] theorem State.modMaint_timebase (c : Nat) (f : Maint → Maint) : (s.modMaint c f).timebase = s.timebase := rfl
@[simp] theorem State.modMaint_tickPeriod (c : Nat) (f : Maint → Maint) : (s.modMaint c f).tickPeriod = s.tickPeriod := rfl
@[simp] theorem State.modMaint_regs (c : Nat) (f : Maint → Maint) : (s.modMaint c f).regs = s.regs := rfl
@[simp] theorem State.modMaint_cnts (c : Nat) (f : Maint → Maint) : (s.modMaint c f).cnts = s.cnts := rfl
@[simp] theorem State.modMaint_latches (c : Nat) (f : Maint → Maint) : (s.modMaint c f).latches = s.latches := rfl
@[simp] theorem State.modMaint_snapTimes (c : Nat) (f : Maint → Maint) : (s.modMaint c f).snapTimes = s.snapTimes := rfl
@[simp] theorem State.modMaint_cells (c : Nat) (f : Maint → Maint) : (s.modMaint c f).cells = modAt c (fun x => { x with cc := { x.cc with maint := f x.cc.maint } }) s.cells := rfl
@[simp] theorem State.modMaint_reqs (c : Nat) (f : Maint → Maint) : (s.modMaint c f).reqs = s.reqs := rfl
@[simp] theorem State.modMaint_walks (c : Nat) (f : Maint → Maint) : (s.modMaint c f).walks = s.walks := rfl
@[simp] theorem State.modMaint_nextReq (c : Nat) (f : Maint → Maint) : (s.modMaint c f).nextReq = s.nextReq := rfl
@[simp] theorem State.modMaint_mem (c : Nat) (f : Maint → Maint) : (s.modMaint c f).mem = s.mem := rfl
@[simp] theorem State.modMaint_memPoison (c : Nat) (f : Maint → Maint) : (s.modMaint c f).memPoison = s.memPoison := rfl
@[simp] theorem State.modMaint_memUpset (c : Nat) (f : Maint → Maint) : (s.modMaint c f).memUpset = s.memUpset := rfl
@[simp] theorem State.modMaint_landings (c : Nat) (f : Maint → Maint) : (s.modMaint c f).landings = s.landings := rfl
@[simp] theorem State.modMaint_scaler (c : Nat) (f : Maint → Maint) : (s.modMaint c f).scaler = s.scaler := rfl
@[simp] theorem State.modMaint_bars (c : Nat) (f : Maint → Maint) : (s.modMaint c f).bars = s.bars := rfl
@[simp] theorem State.modMaint_barOut (c : Nat) (f : Maint → Maint) : (s.modMaint c f).barOut = s.barOut := rfl
@[simp] theorem State.modMaint_fab (c : Nat) (f : Maint → Maint) : (s.modMaint c f).fab = s.fab := rfl
@[simp] theorem State.modMaint_eth (c : Nat) (f : Maint → Maint) : (s.modMaint c f).eth = s.eth := rfl
@[simp] theorem State.modMaint_flash (c : Nat) (f : Maint → Maint) : (s.modMaint c f).flash = s.flash := rfl
@[simp] theorem State.modMaint_sec (c : Nat) (f : Maint → Maint) : (s.modMaint c f).sec = s.sec := rfl
@[simp] theorem State.modMaint_power (c : Nat) (f : Maint → Maint) : (s.modMaint c f).power = s.power := rfl
@[simp] theorem State.modMaint_errSeen (c : Nat) (f : Maint → Maint) : (s.modMaint c f).errSeen = s.errSeen := rfl
@[simp] theorem State.modMaint_supQ (c : Nat) (f : Maint → Maint) : (s.modMaint c f).supQ = s.supQ := rfl
@[simp] theorem State.modMaint_recent (c : Nat) (f : Maint → Maint) : (s.modMaint c f).recent = s.recent := rfl
@[simp] theorem State.modMaint_muted (c : Nat) (f : Maint → Maint) : (s.modMaint c f).muted = s.muted := rfl
@[simp] theorem State.modMaint_free (c : Nat) (f : Maint → Maint) : (s.modMaint c f).free = s.free := rfl

/-! ## unpark -/

@[simp] theorem State.unpark_pending (c : Nat) : (s.unpark c).pending = s.pending := rfl
@[simp] theorem State.unpark_timebase (c : Nat) : (s.unpark c).timebase = s.timebase := rfl
@[simp] theorem State.unpark_tickPeriod (c : Nat) : (s.unpark c).tickPeriod = s.tickPeriod := rfl
@[simp] theorem State.unpark_regs (c : Nat) : (s.unpark c).regs = s.regs := rfl
@[simp] theorem State.unpark_cnts (c : Nat) : (s.unpark c).cnts = s.cnts := rfl
@[simp] theorem State.unpark_latches (c : Nat) : (s.unpark c).latches = s.latches := rfl
@[simp] theorem State.unpark_snapTimes (c : Nat) : (s.unpark c).snapTimes = s.snapTimes := rfl
@[simp] theorem State.unpark_cells (c : Nat) : (s.unpark c).cells = modAt c (fun x => if x.parked then { x with parked := false, idleSince := s.timebase } else x) s.cells := rfl
@[simp] theorem State.unpark_reqs (c : Nat) : (s.unpark c).reqs = s.reqs := rfl
@[simp] theorem State.unpark_walks (c : Nat) : (s.unpark c).walks = s.walks := rfl
@[simp] theorem State.unpark_nextReq (c : Nat) : (s.unpark c).nextReq = s.nextReq := rfl
@[simp] theorem State.unpark_mem (c : Nat) : (s.unpark c).mem = s.mem := rfl
@[simp] theorem State.unpark_memPoison (c : Nat) : (s.unpark c).memPoison = s.memPoison := rfl
@[simp] theorem State.unpark_memUpset (c : Nat) : (s.unpark c).memUpset = s.memUpset := rfl
@[simp] theorem State.unpark_landings (c : Nat) : (s.unpark c).landings = s.landings := rfl
@[simp] theorem State.unpark_scaler (c : Nat) : (s.unpark c).scaler = s.scaler := rfl
@[simp] theorem State.unpark_bars (c : Nat) : (s.unpark c).bars = s.bars := rfl
@[simp] theorem State.unpark_barOut (c : Nat) : (s.unpark c).barOut = s.barOut := rfl
@[simp] theorem State.unpark_fab (c : Nat) : (s.unpark c).fab = s.fab := rfl
@[simp] theorem State.unpark_eth (c : Nat) : (s.unpark c).eth = s.eth := rfl
@[simp] theorem State.unpark_flash (c : Nat) : (s.unpark c).flash = s.flash := rfl
@[simp] theorem State.unpark_sec (c : Nat) : (s.unpark c).sec = s.sec := rfl
@[simp] theorem State.unpark_power (c : Nat) : (s.unpark c).power = s.power := rfl
@[simp] theorem State.unpark_errSeen (c : Nat) : (s.unpark c).errSeen = s.errSeen := rfl
@[simp] theorem State.unpark_supQ (c : Nat) : (s.unpark c).supQ = s.supQ := rfl
@[simp] theorem State.unpark_recent (c : Nat) : (s.unpark c).recent = s.recent := rfl
@[simp] theorem State.unpark_muted (c : Nat) : (s.unpark c).muted = s.muted := rfl
@[simp] theorem State.unpark_free (c : Nat) : (s.unpark c).free = s.free := rfl

/-! ## setA -/

@[simp] theorem State.setA_pending (c i : Nat) (v : W64) : (s.setA c i v).pending = s.pending := rfl
@[simp] theorem State.setA_timebase (c i : Nat) (v : W64) : (s.setA c i v).timebase = s.timebase := rfl
@[simp] theorem State.setA_tickPeriod (c i : Nat) (v : W64) : (s.setA c i v).tickPeriod = s.tickPeriod := rfl
@[simp] theorem State.setA_regs (c i : Nat) (v : W64) : (s.setA c i v).regs = s.regs := rfl
@[simp] theorem State.setA_cnts (c i : Nat) (v : W64) : (s.setA c i v).cnts = s.cnts := rfl
@[simp] theorem State.setA_latches (c i : Nat) (v : W64) : (s.setA c i v).latches = s.latches := rfl
@[simp] theorem State.setA_snapTimes (c i : Nat) (v : W64) : (s.setA c i v).snapTimes = s.snapTimes := rfl
@[simp] theorem State.setA_reqs (c i : Nat) (v : W64) : (s.setA c i v).reqs = s.reqs := rfl
@[simp] theorem State.setA_walks (c i : Nat) (v : W64) : (s.setA c i v).walks = s.walks := rfl
@[simp] theorem State.setA_nextReq (c i : Nat) (v : W64) : (s.setA c i v).nextReq = s.nextReq := rfl
@[simp] theorem State.setA_mem (c i : Nat) (v : W64) : (s.setA c i v).mem = s.mem := rfl
@[simp] theorem State.setA_memPoison (c i : Nat) (v : W64) : (s.setA c i v).memPoison = s.memPoison := rfl
@[simp] theorem State.setA_memUpset (c i : Nat) (v : W64) : (s.setA c i v).memUpset = s.memUpset := rfl
@[simp] theorem State.setA_landings (c i : Nat) (v : W64) : (s.setA c i v).landings = s.landings := rfl
@[simp] theorem State.setA_scaler (c i : Nat) (v : W64) : (s.setA c i v).scaler = s.scaler := rfl
@[simp] theorem State.setA_bars (c i : Nat) (v : W64) : (s.setA c i v).bars = s.bars := rfl
@[simp] theorem State.setA_barOut (c i : Nat) (v : W64) : (s.setA c i v).barOut = s.barOut := rfl
@[simp] theorem State.setA_fab (c i : Nat) (v : W64) : (s.setA c i v).fab = s.fab := rfl
@[simp] theorem State.setA_eth (c i : Nat) (v : W64) : (s.setA c i v).eth = s.eth := rfl
@[simp] theorem State.setA_flash (c i : Nat) (v : W64) : (s.setA c i v).flash = s.flash := rfl
@[simp] theorem State.setA_sec (c i : Nat) (v : W64) : (s.setA c i v).sec = s.sec := rfl
@[simp] theorem State.setA_power (c i : Nat) (v : W64) : (s.setA c i v).power = s.power := rfl
@[simp] theorem State.setA_errSeen (c i : Nat) (v : W64) : (s.setA c i v).errSeen = s.errSeen := rfl
@[simp] theorem State.setA_supQ (c i : Nat) (v : W64) : (s.setA c i v).supQ = s.supQ := rfl
@[simp] theorem State.setA_recent (c i : Nat) (v : W64) : (s.setA c i v).recent = s.recent := rfl
@[simp] theorem State.setA_muted (c i : Nat) (v : W64) : (s.setA c i v).muted = s.muted := rfl
@[simp] theorem State.setA_free (c i : Nat) (v : W64) : (s.setA c i v).free = s.free := rfl

/-! ## setN -/

@[simp] theorem State.setN_pending (c i : Nat) (v : W32) : (s.setN c i v).pending = s.pending := rfl
@[simp] theorem State.setN_timebase (c i : Nat) (v : W32) : (s.setN c i v).timebase = s.timebase := rfl
@[simp] theorem State.setN_tickPeriod (c i : Nat) (v : W32) : (s.setN c i v).tickPeriod = s.tickPeriod := rfl
@[simp] theorem State.setN_regs (c i : Nat) (v : W32) : (s.setN c i v).regs = s.regs := rfl
@[simp] theorem State.setN_cnts (c i : Nat) (v : W32) : (s.setN c i v).cnts = s.cnts := rfl
@[simp] theorem State.setN_latches (c i : Nat) (v : W32) : (s.setN c i v).latches = s.latches := rfl
@[simp] theorem State.setN_snapTimes (c i : Nat) (v : W32) : (s.setN c i v).snapTimes = s.snapTimes := rfl
@[simp] theorem State.setN_reqs (c i : Nat) (v : W32) : (s.setN c i v).reqs = s.reqs := rfl
@[simp] theorem State.setN_walks (c i : Nat) (v : W32) : (s.setN c i v).walks = s.walks := rfl
@[simp] theorem State.setN_nextReq (c i : Nat) (v : W32) : (s.setN c i v).nextReq = s.nextReq := rfl
@[simp] theorem State.setN_mem (c i : Nat) (v : W32) : (s.setN c i v).mem = s.mem := rfl
@[simp] theorem State.setN_memPoison (c i : Nat) (v : W32) : (s.setN c i v).memPoison = s.memPoison := rfl
@[simp] theorem State.setN_memUpset (c i : Nat) (v : W32) : (s.setN c i v).memUpset = s.memUpset := rfl
@[simp] theorem State.setN_landings (c i : Nat) (v : W32) : (s.setN c i v).landings = s.landings := rfl
@[simp] theorem State.setN_scaler (c i : Nat) (v : W32) : (s.setN c i v).scaler = s.scaler := rfl
@[simp] theorem State.setN_bars (c i : Nat) (v : W32) : (s.setN c i v).bars = s.bars := rfl
@[simp] theorem State.setN_barOut (c i : Nat) (v : W32) : (s.setN c i v).barOut = s.barOut := rfl
@[simp] theorem State.setN_fab (c i : Nat) (v : W32) : (s.setN c i v).fab = s.fab := rfl
@[simp] theorem State.setN_eth (c i : Nat) (v : W32) : (s.setN c i v).eth = s.eth := rfl
@[simp] theorem State.setN_flash (c i : Nat) (v : W32) : (s.setN c i v).flash = s.flash := rfl
@[simp] theorem State.setN_sec (c i : Nat) (v : W32) : (s.setN c i v).sec = s.sec := rfl
@[simp] theorem State.setN_power (c i : Nat) (v : W32) : (s.setN c i v).power = s.power := rfl
@[simp] theorem State.setN_errSeen (c i : Nat) (v : W32) : (s.setN c i v).errSeen = s.errSeen := rfl
@[simp] theorem State.setN_supQ (c i : Nat) (v : W32) : (s.setN c i v).supQ = s.supQ := rfl
@[simp] theorem State.setN_recent (c i : Nat) (v : W32) : (s.setN c i v).recent = s.recent := rfl
@[simp] theorem State.setN_muted (c i : Nat) (v : W32) : (s.setN c i v).muted = s.muted := rfl
@[simp] theorem State.setN_free (c i : Nat) (v : W32) : (s.setN c i v).free = s.free := rfl

/-! ## setK -/

@[simp] theorem State.setK_pending (c j : Nat) (v : W32) : (s.setK c j v).pending = s.pending := rfl
@[simp] theorem State.setK_timebase (c j : Nat) (v : W32) : (s.setK c j v).timebase = s.timebase := rfl
@[simp] theorem State.setK_tickPeriod (c j : Nat) (v : W32) : (s.setK c j v).tickPeriod = s.tickPeriod := rfl
@[simp] theorem State.setK_regs (c j : Nat) (v : W32) : (s.setK c j v).regs = s.regs := rfl
@[simp] theorem State.setK_cnts (c j : Nat) (v : W32) : (s.setK c j v).cnts = s.cnts := rfl
@[simp] theorem State.setK_latches (c j : Nat) (v : W32) : (s.setK c j v).latches = s.latches := rfl
@[simp] theorem State.setK_snapTimes (c j : Nat) (v : W32) : (s.setK c j v).snapTimes = s.snapTimes := rfl
@[simp] theorem State.setK_reqs (c j : Nat) (v : W32) : (s.setK c j v).reqs = s.reqs := rfl
@[simp] theorem State.setK_walks (c j : Nat) (v : W32) : (s.setK c j v).walks = s.walks := rfl
@[simp] theorem State.setK_nextReq (c j : Nat) (v : W32) : (s.setK c j v).nextReq = s.nextReq := rfl
@[simp] theorem State.setK_mem (c j : Nat) (v : W32) : (s.setK c j v).mem = s.mem := rfl
@[simp] theorem State.setK_memPoison (c j : Nat) (v : W32) : (s.setK c j v).memPoison = s.memPoison := rfl
@[simp] theorem State.setK_memUpset (c j : Nat) (v : W32) : (s.setK c j v).memUpset = s.memUpset := rfl
@[simp] theorem State.setK_landings (c j : Nat) (v : W32) : (s.setK c j v).landings = s.landings := rfl
@[simp] theorem State.setK_scaler (c j : Nat) (v : W32) : (s.setK c j v).scaler = s.scaler := rfl
@[simp] theorem State.setK_bars (c j : Nat) (v : W32) : (s.setK c j v).bars = s.bars := rfl
@[simp] theorem State.setK_barOut (c j : Nat) (v : W32) : (s.setK c j v).barOut = s.barOut := rfl
@[simp] theorem State.setK_fab (c j : Nat) (v : W32) : (s.setK c j v).fab = s.fab := rfl
@[simp] theorem State.setK_eth (c j : Nat) (v : W32) : (s.setK c j v).eth = s.eth := rfl
@[simp] theorem State.setK_flash (c j : Nat) (v : W32) : (s.setK c j v).flash = s.flash := rfl
@[simp] theorem State.setK_sec (c j : Nat) (v : W32) : (s.setK c j v).sec = s.sec := rfl
@[simp] theorem State.setK_power (c j : Nat) (v : W32) : (s.setK c j v).power = s.power := rfl
@[simp] theorem State.setK_errSeen (c j : Nat) (v : W32) : (s.setK c j v).errSeen = s.errSeen := rfl
@[simp] theorem State.setK_supQ (c j : Nat) (v : W32) : (s.setK c j v).supQ = s.supQ := rfl
@[simp] theorem State.setK_recent (c j : Nat) (v : W32) : (s.setK c j v).recent = s.recent := rfl
@[simp] theorem State.setK_muted (c j : Nat) (v : W32) : (s.setK c j v).muted = s.muted := rfl
@[simp] theorem State.setK_free (c j : Nat) (v : W32) : (s.setK c j v).free = s.free := rfl

/-! ## modHold -/

@[simp] theorem State.modHold_pending (c : Nat) (f : XHold → XHold) : (s.modHold c f).pending = s.pending := rfl
@[simp] theorem State.modHold_timebase (c : Nat) (f : XHold → XHold) : (s.modHold c f).timebase = s.timebase := rfl
@[simp] theorem State.modHold_tickPeriod (c : Nat) (f : XHold → XHold) : (s.modHold c f).tickPeriod = s.tickPeriod := rfl
@[simp] theorem State.modHold_regs (c : Nat) (f : XHold → XHold) : (s.modHold c f).regs = s.regs := rfl
@[simp] theorem State.modHold_cnts (c : Nat) (f : XHold → XHold) : (s.modHold c f).cnts = s.cnts := rfl
@[simp] theorem State.modHold_latches (c : Nat) (f : XHold → XHold) : (s.modHold c f).latches = s.latches := rfl
@[simp] theorem State.modHold_snapTimes (c : Nat) (f : XHold → XHold) : (s.modHold c f).snapTimes = s.snapTimes := rfl
@[simp] theorem State.modHold_reqs (c : Nat) (f : XHold → XHold) : (s.modHold c f).reqs = s.reqs := rfl
@[simp] theorem State.modHold_walks (c : Nat) (f : XHold → XHold) : (s.modHold c f).walks = s.walks := rfl
@[simp] theorem State.modHold_nextReq (c : Nat) (f : XHold → XHold) : (s.modHold c f).nextReq = s.nextReq := rfl
@[simp] theorem State.modHold_mem (c : Nat) (f : XHold → XHold) : (s.modHold c f).mem = s.mem := rfl
@[simp] theorem State.modHold_memPoison (c : Nat) (f : XHold → XHold) : (s.modHold c f).memPoison = s.memPoison := rfl
@[simp] theorem State.modHold_memUpset (c : Nat) (f : XHold → XHold) : (s.modHold c f).memUpset = s.memUpset := rfl
@[simp] theorem State.modHold_landings (c : Nat) (f : XHold → XHold) : (s.modHold c f).landings = s.landings := rfl
@[simp] theorem State.modHold_scaler (c : Nat) (f : XHold → XHold) : (s.modHold c f).scaler = s.scaler := rfl
@[simp] theorem State.modHold_bars (c : Nat) (f : XHold → XHold) : (s.modHold c f).bars = s.bars := rfl
@[simp] theorem State.modHold_barOut (c : Nat) (f : XHold → XHold) : (s.modHold c f).barOut = s.barOut := rfl
@[simp] theorem State.modHold_fab (c : Nat) (f : XHold → XHold) : (s.modHold c f).fab = s.fab := rfl
@[simp] theorem State.modHold_eth (c : Nat) (f : XHold → XHold) : (s.modHold c f).eth = s.eth := rfl
@[simp] theorem State.modHold_flash (c : Nat) (f : XHold → XHold) : (s.modHold c f).flash = s.flash := rfl
@[simp] theorem State.modHold_sec (c : Nat) (f : XHold → XHold) : (s.modHold c f).sec = s.sec := rfl
@[simp] theorem State.modHold_power (c : Nat) (f : XHold → XHold) : (s.modHold c f).power = s.power := rfl
@[simp] theorem State.modHold_errSeen (c : Nat) (f : XHold → XHold) : (s.modHold c f).errSeen = s.errSeen := rfl
@[simp] theorem State.modHold_supQ (c : Nat) (f : XHold → XHold) : (s.modHold c f).supQ = s.supQ := rfl
@[simp] theorem State.modHold_recent (c : Nat) (f : XHold → XHold) : (s.modHold c f).recent = s.recent := rfl
@[simp] theorem State.modHold_muted (c : Nat) (f : XHold → XHold) : (s.modHold c f).muted = s.muted := rfl
@[simp] theorem State.modHold_free (c : Nat) (f : XHold → XHold) : (s.modHold c f).free = s.free := rfl

/-! ## thNext -/

@[simp] theorem State.thNext_pending (th : ThreadRef) (f : Thread → Thread) : (s.thNext th f).pending = s.pending := rfl
@[simp] theorem State.thNext_timebase (th : ThreadRef) (f : Thread → Thread) : (s.thNext th f).timebase = s.timebase := rfl
@[simp] theorem State.thNext_tickPeriod (th : ThreadRef) (f : Thread → Thread) : (s.thNext th f).tickPeriod = s.tickPeriod := rfl
@[simp] theorem State.thNext_regs (th : ThreadRef) (f : Thread → Thread) : (s.thNext th f).regs = s.regs := rfl
@[simp] theorem State.thNext_cnts (th : ThreadRef) (f : Thread → Thread) : (s.thNext th f).cnts = s.cnts := rfl
@[simp] theorem State.thNext_latches (th : ThreadRef) (f : Thread → Thread) : (s.thNext th f).latches = s.latches := rfl
@[simp] theorem State.thNext_snapTimes (th : ThreadRef) (f : Thread → Thread) : (s.thNext th f).snapTimes = s.snapTimes := rfl
@[simp] theorem State.thNext_reqs (th : ThreadRef) (f : Thread → Thread) : (s.thNext th f).reqs = s.reqs := rfl
@[simp] theorem State.thNext_walks (th : ThreadRef) (f : Thread → Thread) : (s.thNext th f).walks = s.walks := rfl
@[simp] theorem State.thNext_nextReq (th : ThreadRef) (f : Thread → Thread) : (s.thNext th f).nextReq = s.nextReq := rfl
@[simp] theorem State.thNext_mem (th : ThreadRef) (f : Thread → Thread) : (s.thNext th f).mem = s.mem := rfl
@[simp] theorem State.thNext_memPoison (th : ThreadRef) (f : Thread → Thread) : (s.thNext th f).memPoison = s.memPoison := rfl
@[simp] theorem State.thNext_memUpset (th : ThreadRef) (f : Thread → Thread) : (s.thNext th f).memUpset = s.memUpset := rfl
@[simp] theorem State.thNext_landings (th : ThreadRef) (f : Thread → Thread) : (s.thNext th f).landings = s.landings := rfl
@[simp] theorem State.thNext_scaler (th : ThreadRef) (f : Thread → Thread) : (s.thNext th f).scaler = s.scaler := rfl
@[simp] theorem State.thNext_bars (th : ThreadRef) (f : Thread → Thread) : (s.thNext th f).bars = s.bars := rfl
@[simp] theorem State.thNext_barOut (th : ThreadRef) (f : Thread → Thread) : (s.thNext th f).barOut = s.barOut := rfl
@[simp] theorem State.thNext_fab (th : ThreadRef) (f : Thread → Thread) : (s.thNext th f).fab = s.fab := rfl
@[simp] theorem State.thNext_eth (th : ThreadRef) (f : Thread → Thread) : (s.thNext th f).eth = s.eth := rfl
@[simp] theorem State.thNext_flash (th : ThreadRef) (f : Thread → Thread) : (s.thNext th f).flash = s.flash := rfl
@[simp] theorem State.thNext_sec (th : ThreadRef) (f : Thread → Thread) : (s.thNext th f).sec = s.sec := rfl
@[simp] theorem State.thNext_power (th : ThreadRef) (f : Thread → Thread) : (s.thNext th f).power = s.power := rfl
@[simp] theorem State.thNext_errSeen (th : ThreadRef) (f : Thread → Thread) : (s.thNext th f).errSeen = s.errSeen := rfl
@[simp] theorem State.thNext_supQ (th : ThreadRef) (f : Thread → Thread) : (s.thNext th f).supQ = s.supQ := rfl
@[simp] theorem State.thNext_recent (th : ThreadRef) (f : Thread → Thread) : (s.thNext th f).recent = s.recent := rfl
@[simp] theorem State.thNext_muted (th : ThreadRef) (f : Thread → Thread) : (s.thNext th f).muted = s.muted := rfl
@[simp] theorem State.thNext_free (th : ThreadRef) (f : Thread → Thread) : (s.thNext th f).free = s.free := rfl

/-! ## thRet -/

@[simp] theorem State.thRet_pending (th : ThreadRef) (r : Nat) (v : W64) : (s.thRet th r v).pending = s.pending := rfl
@[simp] theorem State.thRet_timebase (th : ThreadRef) (r : Nat) (v : W64) : (s.thRet th r v).timebase = s.timebase := rfl
@[simp] theorem State.thRet_tickPeriod (th : ThreadRef) (r : Nat) (v : W64) : (s.thRet th r v).tickPeriod = s.tickPeriod := rfl
@[simp] theorem State.thRet_regs (th : ThreadRef) (r : Nat) (v : W64) : (s.thRet th r v).regs = s.regs := rfl
@[simp] theorem State.thRet_cnts (th : ThreadRef) (r : Nat) (v : W64) : (s.thRet th r v).cnts = s.cnts := rfl
@[simp] theorem State.thRet_latches (th : ThreadRef) (r : Nat) (v : W64) : (s.thRet th r v).latches = s.latches := rfl
@[simp] theorem State.thRet_snapTimes (th : ThreadRef) (r : Nat) (v : W64) : (s.thRet th r v).snapTimes = s.snapTimes := rfl
@[simp] theorem State.thRet_reqs (th : ThreadRef) (r : Nat) (v : W64) : (s.thRet th r v).reqs = s.reqs := rfl
@[simp] theorem State.thRet_walks (th : ThreadRef) (r : Nat) (v : W64) : (s.thRet th r v).walks = s.walks := rfl
@[simp] theorem State.thRet_nextReq (th : ThreadRef) (r : Nat) (v : W64) : (s.thRet th r v).nextReq = s.nextReq := rfl
@[simp] theorem State.thRet_mem (th : ThreadRef) (r : Nat) (v : W64) : (s.thRet th r v).mem = s.mem := rfl
@[simp] theorem State.thRet_memPoison (th : ThreadRef) (r : Nat) (v : W64) : (s.thRet th r v).memPoison = s.memPoison := rfl
@[simp] theorem State.thRet_memUpset (th : ThreadRef) (r : Nat) (v : W64) : (s.thRet th r v).memUpset = s.memUpset := rfl
@[simp] theorem State.thRet_landings (th : ThreadRef) (r : Nat) (v : W64) : (s.thRet th r v).landings = s.landings := rfl
@[simp] theorem State.thRet_scaler (th : ThreadRef) (r : Nat) (v : W64) : (s.thRet th r v).scaler = s.scaler := rfl
@[simp] theorem State.thRet_bars (th : ThreadRef) (r : Nat) (v : W64) : (s.thRet th r v).bars = s.bars := rfl
@[simp] theorem State.thRet_barOut (th : ThreadRef) (r : Nat) (v : W64) : (s.thRet th r v).barOut = s.barOut := rfl
@[simp] theorem State.thRet_fab (th : ThreadRef) (r : Nat) (v : W64) : (s.thRet th r v).fab = s.fab := rfl
@[simp] theorem State.thRet_eth (th : ThreadRef) (r : Nat) (v : W64) : (s.thRet th r v).eth = s.eth := rfl
@[simp] theorem State.thRet_flash (th : ThreadRef) (r : Nat) (v : W64) : (s.thRet th r v).flash = s.flash := rfl
@[simp] theorem State.thRet_sec (th : ThreadRef) (r : Nat) (v : W64) : (s.thRet th r v).sec = s.sec := rfl
@[simp] theorem State.thRet_power (th : ThreadRef) (r : Nat) (v : W64) : (s.thRet th r v).power = s.power := rfl
@[simp] theorem State.thRet_errSeen (th : ThreadRef) (r : Nat) (v : W64) : (s.thRet th r v).errSeen = s.errSeen := rfl
@[simp] theorem State.thRet_supQ (th : ThreadRef) (r : Nat) (v : W64) : (s.thRet th r v).supQ = s.supQ := rfl
@[simp] theorem State.thRet_recent (th : ThreadRef) (r : Nat) (v : W64) : (s.thRet th r v).recent = s.recent := rfl
@[simp] theorem State.thRet_muted (th : ThreadRef) (r : Nat) (v : W64) : (s.thRet th r v).muted = s.muted := rfl
@[simp] theorem State.thRet_free (th : ThreadRef) (r : Nat) (v : W64) : (s.thRet th r v).free = s.free := rfl

/-! ## toReady -/

@[simp] theorem State.toReady_pending (th : ThreadRef) : (s.toReady th).pending = s.pending := rfl
@[simp] theorem State.toReady_timebase (th : ThreadRef) : (s.toReady th).timebase = s.timebase := rfl
@[simp] theorem State.toReady_tickPeriod (th : ThreadRef) : (s.toReady th).tickPeriod = s.tickPeriod := rfl
@[simp] theorem State.toReady_regs (th : ThreadRef) : (s.toReady th).regs = s.regs := rfl
@[simp] theorem State.toReady_cnts (th : ThreadRef) : (s.toReady th).cnts = s.cnts := rfl
@[simp] theorem State.toReady_latches (th : ThreadRef) : (s.toReady th).latches = s.latches := rfl
@[simp] theorem State.toReady_snapTimes (th : ThreadRef) : (s.toReady th).snapTimes = s.snapTimes := rfl
@[simp] theorem State.toReady_reqs (th : ThreadRef) : (s.toReady th).reqs = s.reqs := rfl
@[simp] theorem State.toReady_walks (th : ThreadRef) : (s.toReady th).walks = s.walks := rfl
@[simp] theorem State.toReady_nextReq (th : ThreadRef) : (s.toReady th).nextReq = s.nextReq := rfl
@[simp] theorem State.toReady_mem (th : ThreadRef) : (s.toReady th).mem = s.mem := rfl
@[simp] theorem State.toReady_memPoison (th : ThreadRef) : (s.toReady th).memPoison = s.memPoison := rfl
@[simp] theorem State.toReady_memUpset (th : ThreadRef) : (s.toReady th).memUpset = s.memUpset := rfl
@[simp] theorem State.toReady_landings (th : ThreadRef) : (s.toReady th).landings = s.landings := rfl
@[simp] theorem State.toReady_scaler (th : ThreadRef) : (s.toReady th).scaler = s.scaler := rfl
@[simp] theorem State.toReady_bars (th : ThreadRef) : (s.toReady th).bars = s.bars := rfl
@[simp] theorem State.toReady_barOut (th : ThreadRef) : (s.toReady th).barOut = s.barOut := rfl
@[simp] theorem State.toReady_fab (th : ThreadRef) : (s.toReady th).fab = s.fab := rfl
@[simp] theorem State.toReady_eth (th : ThreadRef) : (s.toReady th).eth = s.eth := rfl
@[simp] theorem State.toReady_flash (th : ThreadRef) : (s.toReady th).flash = s.flash := rfl
@[simp] theorem State.toReady_sec (th : ThreadRef) : (s.toReady th).sec = s.sec := rfl
@[simp] theorem State.toReady_power (th : ThreadRef) : (s.toReady th).power = s.power := rfl
@[simp] theorem State.toReady_errSeen (th : ThreadRef) : (s.toReady th).errSeen = s.errSeen := rfl
@[simp] theorem State.toReady_supQ (th : ThreadRef) : (s.toReady th).supQ = s.supQ := rfl
@[simp] theorem State.toReady_recent (th : ThreadRef) : (s.toReady th).recent = s.recent := rfl
@[simp] theorem State.toReady_muted (th : ThreadRef) : (s.toReady th).muted = s.muted := rfl
@[simp] theorem State.toReady_free (th : ThreadRef) : (s.toReady th).free = s.free := rfl

/-! ## retire -/

@[simp] theorem State.retire_pending (c : Nat) (e : Engine) : (s.retire c e).pending = s.pending := rfl
@[simp] theorem State.retire_timebase (c : Nat) (e : Engine) : (s.retire c e).timebase = s.timebase := rfl
@[simp] theorem State.retire_tickPeriod (c : Nat) (e : Engine) : (s.retire c e).tickPeriod = s.tickPeriod := rfl
@[simp] theorem State.retire_regs (c : Nat) (e : Engine) : (s.retire c e).regs = s.regs := rfl
@[simp] theorem State.retire_cnts (c : Nat) (e : Engine) : (s.retire c e).cnts = s.cnts := rfl
@[simp] theorem State.retire_latches (c : Nat) (e : Engine) : (s.retire c e).latches = s.latches := rfl
@[simp] theorem State.retire_snapTimes (c : Nat) (e : Engine) : (s.retire c e).snapTimes = s.snapTimes := rfl
@[simp] theorem State.retire_reqs (c : Nat) (e : Engine) : (s.retire c e).reqs = s.reqs := rfl
@[simp] theorem State.retire_walks (c : Nat) (e : Engine) : (s.retire c e).walks = s.walks := rfl
@[simp] theorem State.retire_nextReq (c : Nat) (e : Engine) : (s.retire c e).nextReq = s.nextReq := rfl
@[simp] theorem State.retire_mem (c : Nat) (e : Engine) : (s.retire c e).mem = s.mem := rfl
@[simp] theorem State.retire_memPoison (c : Nat) (e : Engine) : (s.retire c e).memPoison = s.memPoison := rfl
@[simp] theorem State.retire_memUpset (c : Nat) (e : Engine) : (s.retire c e).memUpset = s.memUpset := rfl
@[simp] theorem State.retire_landings (c : Nat) (e : Engine) : (s.retire c e).landings = s.landings := rfl
@[simp] theorem State.retire_scaler (c : Nat) (e : Engine) : (s.retire c e).scaler = s.scaler := rfl
@[simp] theorem State.retire_bars (c : Nat) (e : Engine) : (s.retire c e).bars = s.bars := rfl
@[simp] theorem State.retire_barOut (c : Nat) (e : Engine) : (s.retire c e).barOut = s.barOut := rfl
@[simp] theorem State.retire_fab (c : Nat) (e : Engine) : (s.retire c e).fab = s.fab := rfl
@[simp] theorem State.retire_eth (c : Nat) (e : Engine) : (s.retire c e).eth = s.eth := rfl
@[simp] theorem State.retire_flash (c : Nat) (e : Engine) : (s.retire c e).flash = s.flash := rfl
@[simp] theorem State.retire_sec (c : Nat) (e : Engine) : (s.retire c e).sec = s.sec := rfl
@[simp] theorem State.retire_power (c : Nat) (e : Engine) : (s.retire c e).power = s.power := rfl
@[simp] theorem State.retire_errSeen (c : Nat) (e : Engine) : (s.retire c e).errSeen = s.errSeen := rfl
@[simp] theorem State.retire_supQ (c : Nat) (e : Engine) : (s.retire c e).supQ = s.supQ := rfl
@[simp] theorem State.retire_recent (c : Nat) (e : Engine) : (s.retire c e).recent = s.recent := rfl
@[simp] theorem State.retire_muted (c : Nat) (e : Engine) : (s.retire c e).muted = s.muted := rfl
@[simp] theorem State.retire_free (c : Nat) (e : Engine) : (s.retire c e).free = s.free := rfl

/-! ## dropRouted -/

@[simp] theorem State.dropRouted_pending (p : Packet) : (s.dropRouted p).pending = s.pending := rfl
@[simp] theorem State.dropRouted_timebase (p : Packet) : (s.dropRouted p).timebase = s.timebase := rfl
@[simp] theorem State.dropRouted_tickPeriod (p : Packet) : (s.dropRouted p).tickPeriod = s.tickPeriod := rfl
@[simp] theorem State.dropRouted_regs (p : Packet) : (s.dropRouted p).regs = s.regs := rfl
@[simp] theorem State.dropRouted_cnts (p : Packet) : (s.dropRouted p).cnts = s.cnts := rfl
@[simp] theorem State.dropRouted_latches (p : Packet) : (s.dropRouted p).latches = s.latches := rfl
@[simp] theorem State.dropRouted_snapTimes (p : Packet) : (s.dropRouted p).snapTimes = s.snapTimes := rfl
@[simp] theorem State.dropRouted_cells (p : Packet) : (s.dropRouted p).cells = s.cells := rfl
@[simp] theorem State.dropRouted_reqs (p : Packet) : (s.dropRouted p).reqs = s.reqs := rfl
@[simp] theorem State.dropRouted_walks (p : Packet) : (s.dropRouted p).walks = s.walks := rfl
@[simp] theorem State.dropRouted_nextReq (p : Packet) : (s.dropRouted p).nextReq = s.nextReq := rfl
@[simp] theorem State.dropRouted_mem (p : Packet) : (s.dropRouted p).mem = s.mem := rfl
@[simp] theorem State.dropRouted_memPoison (p : Packet) : (s.dropRouted p).memPoison = s.memPoison := rfl
@[simp] theorem State.dropRouted_memUpset (p : Packet) : (s.dropRouted p).memUpset = s.memUpset := rfl
@[simp] theorem State.dropRouted_landings (p : Packet) : (s.dropRouted p).landings = s.landings := rfl
@[simp] theorem State.dropRouted_scaler (p : Packet) : (s.dropRouted p).scaler = s.scaler := rfl
@[simp] theorem State.dropRouted_bars (p : Packet) : (s.dropRouted p).bars = s.bars := rfl
@[simp] theorem State.dropRouted_barOut (p : Packet) : (s.dropRouted p).barOut = s.barOut := rfl
@[simp] theorem State.dropRouted_fab (p : Packet) : (s.dropRouted p).fab = { s.fab with router := s.fab.router.erase p } := rfl
@[simp] theorem State.dropRouted_eth (p : Packet) : (s.dropRouted p).eth = s.eth := rfl
@[simp] theorem State.dropRouted_flash (p : Packet) : (s.dropRouted p).flash = s.flash := rfl
@[simp] theorem State.dropRouted_sec (p : Packet) : (s.dropRouted p).sec = s.sec := rfl
@[simp] theorem State.dropRouted_power (p : Packet) : (s.dropRouted p).power = s.power := rfl
@[simp] theorem State.dropRouted_errSeen (p : Packet) : (s.dropRouted p).errSeen = s.errSeen := rfl
@[simp] theorem State.dropRouted_supQ (p : Packet) : (s.dropRouted p).supQ = s.supQ := rfl
@[simp] theorem State.dropRouted_recent (p : Packet) : (s.dropRouted p).recent = s.recent := rfl
@[simp] theorem State.dropRouted_muted (p : Packet) : (s.dropRouted p).muted = s.muted := rfl
@[simp] theorem State.dropRouted_free (p : Packet) : (s.dropRouted p).free = s.free := rfl

/-! ## takeArrived -/

@[simp] theorem State.takeArrived_pending (p : Packet) : (s.takeArrived p).pending = s.pending := rfl
@[simp] theorem State.takeArrived_timebase (p : Packet) : (s.takeArrived p).timebase = s.timebase := rfl
@[simp] theorem State.takeArrived_tickPeriod (p : Packet) : (s.takeArrived p).tickPeriod = s.tickPeriod := rfl
@[simp] theorem State.takeArrived_regs (p : Packet) : (s.takeArrived p).regs = s.regs := rfl
@[simp] theorem State.takeArrived_cnts (p : Packet) : (s.takeArrived p).cnts = s.cnts := rfl
@[simp] theorem State.takeArrived_latches (p : Packet) : (s.takeArrived p).latches = s.latches := rfl
@[simp] theorem State.takeArrived_snapTimes (p : Packet) : (s.takeArrived p).snapTimes = s.snapTimes := rfl
@[simp] theorem State.takeArrived_cells (p : Packet) : (s.takeArrived p).cells = s.cells := rfl
@[simp] theorem State.takeArrived_reqs (p : Packet) : (s.takeArrived p).reqs = s.reqs := rfl
@[simp] theorem State.takeArrived_walks (p : Packet) : (s.takeArrived p).walks = s.walks := rfl
@[simp] theorem State.takeArrived_nextReq (p : Packet) : (s.takeArrived p).nextReq = s.nextReq := rfl
@[simp] theorem State.takeArrived_mem (p : Packet) : (s.takeArrived p).mem = s.mem := rfl
@[simp] theorem State.takeArrived_memPoison (p : Packet) : (s.takeArrived p).memPoison = s.memPoison := rfl
@[simp] theorem State.takeArrived_memUpset (p : Packet) : (s.takeArrived p).memUpset = s.memUpset := rfl
@[simp] theorem State.takeArrived_landings (p : Packet) : (s.takeArrived p).landings = s.landings := rfl
@[simp] theorem State.takeArrived_scaler (p : Packet) : (s.takeArrived p).scaler = s.scaler := rfl
@[simp] theorem State.takeArrived_bars (p : Packet) : (s.takeArrived p).bars = s.bars := rfl
@[simp] theorem State.takeArrived_barOut (p : Packet) : (s.takeArrived p).barOut = s.barOut := rfl
@[simp] theorem State.takeArrived_fab (p : Packet) : (s.takeArrived p).fab = { s.fab with arrived := s.fab.arrived.erase p } := rfl
@[simp] theorem State.takeArrived_eth (p : Packet) : (s.takeArrived p).eth = s.eth := rfl
@[simp] theorem State.takeArrived_flash (p : Packet) : (s.takeArrived p).flash = s.flash := rfl
@[simp] theorem State.takeArrived_sec (p : Packet) : (s.takeArrived p).sec = s.sec := rfl
@[simp] theorem State.takeArrived_power (p : Packet) : (s.takeArrived p).power = s.power := rfl
@[simp] theorem State.takeArrived_errSeen (p : Packet) : (s.takeArrived p).errSeen = s.errSeen := rfl
@[simp] theorem State.takeArrived_supQ (p : Packet) : (s.takeArrived p).supQ = s.supQ := rfl
@[simp] theorem State.takeArrived_recent (p : Packet) : (s.takeArrived p).recent = s.recent := rfl
@[simp] theorem State.takeArrived_muted (p : Packet) : (s.takeArrived p).muted = s.muted := rfl
@[simp] theorem State.takeArrived_free (p : Packet) : (s.takeArrived p).free = s.free := rfl

/-! ## dropJob -/

@[simp] theorem State.dropJob_pending (j : Nat) : (s.dropJob j).pending = s.pending := rfl
@[simp] theorem State.dropJob_timebase (j : Nat) : (s.dropJob j).timebase = s.timebase := rfl
@[simp] theorem State.dropJob_tickPeriod (j : Nat) : (s.dropJob j).tickPeriod = s.tickPeriod := rfl
@[simp] theorem State.dropJob_regs (j : Nat) : (s.dropJob j).regs = s.regs := rfl
@[simp] theorem State.dropJob_cnts (j : Nat) : (s.dropJob j).cnts = s.cnts := rfl
@[simp] theorem State.dropJob_latches (j : Nat) : (s.dropJob j).latches = s.latches := rfl
@[simp] theorem State.dropJob_snapTimes (j : Nat) : (s.dropJob j).snapTimes = s.snapTimes := rfl
@[simp] theorem State.dropJob_cells (j : Nat) : (s.dropJob j).cells = s.cells := rfl
@[simp] theorem State.dropJob_reqs (j : Nat) : (s.dropJob j).reqs = s.reqs := rfl
@[simp] theorem State.dropJob_walks (j : Nat) : (s.dropJob j).walks = s.walks := rfl
@[simp] theorem State.dropJob_nextReq (j : Nat) : (s.dropJob j).nextReq = s.nextReq := rfl
@[simp] theorem State.dropJob_mem (j : Nat) : (s.dropJob j).mem = s.mem := rfl
@[simp] theorem State.dropJob_memPoison (j : Nat) : (s.dropJob j).memPoison = s.memPoison := rfl
@[simp] theorem State.dropJob_memUpset (j : Nat) : (s.dropJob j).memUpset = s.memUpset := rfl
@[simp] theorem State.dropJob_landings (j : Nat) : (s.dropJob j).landings = s.landings := rfl
@[simp] theorem State.dropJob_scaler (j : Nat) : (s.dropJob j).scaler = s.scaler := rfl
@[simp] theorem State.dropJob_bars (j : Nat) : (s.dropJob j).bars = s.bars := rfl
@[simp] theorem State.dropJob_barOut (j : Nat) : (s.dropJob j).barOut = s.barOut := rfl
@[simp] theorem State.dropJob_fab (j : Nat) : (s.dropJob j).fab = s.fab := rfl
@[simp] theorem State.dropJob_eth (j : Nat) : (s.dropJob j).eth = { s.eth with jobs := s.eth.jobs.filter (·.job != j) } := rfl
@[simp] theorem State.dropJob_flash (j : Nat) : (s.dropJob j).flash = s.flash := rfl
@[simp] theorem State.dropJob_sec (j : Nat) : (s.dropJob j).sec = s.sec := rfl
@[simp] theorem State.dropJob_power (j : Nat) : (s.dropJob j).power = s.power := rfl
@[simp] theorem State.dropJob_errSeen (j : Nat) : (s.dropJob j).errSeen = s.errSeen := rfl
@[simp] theorem State.dropJob_supQ (j : Nat) : (s.dropJob j).supQ = s.supQ := rfl
@[simp] theorem State.dropJob_recent (j : Nat) : (s.dropJob j).recent = s.recent := rfl
@[simp] theorem State.dropJob_muted (j : Nat) : (s.dropJob j).muted = s.muted := rfl
@[simp] theorem State.dropJob_free (j : Nat) : (s.dropJob j).free = s.free := rfl

/-! ## modArr -/

@[simp] theorem State.modArr_pending (c : Nat) (f : ArraySt → ArraySt) : (s.modArr c f).pending = s.pending := rfl
@[simp] theorem State.modArr_timebase (c : Nat) (f : ArraySt → ArraySt) : (s.modArr c f).timebase = s.timebase := rfl
@[simp] theorem State.modArr_tickPeriod (c : Nat) (f : ArraySt → ArraySt) : (s.modArr c f).tickPeriod = s.tickPeriod := rfl
@[simp] theorem State.modArr_regs (c : Nat) (f : ArraySt → ArraySt) : (s.modArr c f).regs = s.regs := rfl
@[simp] theorem State.modArr_cnts (c : Nat) (f : ArraySt → ArraySt) : (s.modArr c f).cnts = s.cnts := rfl
@[simp] theorem State.modArr_latches (c : Nat) (f : ArraySt → ArraySt) : (s.modArr c f).latches = s.latches := rfl
@[simp] theorem State.modArr_snapTimes (c : Nat) (f : ArraySt → ArraySt) : (s.modArr c f).snapTimes = s.snapTimes := rfl
@[simp] theorem State.modArr_cells (c : Nat) (f : ArraySt → ArraySt) : (s.modArr c f).cells = modAt c (fun x => x.modArr f) s.cells := rfl
@[simp] theorem State.modArr_reqs (c : Nat) (f : ArraySt → ArraySt) : (s.modArr c f).reqs = s.reqs := rfl
@[simp] theorem State.modArr_walks (c : Nat) (f : ArraySt → ArraySt) : (s.modArr c f).walks = s.walks := rfl
@[simp] theorem State.modArr_nextReq (c : Nat) (f : ArraySt → ArraySt) : (s.modArr c f).nextReq = s.nextReq := rfl
@[simp] theorem State.modArr_mem (c : Nat) (f : ArraySt → ArraySt) : (s.modArr c f).mem = s.mem := rfl
@[simp] theorem State.modArr_memPoison (c : Nat) (f : ArraySt → ArraySt) : (s.modArr c f).memPoison = s.memPoison := rfl
@[simp] theorem State.modArr_memUpset (c : Nat) (f : ArraySt → ArraySt) : (s.modArr c f).memUpset = s.memUpset := rfl
@[simp] theorem State.modArr_landings (c : Nat) (f : ArraySt → ArraySt) : (s.modArr c f).landings = s.landings := rfl
@[simp] theorem State.modArr_scaler (c : Nat) (f : ArraySt → ArraySt) : (s.modArr c f).scaler = s.scaler := rfl
@[simp] theorem State.modArr_bars (c : Nat) (f : ArraySt → ArraySt) : (s.modArr c f).bars = s.bars := rfl
@[simp] theorem State.modArr_barOut (c : Nat) (f : ArraySt → ArraySt) : (s.modArr c f).barOut = s.barOut := rfl
@[simp] theorem State.modArr_fab (c : Nat) (f : ArraySt → ArraySt) : (s.modArr c f).fab = s.fab := rfl
@[simp] theorem State.modArr_eth (c : Nat) (f : ArraySt → ArraySt) : (s.modArr c f).eth = s.eth := rfl
@[simp] theorem State.modArr_flash (c : Nat) (f : ArraySt → ArraySt) : (s.modArr c f).flash = s.flash := rfl
@[simp] theorem State.modArr_sec (c : Nat) (f : ArraySt → ArraySt) : (s.modArr c f).sec = s.sec := rfl
@[simp] theorem State.modArr_power (c : Nat) (f : ArraySt → ArraySt) : (s.modArr c f).power = s.power := rfl
@[simp] theorem State.modArr_errSeen (c : Nat) (f : ArraySt → ArraySt) : (s.modArr c f).errSeen = s.errSeen := rfl
@[simp] theorem State.modArr_supQ (c : Nat) (f : ArraySt → ArraySt) : (s.modArr c f).supQ = s.supQ := rfl
@[simp] theorem State.modArr_recent (c : Nat) (f : ArraySt → ArraySt) : (s.modArr c f).recent = s.recent := rfl
@[simp] theorem State.modArr_muted (c : Nat) (f : ArraySt → ArraySt) : (s.modArr c f).muted = s.muted := rfl
@[simp] theorem State.modArr_free (c : Nat) (f : ArraySt → ArraySt) : (s.modArr c f).free = s.free := rfl

end Sys2Proof.Machine
end

