-- ==== Sys2Proof/Laws/Table.lean ====
section
/-! SUPPORT. Laws/Table.lean: what reading after writing a sparse table or a memory gives, and that every table operation keeps the
canonical form. -/

namespace Sys2Proof.Machine

/-! ## The canonical form -/

theorem tblWfFrom_cons {α : Type} [DecidableEq α] (dflt : Nat → α) (lo : Option Nat) (k : Nat) (v : α) (t : List (Nat × α)) :
    tblWfFrom dflt lo ((k, v) :: t) = true ↔ (∀ b, lo = some b → b < k) ∧ v ≠ dflt k ∧ tblWfFrom dflt (some k) t = true := by
  cases lo <;> simp [tblWfFrom, and_assoc]

/-- A lower bound may be lowered. -/
theorem tblWfFrom_lower {α : Type} [DecidableEq α] {dflt : Nat → α} {t : List (Nat × α)} {b : Nat} {lo : Option Nat}
    (h : tblWfFrom dflt (some b) t = true) (hl : ∀ a, lo = some a → a ≤ b) : tblWfFrom dflt lo t = true := by
  cases t with
  | nil => simp [tblWfFrom]
  | cons e t =>
    obtain ⟨h1, h2⟩ := (tblWfFrom_cons ..).1 h
    exact (tblWfFrom_cons ..).2 ⟨fun a ha => Nat.lt_of_le_of_lt (hl a ha) (h1 b rfl), h2⟩

theorem tblSet_wfFrom {α : Type} [DecidableEq α] (dflt : Nat → α) (k : Nat) (v : α) (t : List (Nat × α)) (lo : Option Nat)
    (h : tblWfFrom dflt lo t = true) (hl : ∀ b, lo = some b → b < k) : tblWfFrom dflt lo (tblSet (dflt k) k v t) = true := by
  induction t generalizing lo with
  | nil =>
    unfold tblSet
    split
    · exact h
    · exact (tblWfFrom_cons ..).2 ⟨hl, ‹_›, rfl⟩
  | cons e t ih =>
    obtain ⟨h1, h2, h3⟩ := (tblWfFrom_cons ..).1 h
    unfold tblSet
    split
    · split
      · exact h
      · exact (tblWfFrom_cons ..).2 ⟨hl, ‹_›, (tblWfFrom_cons ..).2 ⟨fun b hb => by cases hb; assumption, h2, h3⟩⟩
    · split
      · split
        · exact tblWfFrom_lower h3 fun a ha => Nat.le_of_lt (h1 a ha)
        · refine (tblWfFrom_cons ..).2 ⟨hl, ‹_›, ?_⟩
          rw [‹k = e.1›]
          exact h3
      · exact (tblWfFrom_cons ..).2 ⟨h1, h2, ih _ h3 fun b hb => by cases hb; omega⟩

/-- Writing an entry keeps the canonical form. -/
theorem tblSet_wf {α : Type} [DecidableEq α] (dflt : Nat → α) (k : Nat) (v : α) (t : List (Nat × α)) (h : tblWf dflt t = true) :
    tblWf dflt (tblSet (dflt k) k v t) = true :=
  tblSet_wfFrom dflt k v t none h fun _ hb => by cases hb

theorem filter_wfFrom {α : Type} [DecidableEq α] (dflt : Nat → α) (p : Nat × α → Bool) (t : List (Nat × α)) (lo : Option Nat)
    (h : tblWfFrom dflt lo t = true) : tblWfFrom dflt lo (t.filter p) = true := by
  induction t generalizing lo with
  | nil => exact h
  | cons e t ih =>
    obtain ⟨h1, h2, h3⟩ := (tblWfFrom_cons ..).1 h
    rw [List.filter_cons]
    split
    · exact (tblWfFrom_cons ..).2 ⟨h1, h2, ih _ h3⟩
    · exact ih _ (tblWfFrom_lower h3 fun a ha => Nat.le_of_lt (h1 a ha))

/-- Dropping entries keeps the canonical form. -/
theorem filter_wf {α : Type} [DecidableEq α] (dflt : Nat → α) (p : Nat × α → Bool) (t : List (Nat × α)) (h : tblWf dflt t = true) :
    tblWf dflt (t.filter p) = true := filter_wfFrom dflt p t none h

/-! ## Read after write -/

/-- Below its first key a table holds the default. -/
theorem tblGet_below {α : Type} [DecidableEq α] (d : α) {dflt : Nat → α} {k b : Nat} {t : List (Nat × α)}
    (h : tblWfFrom dflt (some b) t = true) (hk : k ≤ b) : tblGet d k t = d := by
  cases t with
  | nil => rfl
  | cons e t =>
    have h1 := ((tblWfFrom_cons ..).1 h).1 b rfl
    unfold tblGet
    rw [if_neg (by omega), if_pos (by omega)]

/-- What a key holds after an entry is written. -/
theorem tblGet_tblSet_from {α : Type} [DecidableEq α] (dflt : Nat → α) (d : α) (j k : Nat) (v : α) (t : List (Nat × α)) (lo : Option Nat)
    (h : tblWfFrom dflt lo t = true) (hd : j = k → d = dflt k) :
    tblGet d j (tblSet (dflt k) k v t) = if j = k then v else tblGet d j t := by
  induction t generalizing lo with
  | nil =>
    unfold tblSet
    split
    · split
      · next hv hjk => rw [hv, ← hd hjk]; rfl
      · rfl
    · simp [tblGet]
  | cons e t ih =>
    obtain ⟨h1, h2, h3⟩ := (tblWfFrom_cons ..).1 h
    unfold tblSet
    split
    · split
      · split
        · next hv hjk => rw [hv, ← hd hjk, hjk]; unfold tblGet; rw [if_neg (by omega), if_pos (by omega)]
        · rfl
      · rw [tblGet]
        split
        · rfl
        · split
          · unfold tblGet; rw [if_neg (by omega), if_pos (by omega)]
          · rfl
    · split
      · next hke =>
        subst hke
        split
        · next hv =>
          rw [tblGet]
          split
          · next hjk => rw [tblGet_below d h3 (Nat.le_of_eq hjk), hv, hd hjk]
          · split
            · exact tblGet_below d h3 (by omega)
            · rfl
        · rw [tblGet, tblGet]
          split <;> rfl
      · rw [tblGet, tblGet, ih _ h3]
        split
        · rw [if_neg (by omega)]
        · split
          · rw [if_neg (by omega)]
          · rfl

/-- Reading a written table. -/
theorem tblGet_tblSet {α : Type} [DecidableEq α] (dflt : Nat → α) (j k : Nat) (v : α) (t : List (Nat × α)) (h : tblWf dflt t = true) :
    tblGet (dflt j) j (tblSet (dflt k) k v t) = if j = k then v else tblGet (dflt j) j t :=
  tblGet_tblSet_from dflt (dflt j) j k v t none h fun e => by rw [e]

/-! ## Memories -/

theorem memSet_wf (m : List Host.Cell) (a : Nat) (b : Byte) (h : memWf m = true) : memWf (memSet m a b) = true :=
  tblSet_wf (fun _ => memDefault) a b m h

theorem memGet_memSet (m : List Host.Cell) (a x : Nat) (b : Byte) (h : memWf m = true) :
    memGet (memSet m a b) x = if x = a then b else memGet m x :=
  tblGet_tblSet (fun _ => memDefault) x a b m h

theorem memWrite_wf (l : List Byte) (m : List Host.Cell) (a : Nat) (h : memWf m = true) : memWf (memWrite m a l) = true := by
  induction l generalizing m a with
  | nil => exact h
  | cons b t ih => exact ih _ _ (memSet_wf m a b h)

theorem filter_memWf (m : List Host.Cell) (p : Host.Cell → Bool) (h : memWf m = true) : memWf (m.filter p) = true :=
  filter_wf (fun _ => memDefault) p m h

/-- A byte after a run of bytes is written: the run's own byte inside it, the old byte outside it. -/
theorem memGet_memWrite (l : List Byte) (m : List Host.Cell) (a x : Nat) (h : memWf m = true) :
    memGet (memWrite m a l) x = if a ≤ x ∧ x < a + l.length then l.getD (x - a) 0 else memGet m x := by
  induction l generalizing m a with
  | nil => simp [memWrite]
  | cons b t ih =>
    rw [memWrite, ih _ _ (memSet_wf m a b h), memGet_memSet m a x b h]
    by_cases hx : x = a
    · subst hx; simp
    · by_cases hin : a + 1 ≤ x ∧ x < a + 1 + t.length
      · rw [if_pos hin, if_pos (by simp; omega)]
        obtain ⟨n, hn⟩ : ∃ n, x - a = n + 1 := ⟨x - a - 1, by omega⟩
        rw [hn, List.getD_cons_succ]
        congr 1
        omega
      · rw [if_neg hin, if_neg hx, if_neg (by simp; omega)]

/-- Bytes read back after they are written. -/
theorem memRead_memWrite (l : List Byte) (m : List Host.Cell) (a : Nat) (h : memWf m = true) :
    memRead (memWrite m a l) a l.length = l := by
  suffices ∀ (n k : Nat), k + n = l.length → memRead (memWrite m a l) (a + k) n = l.drop k from by simpa using this l.length 0 (by simp)
  intro n
  induction n with
  | zero => intro k hk; simp at hk; simp [memRead, hk]
  | succ n ih =>
    intro k hk
    have hlt : k < l.length := by omega
    rw [memRead, memGet_memWrite l m a _ h, if_pos (by omega), Nat.add_assoc, ih (k + 1) (by omega), List.drop_eq_getElem_cons hlt]
    simp [List.getD_eq_getElem?_getD, hlt]

/-- Memory with nothing listed has the canonical form. -/
theorem memWf_nil : memWf [] = true := rfl

theorem reset_mem_wf : memWf State.reset.mem = true := rfl

/-! ## Elements of a list -/

theorem modAt_length {α : Type} (i : Nat) (f : α → α) (l : List α) : (modAt i f l).length = l.length := by
  induction l generalizing i with
  | nil => simp [modAt]
  | cons a t ih => cases i <;> simp [modAt, ih]

theorem modAt_getD {α : Type} (i j : Nat) (f : α → α) (l : List α) (d : α) :
    (modAt i f l).getD j d = if j = i ∧ i < l.length then f (l.getD j d) else l.getD j d := by
  induction l generalizing i j with
  | nil => simp [modAt]
  | cons a t ih => cases i with
    | zero => cases j <;> simp [modAt]
    | succ i => cases j with
      | zero => simp [modAt]
      | succ j => simpa [modAt] using ih i j

/-- A property of every element holds after one is replaced by another that has it. -/
theorem modAt_all {α : Type} (p : α → Prop) (i : Nat) (f : α → α) (l : List α) (h : ∀ x ∈ l, p x) (hf : ∀ x, p x → p (f x)) :
    ∀ x ∈ modAt i f l, p x := by
  induction l generalizing i with
  | nil => simp [modAt]
  | cons a t ih =>
    have ha := h a List.mem_cons_self
    have ht := fun x hx => h x (List.mem_cons_of_mem a hx)
    cases i with
    | zero => exact List.forall_mem_cons.2 ⟨hf a ha, ht⟩
    | succ i => exact List.forall_mem_cons.2 ⟨ha, ih i ht⟩

end Sys2Proof.Machine
end

