-- ==== Sys2Proof/Laws/Ops.lean ====
section
/-! SUPPORT. Laws/Ops.lean: what each operation that the meanings share can do, said once: the change of one cell, of one slot, of one
table; and what issuing an instruction comes to. -/

namespace Sys2Proof.Machine

/-! ## Units -/

theorem State.cell_modCell (s : State) (c d : Nat) (f : CellSt → CellSt) :
    (s.modCell c f).cell d = if d = c ∧ c < s.cells.length then f (s.cell d) else s.cell d :=
  modAt_getD c d f s.cells CellSt.reset

/-- A cell that the device has takes the change. -/
theorem State.cell_modCell_self {s : State} {c : Nat} (h : c < s.cells.length) (f : CellSt → CellSt) :
    (s.modCell c f).cell c = f (s.cell c) := by
  simp [State.cell_modCell, h]

theorem State.cell_modCell_ne {s : State} {c d : Nat} (h : d ≠ c) (f : CellSt → CellSt) : (s.modCell c f).cell d = s.cell d := by
  simp [State.cell_modCell, h]

theorem State.thread_modThread (s : State) (c k d j : Nat) (f : Thread → Thread) :
    (s.modThread c k f).thread d j =
      if d = c ∧ c < s.cells.length ∧ j = k ∧ k < (s.cell c).threads.length then f (s.thread d j) else s.thread d j := by
  unfold State.modThread State.thread
  rw [State.cell_modCell]
  by_cases h : d = c ∧ c < s.cells.length
  · obtain ⟨rfl, h⟩ := h
    rw [if_pos ⟨rfl, h⟩]
    simp only [h, true_and]
    exact modAt_getD k j f (s.cell d).threads Thread.reset
  · rw [if_neg h, if_neg]
    exact fun h2 => h ⟨h2.1, h2.2.1⟩

theorem State.landing_modLanding (s : State) (l k : Nat) (f : Landing → Landing) :
    (s.modLanding l f).landing k = if k = l ∧ l < s.landings.length then f (s.landing k) else s.landing k :=
  modAt_getD l k f s.landings Landing.reset

theorem State.link_modLink (s : State) (l k : Nat) (f : Link → Link) :
    (s.modLink l f).link k = if k = l ∧ l < s.fab.links.length then f (s.link k) else s.link k :=
  modAt_getD l k f s.fab.links Link.reset

/-- A cell that is not there reads as a cell after reset. -/
theorem State.cell_beyond {s : State} {c : Nat} (h : s.cells.length ≤ c) : s.cell c = CellSt.reset := by
  simp [State.cell, List.getElem?_eq_none h]

/-- What happens in one cell alone. -/
theorem State.modCell_only (s : State) (c : Nat) (f : CellSt → CellSt) : OnlyCell c s (s.modCell c f) :=
  ⟨rfl, fun _ h => State.cell_modCell_ne h f⟩

theorem State.modCell_step {s : State} {c : Nat} (h : c < s.cells.length) (f : CellSt → CellSt) : CellStep c f s (s.modCell c f) :=
  ⟨State.cell_modCell_self h f, State.modCell_only s c f⟩

theorem OnlyCell.trans {c : Nat} {s t u : State} (h : OnlyCell c s t) (k : OnlyCell c t u) : OnlyCell c s u := by
  refine ⟨?_, fun d hd => (k.cells d hd).trans (h.cells d hd)⟩
  have h1 := congrArg (fun x : State => { x with cells := s.cells }) k.device
  exact h1.trans h.device

/-- A change of one cell is no change of the device's memory. -/
theorem OnlyCell.mem {c : Nat} {s t : State} (h : OnlyCell c s t) : SameMemory s t := fun _ => by
  rw [← h.device]

/-! ## Registers and counters -/

theorem State.reg_setReg {s : State} (h : s.Good) (a b : Nat) (v : W32) : (s.setReg a v).reg b = if b = a then v else s.reg b :=
  tblGet_tblSet regReset b a v s.regs h.regs

theorem State.cnt_rawCount {s : State} (h : s.Good) (k j n : Nat) :
    (s.rawCount k n).cnt j = if j = k then s.cnt k + BitVec.ofNat 64 n else s.cnt j := by
  have key : tblGet (0 : W64) j (tblSet 0 k (BitVec.ofNat 64 ((s.cnt k).toNat + n)) s.cnts) =
      if j = k then s.cnt k + BitVec.ofNat 64 n else s.cnt j := by
    rw [tblGet_tblSet (fun _ => (0 : W64)) j k _ s.cnts h.cnts]
    congr 1
    apply BitVec.eq_of_toNat_eq
    simp
  rw [← key]
  unfold State.rawCount
  dsimp only
  split <;> rfl

/-- A free value changes nothing but the count of free values taken. -/
theorem State.fresh_only (s : State) : { s.fresh.2 with free := s.free } = s := rfl

/-! ## Threads -/

theorem CellSt.thread_reset (k : Nat) : CellSt.reset.thread k = Thread.reset := by
  have h : ∀ (n k : Nat), (List.replicate n Thread.reset).getD k Thread.reset = Thread.reset := fun n k => by
    rw [List.getD_eq_getElem?_getD, List.getElem?_replicate]
    split <;> rfl
  exact h 64 k

/-- A thread that runs lies in a cell and a slot that there are. -/
theorem State.runs_bounds {s : State} {th : ThreadRef} (h : s.runs th = true) :
    th.cell < s.cells.length ∧ th.slot < (s.cell th.cell).threads.length := by
  simp only [State.runs, Bool.and_eq_true, beq_iff_eq] at h
  have hr : (s.thread th.cell th.slot).state = .running := h.1.1.2
  have h2 : th.slot < (s.cell th.cell).threads.length := by
    by_contra hc
    simp [State.thread, CellSt.thread, List.getElem?_eq_none (Nat.le_of_not_lt hc), Thread.reset] at hr
  refine ⟨?_, h2⟩
  by_contra hc
  rw [State.thread, State.cell_beyond (Nat.le_of_not_lt hc), CellSt.thread_reset] at hr
  cases hr

/-- A thread at its word carries out the instruction that the word spells. -/
theorem State.thIssue_ready {s : State} {th : ThreadRef} {cls op : Nat} {w : W64} (h : ThreadReady s th cls op w) (f : State) :
    s.thIssue th cls op w f = f := by
  obtain ⟨⟨h1, h2, h3, h4⟩, h5⟩ := h
  simp [isOp] at h5
  unfold State.thIssue
  simp [h1, Nat.not_lt.mpr h2, h3, h4, h5]

/-- Where a thread does not run, its instructions do nothing. -/
theorem State.thIssue_idle {s : State} {th : ThreadRef} {cls op : Nat} {w : W64} (h : s.runs th = false) (f : State) :
    s.thIssue th cls op w f = s := by
  unfold State.thIssue
  simp [h]

theorem State.modThread_step {s : State} {th : ThreadRef} (h : s.runs th = true) (f : Thread → Thread) :
    ThreadStep th f s (s.modThread th.cell th.slot f) := by
  obtain ⟨a, b⟩ := State.runs_bounds h
  refine ⟨by simp [State.thread_modThread, a, b], rfl, ?_, ?_, ?_⟩
  · intro c hc
    exact State.cell_modCell_ne hc _
  · rw [State.modThread, State.cell_modCell_self a]
  · intro k hk
    simp [State.thread_modThread, hk]

/-- An instruction that retires changes its slot alone. -/
theorem State.thNext_step {s : State} {th : ThreadRef} (h : s.runs th = true) (f : Thread → Thread) :
    ThreadStep th (fun t => { f t with pc := (f t).pc + 8 }) s (s.thNext th f) := State.modThread_step h _

theorem ThreadStep.mem {th : ThreadRef} {f : Thread → Thread} {s t : State} (h : ThreadStep th f s t) : SameMemory s t := fun _ => by
  rw [← h.2.device]

theorem ThreadStep.opmem {th : ThreadRef} {f : Thread → Thread} {s t : State} (h : ThreadStep th f s t) : SameOpmem s t := by
  intro c a
  by_cases hc : c = th.cell
  · subst hc
    rw [← h.2.cell]
  · rw [h.2.cells c hc]

@[simp] theorem Thread.setReg_pc (t : Thread) (r : Nat) (v : W64) : (t.setReg r v).pc = t.pc := by unfold Thread.setReg; split <;> rfl
@[simp] theorem Thread.setReg_flags (t : Thread) (r : Nat) (v : W64) : (t.setReg r v).flags = t.flags := by unfold Thread.setReg; split <;> rfl
@[simp] theorem Thread.setReg_state (t : Thread) (r : Nat) (v : W64) : (t.setReg r v).state = t.state := by unfold Thread.setReg; split <;> rfl
@[simp] theorem Thread.setReg_zero (t : Thread) (v : W64) : t.setReg 0 v = t := rfl
@[simp] theorem Thread.reg_zero (t : Thread) : t.reg 0 = 0 := rfl

theorem Thread.setReg_length (t : Thread) (r : Nat) (v : W64) : (t.setReg r v).regs.length = t.regs.length := by
  unfold Thread.setReg
  split
  · rfl
  · exact modAt_length ..

/-- An instruction that leaves a value in rd retires so. -/
theorem State.thRet_step {s : State} {th : ThreadRef} (h : s.runs th = true) (w v : W64) :
    ThreadStep th (Machine.retire w v) s (s.thRet th (wRd w) v) := by
  have e : (fun t : Thread => { t.setReg (wRd w) v with pc := (t.setReg (wRd w) v).pc + 8 }) = Machine.retire w v :=
    funext fun t => by rw [Thread.setReg_pc]; rfl
  rw [← e]
  exact State.thNext_step h fun t => t.setReg (wRd w) v

/-! ## Engines -/

/-- An engine at its word carries out the instruction that the word spells. -/
theorem State.engineIssue_ready {s : State} {c cls op : Nat} {e : Engine} {p : Prog} {w : W64} {free : Bool}
    (h : EngineReady s c e p cls op w) (hf : free = true) (f : Prog → State) : s.engineIssue c e free cls op w f = f p := by
  obtain ⟨⟨h1, -, h3, h4⟩, h5⟩ := h
  have h6 : wCls w = cls ∧ wOp w = op ∧ decodeFault (engineUnit e) w = none := by
    simp [isOp] at h5
    tauto
  unfold State.engineIssue
  rw [h1]
  simp [hf, Prog.at_, h3, h6, -List.getD_eq_getElem?_getD, h4]

/-- Where no program may issue, an engine's instructions do nothing. -/
theorem State.engineIssue_idle {s : State} {c cls op : Nat} {e : Engine} {w : W64} {free : Bool} (h : s.engineIssues c e = none)
    (f : Prog → State) : s.engineIssue c e free cls op w f = s := by
  unfold State.engineIssue
  rw [h]

end Sys2Proof.Machine
end

