-- ==== Sys2Proof/WellFormed.lean ====
section
/-! DEFINITION. WellFormed.lean: which commands name units that the device has. A command outside these ranges finds no unit and
changes nothing. -/

namespace Sys2Proof

/-- A cell number (R13). -/
def okCell (c : Nat) : Bool := decide (c < 192)
/-- A thread slot of a cell (R298). -/
def okThread (t : ThreadRef) : Bool := decide (t.cell < 192) && decide (t.slot < 64)
/-- A command queue of the session (R424). -/
def okQueue (q : Nat) : Bool := decide (q < 64)
/-- A landing (R15). -/
def okLanding (l : Nat) : Bool := decide (l < 12)
/-- A frame of a landing (R62). -/
def okFrame (f : Nat) : Bool := decide (f < 32768)
/-- A link of the fabric (R380). -/
def okLink (l : Nat) : Bool := decide (l < 32)
/-- A barrier channel (R334). -/
def okChan (n : Nat) : Bool := decide (n < 80)
/-- A device number (R62). -/
def okDev (d : Nat) : Bool := decide (d < 65536)
/-- An object handle (R53). -/
def okHandle (h : Nat) : Bool := decide (h < 2 ^ 24)
/-- A plot number (R64). -/
def okPlot (p : Nat) : Bool := decide (p < 2 ^ 40)

/-- The unit numbers of a command are in range. -/
def Instr.wf : Instr → Bool
  | .objCreate q _ => okQueue q
  | .objFree q _ => okQueue q
  | .objSeal q _ => okQueue q
  | .objQuery q _ => okQueue q
  | .objHint q _ => okQueue q
  | .objRead q _ => okQueue q
  | .objWrite q _ => okQueue q
  | .plcQueryPlot q _ => okQueue q
  | .plcQueryWorkSet q _ => okQueue q
  | .workSet q _ => okQueue q
  | .workItemRebalance c => okCell c
  | .progLoad q _ => okQueue q
  | .threadStart q _ => okQueue q
  | .threadStop q _ => okQueue q
  | .threadFree q _ => okQueue q
  | .threadSignal q _ => okQueue q
  | .sessionOpen q _ => okQueue q
  | .sessionClose q _ => okQueue q
  | .keepalive q _ => okQueue q
  | .regRead q _ => okQueue q
  | .regWrite q _ => okQueue q
  | .powerSetRung q _ => okQueue q
  | .powerSetSetpoint q _ => okQueue q
  | .attest q _ => okQueue q
  | .fwBegin q _ => okQueue q
  | .fwData q _ => okQueue q
  | .fwCommit q _ => okQueue q
  | .fwConfirm q _ => okQueue q
  | .fwRaise q _ => okQueue q
  | .ownerEnrol q _ => okQueue q
  | .fwAbort q _ => okQueue q
  | .macsecKey q _ => okQueue q
  | .rdmaQpCreate q _ => okQueue q
  | .rdmaQpDestroy q _ => okQueue q
  | .rdmaMrCreate q _ => okQueue q
  | .rdmaMrDestroy q _ => okQueue q
  | .qctPacket _ => true
  | .qctRetransmit q => okQueue q
  | .ackonly q => okQueue q
  | .keepaliveLoss => true
  | .eventSend => true
  | .rdmaWrite r => decide (r.qpn < 2 ^ 24)
  | .rdmaRead r => decide (r.qpn < 2 ^ 24)
  | .cnpReceive qpn => decide (qpn < 2 ^ 24)
  | .frameReceive _ => true
  | .pfcFrame _ => true
  | .portUp lanes => decide (lanes ≤ 8)
  | .launchA th _ => okThread th
  | .launchX th _ => okThread th
  | .programComplete c _ => okCell c
  | .programAbort c => okCell c
  | .chuteWaitEnd c _ => okCell c
  | .decoupleStall c => okCell c
  | .wtake th _ => okThread th
  | .wdone th _ => okThread th
  | .sNop th _ => okThread th
  | .sAdd th _ => okThread th
  | .sSub th _ => okThread th
  | .sMul th _ => okThread th
  | .sMulhu th _ => okThread th
  | .sDivu th _ => okThread th
  | .sRemu th _ => okThread th
  | .sAnd th _ => okThread th
  | .sOr th _ => okThread th
  | .sXor th _ => okThread th
  | .sSll th _ => okThread th
  | .sSrl th _ => okThread th
  | .sSra th _ => okThread th
  | .sSlt th _ => okThread th
  | .sSltu th _ => okThread th
  | .sAddi th _ => okThread th
  | .sAndi th _ => okThread th
  | .sOri th _ => okThread th
  | .sXori th _ => okThread th
  | .sSlli th _ => okThread th
  | .sSrli th _ => okThread th
  | .sSrai th _ => okThread th
  | .sLih th _ => okThread th
  | .sBeq th _ => okThread th
  | .sBne th _ => okThread th
  | .sBlt th _ => okThread th
  | .sBge th _ => okThread th
  | .sBltu th _ => okThread th
  | .sBgeu th _ => okThread th
  | .sJal th _ => okThread th
  | .sJalr th _ => okThread th
  | .sLd th _ => okThread th
  | .sLds th _ => okThread th
  | .sSt th _ => okThread th
  | .sRdreg th _ => okThread th
  | .sWrreg th _ => okThread th
  | .sTime th _ => okThread th
  | .sTick th _ => okThread th
  | .fence th _ => okThread th
  | .fenceComplete th => okThread th
  | .wait th _ => okThread th
  | .sleep th _ => okThread th
  | .yield th _ => okThread th
  | .signal th _ => okThread th
  | .flags th _ => okThread th
  | .mbox th _ => okThread th
  | .barrier th _ => okThread th
  | .setpri th _ => okThread th
  | .post th _ => okThread th
  | .exit th _ => okThread th
  | .threadDispatch c core slot => okCell c && decide (core < 4) && decide (slot < 64)
  | .threadWake th => okThread th
  | .tickBoundary => true
  | .deadlineDue c => okCell c
  | .starvationLimit th => okThread th
  | .barrierMessage m => okLink m.link && okChan m.chan
  | .barrierEpisodeComplete chan => okChan chan
  | .barrierChannelEnable chan => okChan chan
  | .barrierChannelDisable chan => okChan chan
  | .aAdda c _ => okCell c
  | .aAddan c _ => okCell c
  | .aSetn c _ => okCell c
  | .aAddn c _ => okCell c
  | .aLoop c _ => okCell c
  | .aNop c _ => okCell c
  | .aGather c _ => okCell c
  | .aGathercsr c _ => okCell c
  | .aStream c _ => okCell c
  | .aStreamc c _ => okCell c
  | .aLoad c _ => okCell c
  | .aPref c _ => okCell c
  | .aStore c _ => okCell c
  | .aStorec c _ => okCell c
  | .aScadd c _ => okCell c
  | .aHaul c _ => okCell c
  | .requestIssue c => okCell c
  | .granuleDelivery c _ => okCell c
  | .walkComplete c handle plot => okCell c && okHandle handle && okPlot plot
  | .redirectReceive c _ => okCell c
  | .homeLostReceive c _ => okCell c
  | .requestAck c _ => okCell c
  | .mcfg c _ => okCell c
  | .mldw c _ => okCell c
  | .mldwComplete c => okCell c
  | .mpre c _ => okCell c
  | .mmul c _ => okCell c
  | .mmulComplete c => okCell c
  | .overflowReplay c => okCell c
  | .mdrain c _ => okCell c
  | .mdrainComplete c => okCell c
  | .xNop c _ => okCell c
  | .xSetk c _ => okCell c
  | .xAddk c _ => okCell c
  | .xLoop c _ => okCell c
  | .xMa c _ => okCell c
  | .vsetvl c _ => okCell c
  | .vmov c _ => okCell c
  | .vadd c _ => okCell c
  | .vsub c _ => okCell c
  | .vmul c _ => okCell c
  | .vfma c _ => okCell c
  | .vmax c _ => okCell c
  | .vmin c _ => okCell c
  | .vabs c _ => okCell c
  | .vneg c _ => okCell c
  | .viadd c _ => okCell c
  | .visub c _ => okCell c
  | .vimul c _ => okCell c
  | .vimax c _ => okCell c
  | .vimin c _ => okCell c
  | .vand c _ => okCell c
  | .vor c _ => okCell c
  | .vxor c _ => okCell c
  | .vsll c _ => okCell c
  | .vsrl c _ => okCell c
  | .vsra c _ => okCell c
  | .vcmp c _ => okCell c
  | .vsel c _ => okCell c
  | .vmand c _ => okCell c
  | .vmor c _ => okCell c
  | .vmxor c _ => okCell c
  | .vmnot c _ => okCell c
  | .vmfirst c _ => okCell c
  | .vlmul c _ => okCell c
  | .vladd c _ => okCell c
  | .vexp c _ => okCell c
  | .vrcp c _ => okCell c
  | .vrsq c _ => okCell c
  | .vlog2 c _ => okCell c
  | .vperm c _ => okCell c
  | .vshuf c _ => okCell c
  | .vcompress c _ => okCell c
  | .vexpand c _ => okCell c
  | .vrsum c _ => okCell c
  | .vrmax c _ => okCell c
  | .vrmin c _ => okCell c
  | .vsegsum c _ => okCell c
  | .vld c _ => okCell c
  | .vst c _ => okCell c
  | .vsummary c _ => okCell c
  | .vpred c _ => okCell c
  | .vcvt c _ => okCell c
  | .vpack c _ => okCell c
  | .vunpack c _ => okCell c
  | .ccClean c => okCell c
  | .ccInvalidate c => okCell c
  | .ccCleanInv c => okCell c
  | .ccPreloadLock c => okCell c
  | .ccUnlock c => okCell c
  | .ccMaintComplete c => okCell c
  | .scalerFrameInvalidate c lnd frame => okCell c && okLanding lnd && okFrame frame
  | .landingRequest l _ => okLanding l
  | .scrubRead l => okLanding l
  | .frameZeroFill l frame => okLanding l && okFrame frame
  | .landingFail l => okLanding l
  | .placementInterval => true
  | .moveCopyDone handle plot => okHandle handle && okPlot plot
  | .moveFlip handle plot => okHandle handle && okPlot plot
  | .sweepComplete handle => okHandle handle
  | .moveInvalidateDone handle plot => okHandle handle && okPlot plot
  | .linkTrained l lanes => okLink l && decide (lanes < 16)
  | .dataFlit l _ => okLink l
  | .nak l _ => okLink l
  | .heartbeat l _ => okLink l
  | .heartbeatSend l => okLink l
  | .beacon l _ => okLink l
  | .wake l _ => okLink l
  | .resume l _ => okLink l
  | .linkLivenessTimeout l => okLink l
  | .packetRoute p => okDev p.dst && okDev p.src
  | .norouteHoldExpiry p => okDev p.dst && okDev p.src
  | .parkedHoldExpiry p => okDev p.dst && okDev p.src
  | .load p => okDev p.dst && okDev p.src
  | .store p => okDev p.dst && okDev p.src
  | .add p => okDev p.dst && okDev p.src
  | .walk p => okDev p.dst && okDev p.src
  | .fenced p => okDev p.dst && okDev p.src
  | .move p => okDev p.dst && okDev p.src
  | .mgmt src _ => okDev src
  | .membLinkDown p => okDev p.dst && okDev p.src
  | .probe p => okDev p.dst && okDev p.src
  | .probeResp p => okDev p.dst && okDev p.src
  | .probeTimeout x => okDev x
  | .linkDownReportTimeout x => okDev x
  | .epoch p => okDev p.dst && okDev p.src
  | .drainTimeout => true
  | .membJoin p => okDev p.dst && okDev p.src
  | .joinResp p => okDev p.dst && okDev p.src
  | .joinTimeout => true
  | .recover p => okDev p.dst && okDev p.src
  | .recoverResp p => okDev p.dst && okDev p.src
  | .fabFound => true
  | .fabJoin => true
  | .powerOn => true
  | .pwrEnRise => true
  | .pwrGoodTimeout => true
  | .pwrEnFall => true
  | .resetAssert => true
  | .bootRom _ => true
  | .lookoutBoot => true
  | .lookoutWatchdog => true
  | .jtagUnlockChallenge => true
  | .jtagUnlockResponse _ => true
  | .rungDrainDone => true
  | .rungDrainTimeout => true
  | .wakePin => true
  | .rungExit => true
  | .fallowExit => true
  | .setpointChange c => okCell c
  | .cellPark c => okCell c
  | .cellUnpark c => okCell c
  | .thermalWarn sensor _ => decide (sensor < 32)
  | .throttleStep field => decide (field < 4)
  | .thermalTrip sensor _ => decide (sensor < 32)
  | .cellRestart c _ => okCell c
  | .deviceFatal => true
  | .reportForward field => decide (field < 4)
  | .errCntClr => true
  | .snapshotTake j _ => decide (j < 2)
  | .snapshotRelease j => decide (j < 2)
  | .registerWrite _ addr _ => decide (addr < 2 ^ 32)
  | .portDown => true
  | .idleFlit l _ => okLink l
  | .vstbyLoss => true
  | .railFailure => true
  | .tripRailReturn => true
  | .cellRestartComplete c => okCell c
  | .mpreComplete c => okCell c
  | .vClassBusyEnd c => okCell c
  | .registerRead _ addr count => decide (addr + 4 * count ≤ 2 ^ 32)
  | .i3cDynamicAddressing _ => true

end Sys2Proof
end

