-- ==== Sys2Proof/Laws/PerInstr.lean ====
section
/-! SUPPORT. Laws/PerInstr.lean: one fact for every command, stated once and proved command by command: the cell that a well-formed
command acts in is one of the device's 192 (R13). -/

namespace Sys2Proof.Laws

/-- The cell whose thread, engine, queue or array a command names, none for a command of the rest of the device. -/
def Instr.actsIn : Instr → Option Nat
  | .workItemRebalance c => some c
  | .launchA th _ => some th.cell
  | .launchX th _ => some th.cell
  | .programComplete c _ => some c
  | .programAbort c => some c
  | .chuteWaitEnd c _ => some c
  | .decoupleStall c => some c
  | .wtake th _ => some th.cell
  | .wdone th _ => some th.cell
  | .sNop th _ => some th.cell
  | .sAdd th _ => some th.cell
  | .sSub th _ => some th.cell
  | .sMul th _ => some th.cell
  | .sMulhu th _ => some th.cell
  | .sDivu th _ => some th.cell
  | .sRemu th _ => some th.cell
  | .sAnd th _ => some th.cell
  | .sOr th _ => some th.cell
  | .sXor th _ => some th.cell
  | .sSll th _ => some th.cell
  | .sSrl th _ => some th.cell
  | .sSra th _ => some th.cell
  | .sSlt th _ => some th.cell
  | .sSltu th _ => some th.cell
  | .sAddi th _ => some th.cell
  | .sAndi th _ => some th.cell
  | .sOri th _ => some th.cell
  | .sXori th _ => some th.cell
  | .sSlli th _ => some th.cell
  | .sSrli th _ => some th.cell
  | .sSrai th _ => some th.cell
  | .sLih th _ => some th.cell
  | .sBeq th _ => some th.cell
  | .sBne th _ => some th.cell
  | .sBlt th _ => some th.cell
  | .sBge th _ => some th.cell
  | .sBltu th _ => some th.cell
  | .sBgeu th _ => some th.cell
  | .sJal th _ => some th.cell
  | .sJalr th _ => some th.cell
  | .sLd th _ => some th.cell
  | .sLds th _ => some th.cell
  | .sSt th _ => some th.cell
  | .sRdreg th _ => some th.cell
  | .sWrreg th _ => some th.cell
  | .sTime th _ => some th.cell
  | .sTick th _ => some th.cell
  | .fence th _ => some th.cell
  | .fenceComplete th => some th.cell
  | .wait th _ => some th.cell
  | .sleep th _ => some th.cell
  | .yield th _ => some th.cell
  | .signal th _ => some th.cell
  | .flags th _ => some th.cell
  | .mbox th _ => some th.cell
  | .barrier th _ => some th.cell
  | .setpri th _ => some th.cell
  | .post th _ => some th.cell
  | .exit th _ => some th.cell
  | .threadDispatch c _ _ => some c
  | .threadWake th => some th.cell
  | .deadlineDue c => some c
  | .starvationLimit th => some th.cell
  | .aAdda c _ => some c
  | .aAddan c _ => some c
  | .aSetn c _ => some c
  | .aAddn c _ => some c
  | .aLoop c _ => some c
  | .aNop c _ => some c
  | .aGather c _ => some c
  | .aGathercsr c _ => some c
  | .aStream c _ => some c
  | .aStreamc c _ => some c
  | .aLoad c _ => some c
  | .aPref c _ => some c
  | .aStore c _ => some c
  | .aStorec c _ => some c
  | .aScadd c _ => some c
  | .aHaul c _ => some c
  | .requestIssue c => some c
  | .granuleDelivery c _ => some c
  | .walkComplete c _ _ => some c
  | .redirectReceive c _ => some c
  | .homeLostReceive c _ => some c
  | .requestAck c _ => some c
  | .mcfg c _ => some c
  | .mldw c _ => some c
  | .mldwComplete c => some c
  | .mpre c _ => some c
  | .mmul c _ => some c
  | .mmulComplete c => some c
  | .overflowReplay c => some c
  | .mdrain c _ => some c
  | .mdrainComplete c => some c
  | .xNop c _ => some c
  | .xSetk c _ => some c
  | .xAddk c _ => some c
  | .xLoop c _ => some c
  | .xMa c _ => some c
  | .vsetvl c _ => some c
  | .vmov c _ => some c
  | .vadd c _ => some c
  | .vsub c _ => some c
  | .vmul c _ => some c
  | .vfma c _ => some c
  | .vmax c _ => some c
  | .vmin c _ => some c
  | .vabs c _ => some c
  | .vneg c _ => some c
  | .viadd c _ => some c
  | .visub c _ => some c
  | .vimul c _ => some c
  | .vimax c _ => some c
  | .vimin c _ => some c
  | .vand c _ => some c
  | .vor c _ => some c
  | .vxor c _ => some c
  | .vsll c _ => some c
  | .vsrl c _ => some c
  | .vsra c _ => some c
  | .vcmp c _ => some c
  | .vsel c _ => some c
  | .vmand c _ => some c
  | .vmor c _ => some c
  | .vmxor c _ => some c
  | .vmnot c _ => some c
  | .vmfirst c _ => some c
  | .vlmul c _ => some c
  | .vladd c _ => some c
  | .vexp c _ => some c
  | .vrcp c _ => some c
  | .vrsq c _ => some c
  | .vlog2 c _ => some c
  | .vperm c _ => some c
  | .vshuf c _ => some c
  | .vcompress c _ => some c
  | .vexpand c _ => some c
  | .vrsum c _ => some c
  | .vrmax c _ => some c
  | .vrmin c _ => some c
  | .vsegsum c _ => some c
  | .vld c _ => some c
  | .vst c _ => some c
  | .vsummary c _ => some c
  | .vpred c _ => some c
  | .vcvt c _ => some c
  | .vpack c _ => some c
  | .vunpack c _ => some c
  | .ccClean c => some c
  | .ccInvalidate c => some c
  | .ccCleanInv c => some c
  | .ccPreloadLock c => some c
  | .ccUnlock c => some c
  | .ccMaintComplete c => some c
  | .scalerFrameInvalidate c _ _ => some c
  | .setpointChange c => some c
  | .cellPark c => some c
  | .cellUnpark c => some c
  | .cellRestart c _ => some c
  | .cellRestartComplete c => some c
  | .mpreComplete c => some c
  | .vClassBusyEnd c => some c
  | _ => none

namespace CellBound

/-- A well-formed command acts in a cell that the device has. -/
def Statement (i : Instr) : Prop := i.wf = true → ∀ c, Instr.actsIn i = some c → c < 192

/-- A command of no cell. -/
theorem of_none {i : Instr} (h : Instr.actsIn i = none) : Statement i := fun _ c hc => by
  rw [h] at hc
  cases hc

/-- A command whose cell number is checked. -/
theorem of_cell {i : Instr} {k : Nat} (h : Instr.actsIn i = some k) (hw : i.wf = true → okCell k = true) : Statement i := fun w c hc => by
  rw [h] at hc
  cases hc
  exact of_decide_eq_true (hw w)

/-- A command whose thread slot is checked. -/
theorem of_thread {i : Instr} {th : ThreadRef} (h : Instr.actsIn i = some th.cell) (hw : i.wf = true → okThread th = true) : Statement i :=
  of_cell h fun w => (Bool.and_eq_true_iff.mp (hw w)).1

theorem objCreate (q : Nat) (payload : List Byte) : Statement (.objCreate q payload) := of_none rfl
theorem objFree (q : Nat) (payload : List Byte) : Statement (.objFree q payload) := of_none rfl
theorem objSeal (q : Nat) (payload : List Byte) : Statement (.objSeal q payload) := of_none rfl
theorem objQuery (q : Nat) (payload : List Byte) : Statement (.objQuery q payload) := of_none rfl
theorem objHint (q : Nat) (payload : List Byte) : Statement (.objHint q payload) := of_none rfl
theorem objRead (q : Nat) (payload : List Byte) : Statement (.objRead q payload) := of_none rfl
theorem objWrite (q : Nat) (payload : List Byte) : Statement (.objWrite q payload) := of_none rfl
theorem plcQueryPlot (q : Nat) (payload : List Byte) : Statement (.plcQueryPlot q payload) := of_none rfl
theorem plcQueryWorkSet (q : Nat) (payload : List Byte) : Statement (.plcQueryWorkSet q payload) := of_none rfl
theorem workSet (q : Nat) (payload : List Byte) : Statement (.workSet q payload) := of_none rfl
theorem workItemRebalance (c : Nat) : Statement (.workItemRebalance c) := of_cell rfl (fun w => w)
theorem progLoad (q : Nat) (payload : List Byte) : Statement (.progLoad q payload) := of_none rfl
theorem threadStart (q : Nat) (payload : List Byte) : Statement (.threadStart q payload) := of_none rfl
theorem threadStop (q : Nat) (payload : List Byte) : Statement (.threadStop q payload) := of_none rfl
theorem threadFree (q : Nat) (payload : List Byte) : Statement (.threadFree q payload) := of_none rfl
theorem threadSignal (q : Nat) (payload : List Byte) : Statement (.threadSignal q payload) := of_none rfl
theorem sessionOpen (q : Nat) (payload : List Byte) : Statement (.sessionOpen q payload) := of_none rfl
theorem sessionClose (q : Nat) (payload : List Byte) : Statement (.sessionClose q payload) := of_none rfl
theorem keepalive (q : Nat) (payload : List Byte) : Statement (.keepalive q payload) := of_none rfl
theorem regRead (q : Nat) (payload : List Byte) : Statement (.regRead q payload) := of_none rfl
theorem regWrite (q : Nat) (payload : List Byte) : Statement (.regWrite q payload) := of_none rfl
theorem powerSetRung (q : Nat) (payload : List Byte) : Statement (.powerSetRung q payload) := of_none rfl
theorem powerSetSetpoint (q : Nat) (payload : List Byte) : Statement (.powerSetSetpoint q payload) := of_none rfl
theorem attest (q : Nat) (payload : List Byte) : Statement (.attest q payload) := of_none rfl
theorem fwBegin (q : Nat) (payload : List Byte) : Statement (.fwBegin q payload) := of_none rfl
theorem fwData (q : Nat) (payload : List Byte) : Statement (.fwData q payload) := of_none rfl
theorem fwCommit (q : Nat) (payload : List Byte) : Statement (.fwCommit q payload) := of_none rfl
theorem fwConfirm (q : Nat) (payload : List Byte) : Statement (.fwConfirm q payload) := of_none rfl
theorem fwRaise (q : Nat) (payload : List Byte) : Statement (.fwRaise q payload) := of_none rfl
theorem ownerEnrol (q : Nat) (payload : List Byte) : Statement (.ownerEnrol q payload) := of_none rfl
theorem fwAbort (q : Nat) (payload : List Byte) : Statement (.fwAbort q payload) := of_none rfl
theorem macsecKey (q : Nat) (payload : List Byte) : Statement (.macsecKey q payload) := of_none rfl
theorem rdmaQpCreate (q : Nat) (payload : List Byte) : Statement (.rdmaQpCreate q payload) := of_none rfl
theorem rdmaQpDestroy (q : Nat) (payload : List Byte) : Statement (.rdmaQpDestroy q payload) := of_none rfl
theorem rdmaMrCreate (q : Nat) (payload : List Byte) : Statement (.rdmaMrCreate q payload) := of_none rfl
theorem rdmaMrDestroy (q : Nat) (payload : List Byte) : Statement (.rdmaMrDestroy q payload) := of_none rfl
theorem qctPacket (d : Datagram) : Statement (.qctPacket d) := of_none rfl
theorem qctRetransmit (q : Nat) : Statement (.qctRetransmit q) := of_none rfl
theorem ackonly (q : Nat) : Statement (.ackonly q) := of_none rfl
theorem keepaliveLoss : Statement (.keepaliveLoss) := of_none rfl
theorem eventSend : Statement (.eventSend) := of_none rfl
theorem rdmaWrite (r : RdmaReq) : Statement (.rdmaWrite r) := of_none rfl
theorem rdmaRead (r : RdmaReq) : Statement (.rdmaRead r) := of_none rfl
theorem cnpReceive (qpn : Nat) : Statement (.cnpReceive qpn) := of_none rfl
theorem frameReceive (f : Frame) : Statement (.frameReceive f) := of_none rfl
theorem pfcFrame (pri : Byte) : Statement (.pfcFrame pri) := of_none rfl
theorem portUp (lanes : Nat) : Statement (.portUp lanes) := of_none rfl
theorem launchA (th : ThreadRef) (w : W64) : Statement (.launchA th w) := of_thread rfl (fun w => w)
theorem launchX (th : ThreadRef) (w : W64) : Statement (.launchX th w) := of_thread rfl (fun w => w)
theorem programComplete (c : Nat) (e : Engine) : Statement (.programComplete c e) := of_cell rfl (fun w => w)
theorem programAbort (c : Nat) : Statement (.programAbort c) := of_cell rfl (fun w => w)
theorem chuteWaitEnd (c : Nat) (e : Engine) : Statement (.chuteWaitEnd c e) := of_cell rfl (fun w => w)
theorem decoupleStall (c : Nat) : Statement (.decoupleStall c) := of_cell rfl (fun w => w)
theorem wtake (th : ThreadRef) (w : W64) : Statement (.wtake th w) := of_thread rfl (fun w => w)
theorem wdone (th : ThreadRef) (w : W64) : Statement (.wdone th w) := of_thread rfl (fun w => w)
theorem sNop (th : ThreadRef) (w : W64) : Statement (.sNop th w) := of_thread rfl (fun w => w)
theorem sAdd (th : ThreadRef) (w : W64) : Statement (.sAdd th w) := of_thread rfl (fun w => w)
theorem sSub (th : ThreadRef) (w : W64) : Statement (.sSub th w) := of_thread rfl (fun w => w)
theorem sMul (th : ThreadRef) (w : W64) : Statement (.sMul th w) := of_thread rfl (fun w => w)
theorem sMulhu (th : ThreadRef) (w : W64) : Statement (.sMulhu th w) := of_thread rfl (fun w => w)
theorem sDivu (th : ThreadRef) (w : W64) : Statement (.sDivu th w) := of_thread rfl (fun w => w)
theorem sRemu (th : ThreadRef) (w : W64) : Statement (.sRemu th w) := of_thread rfl (fun w => w)
theorem sAnd (th : ThreadRef) (w : W64) : Statement (.sAnd th w) := of_thread rfl (fun w => w)
theorem sOr (th : ThreadRef) (w : W64) : Statement (.sOr th w) := of_thread rfl (fun w => w)
theorem sXor (th : ThreadRef) (w : W64) : Statement (.sXor th w) := of_thread rfl (fun w => w)
theorem sSll (th : ThreadRef) (w : W64) : Statement (.sSll th w) := of_thread rfl (fun w => w)
theorem sSrl (th : ThreadRef) (w : W64) : Statement (.sSrl th w) := of_thread rfl (fun w => w)
theorem sSra (th : ThreadRef) (w : W64) : Statement (.sSra th w) := of_thread rfl (fun w => w)
theorem sSlt (th : ThreadRef) (w : W64) : Statement (.sSlt th w) := of_thread rfl (fun w => w)
theorem sSltu (th : ThreadRef) (w : W64) : Statement (.sSltu th w) := of_thread rfl (fun w => w)
theorem sAddi (th : ThreadRef) (w : W64) : Statement (.sAddi th w) := of_thread rfl (fun w => w)
theorem sAndi (th : ThreadRef) (w : W64) : Statement (.sAndi th w) := of_thread rfl (fun w => w)
theorem sOri (th : ThreadRef) (w : W64) : Statement (.sOri th w) := of_thread rfl (fun w => w)
theorem sXori (th : ThreadRef) (w : W64) : Statement (.sXori th w) := of_thread rfl (fun w => w)
theorem sSlli (th : ThreadRef) (w : W64) : Statement (.sSlli th w) := of_thread rfl (fun w => w)
theorem sSrli (th : ThreadRef) (w : W64) : Statement (.sSrli th w) := of_thread rfl (fun w => w)
theorem sSrai (th : ThreadRef) (w : W64) : Statement (.sSrai th w) := of_thread rfl (fun w => w)
theorem sLih (th : ThreadRef) (w : W64) : Statement (.sLih th w) := of_thread rfl (fun w => w)
theorem sBeq (th : ThreadRef) (w : W64) : Statement (.sBeq th w) := of_thread rfl (fun w => w)
theorem sBne (th : ThreadRef) (w : W64) : Statement (.sBne th w) := of_thread rfl (fun w => w)
theorem sBlt (th : ThreadRef) (w : W64) : Statement (.sBlt th w) := of_thread rfl (fun w => w)
theorem sBge (th : ThreadRef) (w : W64) : Statement (.sBge th w) := of_thread rfl (fun w => w)
theorem sBltu (th : ThreadRef) (w : W64) : Statement (.sBltu th w) := of_thread rfl (fun w => w)
theorem sBgeu (th : ThreadRef) (w : W64) : Statement (.sBgeu th w) := of_thread rfl (fun w => w)
theorem sJal (th : ThreadRef) (w : W64) : Statement (.sJal th w) := of_thread rfl (fun w => w)
theorem sJalr (th : ThreadRef) (w : W64) : Statement (.sJalr th w) := of_thread rfl (fun w => w)
theorem sLd (th : ThreadRef) (w : W64) : Statement (.sLd th w) := of_thread rfl (fun w => w)
theorem sLds (th : ThreadRef) (w : W64) : Statement (.sLds th w) := of_thread rfl (fun w => w)
theorem sSt (th : ThreadRef) (w : W64) : Statement (.sSt th w) := of_thread rfl (fun w => w)
theorem sRdreg (th : ThreadRef) (w : W64) : Statement (.sRdreg th w) := of_thread rfl (fun w => w)
theorem sWrreg (th : ThreadRef) (w : W64) : Statement (.sWrreg th w) := of_thread rfl (fun w => w)
theorem sTime (th : ThreadRef) (w : W64) : Statement (.sTime th w) := of_thread rfl (fun w => w)
theorem sTick (th : ThreadRef) (w : W64) : Statement (.sTick th w) := of_thread rfl (fun w => w)
theorem fence (th : ThreadRef) (w : W64) : Statement (.fence th w) := of_thread rfl (fun w => w)
theorem fenceComplete (th : ThreadRef) : Statement (.fenceComplete th) := of_thread rfl (fun w => w)
theorem wait (th : ThreadRef) (w : W64) : Statement (.wait th w) := of_thread rfl (fun w => w)
theorem sleep (th : ThreadRef) (w : W64) : Statement (.sleep th w) := of_thread rfl (fun w => w)
theorem yield (th : ThreadRef) (w : W64) : Statement (.yield th w) := of_thread rfl (fun w => w)
theorem signal (th : ThreadRef) (w : W64) : Statement (.signal th w) := of_thread rfl (fun w => w)
theorem flags (th : ThreadRef) (w : W64) : Statement (.flags th w) := of_thread rfl (fun w => w)
theorem mbox (th : ThreadRef) (w : W64) : Statement (.mbox th w) := of_thread rfl (fun w => w)
theorem barrier (th : ThreadRef) (w : W64) : Statement (.barrier th w) := of_thread rfl (fun w => w)
theorem setpri (th : ThreadRef) (w : W64) : Statement (.setpri th w) := of_thread rfl (fun w => w)
theorem post (th : ThreadRef) (w : W64) : Statement (.post th w) := of_thread rfl (fun w => w)
theorem exit (th : ThreadRef) (w : W64) : Statement (.exit th w) := of_thread rfl (fun w => w)
theorem threadDispatch (c : Nat) (core : Nat) (slot : Nat) : Statement (.threadDispatch c core slot) := of_cell rfl (fun w => (Bool.and_eq_true_iff.mp (Bool.and_eq_true_iff.mp w).1).1)
theorem threadWake (th : ThreadRef) : Statement (.threadWake th) := of_thread rfl (fun w => w)
theorem tickBoundary : Statement (.tickBoundary) := of_none rfl
theorem deadlineDue (c : Nat) : Statement (.deadlineDue c) := of_cell rfl (fun w => w)
theorem starvationLimit (th : ThreadRef) : Statement (.starvationLimit th) := of_thread rfl (fun w => w)
theorem barrierMessage (m : BarMsg) : Statement (.barrierMessage m) := of_none rfl
theorem barrierEpisodeComplete (chan : Nat) : Statement (.barrierEpisodeComplete chan) := of_none rfl
theorem barrierChannelEnable (chan : Nat) : Statement (.barrierChannelEnable chan) := of_none rfl
theorem barrierChannelDisable (chan : Nat) : Statement (.barrierChannelDisable chan) := of_none rfl
theorem aAdda (c : Nat) (w : W64) : Statement (.aAdda c w) := of_cell rfl (fun w => w)
theorem aAddan (c : Nat) (w : W64) : Statement (.aAddan c w) := of_cell rfl (fun w => w)
theorem aSetn (c : Nat) (w : W64) : Statement (.aSetn c w) := of_cell rfl (fun w => w)
theorem aAddn (c : Nat) (w : W64) : Statement (.aAddn c w) := of_cell rfl (fun w => w)
theorem aLoop (c : Nat) (w : W64) : Statement (.aLoop c w) := of_cell rfl (fun w => w)
theorem aNop (c : Nat) (w : W64) : Statement (.aNop c w) := of_cell rfl (fun w => w)
theorem aGather (c : Nat) (w : W64) : Statement (.aGather c w) := of_cell rfl (fun w => w)
theorem aGathercsr (c : Nat) (w : W64) : Statement (.aGathercsr c w) := of_cell rfl (fun w => w)
theorem aStream (c : Nat) (w : W64) : Statement (.aStream c w) := of_cell rfl (fun w => w)
theorem aStreamc (c : Nat) (w : W64) : Statement (.aStreamc c w) := of_cell rfl (fun w => w)
theorem aLoad (c : Nat) (w : W64) : Statement (.aLoad c w) := of_cell rfl (fun w => w)
theorem aPref (c : Nat) (w : W64) : Statement (.aPref c w) := of_cell rfl (fun w => w)
theorem aStore (c : Nat) (w : W64) : Statement (.aStore c w) := of_cell rfl (fun w => w)
theorem aStorec (c : Nat) (w : W64) : Statement (.aStorec c w) := of_cell rfl (fun w => w)
theorem aScadd (c : Nat) (w : W64) : Statement (.aScadd c w) := of_cell rfl (fun w => w)
theorem aHaul (c : Nat) (w : W64) : Statement (.aHaul c w) := of_cell rfl (fun w => w)
theorem requestIssue (c : Nat) : Statement (.requestIssue c) := of_cell rfl (fun w => w)
theorem granuleDelivery (c : Nat) (id : Nat) : Statement (.granuleDelivery c id) := of_cell rfl (fun w => w)
theorem walkComplete (c : Nat) (handle : Nat) (plot : Nat) : Statement (.walkComplete c handle plot) := of_cell rfl (fun w => (Bool.and_eq_true_iff.mp (Bool.and_eq_true_iff.mp w).1).1)
theorem redirectReceive (c : Nat) (id : Nat) : Statement (.redirectReceive c id) := of_cell rfl (fun w => w)
theorem homeLostReceive (c : Nat) (id : Nat) : Statement (.homeLostReceive c id) := of_cell rfl (fun w => w)
theorem requestAck (c : Nat) (id : Nat) : Statement (.requestAck c id) := of_cell rfl (fun w => w)
theorem mcfg (c : Nat) (w : W64) : Statement (.mcfg c w) := of_cell rfl (fun w => w)
theorem mldw (c : Nat) (w : W64) : Statement (.mldw c w) := of_cell rfl (fun w => w)
theorem mldwComplete (c : Nat) : Statement (.mldwComplete c) := of_cell rfl (fun w => w)
theorem mpre (c : Nat) (w : W64) : Statement (.mpre c w) := of_cell rfl (fun w => w)
theorem mmul (c : Nat) (w : W64) : Statement (.mmul c w) := of_cell rfl (fun w => w)
theorem mmulComplete (c : Nat) : Statement (.mmulComplete c) := of_cell rfl (fun w => w)
theorem overflowReplay (c : Nat) : Statement (.overflowReplay c) := of_cell rfl (fun w => w)
theorem mdrain (c : Nat) (w : W64) : Statement (.mdrain c w) := of_cell rfl (fun w => w)
theorem mdrainComplete (c : Nat) : Statement (.mdrainComplete c) := of_cell rfl (fun w => w)
theorem xNop (c : Nat) (w : W64) : Statement (.xNop c w) := of_cell rfl (fun w => w)
theorem xSetk (c : Nat) (w : W64) : Statement (.xSetk c w) := of_cell rfl (fun w => w)
theorem xAddk (c : Nat) (w : W64) : Statement (.xAddk c w) := of_cell rfl (fun w => w)
theorem xLoop (c : Nat) (w : W64) : Statement (.xLoop c w) := of_cell rfl (fun w => w)
theorem xMa (c : Nat) (w : W64) : Statement (.xMa c w) := of_cell rfl (fun w => w)
theorem vsetvl (c : Nat) (w : W64) : Statement (.vsetvl c w) := of_cell rfl (fun w => w)
theorem vmov (c : Nat) (w : W64) : Statement (.vmov c w) := of_cell rfl (fun w => w)
theorem vadd (c : Nat) (w : W64) : Statement (.vadd c w) := of_cell rfl (fun w => w)
theorem vsub (c : Nat) (w : W64) : Statement (.vsub c w) := of_cell rfl (fun w => w)
theorem vmul (c : Nat) (w : W64) : Statement (.vmul c w) := of_cell rfl (fun w => w)
theorem vfma (c : Nat) (w : W64) : Statement (.vfma c w) := of_cell rfl (fun w => w)
theorem vmax (c : Nat) (w : W64) : Statement (.vmax c w) := of_cell rfl (fun w => w)
theorem vmin (c : Nat) (w : W64) : Statement (.vmin c w) := of_cell rfl (fun w => w)
theorem vabs (c : Nat) (w : W64) : Statement (.vabs c w) := of_cell rfl (fun w => w)
theorem vneg (c : Nat) (w : W64) : Statement (.vneg c w) := of_cell rfl (fun w => w)
theorem viadd (c : Nat) (w : W64) : Statement (.viadd c w) := of_cell rfl (fun w => w)
theorem visub (c : Nat) (w : W64) : Statement (.visub c w) := of_cell rfl (fun w => w)
theorem vimul (c : Nat) (w : W64) : Statement (.vimul c w) := of_cell rfl (fun w => w)
theorem vimax (c : Nat) (w : W64) : Statement (.vimax c w) := of_cell rfl (fun w => w)
theorem vimin (c : Nat) (w : W64) : Statement (.vimin c w) := of_cell rfl (fun w => w)
theorem vand (c : Nat) (w : W64) : Statement (.vand c w) := of_cell rfl (fun w => w)
theorem vor (c : Nat) (w : W64) : Statement (.vor c w) := of_cell rfl (fun w => w)
theorem vxor (c : Nat) (w : W64) : Statement (.vxor c w) := of_cell rfl (fun w => w)
theorem vsll (c : Nat) (w : W64) : Statement (.vsll c w) := of_cell rfl (fun w => w)
theorem vsrl (c : Nat) (w : W64) : Statement (.vsrl c w) := of_cell rfl (fun w => w)
theorem vsra (c : Nat) (w : W64) : Statement (.vsra c w) := of_cell rfl (fun w => w)
theorem vcmp (c : Nat) (w : W64) : Statement (.vcmp c w) := of_cell rfl (fun w => w)
theorem vsel (c : Nat) (w : W64) : Statement (.vsel c w) := of_cell rfl (fun w => w)
theorem vmand (c : Nat) (w : W64) : Statement (.vmand c w) := of_cell rfl (fun w => w)
theorem vmor (c : Nat) (w : W64) : Statement (.vmor c w) := of_cell rfl (fun w => w)
theorem vmxor (c : Nat) (w : W64) : Statement (.vmxor c w) := of_cell rfl (fun w => w)
theorem vmnot (c : Nat) (w : W64) : Statement (.vmnot c w) := of_cell rfl (fun w => w)
theorem vmfirst (c : Nat) (w : W64) : Statement (.vmfirst c w) := of_cell rfl (fun w => w)
theorem vlmul (c : Nat) (w : W64) : Statement (.vlmul c w) := of_cell rfl (fun w => w)
theorem vladd (c : Nat) (w : W64) : Statement (.vladd c w) := of_cell rfl (fun w => w)
theorem vexp (c : Nat) (w : W64) : Statement (.vexp c w) := of_cell rfl (fun w => w)
theorem vrcp (c : Nat) (w : W64) : Statement (.vrcp c w) := of_cell rfl (fun w => w)
theorem vrsq (c : Nat) (w : W64) : Statement (.vrsq c w) := of_cell rfl (fun w => w)
theorem vlog2 (c : Nat) (w : W64) : Statement (.vlog2 c w) := of_cell rfl (fun w => w)
theorem vperm (c : Nat) (w : W64) : Statement (.vperm c w) := of_cell rfl (fun w => w)
theorem vshuf (c : Nat) (w : W64) : Statement (.vshuf c w) := of_cell rfl (fun w => w)
theorem vcompress (c : Nat) (w : W64) : Statement (.vcompress c w) := of_cell rfl (fun w => w)
theorem vexpand (c : Nat) (w : W64) : Statement (.vexpand c w) := of_cell rfl (fun w => w)
theorem vrsum (c : Nat) (w : W64) : Statement (.vrsum c w) := of_cell rfl (fun w => w)
theorem vrmax (c : Nat) (w : W64) : Statement (.vrmax c w) := of_cell rfl (fun w => w)
theorem vrmin (c : Nat) (w : W64) : Statement (.vrmin c w) := of_cell rfl (fun w => w)
theorem vsegsum (c : Nat) (w : W64) : Statement (.vsegsum c w) := of_cell rfl (fun w => w)
theorem vld (c : Nat) (w : W64) : Statement (.vld c w) := of_cell rfl (fun w => w)
theorem vst (c : Nat) (w : W64) : Statement (.vst c w) := of_cell rfl (fun w => w)
theorem vsummary (c : Nat) (w : W64) : Statement (.vsummary c w) := of_cell rfl (fun w => w)
theorem vpred (c : Nat) (w : W64) : Statement (.vpred c w) := of_cell rfl (fun w => w)
theorem vcvt (c : Nat) (w : W64) : Statement (.vcvt c w) := of_cell rfl (fun w => w)
theorem vpack (c : Nat) (w : W64) : Statement (.vpack c w) := of_cell rfl (fun w => w)
theorem vunpack (c : Nat) (w : W64) : Statement (.vunpack c w) := of_cell rfl (fun w => w)
theorem ccClean (c : Nat) : Statement (.ccClean c) := of_cell rfl (fun w => w)
theorem ccInvalidate (c : Nat) : Statement (.ccInvalidate c) := of_cell rfl (fun w => w)
theorem ccCleanInv (c : Nat) : Statement (.ccCleanInv c) := of_cell rfl (fun w => w)
theorem ccPreloadLock (c : Nat) : Statement (.ccPreloadLock c) := of_cell rfl (fun w => w)
theorem ccUnlock (c : Nat) : Statement (.ccUnlock c) := of_cell rfl (fun w => w)
theorem ccMaintComplete (c : Nat) : Statement (.ccMaintComplete c) := of_cell rfl (fun w => w)
theorem scalerFrameInvalidate (c : Nat) (lnd : Nat) (frame : Nat) : Statement (.scalerFrameInvalidate c lnd frame) := of_cell rfl (fun w => (Bool.and_eq_true_iff.mp (Bool.and_eq_true_iff.mp w).1).1)
theorem landingRequest (l : Nat) (id : Nat) : Statement (.landingRequest l id) := of_none rfl
theorem scrubRead (l : Nat) : Statement (.scrubRead l) := of_none rfl
theorem frameZeroFill (l : Nat) (frame : Nat) : Statement (.frameZeroFill l frame) := of_none rfl
theorem landingFail (l : Nat) : Statement (.landingFail l) := of_none rfl
theorem placementInterval : Statement (.placementInterval) := of_none rfl
theorem moveCopyDone (handle : Nat) (plot : Nat) : Statement (.moveCopyDone handle plot) := of_none rfl
theorem moveFlip (handle : Nat) (plot : Nat) : Statement (.moveFlip handle plot) := of_none rfl
theorem sweepComplete (handle : Nat) : Statement (.sweepComplete handle) := of_none rfl
theorem moveInvalidateDone (handle : Nat) (plot : Nat) : Statement (.moveInvalidateDone handle plot) := of_none rfl
theorem linkTrained (l : Nat) (lanes : Nat) : Statement (.linkTrained l lanes) := of_none rfl
theorem dataFlit (l : Nat) (f : Flit) : Statement (.dataFlit l f) := of_none rfl
theorem nak (l : Nat) (f : Flit) : Statement (.nak l f) := of_none rfl
theorem heartbeat (l : Nat) (f : Flit) : Statement (.heartbeat l f) := of_none rfl
theorem heartbeatSend (l : Nat) : Statement (.heartbeatSend l) := of_none rfl
theorem beacon (l : Nat) (f : Flit) : Statement (.beacon l f) := of_none rfl
theorem wake (l : Nat) (f : Flit) : Statement (.wake l f) := of_none rfl
theorem resume (l : Nat) (f : Flit) : Statement (.resume l f) := of_none rfl
theorem linkLivenessTimeout (l : Nat) : Statement (.linkLivenessTimeout l) := of_none rfl
theorem packetRoute (p : Packet) : Statement (.packetRoute p) := of_none rfl
theorem norouteHoldExpiry (p : Packet) : Statement (.norouteHoldExpiry p) := of_none rfl
theorem parkedHoldExpiry (p : Packet) : Statement (.parkedHoldExpiry p) := of_none rfl
theorem load (p : Packet) : Statement (.load p) := of_none rfl
theorem store (p : Packet) : Statement (.store p) := of_none rfl
theorem add (p : Packet) : Statement (.add p) := of_none rfl
theorem walk (p : Packet) : Statement (.walk p) := of_none rfl
theorem fenced (p : Packet) : Statement (.fenced p) := of_none rfl
theorem move (p : Packet) : Statement (.move p) := of_none rfl
theorem mgmt (src : Nat) (m : MgmtMsg) : Statement (.mgmt src m) := of_none rfl
theorem membLinkDown (p : Packet) : Statement (.membLinkDown p) := of_none rfl
theorem probe (p : Packet) : Statement (.probe p) := of_none rfl
theorem probeResp (p : Packet) : Statement (.probeResp p) := of_none rfl
theorem probeTimeout (x : Nat) : Statement (.probeTimeout x) := of_none rfl
theorem linkDownReportTimeout (x : Nat) : Statement (.linkDownReportTimeout x) := of_none rfl
theorem epoch (p : Packet) : Statement (.epoch p) := of_none rfl
theorem drainTimeout : Statement (.drainTimeout) := of_none rfl
theorem membJoin (p : Packet) : Statement (.membJoin p) := of_none rfl
theorem joinResp (p : Packet) : Statement (.joinResp p) := of_none rfl
theorem joinTimeout : Statement (.joinTimeout) := of_none rfl
theorem recover (p : Packet) : Statement (.recover p) := of_none rfl
theorem recoverResp (p : Packet) : Statement (.recoverResp p) := of_none rfl
theorem fabFound : Statement (.fabFound) := of_none rfl
theorem fabJoin : Statement (.fabJoin) := of_none rfl
theorem powerOn : Statement (.powerOn) := of_none rfl
theorem pwrEnRise : Statement (.pwrEnRise) := of_none rfl
theorem pwrGoodTimeout : Statement (.pwrGoodTimeout) := of_none rfl
theorem pwrEnFall : Statement (.pwrEnFall) := of_none rfl
theorem resetAssert : Statement (.resetAssert) := of_none rfl
theorem bootRom (strap : BitVec 3) : Statement (.bootRom strap) := of_none rfl
theorem lookoutBoot : Statement (.lookoutBoot) := of_none rfl
theorem lookoutWatchdog : Statement (.lookoutWatchdog) := of_none rfl
theorem jtagUnlockChallenge : Statement (.jtagUnlockChallenge) := of_none rfl
theorem jtagUnlockResponse (bytes : List Byte) : Statement (.jtagUnlockResponse bytes) := of_none rfl
theorem rungDrainDone : Statement (.rungDrainDone) := of_none rfl
theorem rungDrainTimeout : Statement (.rungDrainTimeout) := of_none rfl
theorem wakePin : Statement (.wakePin) := of_none rfl
theorem rungExit : Statement (.rungExit) := of_none rfl
theorem fallowExit : Statement (.fallowExit) := of_none rfl
theorem setpointChange (c : Nat) : Statement (.setpointChange c) := of_cell rfl (fun w => w)
theorem cellPark (c : Nat) : Statement (.cellPark c) := of_cell rfl (fun w => w)
theorem cellUnpark (c : Nat) : Statement (.cellUnpark c) := of_cell rfl (fun w => w)
theorem thermalWarn (sensor : Nat) (temp : Int) : Statement (.thermalWarn sensor temp) := of_none rfl
theorem throttleStep (field : Nat) : Statement (.throttleStep field) := of_none rfl
theorem thermalTrip (sensor : Nat) (temp : Int) : Statement (.thermalTrip sensor temp) := of_none rfl
theorem cellRestart (c : Nat) (parity : Bool) : Statement (.cellRestart c parity) := of_cell rfl (fun w => w)
theorem deviceFatal : Statement (.deviceFatal) := of_none rfl
theorem reportForward (field : Nat) : Statement (.reportForward field) := of_none rfl
theorem errCntClr : Statement (.errCntClr) := of_none rfl
theorem snapshotTake (j : Nat) (scope : BitVec 16) : Statement (.snapshotTake j scope) := of_none rfl
theorem snapshotRelease (j : Nat) : Statement (.snapshotRelease j) := of_none rfl
theorem registerWrite (p : RegPath) (addr : Nat) (v : W32) : Statement (.registerWrite p addr v) := of_none rfl
theorem portDown : Statement (.portDown) := of_none rfl
theorem idleFlit (l : Nat) (f : Flit) : Statement (.idleFlit l f) := of_none rfl
theorem vstbyLoss : Statement (.vstbyLoss) := of_none rfl
theorem railFailure : Statement (.railFailure) := of_none rfl
theorem tripRailReturn : Statement (.tripRailReturn) := of_none rfl
theorem cellRestartComplete (c : Nat) : Statement (.cellRestartComplete c) := of_cell rfl (fun w => w)
theorem mpreComplete (c : Nat) : Statement (.mpreComplete c) := of_cell rfl (fun w => w)
theorem vClassBusyEnd (c : Nat) : Statement (.vClassBusyEnd c) := of_cell rfl (fun w => w)
theorem registerRead (p : RegPath) (addr : Nat) (count : Nat) : Statement (.registerRead p addr count) := of_none rfl
theorem i3cDynamicAddressing (addr : BitVec 7) : Statement (.i3cDynamicAddressing addr) := of_none rfl

end CellBound

end Sys2Proof.Laws
end

