-- ==== Sys2Proof/Tests/Slice0.lean ====
section
/-! SUPPORT. Tests/Slice0.lean: the tests of the model: commands that the well-formedness check refuses, a state for each statement that meets
its hypotheses, and single steps whose outcome the spec's own words and worked figures give. -/

namespace Sys2Proof.Machine.Tests

open Sys2Proof Sys2Proof.Machine

set_option Elab.async false

/-! ## Well-formedness: one ill-formed command for each check, and its neighbour inside the range -/

theorem test_wf_cell : (Instr.cellPark 192).wf = false ∧ (Instr.cellPark 191).wf = true := by decide
theorem test_wf_restart_cell : (Instr.cellRestart 192 false).wf = false ∧ (Instr.cellRestart 191 true).wf = true := by decide
theorem test_wf_thread_cell : (Instr.sAdd ⟨192, 0⟩ 0).wf = false ∧ (Instr.sAdd ⟨191, 63⟩ 0).wf = true := by decide
theorem test_wf_thread_slot : (Instr.sAdd ⟨0, 64⟩ 0).wf = false ∧ (Instr.sAdd ⟨0, 63⟩ 0).wf = true := by decide
theorem test_wf_queue : (Instr.objCreate 64 []).wf = false ∧ (Instr.objCreate 63 []).wf = true := by decide
theorem test_wf_landing : (Instr.scrubRead 12).wf = false ∧ (Instr.scrubRead 11).wf = true := by decide
theorem test_wf_frame : (Instr.frameZeroFill 0 32768).wf = false ∧ (Instr.frameZeroFill 0 32767).wf = true := by decide
theorem test_wf_frame_landing : (Instr.frameZeroFill 12 0).wf = false ∧ (Instr.frameZeroFill 11 0).wf = true := by decide
theorem test_wf_link : (Instr.heartbeatSend 32).wf = false ∧ (Instr.heartbeatSend 31).wf = true := by decide
theorem test_wf_link_lanes : (Instr.linkTrained 0 16).wf = false ∧ (Instr.linkTrained 31 15).wf = true := by decide
theorem test_wf_port_lanes : (Instr.portUp 9).wf = false ∧ (Instr.portUp 8).wf = true := by decide
theorem test_wf_channel : (Instr.barrierChannelEnable 80).wf = false ∧ (Instr.barrierChannelEnable 79).wf = true := by decide
theorem test_wf_message_link : (Instr.barrierMessage { link := 32, chan := 64, episode := 0, parity := false, brk := 0 }).wf = false ∧ (Instr.barrierMessage { link := 31, chan := 79, episode := 0, parity := false, brk := 0 }).wf = true := by decide
theorem test_wf_message_channel : (Instr.barrierMessage { link := 0, chan := 80, episode := 0, parity := false, brk := 0 }).wf = false ∧ (Instr.barrierMessage { link := 0, chan := 64, episode := 0, parity := false, brk := 0 }).wf = true := by decide
theorem test_wf_device : (Instr.probeTimeout 65536).wf = false ∧ (Instr.probeTimeout 65535).wf = true := by decide
theorem test_wf_handle : (Instr.sweepComplete 16777216).wf = false ∧ (Instr.sweepComplete 16777215).wf = true := by decide
theorem test_wf_plot : (Instr.moveFlip 0 (2 ^ 40)).wf = false ∧ (Instr.moveFlip 0 (2 ^ 40 - 1)).wf = true := by decide
theorem test_wf_move_handle : (Instr.moveFlip (2 ^ 24) 0).wf = false ∧ (Instr.moveFlip (2 ^ 24 - 1) 0).wf = true := by decide
theorem test_wf_walk_cell : (Instr.walkComplete 192 0 0).wf = false ∧ (Instr.walkComplete 191 0 0).wf = true := by decide
theorem test_wf_walk_handle : (Instr.walkComplete 0 (2 ^ 24) 0).wf = false ∧ (Instr.walkComplete 0 (2 ^ 24 - 1) 0).wf = true := by decide
theorem test_wf_walk_plot : (Instr.walkComplete 0 0 (2 ^ 40)).wf = false ∧ (Instr.walkComplete 0 0 (2 ^ 40 - 1)).wf = true := by decide
theorem test_wf_invalidate_landing : (Instr.scalerFrameInvalidate 0 12 0).wf = false ∧ (Instr.scalerFrameInvalidate 0 11 0).wf = true := by decide
theorem test_wf_dispatch_core : (Instr.threadDispatch 0 4 0).wf = false ∧ (Instr.threadDispatch 0 3 0).wf = true := by decide
theorem test_wf_dispatch_slot : (Instr.threadDispatch 0 0 64).wf = false ∧ (Instr.threadDispatch 0 0 63).wf = true := by decide
theorem test_wf_sensor : (Instr.thermalWarn 32 0).wf = false ∧ (Instr.thermalWarn 31 0).wf = true := by decide
theorem test_wf_trip_sensor : (Instr.thermalTrip 32 0).wf = false ∧ (Instr.thermalTrip 31 0).wf = true := by decide
theorem test_wf_field : (Instr.throttleStep 4).wf = false ∧ (Instr.throttleStep 3).wf = true := by decide
theorem test_wf_report_field : (Instr.reportForward 4).wf = false ∧ (Instr.reportForward 3).wf = true := by decide
theorem test_wf_latch : (Instr.snapshotTake 2 0).wf = false ∧ (Instr.snapshotTake 1 0).wf = true := by decide
theorem test_wf_release_latch : (Instr.snapshotRelease 2).wf = false ∧ (Instr.snapshotRelease 1).wf = true := by decide
theorem test_wf_qpn : (Instr.cnpReceive (2 ^ 24)).wf = false ∧ (Instr.cnpReceive (2 ^ 24 - 1)).wf = true := by decide
theorem test_wf_write_address : (Instr.registerWrite .jtag (2 ^ 32) 0).wf = false ∧ (Instr.registerWrite .jtag (2 ^ 32 - 4) 0).wf = true := by decide
theorem test_wf_read_range : (Instr.registerRead .jtag (2 ^ 32 - 4) 2).wf = false ∧ (Instr.registerRead .jtag (2 ^ 32 - 4) 1).wf = true := by decide

/-! ## Small states -/

/-- The word of a class and opcode, with its lower 54 bits. -/
def wordOf (cls op rest : Nat) : W64 := BitVec.ofNat 64 (cls * 2 ^ 60 + op * 2 ^ 54 + rest)

/-- A device in service with nothing running. -/
def inService : State := State.reset.modPower fun p => { p with phase := .running, vstby := true, pwrEn := true, rstN := true, rails := true, pwrGood := true }

/-- Slot 0 of cell 0 runs on core 0 with PC 0, its registers `rs`, and the words `ws` from address 0 of operand memory. -/
def atWords (ws : List W64) (rs : List (Nat × W64)) : State :=
  inService.modCell 0 fun x => { x with
    opmem := memWrite [] 0 (ws.flatMap fun w => leBytes 8 w.toNat)
    cores := modAt 0 (fun k => { k with slot := some 0 }) x.cores
    threads := modAt 0 (fun t => rs.foldl (fun t r => t.setReg r.1 r.2) { t with state := .running }) x.threads }

/-- The same with one word. -/
def atWord (w : W64) (rs : List (Nat × W64)) : State := atWords [w] rs

/-- The thread that runs there. -/
def th0 : ThreadRef := ⟨0, 0⟩

theorem leNat_leBytes (n v : Nat) : leNat (leBytes n v) = v % 256 ^ n := by
  induction n generalizing v with
  | zero => simp [leBytes, leNat, Nat.mod_one]
  | succ n ih =>
    have h : 256 ^ (n + 1) = 256 * 256 ^ n := by ring
    rw [leBytes, leNat, ih, BitVec.toNat_ofNat, h, Nat.mod_mul]

theorem leBytes_length (n v : Nat) : (leBytes n v).length = n := by
  induction n generalizing v with
  | zero => rfl
  | succ n ih => simp [leBytes, ih]

theorem setRegs_state (rs : List (Nat × W64)) (t : Thread) : (rs.foldl (fun t r => t.setReg r.1 r.2) t).state = t.state := by
  induction rs generalizing t with
  | nil => rfl
  | cons r rs ih => rw [List.foldl_cons, ih, Thread.setReg_state]

theorem setRegs_pc (rs : List (Nat × W64)) (t : Thread) : (rs.foldl (fun t r => t.setReg r.1 r.2) t).pc = t.pc := by
  induction rs generalizing t with
  | nil => rfl
  | cons r rs ih => rw [List.foldl_cons, ih, Thread.setReg_pc]

theorem setRegs_fence (rs : List (Nat × W64)) (t : Thread) : (rs.foldl (fun t r => t.setReg r.1 r.2) t).fence = t.fence := by
  induction rs generalizing t with
  | nil => rfl
  | cons r rs ih =>
    rw [List.foldl_cons, ih]
    unfold Thread.setReg
    split <;> rfl

/-- Whatever its registers, the thread of `atWord` issues its word. -/
theorem atWord_ready (cls op : Nat) (w : W64) (rs : List (Nat × W64)) (h : isOp .core cls op w = true) :
    ThreadReady (atWord w rs) th0 cls op w := by
  have hmem : ((atWord w rs).cell 0).opmem = memWrite [] 0 (leBytes 8 w.toNat) := by
    show memWrite [] 0 ([w].flatMap fun w => leBytes 8 w.toNat) = _
    rw [List.flatMap_singleton]
  have hth : (atWord w rs).thread 0 0 = rs.foldl (fun t r => t.setReg r.1 r.2) { Thread.reset with state := .running } := rfl
  have hpc : (atWord w rs).pcOf th0 = 0 := by
    show ((atWord w rs).thread 0 0).pc.toNat = 0
    rw [hth, setRegs_pc]
    rfl
  refine ⟨⟨?_, ?_, ?_, ?_⟩, h⟩
  · have hs : ((atWord w rs).thread 0 0).state = .running := by rw [hth, setRegs_state]
    have hf : ((atWord w rs).thread 0 0).fence = none := by rw [hth, setRegs_fence]; rfl
    show ((atWord w rs).coresGo && (atWord w rs).cellUp 0 && !((atWord w rs).cell 0).parked && ((atWord w rs).thread 0 0).state == .running &&
      ((atWord w rs).thread 0 0).fence.isNone && ((atWord w rs).cell 0).cores.any fun k => k.slot == some 0) = true
    rw [hs, hf]
    rfl
  · rw [hpc]
    decide
  · rw [hpc]
    rfl
  · show ((atWord w rs).cell 0).opNat ((atWord w rs).pcOf th0) 8 = w.toNat
    rw [hpc, CellSt.opNat, CellSt.op, hmem]
    have := memRead_memWrite (leBytes 8 w.toNat) [] 0 memWf_nil
    rw [leBytes_length] at this
    rw [this, leNat_leBytes]
    exact Nat.mod_eq_of_lt w.isLt


/-! ## The block as a whole -/

/-- EveryStepKeepsCanonicalData, CommandsAnswerAndKeepQueue, EveryStepKeepsFuses: the state after reset is canonical, and it steps. -/
theorem witness_reset_good : State.reset.Good := by
  refine ⟨rfl, rfl, rfl, ?_, by decide⟩
  intro x hx
  rw [show x = CellSt.reset from List.eq_of_mem_replicate hx]
  refine ⟨rfl, rfl, fun t ht => ?_⟩
  rw [show t = Thread.reset from List.eq_of_mem_replicate ht]
  rfl

theorem witness_reset_steps : ∃ t, step State.reset = .next t := ⟨_, rfl⟩

/-- An idle device without power stays as it is: log entry 2. -/
theorem test_idle_reset : step State.reset = .next State.reset := rfl

/-- TimePasses, the powered half. -/
theorem witness_TimePasses_powered : inService.pending = [] ∧ inService.power.phase ≠ .unpowered ∧ inService.power.rung ≠ 4 := by decide +kernel

/-- `inService` differs from reset in its power alone, so its data are canonical. -/
theorem inService_good : inService.Good :=
  ⟨witness_reset_good.mem, witness_reset_good.regs, witness_reset_good.cnts, witness_reset_good.cells, witness_reset_good.tick⟩

/-! ## Threads -/

/-- rd := 1, ra := 2, rb := 3. -/
def r123 : Nat := 1 * 2 ^ 49 + 2 * 2 ^ 44 + 3 * 2 ^ 39

theorem witness_ScalarRegisterResults : ∀ op ∈ [1, 2, 3, 4, 5, 6, 7, 8, 9, 10, 11, 12, 13, 14],
    ThreadReady (atWord (wordOf 1 op r123) []) th0 1 op (wordOf 1 op r123) :=
  fun op h => atWord_ready 1 op _ [] (by revert op; decide)

/-- rd := 1, ra := 2 and the least negative immediate. -/
def i12 : Nat := 1 * 2 ^ 49 + 2 * 2 ^ 44 + 0xFFFFFFFF

theorem witness_ScalarImmediateResults : ∀ op ∈ [0x10, 0x11, 0x12, 0x13, 0x14, 0x15, 0x16, 0x17],
    ThreadReady (atWord (wordOf 1 op i12) []) th0 1 op (wordOf 1 op i12) :=
  fun op h => atWord_ready 1 op _ [] (by revert op; decide)

theorem witness_ScalarRegisterFile : Thread.reset.regs.length = 31 ∧ 31 < 32 ∧ 31 ≠ 0 := by decide

/-- The words of ScalarMovesAndFlags; SETPRI with its largest priority. -/
theorem witness_ScalarMovesAndFlags :
    (∀ x ∈ [(1, 0, 0), (1, 0x3A, 1 * 2 ^ 49), (1, 0x3B, 31 * 2 ^ 49), (2, 5, 1 * 2 ^ 49 + 0xFFFFFFFF), (2, 6, 1 * 2 ^ 49), (2, 8, 2 * 2 ^ 44)],
      ThreadReady (atWord (wordOf x.1 x.2.1 x.2.2) [(2, 7)]) th0 x.1 x.2.1 (wordOf x.1 x.2.1 x.2.2)) ∧
    ((atWord (wordOf 2 8 (2 * 2 ^ 44)) [(2, 7)]).sreg th0 (wRa (wordOf 2 8 (2 * 2 ^ 44)))).toNat ≤ 7 :=
  ⟨fun x h => atWord_ready _ _ _ _ (by revert x; decide), by decide +kernel⟩

/-- A branch back by one word. -/
def back : Nat := 2 * 2 ^ 44 + 3 * 2 ^ 39 + 0xFFFFFFFF

/-- Operands −1 and 1, then 1 and 1. -/
def brNeg (op : Nat) : State := atWord (wordOf 1 op back) [(2, -1), (3, 1)]
def brOne (op : Nat) : State := atWord (wordOf 1 op back) [(2, 1), (3, 1)]

/-- Each condition of a branch met and not met, with operands that tell signed from unsigned. -/
theorem witness_BranchAndJumpTargets_branch : ∀ op ∈ [0x20, 0x21, 0x22, 0x23, 0x24, 0x25],
    ThreadReady (brNeg op) th0 1 op (wordOf 1 op back) ∧ ThreadReady (brOne op) th0 1 op (wordOf 1 op back) :=
  fun op h => ⟨atWord_ready _ _ _ _ (by revert op; decide), atWord_ready _ _ _ _ (by revert op; decide)⟩

theorem witness_BranchAndJumpTargets_aligned : (brNeg 0x20).pcOf th0 % 8 = 0 ∧ (brOne 0x25).pcOf th0 % 8 = 0 := by decide +kernel

theorem witness_BranchAndJumpTargets_regs : wRa (wordOf 1 0x20 back) = 2 ∧ wRb (wordOf 1 0x20 back) = 3 := by decide

theorem witness_BranchAndJumpTargets_conditions : (brNeg 0x20).sreg th0 2 = -1 ∧ (brNeg 0x20).sreg th0 3 = 1 ∧
    (brOne 0x20).sreg th0 2 = 1 ∧ (brOne 0x20).sreg th0 3 = 1 := by decide +kernel

/-- S.JAL at an aligned PC; S.JALR to an aligned register. -/
theorem witness_BranchAndJumpTargets_jump :
    ThreadReady (atWord (wordOf 1 0x26 (1 * 2 ^ 49 + 3)) []) th0 1 0x26 (wordOf 1 0x26 (1 * 2 ^ 49 + 3)) ∧
    (atWord (wordOf 1 0x26 (1 * 2 ^ 49 + 3)) []).pcOf th0 % 8 = 0 ∧
    ThreadReady (atWord (wordOf 1 0x27 i12) [(2, 64)]) th0 1 0x27 (wordOf 1 0x27 i12) ∧
    ((atWord (wordOf 1 0x27 i12) [(2, 64)]).sreg th0 (wRa (wordOf 1 0x27 i12))).toNat % 8 = 0 :=
  ⟨atWord_ready _ _ _ _ (by decide), by decide +kernel, atWord_ready _ _ _ _ (by decide), by decide +kernel⟩

/-- A doubleword at the last address of the software region. -/
def lastD : Nat := 1 * 2 ^ 49 + 2 * 2 ^ 44 + 3 * 2 ^ 37

theorem witness_OperandLoads : ∀ op ∈ [0x30, 0x31],
    ThreadReady (atWord (wordOf 1 op lastD) [(2, 0x9FFF8)]) th0 1 op (wordOf 1 op lastD) :=
  fun op h => atWord_ready _ _ _ _ (by revert op; decide)

theorem witness_OperandLoads_address : (atWord (wordOf 1 0x30 lastD) [(2, 0x9FFF8)]).sreg th0 2 = 0x9FFF8 ∧ wSz (wordOf 1 0x30 lastD) = 8 ∧
    0x9FFF8 % 8 = 0 ∧ 0x9FFF8 + 8 ≤ opSoft ∧ ((atWord (wordOf 1 0x30 lastD) [(2, 0x9FFF8)]).cell 0).opPoisoned 0x9FFF8 8 = none := by
  decide +kernel

theorem witness_OperandStore :
    ThreadReady (atWord (wordOf 1 0x32 (2 * 2 ^ 44 + 3 * 2 ^ 39 + 3 * 2 ^ 37)) [(2, 0x9FFF8)]) th0 1 0x32
      (wordOf 1 0x32 (2 * 2 ^ 44 + 3 * 2 ^ 39 + 3 * 2 ^ 37)) ∧
    memWf ((atWord (wordOf 1 0x32 (2 * 2 ^ 44 + 3 * 2 ^ 39 + 3 * 2 ^ 37)) [(2, 0x9FFF8)]).cell 0).opmem = true :=
  ⟨atWord_ready _ _ _ _ (by decide), by decide +kernel⟩


/-- ThreadFaults, first part: a PC beyond the software region, a poisoned word, a word of class 0. -/
theorem witness_ThreadFaults_fetch :
    ((atWord 0 []).modThread 0 0 fun t => { t with pc := 0xA0000 }).runs th0 = true ∧
    opSoft < ((atWord 0 []).modThread 0 0 fun t => { t with pc := 0xA0000 }).pcOf th0 + 8 := by decide +kernel

theorem witness_ThreadFaults_poison :
    ((atWord 0 []).modCell 0 fun x => x.opMark 0).runs th0 = true ∧ ((atWord 0 []).modCell 0 fun x => x.opMark 0).pcOf th0 + 8 ≤ opSoft ∧
    (((atWord 0 []).modCell 0 fun x => x.opMark 0).cell 0).opPoisoned 0 8 = some 0 := by decide +kernel

theorem witness_ThreadFaults_decode : ThreadAt (atWord 0 []) th0 0 ∧ decodeFault .core 0 = some 1 :=
  ⟨⟨by decide +kernel, by decide +kernel, by decide +kernel, by decide +kernel⟩, by decide⟩

/-- ThreadFaults, second part: a doubleword access at 4, at 0x9FFFC and at a poisoned block; register accesses at 2; jumps. -/
theorem witness_ThreadFaults_access : ∀ op ∈ [0x30, 0x31, 0x32], ∀ a ∈ ([4, 0xA0000] : List W64),
    ThreadReady (atWord (wordOf 1 op (2 * 2 ^ 44 + 3 * 2 ^ 37)) [(2, a)]) th0 1 op (wordOf 1 op (2 * 2 ^ 44 + 3 * 2 ^ 37)) := by
  intro op h a _
  exact atWord_ready _ _ _ _ (by revert op; decide)

theorem witness_ThreadFaults_poisonedData :
    ThreadReady ((atWord (wordOf 1 0x30 (2 * 2 ^ 44)) [(2, 64)]).modCell 0 fun x => x.opMark 64) th0 1 0x30 (wordOf 1 0x30 (2 * 2 ^ 44)) ∧
    (((atWord (wordOf 1 0x30 (2 * 2 ^ 44)) [(2, 64)]).modCell 0 fun x => x.opMark 64).cell 0).opPoisoned 64 1 = some 64 :=
  ⟨⟨⟨by decide +kernel, by decide +kernel, by decide +kernel, by decide +kernel⟩, by decide⟩, by decide +kernel⟩

theorem witness_ThreadFaults_registers : ∀ op ∈ [0x38, 0x39],
    ThreadReady (atWord (wordOf 1 op (2 * 2 ^ 44)) [(2, 2)]) th0 1 op (wordOf 1 op (2 * 2 ^ 44)) :=
  fun op h => atWord_ready _ _ _ _ (by revert op; decide)

theorem witness_ThreadFaults_jumps :
    ThreadReady (atWord (wordOf 1 0x27 (2 * 2 ^ 44)) [(2, 4)]) th0 1 0x27 (wordOf 1 0x27 (2 * 2 ^ 44)) ∧
    ((atWord (wordOf 1 0x27 (2 * 2 ^ 44)) [(2, 4)]).sreg th0 2).toNat % 8 ≠ 0 :=
  ⟨atWord_ready _ _ _ _ (by decide), by decide +kernel⟩

/-- S.JAL at a PC that is no multiple of 8: its word stands at address 4. -/
def jalAt4 : State := (atWords [wordOf 1 0x26 1 <<< 32, wordOf 1 0x26 1 >>> 32] []).modThread 0 0 fun t => { t with pc := 4 }

theorem witness_ThreadFaults_jal : ThreadReady jalAt4 th0 1 0x26 (wordOf 1 0x26 1) ∧ jalAt4.pcOf th0 % 8 ≠ 0 :=
  ⟨⟨⟨by decide +kernel, by decide +kernel, by decide +kernel, by decide +kernel⟩, by decide⟩, by decide +kernel⟩

/-- WAIT: an empty mask, the least timeout refused, a mask met and one not met; the greatest timeout allowed. -/
def waitAny : W64 := wordOf 2 1 (1 * 2 ^ 49 + 3 * 2 ^ 39 + 3)

theorem witness_WaitOutcomes : (∀ n ∈ ([2 ^ 31, 2 ^ 31 - 1, 0] : List W64), ThreadReady (atWord waitAny [(3, n)]) th0 2 1 waitAny) ∧
    ThreadReady (atWord (wordOf 2 1 (1 * 2 ^ 49)) []) th0 2 1 (wordOf 2 1 (1 * 2 ^ 49)) :=
  ⟨fun _ _ => atWord_ready _ _ _ _ (by decide), atWord_ready _ _ _ _ (by decide)⟩

theorem witness_WaitOutcomes_flags : (waitAny.truncate 32 : W32) ≠ 0 ∧ ((wordOf 2 1 (1 * 2 ^ 49)).truncate 32 : W32) = 0 ∧
    flagsMeet (waitAny.getLsbD 32) (waitAny.truncate 32) 2 = true ∧ flagsMeet (waitAny.getLsbD 32) (waitAny.truncate 32) 4 = false := by decide

theorem witness_WaitOutcomes_met : ThreadReady ((atWord waitAny []).modThread 0 0 fun t => { t with flags := 2 }) th0 2 1 waitAny ∧
    (((atWord waitAny []).modThread 0 0 fun t => { t with flags := 2 }).thread 0 0).flags = 2 :=
  ⟨⟨⟨by decide +kernel, by decide +kernel, by decide +kernel, by decide +kernel⟩, by decide⟩, by decide +kernel⟩

/-- SLEEP of 0, 1, the most and one too many ticks; YIELD; EXIT. -/
theorem witness_SleepYieldExit :
    (∀ n ∈ ([0, 1, 2 ^ 31 - 1, 2 ^ 31] : List W64), ThreadReady (atWord (wordOf 2 2 (2 * 2 ^ 44)) [(2, n)]) th0 2 2 (wordOf 2 2 (2 * 2 ^ 44))) ∧
    ThreadReady (atWord (wordOf 2 3 0) []) th0 2 3 (wordOf 2 3 0) ∧ ThreadReady (atWord (wordOf 2 10 0) []) th0 2 10 (wordOf 2 10 0) :=
  ⟨fun _ _ => atWord_ready _ _ _ _ (by decide), atWord_ready _ _ _ _ (by decide), atWord_ready _ _ _ _ (by decide)⟩

/-- SIGNAL to the first cell that is not there, to a FREE slot of the last cell, and to itself, which runs. -/
def signalW : W64 := wordOf 2 4 (1 * 2 ^ 49 + 2 * 2 ^ 44 + 1)

theorem witness_SignalDelivers : ∀ n ∈ ([12288, 12287, 0] : List W64), ThreadReady (atWord signalW [(2, n)]) th0 2 4 signalW :=
  fun _ _ => atWord_ready _ _ _ _ (by decide)

theorem witness_SignalDelivers_slots : 12288 / 64 = 192 ∧ ((atWord signalW [(2, 12287)]).thread 191 63).state = .free ∧
    ((atWord signalW [(2, 0)]).thread 0 0).state = .running := by decide +kernel

/-- FlagsReachSlot: a waiting slot whose mask is met, and not met. -/
theorem witness_FlagsReachSlot : flagsMeet true 3 (1 ||| 2) = true ∧ flagsMeet true 3 (1 ||| 4) = false ∧
    ({ Thread.reset with state := .waiting, mask := 3, modeAll := true, flags := 1 } : Thread).wake = none := by decide

/-- POST with a tag too large, with room, and with the event buffer full. -/
def postFull : State := (atWord (wordOf 2 9 (2 * 2 ^ 44)) []).modEth fun e => { e with events := List.replicate 4096 ⟨⟨0, 0, 0, 0⟩, none⟩ }

theorem witness_PostAndFence_post : ThreadReady (atWord (wordOf 2 9 65536) []) th0 2 9 (wordOf 2 9 65536) ∧
    ThreadReady (atWord (wordOf 2 9 65535) []) th0 2 9 (wordOf 2 9 65535) ∧ ThreadReady postFull th0 2 9 (wordOf 2 9 (2 * 2 ^ 44)) ∧
    4096 ≤ postFull.eth.events.length ∧ postFull.power.rung = 0 :=
  ⟨atWord_ready _ _ _ _ (by decide), atWord_ready _ _ _ _ (by decide),
    ⟨⟨by decide +kernel, by decide +kernel, by decide +kernel, by decide +kernel⟩, by decide⟩,
    by rw [show postFull.eth.events = List.replicate 4096 ⟨⟨0, 0, 0, 0⟩, none⟩ from rfl, List.length_replicate], by decide +kernel⟩

/-- FENCE of its least and greatest scope, and one that waits for nothing. -/
theorem witness_PostAndFence_fence : ThreadReady (atWord (wordOf 2 0 0) []) th0 2 0 (wordOf 2 0 0) ∧ wScope (wordOf 2 0 0) = 0 ∧
    ThreadReady (atWord (wordOf 2 0 (2 * 2 ^ 32)) []) th0 2 0 (wordOf 2 0 (2 * 2 ^ 32)) ∧ wScope (wordOf 2 0 (2 * 2 ^ 32)) = 2 :=
  ⟨atWord_ready _ _ _ _ (by decide), by decide, atWord_ready _ _ _ _ (by decide), by decide⟩

def fenced : State := (atWord (wordOf 2 0 0) []).modThread 0 0 fun t => { t with fence := some ⟨1, [5]⟩ }

theorem witness_PostAndFence_complete : fenced.active = true ∧ fenced.cellUp 0 = true ∧ (fenced.thread 0 0).fence = some ⟨1, [5]⟩ ∧
    [5].all (fenced.visible 1) = true ∧ fenced.dirtyLines 0 (fun _ => true) = [] ∧ fenced.backsOut 0 (fun _ => true) = [] := by decide +kernel

/-- Two READY threads of one priority, the second last on core 3, the one core that is free. -/
def twoReady : State := inService.modCell 191 fun x => { x with
  cores := x.cores.mapIdx fun i k => if i < 3 then { k with slot := some i } else k
  threads := modAt 62 (fun t => { t with state := .ready, pri := 7 }) (modAt 63 (fun t => { t with state := .ready, pri := 7, lcv := true, lastCore := 3 }) x.threads) }

theorem witness_DispatchTakesThread : twoReady.coresGo = true ∧ twoReady.cellUp 191 = true ∧ (twoReady.cell 191).parked = false ∧
    ((twoReady.cell 191).cores[3]?.map fun y => y.slot) = some none ∧ (∀ j < 3, (twoReady.cell 191).coreFree j = false) ∧ (twoReady.cell 191).mayTake 3 63 = true ∧
    (twoReady.cell 191).mayTake 3 62 = false ∧ (twoReady.cell 191).mayTake 2 62 = true := by decide +kernel

/-- A WAITING slot whose flags have met its mask; a sleeper and a waiter whose deadline is due. -/
def wakers : State := inService.modCell 0 fun x => { x with
  tick := 5
  threads := modAt 0 (fun t => { t with state := .waiting, wake := some 3, waitRd := 1 })
    (modAt 1 (fun t => { t with state := .sleeping, timed := true, deadline := 5 })
      (modAt 2 (fun t => { t with state := .waiting, timed := true, deadline := 4, waitRd := 31 }) x.threads)) }

theorem witness_WaitersWake : wakers.schedules 0 = true ∧ (wakers.thread 0 0).state = .waiting ∧ (wakers.thread 0 0).wake = some 3 ∧
    (wakers.thread 0 1).state = .sleeping ∧ ((wakers.cell 0).tick - (wakers.thread 0 1).deadline).toNat < 2 ^ 31 ∧
    (wakers.thread 0 2).state = .waiting ∧ (wakers.thread 0 2).wake = none := by decide +kernel

/-- TimePasses, starvation: a thread READY for as many ticks as SCH_STARVE says. -/
def starving : State := inService.modThread 0 32 fun t => { t with state := .ready, readyTicks := 0x10000 }

theorem witness_TimePasses_starvation : starving.active = true ∧ starving.cellUp 0 = true ∧ (starving.thread 0 32).state = .ready ∧
    (starving.thread 0 32).starved = false ∧ starving.reg (rCell 0 0x304) ≠ 0 ∧
    (starving.reg (rCell 0 0x304)).toNat ≤ (starving.thread 0 32).readyTicks := by decide +kernel


/-! ## Launches, work items, barriers -/

/-- A launch descriptor at 256: one word of text at 0, summary at 32, no chute (R119). -/
def launchDesc (flags : Nat) : List Byte := leBytes 4 0 ++ leBytes 2 1 ++ leBytes 1 31 ++ leBytes 1 flags ++ leBytes 4 0x01 ++ leBytes 4 32 ++ List.replicate 240 0

/-- LAUNCH.A or LAUNCH.X with the descriptor address in s2. -/
def launchW (op : Nat) : W64 := wordOf 1 op (1 * 2 ^ 49 + 2 * 2 ^ 44)

theorem witness_LaunchOutcomes : ∀ op ∈ [0x3E, 0x3F], ∀ a ∈ ([31, 0x9FF20, 256] : List W64),
    ThreadReady (atWord (launchW op) [(2, a)]) th0 1 op (launchW op) :=
  fun op h _ _ => atWord_ready _ _ _ _ (by revert op; decide)

theorem witness_LaunchOutcomes_bad : 31 % 32 ≠ 0 ∧ opSoft < 0x9FF20 + 256 ∧ (launchOf (List.replicate 256 0)).ok = false ∧
    ((atWord (launchW 0x3E) [(2, 256)]).cell 0).prog .access = none ∧
    ((atWord (launchW 0x3E) [(2, 256)]).cell 0).opPoisoned 256 256 = none := by decide +kernel

theorem witness_LaunchOutcomes_good : (launchOf (launchDesc 0)).ok = true ∧ (launchOf (launchDesc 2)).ok = true ∧
    (launchOf (launchDesc 2)).clr = true ∧ (launchOf (launchDesc 0)).clr = false := by decide +kernel

/-- A program of one word in the access engine, or in the execute engine, of cell 0. -/
def progOf (ws : List W64) : Prog :=
  { launcher := 0, token := 0, number := 0, text := ws, textPoison := ws.map fun _ => false, textAddr := 0, pc := 0, evt := 0, lenient := false,
    ichUse := 1, ochUse := 1, sum := 32, loops := [], flags := 0, fault := none, aborted := false, cycles := 0 }

def accessAt (ws : List W64) : State := inService.modCell 0 fun x => { x with ae := { x.ae with prog := some (progOf ws) } }
def executeAt (ws : List W64) : State := inService.modCell 0 fun x => { x with xe := { x.xe with prog := some (progOf ws) } }

/-- Both engines at once: a launch is refused with 1; the other engine uses a chute that the descriptor clears: 2. -/
theorem witness_LaunchOutcomes_busy : ((accessAt [0]).cell 0).prog .access = some (progOf [0]) ∧
    ((accessAt [0]).cell 0).declaredBy .access (launchOf (launchDesc 2)).ich (launchOf (launchDesc 2)).och = true := by decide +kernel

/-- A work set of one range item, queued at cell 0. -/
def item0 : WorkItem := { kind := 0, thinned := false, rerun := false, wset := 7, item := 3, v0 := 0, v1 := 1, e0 := 0, ne := 1, pslot := 0, deg := 0 }

def withItem (s : State) : State :=
  (s.modScaler fun z => { z with sets := [{ num := 7, seq := 0, owned := false, complete := false, row := 2, col := 3, items := [], partialH := none, orders := [], cells := [] }] }).modCell
    0 fun x => { x with queue := [⟨item0, 2⟩] }

def wtakeW : W64 := wordOf 1 0x3C (1 * 2 ^ 49 + 2 * 2 ^ 44 + 3 * 2 ^ 39)
def wdoneW : W64 := wordOf 1 0x3D (1 * 2 ^ 49 + 2 * 2 ^ 44)

theorem witness_WorkItems_take : (∀ a ∈ ([2 ^ 20, 2 ^ 20 - 1] : List W64), ∀ b ∈ ([65536, 65535] : List W64),
    ThreadReady (atWord wtakeW [(2, a), (3, b)]) th0 1 0x3C wtakeW) :=
  fun _ _ _ _ => atWord_ready _ _ _ _ (by decide)

theorem witness_WorkItems_item : ThreadReady (withItem (atWord wtakeW [(2, 0x9FFE0), (3, 7)])) th0 1 0x3C wtakeW ∧
    (withItem (atWord wtakeW [(2, 0x9FFE0), (3, 7)])).nextItem 0 (fun n => Nat.testBit 7 16 || n == 7 % 65536) = some ⟨item0, 2⟩ ∧
    ((withItem (atWord wtakeW [(2, 0x9FFE0), (3, 7)])).cell 0).held = [] ∧ 0x9FFE0 + 32 ≤ opSoft ∧
    memWf ((withItem (atWord wtakeW [(2, 0x9FFE0), (3, 7)])).cell 0).opmem = true :=
  ⟨⟨⟨by decide +kernel, by decide +kernel, by decide +kernel, by decide +kernel⟩, by decide⟩,
    by decide +kernel, by decide +kernel, by decide +kernel, by decide +kernel⟩

/-- WDONE of a record with set 7 and item 3 at 64, taken before; of one not taken; of a record beyond the software region. -/
def doneAt (taken : List QItem) : State :=
  (atWord wdoneW [(2, 64)]).modCell 0 fun x => { x with opmem := memWrite x.opmem 64 (workRecord item0), taken := taken }

theorem witness_WorkItems_done : ThreadReady (doneAt [⟨item0, 2⟩]) th0 1 0x3D wdoneW ∧ ThreadReady (doneAt []) th0 1 0x3D wdoneW ∧
    (((doneAt [⟨item0, 2⟩]).cell 0).taken.find? fun q => q.it.wset == 7 && q.it.item == 3) = some ⟨item0, 2⟩ ∧
    ((doneAt [⟨item0, 2⟩]).wset 7).isSome = false ∧ leNat (memRead ((doneAt []).cell 0).opmem 66 2) = 7 ∧
    leNat (memRead ((doneAt []).cell 0).opmem 68 4) = 3 ∧ ((doneAt []).cell 0).opPoisoned 64 8 = none :=
  ⟨⟨⟨by decide +kernel, by decide +kernel, by decide +kernel, by decide +kernel⟩, by decide⟩,
    ⟨⟨by decide +kernel, by decide +kernel, by decide +kernel, by decide +kernel⟩, by decide⟩,
    by decide +kernel, by decide +kernel, by decide +kernel, by decide +kernel, by decide +kernel⟩

/-- Channel 64 enabled, cell 0 expecting one arrival; BARRIER for the episode in s2. -/
def chan64 (s : State) : State := (s.setBar 64 { BarChan.reset with en := true }).setReg (rBarExp 0 64) 1
def barrierW : W64 := wordOf 2 7 (2 * 2 ^ 44 + 64 * 2 ^ 32 + 31)

theorem witness_BarrierArrivals : ∀ a ∈ ([0, 1, 2, 255] : List W64), ThreadReady (chan64 (atWord barrierW [(2, a)])) th0 2 7 barrierW := by
  intro a h
  have r := atWord_ready 2 7 barrierW [(2, a)] (by decide)
  exact ⟨⟨r.at_.runs, r.at_.fetch, r.at_.clean, r.at_.word⟩, r.code⟩

theorem witness_BarrierArrivals_channel : wChan barrierW = 64 ∧ ((chan64 inService).bar 64).en = true ∧ ((chan64 inService).bar 64).broken = false ∧
    (chan64 inService).barExp 0 64 ≠ 0 ∧ ((chan64 inService).barCell 0 64).episode = 0 := by decide +kernel

theorem witness_BarrierArrivals_refused :
    ThreadReady (atWord barrierW [(2, 256)]) th0 2 7 barrierW ∧ ThreadReady (atWord (wordOf 2 7 32) []) th0 2 7 (wordOf 2 7 32) ∧
    ((atWord barrierW [(2, 255)]).bar 64).en = false :=
  ⟨atWord_ready _ _ _ _ (by decide), atWord_ready _ _ _ _ (by decide), by decide +kernel⟩

/-- An episode at whose end one arrival waits for its flag. -/
def episodeEnds : State :=
  (((atWord 0 []).setBar 79 { BarChan.reset with en := true, reached := true, done := 255 }).setReg (rBarExp 0 79) 1).setBarCell 0 79
    { BarCell.reset with episode := 255, now := [(0, 0, 31)], early := [(0, 0, 1)], up := true }

theorem witness_BarrierEpisodeEnds : (episodeEnds.bar 79).en = true ∧ (episodeEnds.bar 79).broken = false ∧ (episodeEnds.bar 79).reached = true ∧
    0 ∈ episodeEnds.barCells 79 ∧ (0, 0, 31) ∈ (episodeEnds.barCell 0 79).now ∧ (episodeEnds.thread 0 0).token = 0 ∧
    (episodeEnds.thread 0 0).state = .running := by decide +kernel

/-- Tree messages on channel 64 with link 1 its parent and link 0 its child. -/
def tree64 (sent : Bool) : State :=
  ((inService.setBar 64 { BarChan.reset with en := true, sentUp := sent }).setReg (rFabTree 0) 1).setReg (rFabChild 0) 1

theorem witness_BarrierChannelCommands : (tree64 true).active = true ∧ ((tree64 true).bar 64).en = true ∧ ((tree64 true).bar 64).broken = false ∧
    (tree64 true).barChild 64 0 = true ∧ (tree64 true).barChild 64 1 = false ∧ (tree64 true).barRoot 64 = false ∧
    (tree64 true).barParent 64 = 1 ∧ ((tree64 true).bar 64).sentUp = true ∧ parityOf 0 = false ∧ parityOf 1 = true ∧
    ((tree64 true).bar 79).en = false := by decide +kernel


/-! ## Engines -/

theorem witness_EngineRegistersAndLoops_access : ∀ op ∈ [0, 1, 2, 3, 4, 5],
    EngineReady (accessAt [wordOf 3 op (if op = 5 then 1 else 0)]) 0 .access (progOf [wordOf 3 op (if op = 5 then 1 else 0)]) 3 op
      (wordOf 3 op (if op = 5 then 1 else 0)) := by
  intro op h
  refine ⟨⟨?_, ?_, ?_, ?_⟩, ?_⟩ <;> (revert op; decide +kernel)

theorem witness_EngineRegistersAndLoops_execute : ∀ op ∈ [0, 1, 2, 3, 4, 5],
    EngineReady (executeAt [wordOf 7 op (if op = 3 then 1 else 0)]) 0 .execute (progOf [wordOf 7 op (if op = 3 then 1 else 0)]) 7 op
      (wordOf 7 op (if op = 3 then 1 else 0)) := by
  intro op h
  refine ⟨⟨?_, ?_, ?_, ?_⟩, ?_⟩ <;> (revert op; decide +kernel)

/-- Four loops are open: the fifth does not fit. -/
def fourLoops (ws : List W64) : Prog := { progOf ws with loops := List.replicate 4 ⟨0, 9, 1, 0⟩ }

theorem witness_EngineRegistersAndLoops_depth :
    (fourLoops [wordOf 3 5 1]).loops.length = 4 ∧ (progOf [wordOf 3 5 1]).loops.length ≠ 4 ∧
    (inService.modCell 0 fun x => { x with ae := { x.ae with prog := some (fourLoops [wordOf 3 5 1]) } }).engineRuns 0 .access =
      some (fourLoops [wordOf 3 5 1]) := by decide +kernel

/-- A loop of two instructions, three times, in a straight line of four words. -/
theorem witness_EngineRegistersAndLoops_body : (progOf [0, 0, 0, 0]).pc + 2 < (progOf [0, 0, 0, 0]).text.length ∧ (progOf [0, 0, 0, 0]).loops = [] := by
  decide

/-- A.LOAD with its descriptor beyond the software region, and with a count of 0 and a descriptor of zeros that R136 refuses. -/
theorem witness_AccessInstructionsIssue_fault :
    EngineReady (accessAt [wordOf 3 0x14 (0x5000 * 2 ^ 36)]) 0 .access (progOf [wordOf 3 0x14 (0x5000 * 2 ^ 36)]) 3 0x14 (wordOf 3 0x14 (0x5000 * 2 ^ 36)) ∧
    descFault ((accessAt [wordOf 3 0x14 (0x5000 * 2 ^ 36)]).cell 0) (aRoles 0x14 (wordOf 3 0x14 (0x5000 * 2 ^ 36))) = some (7, 0xA0000) :=
  ⟨⟨⟨by decide +kernel, by decide +kernel, by decide +kernel, by decide +kernel⟩, by decide⟩, by decide +kernel⟩


/-- A count of 0 with descriptors of zeros, which name object 0 (R135, R136). -/
theorem witness_AccessInstructionsIssue_zero : ∀ op ∈ [0x10, 0x11, 0x12, 0x15, 0x20, 0x22, 0x23],
    descFault ((accessAt [wordOf 3 op 0]).cell 0) (aRoles op (wordOf 3 op 0)) = none ∧
    ((accessAt [wordOf 3 op 0]).cell 0).ae.n.getD (wNr (wordOf 3 op 0)) 0 = 0 ∧ wEdgeMode (wordOf 3 op 0) = false ∧
    (accessAt [wordOf 3 op 0]).writesInside 0 (progOf [wordOf 3 op 0]) = false := by decide +kernel

theorem witness_AccessInstructionsIssue_ready : ∀ op ∈ [0x10, 0x11, 0x12, 0x13, 0x14, 0x15, 0x20, 0x21, 0x22, 0x23],
    EngineReady (accessAt [wordOf 3 op 0]) 0 .access (progOf [wordOf 3 op 0]) 3 op (wordOf 3 op 0) := by
  intro op h
  refine ⟨⟨?_, ?_, ?_, ?_⟩, ?_⟩ <;> (revert op; decide +kernel)

/-- A LIVE tensor of one plot, stewarded here and unpinned. -/
def obj0 : Desc :=
  { handle := 0, typ := 0, state := .live, format := 0, esize := 4, count := 64, steward := 0, affinity := 0, pinDev := 0, pinLnd := 0, policy := 0, scale := 0 }

def withObj (d : Desc) (s : State) : State := s.modScaler fun z => { z with objs := tblSet none d.handle (some d) z.objs }

/-- A.STOREC with room for one block, and A.HAUL of one length, of nothing. -/
def storecNothing : State := (accessAt [wordOf 3 0x21 0]).modCell 0 fun x => { x with opmem := memWrite [] 20 [64, 0, 0, 0, 0, 1] }

theorem witness_AccessInstructionsIssue_storec : descFault (storecNothing.cell 0) (aRoles 0x21 (wordOf 3 0x21 0)) = none ∧
    (((storecNothing.modCell 0 (issuedA (wordOf 3 0x21 0))).cell 0).ae.op.bind (storecBad storecNothing)) = none ∧
    storecNothing.readsOut 0 (progOf [wordOf 3 0x21 0]) = false ∧
    (readADesc ((accessAt [wordOf 3 0x23 0]).cell 0) (wD1 (wordOf 3 0x23 0))).len = (readADesc ((accessAt [wordOf 3 0x23 0]).cell 0) (wD2 (wordOf 3 0x23 0))).len := by
  decide +kernel

/-- A.STREAMC and A.LOAD of nothing. -/
theorem witness_AccessInstructionsIssue_streamc :
    ((withObj obj0 (accessAt [wordOf 3 0x13 0])).liveDesc (readADesc ((accessAt [wordOf 3 0x13 0]).cell 0) 0).handle).isSome = true ∧
    descFault ((withObj obj0 (accessAt [wordOf 3 0x13 0])).cell 0) (aRoles 0x13 (wordOf 3 0x13 0)) = none := by decide +kernel

/-- Its second descriptor, at 32, is of operand memory. -/
def loadNothing : State := (accessAt [wordOf 3 0x14 (2 ^ 21)]).modCell 0 fun x => { x with opmem := memWrite [] 45 [1] }

theorem witness_AccessInstructionsIssue_load : descFault (loadNothing.cell 0) (aRoles 0x14 (wordOf 3 0x14 (2 ^ 21))) = none ∧
    wNr (wordOf 3 0x14 (2 ^ 21)) = 0 ∧ loadNothing.writesInside 0 (progOf [wordOf 3 0x14 (2 ^ 21)]) = false := by decide +kernel

/-! ## Requests and the end of programs -/

/-- Request 9 of cell 0's program 0 for granule 0 of object 0, at a stage. -/
def reqAt (who : Who) (op : ReqOp) (st : Stage) : Req :=
  { id := 9, who := who, op := op, handle := 0, plot := 0, off := 0, gen := 0, dev := 0, lnd := 0, frame := 0, data := 0, en := 0xF, int := false,
    poison := false, cache := false, addr := 0, prog := 0, owner := 0, redirects := 0, keys := [0], rem := false, born := 0, tag := 0, noFill := 0,
    stage := st, slot := false, wb := false }

def withReq (s : State) (r : Req) : State := { s with reqs := [r] }

theorem witness_RequestsAndAnswers_stages : ∀ st ∈ [Stage.answered (.data 1 true), .answered (.redirect none), .answered .homeLost, .answered .ack],
    (withReq inService (reqAt (.cell 0) .store st)).req 9 = some (reqAt (.cell 0) .store st) := by decide +kernel

theorem witness_RequestsAndAnswers_maint :
    (withReq inService (reqAt (.maint 0) .load (.answered (.data 1 true)))).req 9 = some (reqAt (.maint 0) .load (.answered (.data 1 true))) := by
  decide +kernel

/-- An A.LOAD in flight, whose granule has come. -/
def loading : State := withReq ((accessAt [wordOf 3 0x14 0]).modCell 0 (issuedA (wordOf 3 0x14 0))) (reqAt (.cell 0) .load (.answered (.data 1 true)))

theorem witness_RequestsAndAnswers_data : 0 < loading.cells.length ∧ (loading.cell 0).ae.op.isSome = true ∧
    (loading.cell 0).owns (reqAt (.cell 0) .load (.answered (.data 1 true))) = true := by decide +kernel

/-- A load whose granule its instruction has asked for, and an answer that is newer than the entry that the request was sent by. -/
theorem witness_RequestsAndAnswers_takes : ((loading.cell 0).ae.op.map fun o => (reqAt (.cell 0) .load (.answered (.data 1 true))).keys.all o.ahead.contains) =
      some false ∧ 9 < ({ loading with nextReq := 10 } : State).nextReq ∧
    pickEntry 0 none (some ⟨0, 11, 5, 3, 0, 0, 0, []⟩) = some ⟨0, 11, 5, 3, 0, 0, 0, []⟩ ∧ pickEntry 0 none none = none ∧
    ((withObj obj0 inService).liveDesc 0).isSome = true := by decide +kernel

/-- The window of a cell, empty, and with one request that may issue. -/
theorem witness_RequestsAndAnswers_issue : inService.active = true ∧ inService.cellUp 191 = true ∧ inService.oldestCapped 0 = none ∧
    inService.pickIssue 0 = none ∧ (withReq inService (reqAt (.cell 0) .load .window)).oldestCapped 0 = none ∧
    ((withReq inService (reqAt (.cell 0) .load .window)).pickIssue 0).isSome = true := by decide +kernel

/-- A walk at this steward has its entry. -/
def walking : State :=
  { (withObj obj0 inService).modScaler fun z => { z with pmap := [(0, some ⟨0, 11, 5, 3, 0, 0, 0, []⟩)] } with walks := [⟨0, 0, 0, 4⟩] }

theorem witness_RequestsAndAnswers_walk : walking.walks.find? (fun w => w.cell == 0 && w.handle == 0 && w.plot == 0) = some ⟨0, 0, 0, 4⟩ ∧
    walking.walkEnd ⟨0, 0, 0, 4⟩ = some (.entry ⟨0, 11, 5, 3, 0, 0, 0, []⟩) := by decide +kernel

theorem witness_RequestsAndAnswers_ptc : tblWf (fun _ => none) (inService.cell 0).ptc = true := by decide +kernel

/-- Programs at their end, whose launcher runs; one that has faulted; one stalled at the watchdog's limit. -/
def ended (s : State) : State := s.modCell 0 fun x =>
  { x with ae := { x.ae with prog := some { progOf [0] with pc := 1, evt := 31 } }, xe := { x.xe with prog := some { progOf [0] with pc := 1, evt := 31 } } }

theorem witness_ProgramsEnd_complete : ∀ e ∈ [Engine.access, Engine.execute],
    (ended (atWord 0 [])).engineRuns 0 e = some { progOf [0] with pc := 1, evt := 31 } ∧
    (ended (atWord 0 [])).progDone 0 e { progOf [0] with pc := 1, evt := 31 } = true ∧ ((ended (atWord 0 [])).thread 0 0).token = 0 ∧
    ((ended (atWord 0 [])).thread 0 0).state = .running := by decide +kernel

def faulted : State := inService.modCell 0 fun x => { x with ae := { x.ae with prog := some { progOf [0] with fault := some (7, 0, 0) } } }

theorem witness_ProgramsEnd_abort : faulted.active = true ∧ faulted.cellUp 0 = true ∧
    (faulted.cell 0).ae.prog = some { progOf [0] with fault := some (7, 0, 0) } ∧ (progOf [0]).ichUse.getLsbD 0 = true ∧
    (faulted.cell 0).prog .execute = none ∧ ((executeAt [0]).cell 0).atBoundary .execute = true := by decide +kernel

def stalled : State := inService.modCell 0 fun x => { x with wd := 2 ^ 20, ae := { x.ae with prog := some (progOf [0]), wait := some 7 } }

theorem witness_ProgramsEnd_stall : stalled.active = true ∧ stalled.cellUp 0 = true ∧ stalled.regBit (rCell 0 0x10) 0 = true ∧
    2 ^ 20 ≤ (stalled.cell 0).wd ∧ (stalled.cell 0).ae.wait = some 7 ∧ (stalled.cell 0).xe.wait = none ∧
    (stalled.cell 0).ae.prog = some (progOf [0]) ∧ stalled.engineRuns 0 .access = some (progOf [0]) := by decide +kernel

def stalledX : State := inService.modCell 0 fun x => { x with xe := { x.xe with prog := some (progOf [0]), wait := some 0 } }

theorem witness_ProgramsEnd_wait : stalledX.engineRuns 0 .execute = some (progOf [0]) ∧ (stalledX.cell 0).xe.wait.isSome = true ∧
    (progOf [0]).text[(progOf [0]).pc]? = some 0 := by decide +kernel

/-- VST of one lane that waits for output chute 0, which has room again. -/
def vstWaits : State := (executeAt [wordOf 5 0x2A (8 * 2 ^ 29 + 64)]).modCell 0 fun x => { x with xe := { x.xe with wait := some 8, hold := some x.xhold } }

theorem witness_ProgramsEnd_vst : (vstWaits.engineRuns 0 .execute).isSome = true ∧ (vstWaits.cell 0).heldWord = some (wordOf 5 0x2A (8 * 2 ^ 29 + 64)) ∧
    isChute (wPort (wordOf 5 0x2A (8 * 2 ^ 29 + 64))) = true ∧ (vstWaits.cell 0).heldLate = none ∧ (vstWaits.cell 0).xe.late = [] ∧
    (vstWaits.cell 0).xhold.row = 0 ∧ 0 < (vstWaits.cell 0).credits (wPort (wordOf 5 0x2A (8 * 2 ^ 29 + 64))) ∧
    ((vstWaits.cell 0).vstBytes (wordOf 5 0x2A (8 * 2 ^ 29 + 64))).length ≤ slotBytes := by decide +kernel


/-! ## The dense array -/

/-- E4M3 words at port ma0: MLDW, MMUL; MPRE of zeros; MDRAIN of one FP32 row. -/
def mldwW : W64 := wordOf 4 1 (2 * 2 ^ 47 + 12 * 2 ^ 20)
def mpreW : W64 := wordOf 4 2 0
def mmulW : W64 := wordOf 4 3 (2 * 2 ^ 47 + 12 * 2 ^ 20)
def mdrainW : W64 := wordOf 4 4 (9 * 2 ^ 47 + 12 * 2 ^ 20)
def mcfgW : W64 := wordOf 4 0 (2 ^ 10)

/-- The array with bank 0 loaded with E4M3 weights and tile 0 ready for floating-point passes. -/
def arrayAt (ws : List W64) : State := (executeAt ws).modArr 0 fun a =>
  { a with banks := modAt 0 (fun b => { b with loaded := true, fmt := 2 }) a.banks, stat := modAt 0 (fun q => { q with cls := 1 }) a.stat }

theorem witness_ArrayLoads_mcfg : EngineReady (executeAt [mcfgW]) 0 .execute (progOf [mcfgW]) 4 0 mcfgW ∧ ((executeAt [mcfgW]).cell 0).arr.mops = [] ∧
    ((executeAt [mcfgW]).cell 0).xe.late = [] :=
  ⟨⟨⟨by decide +kernel, by decide +kernel, by decide +kernel, by decide +kernel⟩, by decide⟩, by decide +kernel, by decide +kernel⟩

theorem witness_MatrixIssues_mldw : MatrixReady (arrayAt [mldwW]) 0 (progOf [mldwW]) 1 mldwW (.runs false) :=
  ⟨⟨⟨⟨by decide +kernel, by decide +kernel, by decide +kernel, by decide +kernel⟩, by decide⟩,
    by decide, by decide +kernel, by decide +kernel, by decide +kernel, rfl, by decide +kernel⟩, by decide +kernel, by decide +kernel⟩

theorem witness_MatrixIssues_mpre : MatrixReady (arrayAt [mpreW]) 0 (progOf [mpreW]) 2 mpreW (.runs false) :=
  ⟨⟨⟨⟨by decide +kernel, by decide +kernel, by decide +kernel, by decide +kernel⟩, by decide⟩,
    by decide, by decide +kernel, by decide +kernel, by decide +kernel, rfl, by decide +kernel⟩, by decide +kernel, by decide +kernel⟩

theorem witness_MatrixIssues_mmul : MatrixReady (arrayAt [mmulW]) 0 (progOf [mmulW]) 3 mmulW (.runs false) :=
  ⟨⟨⟨⟨by decide +kernel, by decide +kernel, by decide +kernel, by decide +kernel⟩, by decide⟩,
    by decide, by decide +kernel, by decide +kernel, by decide +kernel, rfl, by decide +kernel⟩, by decide +kernel, by decide +kernel⟩

theorem witness_MatrixIssues_mdrain : MatrixReady (arrayAt [mdrainW]) 0 (progOf [mdrainW]) 4 mdrainW (.runs false) :=
  ⟨⟨⟨⟨by decide +kernel, by decide +kernel, by decide +kernel, by decide +kernel⟩, by decide⟩,
    by decide, by decide +kernel, by decide +kernel, by decide +kernel, rfl, by decide +kernel⟩, by decide +kernel, by decide +kernel⟩

/-- A multiply by a bank that is EMPTY passes the first test of R188 and fails its checks; a drain of a tile that a multiply is at must wait. -/
theorem witness_MatrixIssues_fault : MatrixIssue (executeAt [mmulW]) 0 (progOf [mmulW]) 3 mmulW (.runs false) ∧
    ((executeAt [mmulW]).cell 0).mFree ((executeAt [mmulW]).cell 0).xe.late ((executeAt [mmulW]).takenM 0 (progOf [mmulW]) mmulW (.runs false)) = true ∧
    (mChecks 3 mmulW ((executeAt [mmulW]).cell 0) (((executeAt [mmulW]).cell 0).arr.geo mmulW) (.runs false)).isSome = true :=
  ⟨⟨⟨⟨by decide +kernel, by decide +kernel, by decide +kernel, by decide +kernel⟩, by decide⟩,
    by decide, by decide +kernel, by decide +kernel, by decide +kernel, rfl, by decide +kernel⟩, by decide +kernel, by decide +kernel⟩

def multiplying : State := (arrayAt [mdrainW]).modArr 0 fun a => { a with mops := [⟨3, 0, 0, 0⟩] }

theorem witness_MatrixIssues_waits : MatrixIssue multiplying 0 (progOf [mdrainW]) 4 mdrainW (.runs false) ∧
    (multiplying.cell 0).mFree (multiplying.cell 0).xe.late (multiplying.takenM 0 (progOf [mdrainW]) mdrainW (.runs false)) = false :=
  ⟨⟨⟨⟨by decide +kernel, by decide +kernel, by decide +kernel, by decide +kernel⟩, by decide⟩,
    by decide, by decide +kernel, by decide +kernel, by decide +kernel, rfl, by decide +kernel⟩, by decide +kernel⟩

/-- ArrayLoads and DrainWritesRow: what they ask of the words and of the array beside. -/
theorem witness_ArrayLoads_words : 12 ≤ wP1 mldwW ∧ fmtIsScaled (wFmt mldwW) = false ∧ wMd mpreW = 0 ∧ wM mdrainW = 1 ∧ wMd mdrainW = 0 ∧
    wRed mdrainW = 0 ∧ fmtIsScaled (wFmt mdrainW) = false ∧ 12 ≤ wP1 mdrainW ∧ packedBytes (wFmt mdrainW) 128 = 512 := by decide

theorem witness_ArrayLoads_array : ((arrayAt [mldwW]).cell 0).opPoisoned 0 16384 = none ∧ 0 < ((arrayAt [mldwW]).cell 0).arr.banks.length ∧
    tblWf (fun _ => (0 : W32)) ((arrayAt [mpreW]).cell 0).arr.acc = true ∧ 0 < ((arrayAt [mpreW]).cell 0).arr.stat.length := by decide +kernel

/-- A pass in block-scaled traffic that overflows: element 0 of tile 0 is the greatest FP32 number, and the row adds as much again. -/
theorem witness_MultiplyPasses_words : wFmt mmulW ≠ 5 ∧ wMd mmulW = 0 ∧ 0 < (arrayAt [mmulW]).cells.length := by decide +kernel

def skipW : W64 := wordOf 4 3 (2 * 2 ^ 47 + 2 ^ 30 + 12 * 2 ^ 20)

/-- A skipped pair: block 0 of one is neither active nor audited. -/
def skipAt : State := (executeAt [skipW]).modCell 0 fun x => { x with pred := { x.pred with blocks := 1, active := 0, audit := 0 } }

theorem witness_MultiplyPasses_skipped : MatrixReady skipAt 0 (progOf [skipW]) 3 skipW .skipped ∧
    skipW.getLsbD 10 = false ∧ 12 ≤ wP1 skipW ∧ fmtIsScaled (wFmt skipW) = false :=
  ⟨⟨⟨⟨⟨by decide +kernel, by decide +kernel, by decide +kernel, by decide +kernel⟩, by decide⟩,
    by decide, by decide +kernel, by decide +kernel, by decide +kernel, by decide +kernel, by decide +kernel⟩, by decide +kernel, by decide +kernel⟩, by decide, by decide, by decide⟩

/-- Instructions of every kind under way, and a replay due. -/
def underWay : State := inService.modArr 0 fun a =>
  { a with mops := [⟨4, 0, 0, 0⟩, ⟨3, 0, 1, 0⟩, ⟨2, 0, 0, 0⟩, ⟨1, 0, 0, 1⟩] }

theorem witness_MatrixCompletions : underWay.active = true ∧ underWay.cellUp 0 = true ∧ 0 < underWay.cells.length ∧
    (underWay.cell 0).arr.mops = [⟨4, 0, 0, 0⟩, ⟨3, 0, 1, 0⟩, ⟨2, 0, 0, 0⟩] ++ ⟨1, 0, 0, 1⟩ :: [] ∧
    (∀ q ∈ ([⟨4, 0, 0, 0⟩, ⟨3, 0, 1, 0⟩, ⟨2, 0, 0, 0⟩] : List MOp), q.op ≠ 1) ∧ (underWay.cell 0).arr.replays = [] ∧ (underWay.cell 0).xe.late = [] := by decide +kernel

def replay0 : Replay := ⟨0, 0, 127, 1, 0, 6, false, [[]], [[]], [], 0⟩

theorem witness_MatrixCompletions_replay : ((inService.modArr 0 fun a => { a with replays := [replay0] }).cell 0).arr.replays = [replay0] ∧
    (replay0.geo false).stat replay0.tile < ((inService.modArr 0 fun a => { a with replays := [replay0] }).cell 0).arr.stat.length := by decide +kernel

/-! ## The vector engine -/

/-- VADD of two registers over one lane, and over a group that passes the last register. -/
theorem witness_VectorIssues : ∀ op ∈ [1, 2, 3, 5, 6, 9, 10, 11, 12, 13, 14, 15, 16, 17, 18, 19],
    EngineReady (executeAt [wordOf 5 op 64]) 0 .execute (progOf [wordOf 5 op 64]) 5 op (wordOf 5 op 64) := by
  intro op h
  refine ⟨⟨?_, ?_, ?_, ?_⟩, ?_⟩ <;> (revert op; decide +kernel)

theorem witness_VectorIssues_free : ((executeAt [wordOf 5 1 64]).cell 0).vReady (accTile 5 1 (wordOf 5 1 64)) = true := by decide +kernel


/-- VADD of one lane computes; of 4,096 lanes from register 3 it does not fit its group. -/
theorem witness_VectorIssues_results : (((executeAt []).cell 0).vElt 1 (wordOf 5 1 64)).toBool = true ∧
    ((executeAt []).cell 0).vElt 1 (wordOf 5 1 (3 * 2 ^ 51)) = .error (fBadShape, wordOf 5 1 (3 * 2 ^ 51)) := by decide +kernel

theorem witness_VectorLaneResults : tblWf (fun _ => (0 : W32)) ((executeAt []).cell 0).vec.vt = true := by decide +kernel

/-- Results that wait for the end of the busy time, a store to the last bytes of the software region among them. -/
def finishing (store : Option (Nat × List Byte)) (post : Option (W64 × Nat)) : State := (atWord 0 []).modCell 0 fun x =>
  { x with vec := { x.vec with busy := some 1, fin := some ⟨[(5, 9)], [], 3, x.vec.carry, store, post, none⟩ }, xe := { x.xe with prog := some (progOf [0]) } }

theorem witness_VectorResultsLand : (finishing (some (0x9FFFC, [1, 2, 3, 4])) none).active = true ∧
    (finishing (some (0x9FFFC, [1, 2, 3, 4])) none).cellUp 0 = true ∧ ((finishing (some (0x9FFFC, [1, 2, 3, 4])) none).cell 0).vec.fin.isSome = true ∧
    ((finishing (some (0x9FFFC, [1, 2, 3, 4])) none).cell 0).xe.late = [] ∧ memWf ((finishing (some (0x9FFFC, [1, 2, 3, 4])) none).cell 0).opmem = true := by decide +kernel

theorem witness_VectorMemoryAndSpecials_post : (((finishing none (some (7, 31))).cell 0).vec.fin.bind fun f => f.post) = some (7, 31) ∧
    ((finishing none (some (7, 31))).cell 0).xe.prog = some (progOf [0]) ∧ ((finishing none (some (7, 31))).thread 0 0).token = 0 ∧
    ((finishing none (some (7, 31))).thread 0 0).state = .running := by decide +kernel

/-- VLD, VST, VSUMMARY, VPRED and VSEGSUM, at port ma0 where they have one. -/
def vldW : W64 := wordOf 5 0x29 (12 * 2 ^ 29 + 64)
def vstW : W64 := wordOf 5 0x2A (12 * 2 ^ 29 + 64)
def vsumW : W64 := wordOf 5 0x2B (31 * 2 ^ 18)
def vpredW : W64 := wordOf 5 0x2C (12 * 2 ^ 29)
def vsegW : W64 := wordOf 5 0x28 (12 * 2 ^ 11)

theorem witness_VectorMemoryAndSpecials_ready : ∀ x ∈ [(0x29, vldW), (0x2A, vstW), (0x2B, vsumW), (0x2C, vpredW), (0x28, vsegW)],
    EngineReady (executeAt [x.2]) 0 .execute (progOf [x.2]) 5 x.1 x.2 ∧ ((executeAt [x.2]).cell 0).vReady (accTile 5 x.1 x.2) = true := by
  intro x h
  refine ⟨⟨⟨?_, ?_, ?_, ?_⟩, ?_⟩, ?_⟩ <;> (revert x; decide +kernel)

theorem witness_VectorMemoryAndSpecials_ports : 12 ≤ wPort vldW ∧ vCount ((executeAt [vldW]).cell 0).vec false vldW = 1 ∧ groupFits (wVd vldW) 1 = true ∧
    maskFits vldW 1 = true ∧ ((executeAt [vldW]).cell 0).opPoisoned 0 4 = none ∧ ((executeAt [vstW]).cell 0).srcFault vstW 1 (wSa vstW) = none ∧
    wSa vsumW = .tile 0 ∧ ((executeAt [vsumW]).cell 0).arr.mops = [] := by decide +kernel

theorem witness_VectorMemoryAndSpecials_late (w : W64) (l : List PortUse) : ((executeAt [w]).cell 0).xe.late = [] ∧ ((executeAt [w]).cell 0).vClear l = true :=
  ⟨rfl, rfl⟩

theorem witness_VectorMemoryAndSpecials_free (n : Nat) (h : n ≤ 4) :
    ((executeAt [vldW]).cell 0).vPortFault (progOf [vldW]) ((executeAt [vldW]).loopNums (progOf [vldW])).1 vldW 12 n = none := by
  interval_cases n <;> rfl

/-- A descriptor of VPRED at 0: 64 bytes of zeros are one of one block, in FP32, whose parts all lie at 0. -/
theorem witness_VectorMemoryAndSpecials_pred : pDescOk (List.replicate 64 0) = true ∧ (pDescOf (List.replicate 64 0)).blocks = 1 ∧
    memRead ((executeAt [vpredW]).cell 0).opmem 0 64 = List.replicate 64 0 ∧ ((executeAt [vpredW]).cell 0).arr.quarter = false ∧
    srcFits (128 * (fld vpredW 22 18 + 1)) (wSa vpredW) = true ∧ groupFits (wVd vpredW) 2 = true ∧
    (executeAt [vpredW]).regBit (rCell 0 0xB0) 0 = false ∧ ((executeAt [vpredW]).cell 0).opPoisoned 0 64 = none := by decide +kernel

theorem witness_VectorMemoryAndSpecials_predAddress :
    ((executeAt [vpredW]).cell 0).maAddr ((executeAt [vpredW]).loopNums (progOf [vpredW])).1 12 = (0 : Nat) := rfl

/-- VSEGSUM: of an open carry of another width it faults SEG_SHAPE; otherwise it goes on. -/
theorem witness_VectorMemoryAndSpecials_seg :
    (((executeAt [vsegW]).cell 0).segChecks vsegW (progOf [vsegW]) ((executeAt [vsegW]).loopNums (progOf [vsegW])).1).findSome? id = none ∧
    vsegW.getLsbD 10 = false := ⟨rfl, by decide⟩

def carryOpen : State := (executeAt [vsegW]).modCell 0 fun x => { x with vec := { x.vec with carry := ⟨true, 1, 999, [], 5⟩ } }

theorem witness_VectorMemoryAndSpecials_segFault :
    ((carryOpen.cell 0).segChecks vsegW (progOf [vsegW]) (carryOpen.loopNums (progOf [vsegW])).1).findSome? id = some (fSegShape, 5) := rfl


/-! ## The host link -/

/-- A session of one queue, whose next command in order is of code `opc` with payload `p`. -/
def cmdOf (opc : Nat) (p : List Byte) : QCmd := ⟨1, opc, 9, p⟩

def session0 (b : List QCmd) (h : List Completion) : Session :=
  { num := 5, ip := 0, port := 0, q := 1, w := 64, queues := [{ QSt.start 2 with buf := b, held := h }], evSeq := 0, evAcked := 0, lastRx := 0, anyCmd := true }

def hostAt (s : State) (opc : Nat) (p : List Byte) : State := s.modEth fun e => { e with session := some (session0 [cmdOf opc p] []) }

/-- Whatever its code and payload, the command is ready in a device that is in service. -/
theorem hostAt_ready (opc : Nat) (p : List Byte) : HostReady (hostAt inService opc p) 0 opc p 5 (cmdOf opc p) := by
  have hn : newer 32 2 1 = true := by decide
  refine ⟨?_, rfl, rfl, by simp [State.mayStart, hostAt, inService, State.reset, PowerSt.reset]⟩
  simp [State.nextCmd, State.queueBusy, hostAt, session0, Session.queue, QSt.start, cmdOf, inService, State.reset, EthSt.reset, hn]

/-- The same with an object. -/
theorem hostAt_obj_ready (d : Desc) (opc : Nat) (p : List Byte) : HostReady (hostAt (withObj d inService) opc p) 0 opc p 5 (cmdOf opc p) := by
  have hn : newer 32 2 1 = true := by decide
  refine ⟨?_, rfl, rfl, by simp [State.mayStart, hostAt, inService, State.reset, PowerSt.reset, withObj]⟩
  simp [State.nextCmd, State.queueBusy, hostAt, session0, Session.queue, QSt.start, cmdOf, inService, withObj, State.reset, EthSt.reset, hn]

/-- OBJ_CREATE of object 1, a TENSOR of one element (R430). -/
def createP : List Byte := leBytes 3 1 ++ [1, 0, 0] ++ leBytes 2 3 ++ leBytes 5 1 ++ List.replicate 19 0

theorem witness_HostObjectCommands_create : ((hostAt inService 0x10 createP).taken 0).createOk createP (createDesc createP 0) = true ∧
    (createDesc createP 0).steward = ((hostAt inService 0x10 createP).taken 0).dev ∧
    ((hostAt inService 0x10 createP).taken 0).desc 1 = none := by decide +kernel

/-- Commands on object 1, which is LIVE here. -/
def obj1 : Desc := { obj0 with handle := 1, typ := 1 }

/-- Element 63 of object 1: its last four bytes. -/
def accessP : List Byte := leBytes 8 (2 ^ 40 + 63) ++ leBytes 4 0 ++ leBytes 2 4

theorem witness_HostObjectCommands_objects : (leBytes 3 1).length = 3 ∧ leAt (leBytes 3 1) 0 3 = 1 ∧
    ((hostAt (withObj obj1 inService) 0x11 (leBytes 3 1)).taken 0).desc 1 = some obj1 ∧ obj1.steward = 0 ∧ freeable obj1 = true ∧
    obj1.typ ≠ 7 ∧ obj1.typ ≠ 9 ∧ ((hostAt (withObj obj1 inService) 0x14 (leBytes 4 (1 + 3 * 2 ^ 24))).taken 0).liveDesc 1 = some obj1 ∧
    leAt (leBytes 4 (1 + 3 * 2 ^ 24)) 3 1 = 3 := by decide +kernel

theorem witness_HostObjectCommands_access : addrHandle (BitVec.ofNat 64 (leAt accessP 0 8)) = 1 ∧ accessP.length = 14 ∧ accessLen accessP = 4 ∧
    accessStart obj1 accessP + accessLen accessP = obj1.count * obj1.esize ∧ (accessP ++ [0, 0, 1, 2, 3, 4]).length = 16 + accessLen (accessP ++ [0, 0, 1, 2, 3, 4]) ∧
    zeroAt (accessP ++ [0, 0, 1, 2, 3, 4]) 14 2 = true := by decide +kernel

/-- PLC_QUERY of plot 0 of object 1, and of work set 7. -/
def queryAt : State := hostAt ((withObj obj1 inService).modScaler fun z => { z with pmap := [(plotKey 1 0, some ⟨0, 0, 0, 0, 0, 0, 0, []⟩)] }) 0x18 (0 :: leBytes 8 1)

theorem witness_HostObjectCommands_plot : leAt (0 :: leBytes 8 1 : List Byte) 1 3 = 1 ∧ leAt (0 :: leBytes 8 1 : List Byte) 4 5 = 0 ∧
    (queryAt.taken 0).liveDesc 1 = some obj1 ∧ 0 < plotsOf obj1 ∧ (queryAt.taken 0).mapEntry 1 0 = some ⟨0, 0, 0, 0, 0, 0, 0, []⟩ := by decide +kernel

theorem witness_HostObjectCommands_set : ((hostAt (withItem inService) 0x18 (1 :: leBytes 2 7)).taken 0).wset (leAt (1 :: leBytes 2 7 : List Byte) 1 2) ≠ none ∧
    (1 :: leBytes 2 7 : List Byte).length = 3 := by decide +kernel

/-- WORK_SET over one vertex of ROWPTR 2, COLUMN 3 and FEATURE 5 objects of those numbers, with a partial area 9. -/
def workP : List Byte := leBytes 3 2 ++ leBytes 5 0 ++ leBytes 5 1 ++ leBytes 3 5 ++ leBytes 2 0 ++ leBytes 3 9 ++ leBytes 3 3

def workAt : State := hostAt (withObj { obj0 with handle := 2, typ := 2, count := 2, esize := 5 }
  (withObj { obj0 with handle := 5, typ := 5 } (withObj { obj0 with handle := 3, typ := 3 } inService))) 0x19 workP

theorem witness_HostObjectCommands_work : workP.length = 24 ∧ ((workAt.taken 0).objOf (workArgs workP).rowptr 2).isSome = true ∧
    ((workAt.taken 0).objOf (workArgs workP).feature 5).isSome = true ∧ ((workAt.taken 0).objOf (workArgs workP).col 3).isSome = true ∧
    (workArgs workP).v0 = 0 ∧ (workArgs workP).v1 = 1 ∧ handleOk (workArgs workP).partH = true ∧
    (workAt.taken 0).desc (workArgs workP).partH = none := by decide +kernel

/-- PROG_LOAD of the last byte of the software region in cell 191. -/
def loadP : List Byte := leBytes 24 (2 ^ 191) ++ leBytes 4 0x9FFFF ++ leBytes 2 1 ++ [0, 0, 0xAB]

theorem witness_HostCellCommands_load : loadP.length = 33 ∧ leAt loadP 28 2 = 1 ∧ zeroAt loadP 30 2 = true ∧ leAt loadP 24 4 + 1 = opSoft ∧
    inService.loadHeld loadP = false := by decide +kernel

/-- THREAD_START of slot 63 of cell 191 at priority 7 and the last PC; THREAD_STOP, THREAD_FREE and THREAD_SIGNAL of a slot. -/
def startP : List Byte := [0, 191, 63, 7] ++ leBytes 4 0x9FFF8 ++ leBytes 32 1

theorem witness_HostCellCommands_start : startP.length = 40 ∧ leAt startP 4 4 % 8 = 0 ∧ leAt startP 4 4 < opSoft ∧
    ((hostAt inService 0x21 startP).taken 0).cellUp 191 = true ∧ (((hostAt inService 0x21 startP).taken 0).thread 191 63).state = .free := by decide +kernel

theorem witness_HostCellCommands_slot : leAt ([191, 63] : List Byte) 0 1 < 192 ∧ leAt ([191, 63] : List Byte) 1 1 < 64 ∧
    (((hostAt (inService.modThread 191 63 fun t => { t with state := .failed }) 0x23 [191, 63]).taken 0).thread 191 63).state = .failed ∧
    ([191, 63, 0, 0, 1, 0, 0, 0] : List Byte).length = 8 ∧ zeroAt ([191, 63, 0, 0, 1, 0, 0, 0] : List Byte) 2 2 = true := by decide +kernel

/-- REG_READ and REG_WRITE of the last register. -/
theorem witness_HostCellCommands_registers : (leBytes 4 0xFFFFFFFC ++ leBytes 2 1).length = 6 ∧ regRange 0xFFFFFFFC 1 256 = true ∧
    inService.regHeld (leBytes 4 0xFFFFFFFC ++ leBytes 2 1) = false ∧ zeroAt (leBytes 4 0xFFFFFFFC ++ leBytes 4 1 ++ leBytes 4 7) 6 2 = true ∧
    (leBytes 4 0xFFFFFFFC ++ leBytes 4 1 ++ leBytes 4 7).length = 12 := by decide +kernel

/-- POWER_SET: the rung in force, another rung, and the setpoints of every cell. -/
theorem witness_HostDeviceCommands_power : leAt (leBytes 32 0x400) 0 1 = 0 ∧ leAt (leBytes 32 0x400) 1 1 = 4 ∧ zeroAt (leBytes 32 0x400) 2 30 = true ∧
    inService.power.busy = false ∧ inService.power.rung ≠ 4 ∧ inService.power.rung = leAt (leBytes 32 0) 1 1 ∧
    leAt (leBytes 8 0x301 ++ List.replicate 24 0xFF) 0 1 = 1 ∧ leAt (leBytes 8 0x301 ++ List.replicate 24 0xFF) 1 1 = 3 ∧
    zeroAt (leBytes 8 0x301 ++ List.replicate 24 0xFF) 2 6 = true := by decide +kernel

/-- ATTEST without the certificate chain; FW_BEGIN of the longest image, FW_DATA of its last byte, FW_ABORT. -/
def stagingAt (p : List Byte) : State := hostAt (inService.modSec fun x => { x with staging := some ⟨1, 5, 2 ^ 24⟩ }) 0x31 p

theorem witness_HostDeviceCommands_firmware : (List.replicate 33 0 : List Byte).length = 33 ∧ (leBytes 4 0 ++ leBytes 4 (2 ^ 24)).length = 8 ∧
    leAt (leBytes 4 0 ++ leBytes 4 (2 ^ 24)) 4 4 = 2 ^ 24 ∧ ((hostAt inService 0x31 (leBytes 4 0 ++ leBytes 4 (2 ^ 24))).taken 0).sec.staging = none ∧
    ((stagingAt [6]).taken 0).sec.staging = some ⟨1, 5, 2 ^ 24⟩ ∧ leAt (leBytes 4 1 ++ leBytes 4 (2 ^ 24 - 1) ++ [7]) 4 4 + (9 - 8) = 2 ^ 24 ∧
    zeroAt (leBytes 4 1 ++ leBytes 4 (2 ^ 24 - 1) ++ [7]) 1 3 = true := by decide +kernel

/-- FW_CONFIRM in a trial and FW_RAISE in a CONFIRMED boot, below the greatest count. -/
theorem witness_HostDeviceCommands_confirm :
    ((hostAt (inService.modSec fun x => { x with trial := true }) 0x31 [3]).taken 0).sec.trial = true ∧
    ((((hostAt (inService.modFlash fun f => f.mark 0 4) 0x31 [4]).taken 0).flash.slot 0).state = 4) ∧
    ((hostAt inService 0x31 [3]).taken 0).flash.arb < 128 := by decide +kernel

/-- MACSEC_KEY for an association without a key. -/
theorem witness_HostDeviceCommands_macsec : (leBytes 8 0x101 ++ List.replicate 56 1).length = 64 ∧ leAt (leBytes 8 0x101 ++ List.replicate 56 1) 0 1 = 1 ∧
    leAt (leBytes 8 0x101 ++ List.replicate 56 1) 1 1 = 1 ∧ zeroAt (leBytes 8 0x101 ++ List.replicate 56 1) 2 6 = true ∧
    ((hostAt inService 0x32 (leBytes 8 0x101 ++ List.replicate 56 1)).taken 0).saKey 3 = none := by decide +kernel

/-- RDMA queue pairs and regions: the first, one over the last element, and one of each to destroy. -/
def withRdma (s : State) : State := s.modEth fun e =>
  { e with qps := [⟨6, 7, 0, 0, 0, 0, false, 0⟩], mrs := [⟨8, true, true, 2 ^ 40, 64, true⟩] }

theorem witness_HostDeviceCommands_qp : (List.replicate 32 0 : List Byte).length = 32 ∧ ((hostAt inService 0x38 (List.replicate 32 0)).taken 0).eth.qps.length < 256 ∧
    (((hostAt (withRdma inService) 0x38 (1 :: leBytes 31 6)).taken 0).eth.qps.any fun y => y.qpn == leAt (1 :: leBytes 31 6) 1 3) = true := by decide +kernel

def mrP : List Byte := [0, 3, 0, 0] ++ leBytes 8 (2 ^ 40 + 63) ++ leBytes 12 1

theorem witness_HostDeviceCommands_mr : mrShape mrP = true ∧ ((hostAt (withObj obj1 inService) 0x39 mrP).taken 0).liveDesc (addrHandle (BitVec.ofNat 64 (leAt mrP 4 8))) = some obj1 ∧
    addrIndex (BitVec.ofNat 64 (leAt mrP 4 8)) + leAt mrP 12 5 = obj1.count ∧ mrShape (1 :: List.replicate 19 0 ++ leBytes 4 8) = true ∧
    (((hostAt (withRdma inService) 0x39 (1 :: List.replicate 19 0 ++ leBytes 4 8)).taken 0).eth.mrs.any fun y =>
      y.rkey.toNat == leAt (1 :: List.replicate 19 0 ++ leBytes 4 8) 20 4) = true := by decide +kernel


/-- CompletionIsHeld: a session that takes the completion, none, and another. -/
theorem witness_CompletionIsHeld : (hostAt inService 3 []).eth.session.isSome = true ∧ inService.eth.session = none ∧ (session0 [] []).num = 5 ∧
    0 < (session0 [] []).queues.length ∧ 0 < (session0 [] []).w ∧ (5 : W32) ≠ 6 := by decide +kernel

theorem witness_CompletionIsHeld_calm : inService.Calm := ⟨rfl, rfl, rfl, fun x h => by cases h⟩

/-! ## Caches, landings, placement -/

/-- A cell whose cache holds one dirty line of object 1's plot, with a maintenance operation under way. -/
def maintAt (op : Nat) (addr : W64) (done : Bool) : State := (withObj obj1 inService).modCell 0 fun x => { x with cc := { x.cc with
  lines := [(16 * ccSet 4096, some ⟨4096, true, true, false, 9, 0⟩)]
  maint := { x.cc.maint with busy := true, done := done, op := op, addr := addr, count := 64 } } }

theorem witness_CacheMaintenance_error : ∀ op ∈ [0, 1, 2, 3, 4], (maintAt op 0 false).maintReady 0 op = true ∧
    (maintAt op 0 false).maintErr ((maintAt op 0 false).cc 0).maint = 1 ∧
    (maintAt op (2 ^ 40 + 1) false).maintErr ((maintAt op (2 ^ 40 + 1) false).cc 0).maint = 2 ∧
    (maintAt op (2 ^ 40) false).maintErr ((maintAt op (2 ^ 40) false).cc 0).maint = 0 ∧ (maintAt op (2 ^ 40) false).maintReady 0 op = true := by
  decide +kernel

theorem witness_CacheMaintenance_complete : ((maintAt 0 0 true).cc 0).maint.busy = true ∧ ((maintAt 0 0 true).cc 0).maint.done = true ∧
    ∀ i ∈ ((maintAt 0 0 true).cc 0).maint.fills, (maintAt 0 0 true).req i = none := by decide +kernel

/-- Over every line: INVALIDATE and UNLOCK. A plot whose entry the cell holds, and whose home frame is here. -/
def maintAll (op : Nat) : State := (maintAt op 0 false).modCell 0 fun x => { x with cc := { x.cc with maint := { x.cc.maint with all := true } } }

theorem witness_CacheMaintenance_all : ∀ op ∈ [1, 4], (maintAll op).maintReady 0 op = true ∧ ((maintAll op).cc 0).maint.begun = false ∧
    ((maintAll op).cc 0).maint.all = true ∧ (((maintAll op).cc 0).all.all fun l => decide (l.upset < 3)) = true := by decide +kernel

def maintPlotAt : State := ((maintAt 1 (2 ^ 40) false).modLanding 2 fun x => { x with frames := [(3, some ⟨1, 0, 0⟩)] }).modCell 0 fun x =>
  x.ptcInstall { handle := 1, plot := 0, entry := ⟨0, 2, 3, 0, 0, 0, 0, []⟩, epp := 64, esizeM1 := 3, count := 64, typ := 1, pick := none, used := false }

theorem witness_CacheMaintenance_plot : maintPlotAt.liveDesc (addrHandle (maintPlotAt.cc 0).maint.addr) = some obj1 ∧
    (maintPlotAt.cc 0).maint.plot * eppOf obj1 < addrIndex (maintPlotAt.cc 0).maint.addr + (maintPlotAt.cc 0).maint.count ∧
    (maintPlotAt.cc 0).maint.got = none ∧ (maintPlotAt.cc 0).maint.await = false ∧
    (maintPlotAt.lookup 0 obj1 0).1 = .entry ⟨0, 2, 3, 0, 0, 0, 0, []⟩ ∧ (maintPlotAt.lookup 0 obj1 0).2.dev = 0 ∧
    ((maintPlotAt.lookup 0 obj1 0).2.landing 2).recAt 3 = some ⟨1, 0, 0⟩ := by decide +kernel

/-- A move of plot 0 of object 1 from frame 3 of landing 2 to frame 4 of landing 5. -/
def moveReq : MoveReq := { handle := 1, plot := 0, cls := 1, steward := 0, src := (0, 2, 3), dst := (0, 5, 4), gen := 0, nrep := 0, repIdx := 0 }

def moveAt (ph : MovePhase) (written acks : List Nat) : State :=
  inService.modScaler fun z => { z with moves := [⟨moveReq, ph, written, acks, 0, 0⟩], left := 2 ^ 30 }

theorem witness_CacheMaintenance_frame : ((moveAt .flipped [] []).cell 191).parked = false ∧ (moveAt .flipped [] []).frameDue 191 2 3 = true ∧
    ((moveAt .flipped [] []).cell 191).scInv = [] ∧ (moveAt .flipped [] []).fillsOut 191 = [] ∧ ((moveAt .flipped [] []).cc 191).all = [] := by decide +kernel

theorem witness_GranuleReadAfterWrite : memWf inService.mem = true ∧ tblGet 0 0 inService.memUpset = 0 := by decide +kernel

/-- A request that stands at landing 11, whose frame 5 holds its plot under its generation. -/
def landReq (op : ReqOp) : Req := { reqAt (.cell 0) op (.landing 11) with lnd := 11, frame := 5 }

def landAt (op : ReqOp) : State := (withReq inService (landReq op)).modLanding 11 fun x => { x with frames := [(5, some ⟨0, 0, 0⟩)], zero := [6] }

theorem witness_LandingEvents_serve : ∀ op ∈ [ReqOp.load, .store], (landAt op).req 9 = some (landReq op) ∧ (landReq op).stage = .landing 11 ∧
    (landAt op).active = true ∧ (landAt op).mayServe 11 (landReq op) = true ∧ ((landAt op).landing 11).recAt 5 = some ⟨0, 0, 0⟩ ∧
    (landAt op).moveFrom 11 5 = none ∧ (landAt op).moveTo 11 5 = none ∧ tblGet 0 (landReq op).la (landAt op).memUpset = 0 ∧
    (landAt op).deadPc (landReq op).la = false ∧ (landReq op).wb = false := by decide +kernel

/-- A landing that scrubs: no pass has begun in the period, one has begun and ended, and one is under way at the last frame but one granule. -/
def scrubAt (on : Bool) (of : Option Nat) (n : Nat) : State := inService.modLanding 11 fun x => { x with scrubOn := on, scrubbed := of, scrub := n, zero := [6] }

theorem witness_LandingEvents_other : (scrubAt false none 0).mayScrub 11 = true ∧ (scrubAt false none 0).scrubPeriod 11 = 0 ∧
    ((scrubAt false none 0).landing 11).isRetired 0 = false ∧ (scrubAt true (some 0) (landingGranules - 2)).mayScrub 11 = true ∧
    (scrubAt true (some 0) (landingGranules - 2)).scrubNext 11 = landingGranules - 2 ∧
    ((scrubAt true (some 0) (landingGranules - 2)).landing 11).isRetired ((landingGranules - 2) / 2 ^ 15) = false ∧
    11 < inService.landings.length ∧ 6 ∈ ((scrubAt false none 0).landing 11).zero ∧ (scrubAt false none 0).invalDone 11 6 = true ∧
    (scrubAt false (some 0) 0).mayScrub 11 = true ∧ inService.power.rung ≠ 4 := by decide +kernel

theorem witness_PoisonedAddIsDropped : ({ landAt .add with memPoison := [((landReq .add).la, true)] } : State).granulePoison (landReq .add).la = true ∧
    ({ landAt .add with memPoison := [((landReq .add).la, true)] } : State).req 9 = some (landReq .add) := by decide +kernel

/-- PlacementEvents: frozen placement; a sweep that has heard every member; an idle cell beside one with items. -/
theorem witness_PlacementEvents_interval : (inService.setReg rPlcCtrl 4).placementFrozen = true ∧ (inService.setReg rPlcCtrl 4).power.rung < 3 ∧
    inService.scaler.due = [] ∧ inService.power.busy = false ∧ inService.power.phase = .running := by decide +kernel

theorem witness_PlacementEvents_sweep : (inService.modScaler fun z => { z with sweeps := [⟨1, [], none⟩] }).scaler.sweeps.find? (fun y => y.handle == 1) =
    some ⟨1, [], none⟩ ∧ inService.fab.members = [] ∧ inService.mapEntry 1 0 = none := by decide +kernel

theorem witness_PlacementEvents_rebalance : (withItem inService).active = true ∧ (withItem inService).cellUp 191 = true ∧
    ((withItem inService).cell 191).queue = [] ∧ (withItem inService).donor 191 = some 0 := by decide +kernel

/-- A move in each of its phases, with 128 and with 129 sub-blocks written. -/
theorem witness_PlacementEvents_move : ∀ ph ∈ [MovePhase.copying, .recopied, .window, .flipped], ∀ n ∈ [128, 129],
    ((moveAt ph (List.range n) (List.range 192)).move 1 0).map (fun m => (m.phase, m.written.length, m.unacked, m.req.src.1)) = some (ph, n, 0, 0) ∧
    (moveAt ph (List.range n) (List.range 192)).stalledHere moveReq = false ∧ replicaMove moveReq = false ∧ replicaMove { moveReq with cls := 4 } = true ∧
    (moveAt ph (List.range n) (List.range 192)).mayCopy moveReq plotBytes = true ∧ (moveAt ph (List.range n) (List.range 192)).mayCopy moveReq (4096 * n) = true := by decide +kernel

theorem witness_PlacementEvents_acked : (moveAt .flipped [] (List.range 192)).allAcked ⟨moveReq, .flipped, [], List.range 192, 0, 0⟩ = true ∧
    (moveAt .flipped [] []).dev = 0 ∧ (moveAt .flipped [] []).active = true := by decide +kernel

/-! ## The fabric -/

/-- Link 0 in a state, of a device that is a member with device 7. -/
def linkAt (st : LinkState) : State := (inService.modLink 0 fun k => { k with state := st }).modFab fun f => { f with state := .member, members := [(0, 1), (7, 1)], idSet := true }

/-- A flit of its first 252 bytes and a CRC. -/
def flitWith (n : Nat) (c : W32) : Flit := BitVec.ofNat 2048 (n + c.toNat * 2 ^ 2016)

theorem flitWith_toNat (n : Nat) (c : W32) (h : n < 2 ^ 2016) : (flitWith n c).toNat = n + c.toNat * 2 ^ 2016 := by
  rw [flitWith, BitVec.toNat_ofNat, Nat.mod_eq_of_lt]
  rw [show (2 : Nat) ^ 2048 = 2 ^ 32 * 2 ^ 2016 from pow_add 2 32 2016]
  generalize 2 ^ 2016 = X at h ⊢
  have hc := Nat.mul_le_mul_right X (Nat.succ_le_of_lt c.isLt)
  rw [Nat.succ_mul] at hc
  omega

theorem flGood_flitWith (n : Nat) (c : W32) (h : n < 2 ^ 2016) : flGood (flitWith n c) = (c == crc32 (leBytes 252 n)) := by
  have hm : (flitWith n c).toNat % 2 ^ 2016 = n := by rw [flitWith_toNat n c h, Nat.add_mul_mod_self_right, Nat.mod_eq_of_lt h]
  have hc : flCrc (flitWith n c) = c := by
    apply BitVec.eq_of_toNat_eq
    have hd : (n + c.toNat * 2 ^ 2016) / 2 ^ 2016 = c.toNat := by
      rw [Nat.add_mul_div_right _ _ (by positivity), Nat.div_eq_of_lt h, Nat.zero_add]
    simp only [flCrc, fld, natBits, flitWith_toNat n c h, hd]
    simpa using c.isLt
  rw [flGood, hm, hc]

/-- The flit of kind `k` and sequence number `s` that holds nothing else. -/
def bare (k s : Nat) (c : W32) : Flit := flitWith (s + k * 2 ^ 12) c

theorem bare_kind (k s : Nat) (c : W32) (hk : k < 8) (hs : s < 4096) : flKind (bare k s c) = k := by
  have h : s + k * 2 ^ 12 < 2 ^ 2016 := Nat.lt_of_lt_of_le (show s + k * 2 ^ 12 < 2 ^ 15 by omega) (Nat.pow_le_pow_right (by decide) (by decide))
  have hv : (bare k s c).toNat = s + 4096 * (k + 8 * (c.toNat * 2 ^ 2001)) := by
    rw [bare, flitWith_toNat _ _ h, show (2 : Nat) ^ 2016 = 2 ^ 12 * 2 ^ 3 * 2 ^ 2001 from by rw [← pow_add, ← pow_add]]
    ring
  rw [flKind, fld, natBits, hv]
  generalize c.toNat * 2 ^ 2001 = Y
  omega

theorem bare_seq (k s : Nat) (c : W32) (hk : k < 8) (hs : s < 4096) : flSeq (bare k s c) = s := by
  have h : s + k * 2 ^ 12 < 2 ^ 2016 := Nat.lt_of_lt_of_le (show s + k * 2 ^ 12 < 2 ^ 15 by omega) (Nat.pow_le_pow_right (by decide) (by decide))
  have hv : (bare k s c).toNat = s + 4096 * (k + 8 * (c.toNat * 2 ^ 2001)) := by
    rw [bare, flitWith_toNat _ _ h, show (2 : Nat) ^ 2016 = 2 ^ 12 * 2 ^ 3 * 2 ^ 2001 from by rw [← pow_add, ← pow_add]]
    ring
  rw [flSeq, fld, natBits, hv]
  generalize c.toNat * 2 ^ 2001 = Y
  omega

/-- Each kind of flit, good and damaged. -/
theorem witness_LinkFlits (k : Nat) (h : k < 8) : ∃ f g, flKind f = k ∧ flGood f = true ∧ flKind g = k ∧ flGood g = false := by
  have hn : 0 + k * 2 ^ 12 < 2 ^ 2016 := Nat.lt_of_lt_of_le (show 0 + k * 2 ^ 12 < 2 ^ 15 by omega) (Nat.pow_le_pow_right (by decide) (by decide))
  refine ⟨bare k 0 (crc32 (leBytes 252 (0 + k * 2 ^ 12))), bare k 0 (~~~ crc32 (leBytes 252 (0 + k * 2 ^ 12))), bare_kind _ _ _ h (by decide), ?_,
    bare_kind _ _ _ h (by decide), ?_⟩
  · rw [bare, flGood_flitWith _ _ hn]
    simp
  · rw [bare, flGood_flitWith _ _ hn]
    generalize crc32 _ = c
    simp only [beq_eq_false_iff_ne]
    intro e
    have := congrArg (fun v : W32 => v.getLsbD 0) e
    simp at this

theorem witness_LinkFlits_sequence : ((linkAt .up).link 0).rxSeq = 0 ∧ ((linkAt .up).link 0).alive = true ∧
    ((linkAt .up).link 0).rxSeq ≠ 4095 ∧ ((linkAt .up).link 0).nakSeq ≠ some 0 ∧
    ((linkAt .up).link 0).recovering = false ∧ 0 < (linkAt .up).fab.links.length ∧ (linkAt .up).fabOn = true ∧ ((linkAt .beacon).link 0).alive = true ∧
    (((linkAt .beacon).modLink 0 fun k => { k with resumeSent := true }).link 0).resumeSent = true := by decide +kernel

theorem witness_LinkFlits_links : (((linkAt .down).setReg rFabLinkEn 1).reg rFabLinkEn).getLsbD 0 = true ∧
    (((linkAt .down).setReg rFabLinkEn 1).link 0).state = .down ∧
    (({ linkAt .up with timebase := 3000 } : State).link 0).lastGood.toNat + 3000 ≤ (3000 : W64).toNat := by decide +kernel


/-- A packet of a type from device 7, and one for device 7 that came from device 8. -/
def pkOf (typ : Nat) (body : List (BitVec 128)) : Packet := { dst := 0, src := 7, epoch := 0, typ := typ, hops := 0, poison := false, tag := 3, body := body }
def transit : Packet := { pkOf pkLoad [0] with dst := 7, src := 8 }

/-- A device whose link 0 is UP and the path to device 7, with packets at its router and packets that have come. -/
def routerAt (routed arrived : List Packet) : State :=
  ((linkAt .up).modLink 0 fun k => { k with farDev := 7, farValid := true }).modFab fun f =>
    { f with routes := [(7, 0x100000)], router := routed, arrived := arrived }

theorem witness_PacketsAndRequests_router : (routerAt [pkOf pkData [0]] []).fab.router.contains (pkOf pkData [0]) = true ∧
    (pkOf pkData [0]).dst = (routerAt [] []).dev ∧ (routerAt [transit] []).bestPath transit (pkVc transit) = some 0 ∧
    ((routerAt [transit] []).link 0).takesPk transit = true ∧ (routerAt [transit] []).outranked transit 0 = false ∧
    (routerAt [] []).bestPath { transit with dst := 9 } 0 = none ∧ (routerAt [] []).fab.member 9 ≠ 2 ∧ (routerAt [] []).power.rung = 0 := by decide +kernel

/-- Packets held for 50 ms without a path, and for 1 ms across a PARKED link. -/
def holding (parked : Bool) : State := { (inService.modFab fun f => { f with held := [⟨transit, 0, parked⟩] }) with timebase := 50000000 }

theorem witness_PacketsAndRequests_held : (holding false).fab.held.find? (fun h => h.p == transit && !h.parked) = some ⟨transit, 0, false⟩ ∧
    1000 * (holding false).regF rFabDrain 31 16 ≤ (holding false).timebase.toNat ∧
    (holding true).fab.held.find? (fun h => h.p == transit && h.parked) = some ⟨transit, 0, true⟩ ∧ 1000000 ≤ (holding true).timebase.toNat ∧
    (holding true).fabOn = true := by decide +kernel

theorem witness_PacketsAndRequests_requests : ∀ t ∈ [pkLoad, pkStore, pkAdd, pkWalk, pkMove], RequestReady (routerAt [] [pkOf t [0, 0, 0, 0, 0, 0]]) (pkOf t [0, 0, 0, 0, 0, 0]) t := by
  intro t h
  refine ⟨?_, rfl, ?_, ?_, Or.inl rfl⟩ <;> (revert t; decide +kernel)

/-- A WALK of a plot that this steward's map has; a MOVE to frame 4 of landing 5; a request of a device that is LOST. -/
theorem witness_PacketsAndRequests_walk : ((routerAt [] []).modScaler fun z => { z with pmap := [(0, some ⟨0, 1, 2, 3, 0, 0, 0, []⟩)] }).mapEntry 0 0 ≠ none := by decide +kernel

def moveUnit : BitVec 128 := unitOf [(0, 3, 1), (10, 1, 5), (11, 2, 4)]

theorem witness_PacketsAndRequests_move : ((moveAt .copying [] []).move (uBytes (pkUnit (pkOf pkMove [moveUnit, 0, 0, 0, 0]) 0) 0 3)
      (uBytes (pkUnit (pkOf pkMove [moveUnit, 0, 0, 0, 0]) 0) 3 5)).map (·.req.dst) =
    some (0, uBytes (pkUnit (pkOf pkMove [moveUnit, 0, 0, 0, 0]) 0) 10 1 % 16, uBytes (pkUnit (pkOf pkMove [moveUnit, 0, 0, 0, 0]) 0) 11 2 % 2 ^ 15) := by decide +kernel

theorem witness_PacketsAndRequests_fenced : ((routerAt [] [pkOf pkLoad [0]]).modFab fun f => { f with members := [(7, 2)] }).fab.member 7 = 2 := by decide +kernel

/-- Membership messages that have come here, of every code. -/
theorem witness_MembershipMessages : ∀ c ∈ [1, 2, 3, 4, 5, 6, 7, 8],
    MembReady (routerAt [] [pkOf pkMemb [unitOf [(0, 1, c)]]]) (pkOf pkMemb [unitOf [(0, 1, c)]]) c := by
  intro c h
  refine ⟨?_, rfl, ?_, ?_⟩ <;> (revert c; decide +kernel)

theorem witness_MembershipMessages_probe :
    ((routerAt [] []).modFab fun f => { f with probes := [⟨7, 1, 0, none, false⟩] }).fab.probes.find? (fun y => y.dev == 7 && y.num.toNat == 1) =
      some ⟨7, 1, 0, none, false⟩ ∧ mbF (pkOf pkMemb [unitOf [(0, 1, 3), (1, 2, 7), (3, 4, 1)]]) 1 2 = 7 ∧
    mbF (pkOf pkMemb [unitOf [(0, 1, 3), (1, 2, 7), (3, 4, 1)]]) 3 4 = 1 ∧ (routerAt [] []).fab.state = .member ∧
    mbF (pkOf pkMemb [unitOf [(0, 1, 2)]]) 1 2 = (routerAt [] []).dev := by decide +kernel

theorem witness_MembershipMessages_recover : lowest (fun l => (((routerAt [] []).modLink 0 fun k => { k with recovering := true, farLink := 31 }).link l).recovering &&
      (((routerAt [] []).modLink 0 fun k => { k with recovering := true, farLink := 31 }).link l).farDev == 7 &&
      (((routerAt [] []).modLink 0 fun k => { k with recovering := true, farLink := 31 }).link l).farLink == 31) 32 0 = some 0 := by decide +kernel

/-- An epoch that is new, and one that has been seen. -/
theorem witness_MembershipMessages_epoch : (routerAt [] []).fab.seenEpochs.contains 5 = false ∧ newer 32 5 (routerAt [] []).fab.epoch.toNat = true ∧
    ((routerAt [] []).modFab fun f => { f with seenEpochs := [5] }).fab.seenEpochs.contains 5 = true ∧ (routerAt [] []).isKeeper = true ∧
    (routerAt [] []).fab.probes = [] ∧ (routerAt [] []).fab.member 7 = 1 ∧ (routerAt [] []).fab.member 9 ≠ 1 ∧
    ((routerAt [] []).modFab fun f => { f with state := .joining }).fab.state = .joining := by decide +kernel

/-- FENCED for no request of this device, and for one that is out. -/
theorem witness_MembershipMessages_fenced : (routerAt [] [pkOf pkFenced []]).byTag (pkOf pkFenced []) = none ∧
    (routerAt [] [pkOf pkFenced []]).walks.all (fun w => w.tag != 3) = true ∧
    ((withReq (routerAt [] [pkOf pkFenced []]) { reqAt (.cell 0) .load .remote with tag := 3 }).byTag (pkOf pkFenced [])).isSome = true := by decide +kernel

/-- A probe, a link-down report, a drain and a JOIN whose times have passed. -/
def overdue : State := { (routerAt [] []).modFab fun f => { f with
    routes := [], probes := [⟨7, 1, 0, none, false⟩], reports := [⟨7, 0, 7, 0, 0⟩], lossTimes := [0], joinAt := some 0 } with timebase := 1000000000 }

theorem witness_MembershipEvents_times : overdue.expired.find? (fun y => y.dev == 7) = some ⟨7, 1, 0, none, false⟩ ∧
    overdue.fab.state = .member ∧ (∀ z ∈ overdue.expired, 7 ≤ z.dev) ∧ overdue.fab.reports.find? (fun r => r.dev == 7) = some ⟨7, 0, 7, 0, 0⟩ ∧
    1000 * overdue.regF rFabProbe 7 0 ≤ overdue.timebase.toNat ∧ overdue.others.filter overdue.hasPath = [] ∧
    1000 * overdue.regF rFabDrain 15 0 ≤ overdue.timebase.toNat ∧ overdue.reqs = [] ∧ 1000000 ≤ overdue.timebase.toNat ∧ overdue.fabOn = true := by decide +kernel

/-- A detached device with its number and space set, link 31 UP to a device it knows. -/
def detached : State := (inService.modLink 31 fun k => { k with state := .up, farValid := true, farKeeper := 9 }).modFab fun f => { f with idSet := true }

theorem witness_MembershipEvents_join : detached.fab.state = .detached ∧ detached.fab.idSet = true ∧ detached.fab.everMember = false ∧
    lowest (fun l => ((detached.link l).state == .up || (detached.link l).state == .foreign) && (detached.link l).farValid) 32 0 = some 31 := by decide +kernel

/-! ## The port -/

/-- A QCT packet of a code, flags and payload for session 5. -/
def qctOf (flags opc : Nat) (p : List Byte) : Datagram :=
  ⟨0, 0, [1] ++ leBytes 1 flags ++ [0] ++ leBytes 1 opc ++ leBytes 4 2 ++ leBytes 4 0 ++ leBytes 4 5 ++ leBytes 2 0 ++ leBytes 2 p.length ++ leBytes 12 0 ++ p⟩

def portAt (s : State) : State := (s.modEth fun e => { e with link := 2 }).setReg rEthCfg 0xF00D

theorem witness_SessionTransport_packets : (portAt (hostAt inService 3 [])).portOpen = true ∧
    (qctHdr (qctOf 1 1 []).bytes).map (fun h => (h.opc, h.ackOnly)) = some (1, false) ∧ qctHdr [] = none ∧
    (qctHdr (qctOf 0 3 []).bytes).map (fun h => (h.opc, h.ackOnly, h.session, h.qid)) = some (3, false, 5, 0) ∧
    (portAt (hostAt inService 3 [])).eth.session.map (fun x => (x.num, x.q, x.w)) = some (5, 1, 64) ∧
    (portAt (hostAt inService 3 [])).eth.displaced = none := by decide +kernel

/-- An open of 64 queues with a window of 256. -/
theorem witness_SessionTransport_open : (qctHdr (qctOf 1 1 [64, 0, 1, 1]).bytes).map (fun h => (h.syn, h.payload.length, leAt h.payload 0 1, leAt h.payload 1 2, leAt h.payload 3 1)) =
    some (true, 4, 64, 256, 1) ∧ inService.eth.session = none := by decide +kernel

/-- What is due: a completion, an acknowledgement, an event; and a session that has been silent. -/
def due : State := { portAt (inService.modEth fun e => { e with
    session := some { session0 [] [⟨0, 0, 3, 0, 0, [], false, 0, 1⟩] with queues := [{ QSt.start 2 with held := [⟨0, 0, 3, 0, 0, [], false, 0, 1⟩], ackDue := true }] }
    events := [⟨⟨1, 0, 0, 0⟩, none⟩] }) with timebase := 2 ^ 50 }

theorem witness_SessionTransport_due : (due.dueCompletion 0).isSome = true ∧ (due.eth.session.map fun x => (x.queue 0).ackDue) = some true ∧
    3000000 * due.regF rQctTimers 15 0 ≤ due.timebase.toNat ∧ (due.eth.events.filter fun e => e.seq.isNone) ≠ [] ∧
    (due.cnt (kEth 1)).toNat + 1 < 2 ^ 64 ∧ due.portOpen = true := by decide +kernel

/-- Frames: at each end of the lengths allowed, of each kind, to a device whose services are on. -/
theorem witness_PortFramesAndRdma_frames : (portAt inService).portOpen = true ∧ ((portAt inService).count (kEth 0) 1).regBit rEthCfg 12 = true ∧
    (((portAt inService).setReg rEthCfg 0xE00D).count (kEth 0) 1).regBit rEthCfg 12 = false ∧
    (((portAt inService).setReg rEthCfg 0xE00D).regBit rEthCfg 15 = true) ∧ (((portAt inService).setReg rEthCfg 0xE00D).count (kEth 5) 1).regBit rEthCfg 3 = true ∧
    (portAt inService).eth.txq = [] ∧ inService.portPowered = true ∧ (inService.setReg rEthCfg 0x800D).regBit rEthCfg 0 = true ∧ inService.eth.link ≠ 2 ∧
    (0xFFFF00000000 : BitVec 128) = ((portAt inService).setReg rEthCfg 0xE00D).ownIp false ∧ ((portAt inService).regF rQctCfg 15 0) = 0xC4E0 := by decide +kernel

/-- RoCEv2 requests of a queue pair, in sequence and not, with and without a right to their range. -/
def rdmaAt : State := portAt (withRdma (withObj obj1 inService))
def rdmaOf (op : RdmaOp) (rkey : W32) (psn : BitVec 24) : RdmaReq :=
  { qpn := 6, psn := psn, op := op, rkey := rkey, va := 0, len := 4, data := [1, 2, 3, 4], ecn := false }

theorem witness_PortFramesAndRdma_rdma : (rdmaAt.count (kEth 0) 1).regBit rEthCfg 14 = true ∧
    (rdmaAt.count (kEth 0) 1).eth.qps.find? (fun y => y.qpn == 6) = some ⟨6, 7, 0, 0, 0, 0, false, 0⟩ ∧
    ((rdmaAt.count (kEth 0) 1).rdmaOk (rdmaOf .read 8 0)).isSome = true ∧ ((rdmaAt.count (kEth 0) 1).rdmaOk (rdmaOf .write 8 0)).isSome = true ∧
    (rdmaAt.count (kEth 0) 1).rdmaOk (rdmaOf .read 9 0) = none := by decide +kernel



/-! ## Supply, boot and security -/

/-- A device in a phase with a cause of its last reset. -/
def phaseAt (ph : Phase) (cause : Nat) (en : Bool) : State := State.reset.modPower fun p => { p with phase := ph, vstby := true, pwrEn := en, cause := cause }

/-- The events of the board at their earliest times: from no power, before PWR_EN rises, 20 ms after it, with the rails up, after a trip. -/
theorem witness_SupplyAndBoot_board : State.reset.power.phase = .unpowered ∧
    ((phaseAt .inReset 1 false).power.vin48 = true ∧ (phaseAt .inReset 1 false).power.pgTimeout = false ∧ (phaseAt .inReset 1 false).power.cause ≠ 3) ∧
    (({ phaseAt .inReset 1 true with timebase := 20000000 } : State).power.since.toNat + 20000000 ≤
      ({ phaseAt .inReset 1 true with timebase := 20000000 } : State).timebase.toNat ∧ (phaseAt .inReset 1 true).power.pwrGood = false) ∧
    (inService.power.pwrEn = true ∧ inService.power.rstN = true ∧ inService.power.rails = true ∧ inService.power.phase ≠ .unpowered) ∧
    (phaseAt .tripped 3 true).power.phase = .tripped ∧
    ((phaseAt .inReset 3 true).power.rails = false ∧ (phaseAt .inReset 3 true).power.pwrEn = true ∧ (phaseAt .inReset 3 true).power.vin48 = true ∧
      ((∀ x ∈ (phaseAt .inReset 3 true).power.temps, x < 100) ∧
       ∀ x ∈ ((phaseAt .inReset 3 true).modPower fun p => { p with temps := List.replicate 32 99 }).power.temps, x < 100)) := by decide +kernel

/-- RST_N and PWR_GOOD high, with a boot flash that holds no image. -/
def booting : State := (phaseAt .inReset 1 true).modPower fun p => { p with rails := true, pwrGood := true }

theorem witness_SupplyAndBoot_noSlot : booting.power.phase = .inReset ∧ booting.power.pwrGood = true ∧ booting.power.pgTimeout = false ∧
    booting.flash.sfdp = true ∧ booting.flash.choose.slot = none := by decide +kernel

/-- A boot flash whose slot A is CONFIRMED and holds an image: a header with its magic and version, and no byte in its components, each of
which begins where the header and keys end. -/
def imageA : List Host.Cell :=
  memWrite (memWrite (memWrite (memWrite [] 0 (leBytes 4 0x47494A51 ++ leBytes 2 1)) 17 [0x20]) 89 [0x20]) 161 [0x20]

/-- The image with signatures of the least length. -/
def imageS : List Host.Cell := memWrite (memWrite imageA 2304 (leBytes 2 42)) 5888 (leBytes 2 42)

def flashA : FlashSt := { FlashSt.shipped with slotA := { state := 4, image := imageS } }

/-- The functions of R437 are opaque, so no state alone can show an image that is valid: under one reading of them this one is. -/
theorem witness_SupplyAndBoot_valid (hd : ∀ m, Config.shake256 m = 0) (hr : ∀ k, Config.romDigest k = 0)
    (hv : ∀ k m g, Config.falconVerify k m g = true) : flashA.check (flashA.slot 0) [0, 1, 2] = 0 := by
  simp only [FlashSt.check, sigHolds, FlashSt.slot, FlashSlot.compOk, FlashSlot.compDigest, hd, hr, hv, List.all_cons, List.all_nil]
  decide +kernel

theorem witness_SupplyAndBoot_slot (hd : ∀ m, Config.shake256 m = 0) (hr : ∀ k, Config.romDigest k = 0)
    (hv : ∀ k m g, Config.falconVerify k m g = true) : flashA.choose.slot = some 0 := by
  have ht : flashA.endTrials = flashA := by decide +kernel
  have ho : flashA.order = [0] := by decide +kernel
  have hc : flashA.check (flashA.slot 0) [0] = 0 := by
    simp only [FlashSt.check, sigHolds, FlashSt.slot, FlashSlot.compOk, FlashSlot.compDigest, hd, hr, hv, List.all_cons, List.all_nil]
    decide +kernel
  simp only [FlashSt.choose, ht, ho, List.foldl_cons, List.foldl_nil, BootTry.attempt, hc]
  decide +kernel

/-- The lookout finds its images good, or one that lies outside the image area. -/
def lookoutAt : State := { phaseAt .lookout 1 true with flash := flashA }

theorem witness_SupplyAndBoot_lookout : (∀ m, Config.shake256 m = 0) →
    ((lookoutAt.flash.slot lookoutAt.sec.slot).compOk 1 && (lookoutAt.flash.slot lookoutAt.sec.slot).compOk 2) = true := by
  intro hd
  simp only [FlashSlot.compOk, FlashSlot.compDigest, hd]
  decide +kernel

theorem witness_SupplyAndBoot_lookoutBad : (((phaseAt .lookout 1 true).flash.slot (phaseAt .lookout 1 true).sec.slot).compOk 1 &&
    ((phaseAt .lookout 1 true).flash.slot (phaseAt .lookout 1 true).sec.slot).compOk 2) = false := by
  have h : ¬ 8192 ≤ (((phaseAt .lookout 1 true).flash.slot (phaseAt .lookout 1 true).sec.slot).comp 1).1 := by decide +kernel
  simp [FlashSlot.compOk, h]

/-- FALLOW, with the images as they were measured at the boot. -/
def fallow : State := (inService.modPower fun p => { p with rung := 4, busy := true }).modSec fun x =>
  { x with meas := [0, 0, (inService.flash.slot 0).compDigest 1, 0, 0] }

theorem witness_SupplyAndBoot_fallow : fallow.power.rung = 4 ∧ fallow.power.busy = true ∧ fallow.power.vin48 = true ∧ fallow.codeHolds = true :=
  ⟨rfl, rfl, rfl, beq_self_eq_true _⟩

/-- An armed unlock with a challenge read at time 0, answered within 60 s. -/
def unlocking : State := { (inService.setReg rSecCtrl 2).modSec fun x => { x with challenge := some (7, 0) } with timebase := 60000000000 }
def answer : List Byte := List.replicate 2048 0 ++ leBytes 2 42 ++ List.replicate 1534 0

theorem witness_SupplyAndBoot_jtag : unlocking.tapOn = true ∧ unlocking.regBit rSecCtrl 1 = true ∧ inService.regBit rSecCtrl 1 = false ∧
    answer.length = 3584 ∧ unlocking.sec.jtagFails < 3 ∧ unlocking.sec.challenge = some (7, 0) ∧
    unlocking.timebase.toNat ≤ (0 : W64).toNat + 60000000000 ∧ (inService.setReg rSecCtrl 2).sec.challenge = none := by decide +kernel

theorem witness_SupplyAndBoot_key (hr : Config.shake256 (answer.take 1793) = Config.romDigest 0) (hv : ∀ k m g, Config.falconVerify k m g = true) :
    unlocking.unlockKey (answer.take 1793) = true ∧
    sigHolds (answer.take 1793) (answer.drop 2048) "QJ-JTAGU" (leBytes 32 (7 : BitVec 256).toNat ++ leBytes 16 unlocking.flash.uid.toNat ++ [1]) = true := by
  constructor
  · show ((List.range 4).any fun k => Config.shake256 (answer.take 1793) == Config.romDigest k && !unlocking.flash.revoked.getLsbD k) = true
    rw [hr, List.any_eq_true]
    exact ⟨0, by decide, by simp [unlocking, inService, State.reset, FlashSt.shipped]⟩
  · simp only [sigHolds, hv]
    decide +kernel

/-- FW_COMMIT of that image, and OWNER_ENROL when it is armed. -/
def enrolP : List Byte := 5 :: List.replicate 2048 0 ++ leBytes 2 42 ++ List.replicate 1534 0

theorem witness_HostDeviceCommands_commit (hd : ∀ m, Config.shake256 m = 0) (hr : ∀ k, Config.romDigest k = 0)
    (hv : ∀ k m g, Config.falconVerify k m g = true) (u : State)
    (hu : u = (hostAt { inService.modSec fun x => { x with staging := some ⟨0, 5, 8192⟩ } with flash := flashA } 0x31 [2]).taken 0) :
    u.sec.staging = some ⟨0, 5, 8192⟩ ∧ u.flash.check (u.flash.slot 0) [0, 1, 2] = 0 := by
  have hf : u.flash = flashA := by rw [hu]; rfl
  exact ⟨by rw [hu]; rfl, by rw [hf]; exact witness_SupplyAndBoot_valid hd hr hv⟩

theorem witness_HostDeviceCommands_enrol (hv : ∀ k m g, Config.falconVerify k m g = true) :
    (enrolP.length = 3585 ∧ leAt enrolP 0 1 = 5 ∧ ((hostAt (inService.setReg rSecCtrl 1) 0x31 enrolP).taken 0).regBit rSecCtrl 0 = true ∧
      ((hostAt (inService.setReg rSecCtrl 1) 0x31 enrolP).taken 0).flash.owner = none) ∧
    ∀ m, sigHolds ((enrolP.drop 1).take 1793) (enrolP.drop 2049) "QJ-OWNER" m = true := by
  refine ⟨by decide +kernel, fun m => ?_⟩
  simp only [sigHolds, hv]
  decide +kernel

/-! ## Rungs, temperature, registers, restarts -/

/-- A change to rung 3 that has drained; one that has not in its time; a rung that is being left with another to enter. -/
def rungAt (r t : Nat) (b : Bool) (time : W64) : State := { inService.modPower fun p => { p with rung := r, target := t, busy := b } with timebase := time }

theorem witness_RungsAndTemperature_rungs : (((List.range 192).all (rungAt 0 3 true 0).cellDone) = true ∧ (rungAt 0 3 true 0).power.target < 4) ∧
    (rungAt 0 1 true (2 ^ 40)).power.since.toNat + 1000000 * (rungAt 0 1 true (2 ^ 40)).regF rPwrCfg 7 0 ≤ (rungAt 0 1 true (2 ^ 40)).timebase.toNat ∧
    (((rungAt 3 0 false 0).setReg rPwrCfg 0x100).regBit rPwrCfg 8 = true ∧ ((rungAt 4 0 false 0).setReg rPwrCfg 0x100).power.rung ≠ 0) ∧
    ((rungAt 2 1 true 0).power.rung ≠ 0 ∧ (rungAt 2 1 true 0).power.target ≠ 0) ∧ 191 < inService.power.cur.length ∧ inService.active = true := by decide +kernel

/-- A cell that has been idle for its time, and a parked one whose sleeper is due. -/
def idleLong : State := { inService.setReg rPwrPark 1 with timebase := 2 ^ 40 }
def dueCell : State := inService.modCell 5 fun x => { x with parked := true, threads := modAt 63 (fun t => { t with state := .sleeping, timed := true, deadline := 0 }) x.threads }

theorem witness_RungsAndTemperature_park : 191 < idleLong.cells.length ∧ idleLong.coresGo = true ∧ idleLong.cellUp 191 = true ∧
    (idleLong.cell 191).parked = false ∧ idleLong.regBit rPwrPark 0 = true ∧ (idleLong.cell 191).quiet = true ∧ idleLong.scalerBusy 191 = false ∧
    ((idleLong.cell 191).threads.any fun t => t.wake.isSome) = false ∧
    (idleLong.cell 191).idleSince.toNat + 1000 * idleLong.regF rPwrPark 16 1 ≤ idleLong.timebase.toNat ∧
    dueCell.cellUp 5 = true ∧ (dueCell.cell 5).parked = true ∧ (dueCell.cell 5).anyDue = true := by decide +kernel

/-- Sensor 31 reads 119 °C; the hottest sensor of field 3 reads 119 °C with throttling enabled. -/
def hotField : State := (inService.setReg rPwrTherm 0x15F).modPower fun p => { p with temps := modAt 31 (fun _ => 119) p.temps }

theorem witness_RungsAndTemperature_heat : inService.warnAt ≤ (inService.modPower fun p => { p with temps := modAt 31 (fun _ => 119) p.temps }).power.hot.2 ∧
    3 < hotField.power.throttled.length ∧ hotField.power.throttleAt.getD 3 none = none ∧ hotField.regBit rPwrTherm 8 = true ∧
    hotField.warnAt ≤ (hotField.power.fieldHot 3).2 ∧ (((List.range 48).map (48 * 3 + ·)).any fun c => decide (hotField.wantedSp c < 3)) = true ∧
    hotField.active = true ∧ 191 < hotField.power.cur.length := by decide +kernel

/-- A register with fields, bits that a 1 clears, and bits of neither kind. -/
theorem witness_RegisterWriteRules : (⟨0, 3, 0, 7, 0⟩ : Fld) ∈ [(⟨0, 3, 0, 7, 0⟩ : Fld)] ∧ (regFlds rPwrCfg).any (fun f => decide (f.lo + f.w ≤ 32)) = true ∧
    (regFlds rPwrCfg).all (fun f => decide (31 < f.lo ∨ f.lo + f.w ≤ 31)) = true := by decide

/-- S.RDREG and S.WRREG of the last register offset of the cell and of the first beyond it. -/
theorem witness_RegisterAccess_offsets : ∀ op ∈ [0x38, 0x39], ∀ im ∈ [0xFFFC, 0x10000],
    ThreadReady (atWord (wordOf 1 op im) [(2, 0)]) th0 1 op (wordOf 1 op im) := by
  intro op hop im him
  refine atWord_ready 1 op _ _ ?_
  revert op im
  decide

theorem witness_RegisterAccess_words : ∀ im ∈ [0xFFFC, 0x10000], ((atWord (wordOf 1 0x38 im) [(2, 0)]).sreg th0 (wRa (wordOf 1 0x38 im)) +
    ((wordOf 1 0x38 im).truncate 32).signExtend 64).toNat = im ∧ im % 4 = 0 := by decide +kernel

/-- Paths of the board that carry, refuse and hold an access. -/
theorem witness_RegisterAccess_paths : inService.pathWay .i3c 0 64 = 4 ∧ inService.pathWay .i3c 0 65 = 1 ∧
    (inService.modSec fun x => { x with jtagOpen := true }).pathWay .jtag rPwrCfg 1 = 4 ∧
    (inService.modCell 3 fun x => { x with mode := .restarting }).pathWay .i3c (rCell 3 0x80) 1 = 2 := by decide +kernel

theorem witness_SecurityControlWrites : (inService.modSec fun x => { x with jtagOpen := true }).pathWay .jtag rSecCtrl 1 = 4 ∧
    inService.pathWay .i3c rSecCtrl 1 = 4 ∧ rPwrCfg ≠ rSecCtrl := by decide +kernel

/-- A latched unit, a report that waits behind one of another field, a cell that restarts for the first and the third time. -/
theorem witness_SnapshotsReportsRestarts : (0x2003 : BitVec 16).toNat = 0x2003 ∧ rCell 3 0x80 ∈ unitRegs 0x2003 ∧
    inService.power.phase = .running ∧ (inService.setReg (rSnap 1) 0x20030002).power.phase = .running ∧
    (inService.recentRestarts 191).length < 2 ∧
    2 ≤ (State.recentRestarts (inService.modCell 191 fun x => { x with restarts := [0, 0] }) 191).length := by decide +kernel

theorem witness_SnapshotsReportsRestarts_done : ((fallow.modCell 191 fun x => { x with mode := .restarting }).cell 191).mode = .restarting ∧
    (fallow.modCell 191 fun x => { x with mode := .restarting }).codeHolds = true := ⟨rfl, beq_self_eq_true _⟩


/-- DrainWritesRow: its row gives bytes. -/
theorem witness_DrainWritesRow : ∀ u, u = (arrayAt [mdrainW]).heldM 0 (progOf [mdrainW]) mdrainW (.runs false) →
    ((u.cell 0).drainOne (((arrayAt [mdrainW]).cell 0).arr.geo mdrainW) mdrainW false 0).out ≠ [] := by
  intro u hu h
  have hl := congrArg List.length h
  rw [show ((u.cell 0).drainOne (((arrayAt [mdrainW]).cell 0).arr.geo mdrainW) mdrainW false 0).out =
    leBytes (packedBytes (wFmt mdrainW) (((arrayAt [mdrainW]).cell 0).arr.geo mdrainW).n) _ from rfl, leBytes_length] at hl
  revert hl
  decide +kernel

/-- A row and a bank of the greatest L8 codes with the greatest scales, into a tile of block-scaled traffic. -/
def bigPass : Replay := { tile := 0, q := 0, r0 := 0, m := 1, bank := 0, fmt := 6, sparse := false, rows := [List.replicate 128 0x7F], nz := [[]], scales := List.replicate 4 0x7F, taken := 3 }
def bigAt : State := inService.modArr 0 fun a =>
  { a with banks := modAt 0 (fun b => { b with loaded := true, fmt := 6, data := List.replicate 16384 0x7F, scale := List.replicate 512 0x7F }) a.banks
           stat := modAt 0 (fun q => { q with cls := 4, t := 48 }) a.stat }

theorem witness_MultiplyPasses_overflow : bigPass.sparse = false ∧ (((bigAt.cell 0).arr.status (bigPass.geo (bigAt.cell 0).arr.quarter) 0).cls = 4) ∧
    ((bigAt.cell 0).arr.status (bigPass.geo (bigAt.cell 0).arr.quarter) 0).t + 16 ≤ 64 ∧ bigPass.taken < 4 ∧
    ((passFeet (bigAt.cell 0).arr (bigPass.geo (bigAt.cell 0).arr.quarter) bigPass
      (slabPass bigPass.fmt (bigPass.geo (bigAt.cell 0).arr.quarter).blocks [] bigAt.free)).any fun l => l.any (·.ovf)) = true := by decide +kernel

end Sys2Proof.Machine.Tests
end

/-! PROOF. What a plain write does to a register (R9): the bits of `setFld`, the fields of the register tables, and RegisterWriteRules. -/

namespace Sys2Proof.Machine

/-! ## The bits of a field and of a word with a field replaced -/

theorem testBit_fld {n : Nat} (v : BitVec n) (hi lo j : Nat) :
    (fld v hi lo).testBit j = (decide (j < hi + 1 - lo) && v.getLsbD (lo + j)) := by
  simp [fld, natBits, Nat.testBit_mod_two_pow, Nat.testBit_div_two_pow, BitVec.testBit_toNat, Nat.add_comm]

/-- Two words with the same bits `[hi : lo]` hold the same field there. -/
theorem fld_congr {n : Nat} {u v : BitVec n} {hi lo : Nat} (h : ∀ i, lo ≤ i → i ≤ hi → u.getLsbD i = v.getLsbD i) :
    fld u hi lo = fld v hi lo := by
  refine Nat.eq_of_testBit_eq fun j => ?_
  rw [testBit_fld, testBit_fld]
  by_cases hj : j < hi + 1 - lo
  · rw [h (lo + j) (by omega) (by omega)]
  · simp [hj]

/-- The number under `setFld`, cut at the field's ends: the bits above, the new field, the bits below. -/
theorem setFld_number (m hi lo y : Nat) (h : lo ≤ hi) :
    m - natBits m hi lo * 2 ^ lo + y * 2 ^ lo = 2 ^ lo * (2 ^ (hi + 1 - lo) * (m / 2 ^ (hi + 1)) + y) + m % 2 ^ lo := by
  have hsplit : m / 2 ^ (hi + 1) = m / 2 ^ lo / 2 ^ (hi + 1 - lo) := by
    rw [Nat.div_div_eq_div_mul, ← Nat.pow_add]
    congr 2
    omega
  have hlow := Nat.div_add_mod m (2 ^ lo)
  have hmid := Nat.div_add_mod (m / 2 ^ lo) (2 ^ (hi + 1 - lo))
  rw [hsplit, natBits]
  generalize m / 2 ^ lo / 2 ^ (hi + 1 - lo) = a at *
  generalize m / 2 ^ lo % 2 ^ (hi + 1 - lo) = b at *
  rw [← hmid] at hlow
  have hm : m = b * 2 ^ lo + (2 ^ lo * (2 ^ (hi + 1 - lo) * a) + m % 2 ^ lo) := by
    linarith
  rw [Nat.sub_eq_of_eq_add' hm]
  ring

/-- `setFld` replaces the bits of its field and no other. -/
theorem getLsbD_setFld {n : Nat} (v : BitVec n) {hi lo : Nat} (x i : Nat) (h : lo ≤ hi) (hi' : i < n) :
    (setFld v hi lo x).getLsbD i = if lo ≤ i ∧ i ≤ hi then x.testBit (i - lo) else v.getLsbD i := by
  have hy : x % 2 ^ (hi + 1 - lo) < 2 ^ (hi + 1 - lo) := Nat.mod_lt _ (Nat.two_pow_pos _)
  rw [setFld, BitVec.getLsbD_ofNat, setFld_number _ _ _ _ h, Nat.testBit_two_pow_mul_add _ (Nat.mod_lt _ (Nat.two_pow_pos _)),
    Nat.testBit_two_pow_mul_add _ hy, Nat.testBit_div_two_pow, Nat.testBit_mod_two_pow, Nat.testBit_mod_two_pow]
  by_cases hbelow : i < lo
  · simp [hbelow, hi', BitVec.testBit_toNat, show ¬lo ≤ i by omega]
  by_cases hin : i ≤ hi
  · simp [hbelow, hi', hin, show lo ≤ i by omega, show i - lo < hi + 1 - lo by omega]
  · have hpos : i - lo - (hi + 1 - lo) + (hi + 1) = i := by omega
    simp [hbelow, hi', hin, show ¬i - lo < hi + 1 - lo by omega, hpos, BitVec.testBit_toNat]

/-- A field read back after it was replaced, by a value that fits it. -/
theorem fld_setFld_same {n : Nat} (v : BitVec n) {hi lo x : Nat} (h : lo ≤ hi) (hn : hi < n) (hx : x < 2 ^ (hi + 1 - lo)) :
    fld (setFld v hi lo x) hi lo = x := by
  refine Nat.eq_of_testBit_eq fun j => ?_
  rw [testBit_fld]
  by_cases hj : j < hi + 1 - lo
  · rw [getLsbD_setFld v x _ h (by omega)]
    simp [hj, show lo + j ≤ hi by omega]
  · have hbig : x < 2 ^ j := Nat.lt_of_lt_of_le hx (Nat.pow_le_pow_right (by decide) (by omega))
    simp [hj, Nat.testBit_lt_two_pow hbig]

/-! ## The fields of a register -/

/-- A field lies in a register, and its range lies in its width. -/
abbrev Fld.Fits (f : Fld) : Prop := 0 < f.w ∧ f.lo + f.w ≤ 32 ∧ f.min < 2 ^ f.w ∧ f.max < 2 ^ f.w

/-- Two fields share no bit. -/
abbrev Fld.Apart (f g : Fld) : Prop := f.lo + f.w ≤ g.lo ∨ g.lo + g.w ≤ f.lo

/-- Fields that can stand in one register. -/
abbrev FldsFit (l : List Fld) : Prop := (∀ f ∈ l, f.Fits) ∧ l.Pairwise Fld.Apart

theorem cellFlds_fit (o : Nat) : FldsFit (cellFlds o) := by
  unfold cellFlds
  repeat' split
  all_goals decide

theorem lndFlds_fit (o : Nat) : FldsFit (lndFlds o) := by
  unfold lndFlds
  split <;> decide

theorem plcFlds_fit (o : Nat) : FldsFit (plcFlds o) := by
  unfold plcFlds
  split <;> decide

theorem ethFlds_fit (o : Nat) : FldsFit (ethFlds o) := by
  unfold ethFlds
  split <;> decide

theorem fabFlds_fit (o : Nat) : FldsFit (fabFlds o) := by
  unfold fabFlds
  repeat' split
  all_goals decide

theorem pwrFlds_fit (o : Nat) : FldsFit (pwrFlds o) := by
  unfold pwrFlds
  repeat' split
  all_goals decide

/-- The RW fields of every register lie in it and share no bit. -/
theorem regFlds_fit (a : Nat) : FldsFit (regFlds a) := by
  unfold regFlds
  split
  · decide
  · split
    case h_1 => exact pwrFlds_fit _
    case h_2 => split <;> decide
    case h_3 => split <;> decide
    case h_4 => exact plcFlds_fit _
    case h_5 => split <;> decide
    case h_6 => exact ethFlds_fit _
    case h_7 => exact fabFlds_fit _
    case h_8 => exact lndFlds_fit _
    case h_9 => exact cellFlds_fit _
    case h_10 => decide

theorem Fld.clamp_lt {f : Fld} (h : f.Fits) (x : Nat) : f.clamp x < 2 ^ f.w := by
  obtain ⟨-, -, hmin, hmax⟩ := h
  exact Nat.max_lt.2 ⟨hmin, Nat.lt_of_le_of_lt (Nat.min_le_left ..) hmax⟩

/-! ## The fields of a register replaced one after the other -/

/-- Each field of `l` replaced by its value under `x`. -/
def setFlds (x : Fld → Nat) (l : List Fld) (c : W32) : W32 := l.foldl (fun acc f => setFld acc (f.lo + f.w - 1) f.lo (x f)) c

theorem setFlds_cons (x : Fld → Nat) (f : Fld) (l : List Fld) (c : W32) :
    setFlds x (f :: l) c = setFlds x l (setFld c (f.lo + f.w - 1) f.lo (x f)) := rfl

/-- A plain write clears the W1C bits written 1, then replaces the RW fields. -/
theorem plainWrite_eq_setFlds (a : Nat) (old v : W32) :
    plainWrite a old v = setFlds (fun f => f.clamp (fld v (f.lo + f.w - 1) f.lo)) (regFlds a) (old &&& ~~~(v &&& BitVec.ofNat 32 (regW1c a))) := rfl

/-- A bit outside every field is kept. -/
theorem getLsbD_setFlds_outside (x : Fld → Nat) (l : List Fld) (c : W32) {i : Nat} (hi : i < 32) (hl : ∀ f ∈ l, f.Fits)
    (hout : ∀ f ∈ l, i < f.lo ∨ f.lo + f.w ≤ i) : (setFlds x l c).getLsbD i = c.getLsbD i := by
  induction l generalizing c with
  | nil => rfl
  | cons f l ih =>
    obtain ⟨⟨hw, -⟩, hl⟩ := List.forall_mem_cons.1 hl
    obtain ⟨hf, hout⟩ := List.forall_mem_cons.1 hout
    rw [setFlds_cons, ih _ hl hout, getLsbD_setFld _ _ _ (by omega) hi, if_neg (by omega)]

/-- Each field ends with its value: no later field touches it. -/
theorem fld_setFlds_of_mem (x : Fld → Nat) (l : List Fld) (c : W32) (hl : FldsFit l) (hx : ∀ f ∈ l, x f < 2 ^ f.w) :
    ∀ f ∈ l, fld (setFlds x l c) (f.lo + f.w - 1) f.lo = x f := by
  induction l generalizing c with
  | nil => simp
  | cons f l ih =>
    obtain ⟨hfits, hapart⟩ := hl
    obtain ⟨⟨hw, h32, -⟩, hfits⟩ := List.forall_mem_cons.1 hfits
    obtain ⟨hf, hapart⟩ := List.pairwise_cons.1 hapart
    obtain ⟨hxf, hx⟩ := List.forall_mem_cons.1 hx
    refine List.forall_mem_cons.2 ⟨?_, ih _ ⟨hfits, hapart⟩ hx⟩
    have hkept : ∀ i, f.lo ≤ i → i ≤ f.lo + f.w - 1 →
        (setFlds x (f :: l) c).getLsbD i = (setFld c (f.lo + f.w - 1) f.lo (x f)).getLsbD i := fun i h1 h2 =>
      getLsbD_setFlds_outside x l _ (by omega) hfits fun g hg => by
        have := hf g hg
        omega
    have hwidth : f.lo + f.w - 1 + 1 - f.lo = f.w := by omega
    rw [fld_congr hkept, fld_setFld_same c (by omega) (by omega) (by rwa [hwidth])]

/-- Settles O59: the RW fields of a register share no bit and hold their ranges (`regFlds_fit`), so each ends with its clamped bits, and a bit
outside them is what the clearing of the W1C bits left. -/
theorem registerWriteRules : Obligations.RegisterWriteRules := by
  unfold Obligations.RegisterWriteRules
  intro a old v
  rw [plainWrite_eq_setFlds]
  have hfit := regFlds_fit a
  constructor
  · exact fld_setFlds_of_mem _ _ _ hfit fun f hf => Fld.clamp_lt (hfit.1 f hf) _
  · intro i hi hout
    rw [getLsbD_setFlds_outside _ _ _ hi hfit.1 hout, BitVec.getLsbD_and, BitVec.getLsbD_not, BitVec.getLsbD_and, BitVec.getLsbD_ofNat,
      Bool.and_comm (v.getLsbD i)]
    simp only [hi, decide_true, Bool.true_and]

end Sys2Proof.Machine

/-! PROOF. What every operation of the model keeps: the canonical form of the data, the queue of commands, and one-time memory. An operation
`State.f` has one lemma `Kept.f`, which follows the text of `State.f`: a chain `s.f.g.h` of operations is kept by the chain `hs.f.g.h` of their
lemmas. -/

namespace Sys2Proof.Machine

/-! ## One-time memory -/

theorem FusesForward.refl (f : FlashSt) : FusesForward f f := ⟨Nat.le_refl _, fun _ h => h, fun _ h => h, rfl, rfl⟩

theorem FusesForward.trans {f g k : FlashSt} (h₁ : FusesForward f g) (h₂ : FusesForward g k) : FusesForward f k where
  arb := h₁.arb.trans h₂.arb
  revoked i h := h₂.revoked i (h₁.revoked i h)
  owner o h := h₂.owner o (h₁.owner o h)
  uid := h₂.uid.trans h₁.uid
  sfdp := h₂.sfdp.trans h₁.sfdp

/-- A change of the boot flash outside the fuses. -/
theorem FusesForward.of_eq {f g : FlashSt} (arb : g.arb = f.arb := by rfl) (revoked : g.revoked = f.revoked := by rfl)
    (owner : g.owner = f.owner := by rfl) (uid : g.uid = f.uid := by rfl) (sfdp : g.sfdp = f.sfdp := by rfl) : FusesForward f g :=
  ⟨Nat.le_of_eq arb.symm, fun _ h => by rw [revoked]; exact h, fun _ h => by rw [owner]; exact h, uid, sfdp⟩

theorem FusesForward.modSlot {f g : FlashSt} {k : Nat} {u : FlashSlot → FlashSlot} (h : FusesForward f g) : FusesForward f (g.modSlot k u) := by
  unfold FlashSt.modSlot
  split
  · exact h.trans .of_eq
  · exact h.trans .of_eq

/-! ## Cells and threads -/

theorem CellSt.Good.reset : CellSt.reset.Good where
  opmem := rfl
  bars := rfl
  regs t ht := by rw [List.eq_of_mem_replicate ht]; rfl

/-- A change outside operand memory, barrier channels and threads. -/
theorem CellSt.Good.of_eq {x y : CellSt} (hx : x.Good) (opmem : y.opmem = x.opmem := by rfl) (bars : y.bars = x.bars := by rfl)
    (threads : y.threads = x.threads := by rfl) : y.Good :=
  ⟨by rw [opmem]; exact hx.opmem, by rw [bars]; exact hx.bars, by rw [threads]; exact hx.regs⟩

/-- A change of one thread slot that leaves the number of its registers. -/
theorem CellSt.Good.of_modAt {x y : CellSt} (hx : x.Good) {k : Nat} {f : Thread → Thread} (threads : y.threads = modAt k f x.threads := by rfl)
    (hf : ∀ t, (f t).regs.length = t.regs.length := by intro; rfl) (opmem : y.opmem = x.opmem := by rfl)
    (bars : y.bars = x.bars := by rfl) : y.Good where
  opmem := by rw [opmem]; exact hx.opmem
  bars := by rw [bars]; exact hx.bars
  regs := by
    rw [threads]
    exact modAt_all _ _ _ _ hx.regs fun t ht => (hf t).trans ht

theorem CellSt.Good.ite {x y : CellSt} {c : Prop} [Decidable c] (hx : x.Good) (hy : y.Good) : (if c then x else y).Good := by
  split
  · exact hx
  · exact hy

theorem CellSt.Good.foldl {α : Type} {f : CellSt → α → CellSt} {l : List α} {x : CellSt} (hx : x.Good)
    (hf : ∀ {x : CellSt} {a : α}, x.Good → (f x a).Good) : (l.foldl f x).Good := by
  induction l generalizing x with
  | nil => exact hx
  | cons a l ih => exact ih (hf hx)

theorem State.Good.cell {s : State} (h : s.Good) (c : Nat) : (s.cell c).Good := by
  rw [State.cell, List.getD_eq_getElem?_getD]
  cases hc : s.cells[c]? with
  | none => exact CellSt.Good.reset
  | some x => exact h.cells x (List.mem_of_getElem? hc)

/-! ## The relation and its rules -/

/-- What a step from `s` to `t` keeps: canonical data stay canonical, the commands that wait wait still, and one-time memory only goes
forward. -/
structure Kept (s t : State) : Prop where
  good : s.Good → t.Good
  queue : t.pending = s.pending
  fuses : FusesForward s.flash t.flash

theorem Kept.refl (s : State) : Kept s s := ⟨fun h => h, rfl, .refl _⟩

variable {s₀ s t : State}

/-- One more step, by what it does to the data, the queue and one-time memory. -/
theorem Kept.step (hs : Kept s₀ s) (good : s.Good → t.Good) (queue : t.pending = s.pending := by rfl)
    (fuses : FusesForward s.flash t.flash := by exact .refl _) : Kept s₀ t :=
  ⟨fun h => good (hs.good h), queue.trans hs.queue, hs.fuses.trans fuses⟩

/-- A change of other parts of the state. -/
theorem Kept.of_eq (hs : Kept s₀ s) (mem : t.mem = s.mem := by rfl) (regs : t.regs = s.regs := by rfl) (cnts : t.cnts = s.cnts := by rfl)
    (cells : t.cells = s.cells := by rfl) (tick : t.tickPeriod = s.tickPeriod := by rfl) (queue : t.pending = s.pending := by rfl)
    (flash : t.flash = s.flash := by rfl) : Kept s₀ t :=
  hs.step (fun h => ⟨mem ▸ h.mem, regs ▸ h.regs, cnts ▸ h.cnts, cells ▸ h.cells, tick ▸ h.tick⟩) queue (flash ▸ .refl _)

/-- A change of every cell, by itself. -/
theorem Kept.of_cells (hs : Kept s₀ s) {f : CellSt → CellSt} (cells : t.cells = s.cells.map f)
    (hf : ∀ {x : CellSt}, x.Good → (f x).Good) (mem : t.mem = s.mem := by rfl) (regs : t.regs = s.regs := by rfl)
    (cnts : t.cnts = s.cnts := by rfl) (tick : t.tickPeriod = s.tickPeriod := by rfl) (queue : t.pending = s.pending := by rfl)
    (flash : t.flash = s.flash := by rfl) : Kept s₀ t := by
  refine hs.step (fun h => ⟨mem ▸ h.mem, regs ▸ h.regs, cnts ▸ h.cnts, ?_, tick ▸ h.tick⟩) queue (flash ▸ .refl _)
  rw [cells]
  exact List.forall_mem_map.2 fun x hx => hf (h.cells x hx)

theorem Kept.ite {u : State} {c : Prop} [Decidable c] (ht : Kept s₀ t) (hu : Kept s₀ u) : Kept s₀ (if c then t else u) := by
  split
  · exact ht
  · exact hu

theorem Kept.foldl {α : Type} {f : State → α → State} {l : List α} (hs : Kept s₀ s)
    (hf : ∀ {s : State} {a : α}, Kept s₀ s → Kept s₀ (f s a)) : Kept s₀ (l.foldl f s) := by
  induction l generalizing s with
  | nil => exact hs
  | cons a l ih => exact ih (hf hs)

/-- A state that the text names once and uses more than once. -/
theorem Kept.share {u : State} (ht : Kept s₀ t) (hu : Kept s₀ t → Kept s₀ u) : Kept s₀ u := hu ht

/-- The state of a pair that an operation answers. -/
theorem Kept.mk_snd {α : Type} {a : α} (ht : Kept s₀ t) : Kept s₀ (a, t).2 := ht

theorem Kept.mk_fst {α : Type} {a : α} (ht : Kept s₀ t) : Kept s₀ (t, a).1 := ht

/-- The state that a match has named, of an operation that answers a value with it. -/
theorem Kept.snd_eq {α : Type} {p : α × State} {a : α} (h : Kept s₀ p.2) (he : p = (a, t)) : Kept s₀ t := by
  rw [he] at h
  exact h

theorem Kept.fst_eq {α : Type} {p : State × α} {a : α} (h : Kept s₀ p.1) (he : p = (t, a)) : Kept s₀ t := by
  rw [he] at h
  exact h

/-! ## The parts of the state -/

theorem Kept.setReg {a : Nat} {v : W32} (hs : Kept s₀ s) : Kept s₀ (s.setReg a v) :=
  hs.step fun h => { h with regs := tblSet_wf regReset a v s.regs h.regs }

/-- A change of one cell; one outside operand memory, barrier channels and threads needs no word. -/
theorem Kept.modCell {c : Nat} {f : CellSt → CellSt} (hs : Kept s₀ s)
    (hf : ∀ {x : CellSt}, x.Good → (f x).Good := by exact fun hx => hx.of_eq) : Kept s₀ (s.modCell c f) :=
  hs.step fun h => { h with cells := modAt_all _ _ _ _ h.cells fun _ hx => hf hx }

theorem Kept.setCell {c : Nat} {x : CellSt} (hs : Kept s₀ s) (hx : s.Good → x.Good) : Kept s₀ (s.setCell c x) :=
  hs.step fun h => { h with cells := modAt_all _ _ _ _ h.cells fun _ _ => hx h }

theorem Kept.modThread {c k : Nat} {f : Thread → Thread} (hs : Kept s₀ s) (hf : ∀ t, (f t).regs.length = t.regs.length := by intro; rfl) :
    Kept s₀ (s.modThread c k f) :=
  hs.modCell fun hx => hx.of_modAt rfl hf

theorem Kept.modFlash {f : FlashSt → FlashSt} (hs : Kept s₀ s) (hf : FusesForward s.flash (f s.flash) := by exact .of_eq) :
    Kept s₀ (s.modFlash f) :=
  hs.step (fun h => { h with }) rfl hf

theorem Kept.setBarCell {c n : Nat} {b : BarCell} (hs : Kept s₀ s) : Kept s₀ (s.setBarCell c n b) :=
  hs.modCell fun {x} hx => { hx with bars := tblSet_wf (fun _ => BarCell.reset) n b x.bars hx.bars }

theorem Kept.setBits {a : Nat} {m : W32} (hs : Kept s₀ s) : Kept s₀ (s.setBits a m) := hs.setReg

/-- Memory replaced, with its markers. -/
theorem Kept.setMem {m : List Host.Cell} {p : List (Nat × Bool)} {u : List (Nat × Nat)} (hs : Kept s₀ s) (hm : s.Good → memWf m = true) :
    Kept s₀ { s with mem := m, memPoison := p, memUpset := u } :=
  hs.step fun h => { h with mem := hm h }

theorem Kept.rawCount {k n : Nat} (hs : Kept s₀ s) : Kept s₀ (s.rawCount k n) := by
  unfold State.rawCount
  extract_lets v t
  have ht : Kept s₀ t := hs.step fun h => { h with cnts := tblSet_wf (fun _ => (0 : W64)) k _ s.cnts h.cnts }
  exact .ite ht.setBits ht

end Sys2Proof.Machine

namespace Sys2Proof.Machine

variable {s₀ s : State} {x : CellSt}

-- One theorem at a time: some hundred at once would take a stack each.
set_option Elab.async false

/-! ## The operations of Machine/Regs.lean -/

theorem Thread.orFlags_regs_length (t : Thread) (m : W32) : (t.orFlags m).regs.length = t.regs.length := by
  unfold Thread.orFlags
  split
  · rfl
  · rfl
  · dsimp only
    split <;> rfl
  · rfl

theorem Thread.restart_regs_length (tick : W32) (t : Thread) : (t.restart tick).regs.length = t.regs.length := by
  unfold Thread.restart
  split <;> rfl

theorem Kept.setRegF {a hi lo x : Nat} (hs : Kept s₀ s) : Kept s₀ (s.setRegF a hi lo x) := hs.setReg

theorem Kept.errBump {a : Nat} (hs : Kept s₀ s) : Kept s₀ (s.errBump a) := hs.setReg

theorem Kept.maxReg {a x : Nat} (hs : Kept s₀ s) : Kept s₀ (s.maxReg a x) := hs.setReg

theorem Kept.modLanding {l : Nat} {f : Landing → Landing} (hs : Kept s₀ s) : Kept s₀ (s.modLanding l f) :=
  hs.of_eq

theorem Kept.modFab {f : FabSt → FabSt} (hs : Kept s₀ s) : Kept s₀ (s.modFab f) := hs.of_eq

theorem Kept.modLink {l : Nat} {f : Link → Link} (hs : Kept s₀ s) : Kept s₀ (s.modLink l f) := hs.modFab

theorem Kept.modEth {f : EthSt → EthSt} (hs : Kept s₀ s) : Kept s₀ (s.modEth f) := hs.of_eq

theorem Kept.modScaler {f : ScalerSt → ScalerSt} (hs : Kept s₀ s) : Kept s₀ (s.modScaler f) := hs.of_eq

theorem Kept.modPower {f : PowerSt → PowerSt} (hs : Kept s₀ s) : Kept s₀ (s.modPower f) := hs.of_eq

theorem Kept.modSec {f : SecSt → SecSt} (hs : Kept s₀ s) : Kept s₀ (s.modSec f) := hs.of_eq

theorem Kept.setBar {n : Nat} {b : BarChan} (hs : Kept s₀ s) : Kept s₀ (s.setBar n b) := hs.of_eq

/-! ## The operations of Machine/Ops.lean -/

theorem Kept.fresh (hs : Kept s₀ s) : Kept s₀ s.fresh.2 := .mk_snd hs.of_eq

theorem Kept.pushEvent {kind source : Nat} {data : BitVec 160} (hs : Kept s₀ s) : Kept s₀ (s.pushEvent kind source data) :=
  .share (.ite hs.modEth.modEth hs) fun ht => .ite ht.modEth ht.modEth.rawCount

theorem Kept.lookoutReport {r : Report} (hs : Kept s₀ s) : Kept s₀ (s.lookoutReport r) :=
  .ite (.ite hs.of_eq hs.of_eq.pushEvent) hs.pushEvent

theorem Kept.seeClass {cls : Nat} (hs : Kept s₀ s) : Kept s₀ (s.seeClass cls) := .ite hs.of_eq hs

theorem Kept.supReport {f : Nat} {r : Report} (hs : Kept s₀ s) : Kept s₀ (s.supReport f r) := hs.of_eq

theorem Kept.report {r : Report} (hs : Kept s₀ s) : Kept s₀ (s.report r) :=
  .ite hs.supReport (.ite hs.supReport (.ite hs.supReport hs.lookoutReport))

theorem Kept.raise {source kind code cls info : Nat} (hs : Kept s₀ s) : Kept s₀ (s.raise source kind code cls info) := hs.report

theorem Kept.count {k n : Nat} (hs : Kept s₀ s) : Kept s₀ (s.count k n) := .ite hs.rawCount.raise hs.rawCount

theorem Kept.countC {c i n : Nat} (hs : Kept s₀ s) : Kept s₀ (s.countC c i n) := hs.count

theorem CellSt.Good.opWrite {a : Nat} {b : List Byte} (hx : x.Good) : (x.opWrite a b).Good where
  opmem := memWrite_wf b x.opmem a hx.opmem
  bars := hx.bars
  regs := hx.regs

theorem CellSt.Good.opMark {a : Nat} (hx : x.Good) : (x.opMark a).Good := hx.of_eq

theorem CellSt.Good.releaseCore {t : Nat} (hx : x.Good) : (x.releaseCore t).Good := hx.of_eq

theorem CellSt.Good.enter {t : Nat} {st : ThState} (hx : x.Good) : (x.enter t st).Good := hx.of_modAt

theorem CellSt.Good.leave {t : Nat} {st : ThState} (hx : x.Good) : (x.leave t st).Good := hx.releaseCore.enter

theorem CellSt.Good.freeSlot {t : Nat} (hx : x.Good) : (x.freeSlot t).Good := hx.leave.of_modAt

theorem Kept.unpark {c : Nat} (hs : Kept s₀ s) : Kept s₀ (s.unpark c) := hs.modCell fun hx => .ite hx.of_eq hx

theorem Kept.flagThread {c t : Nat} {m : W32} (hs : Kept s₀ s) : Kept s₀ (s.flagThread c t m) :=
  .ite hs (hs.unpark.modThread fun th => th.orFlags_regs_length m)

theorem Kept.flagToken {c t tok : Nat} {m : W32} (hs : Kept s₀ s) : Kept s₀ (s.flagToken c t tok m) := .ite hs.flagThread hs

theorem Kept.endEventWait {c t : Nat} (hs : Kept s₀ s) : Kept s₀ (s.endEventWait c t) := hs.modThread.countC.countC.maxReg

theorem Kept.reportPoison {c info : Nat} (hs : Kept s₀ s) : Kept s₀ (s.reportPoison c info) := hs.seeClass.raise

theorem Kept.threadFault {c t code info : Nat} (hs : Kept s₀ s) : Kept s₀ (s.threadFault c t code info) :=
  .share (hs.modCell fun hx => hx.leave.of_modAt) fun ht => (Kept.ite ht.reportPoison ht).report

/-! ## The operations of Machine/Packet.lean -/

theorem Kept.send {p : Packet} (hs : Kept s₀ s) : Kept s₀ (s.send p) := hs.modFab

theorem Kept.fabEvent {source bit : Nat} (hs : Kept s₀ s) : Kept s₀ (s.fabEvent source bit) := by
  dsimp only [State.fabEvent]
  split
  · exact .ite hs.setBits.seeClass.fresh.raise hs.setBits.seeClass
  · exact .ite hs.setBits.fresh.fresh.raise hs.setBits

theorem Kept.tell {d : Nat} {m : MgmtMsg} (hs : Kept s₀ s) : Kept s₀ (s.tell d m) := hs.modFab

theorem Kept.tellAll {m : MgmtMsg} (hs : Kept s₀ s) : Kept s₀ (s.tellAll m) := hs.foldl fun hs => hs.tell

/-! ## The operations of Machine/Landing.lean -/

theorem Kept.putGranule {la : Nat} {d : BitVec 512} {poison : Bool} (hs : Kept s₀ s) : Kept s₀ (s.putGranule la d poison) :=
  hs.setMem fun h => memWrite_wf _ _ _ h.mem

theorem Kept.countBank {la : Nat} (hs : Kept s₀ s) : Kept s₀ (s.countBank la) := hs.count

theorem Kept.touchPage {la : Nat} (hs : Kept s₀ s) : Kept s₀ (s.touchPage la) := (Kept.ite hs hs.count).modLanding

theorem Kept.touchBank {la : Nat} (hs : Kept s₀ s) : Kept s₀ (s.touchBank la) := hs.countBank.touchPage

theorem Kept.plcEvent {bit info : Nat} (hs : Kept s₀ s) : Kept s₀ (s.plcEvent bit info) := .ite hs.setBits.raise hs.setBits

theorem Kept.queueRetire {h p : Nat} (hs : Kept s₀ s) : Kept s₀ (s.queueRetire h p) := hs.modScaler

theorem Kept.endMove {m : MoveReq} (hs : Kept s₀ s) : Kept s₀ (s.endMove m) :=
  .share (.ite hs.modScaler.modScaler.count hs.modScaler) fun ht => (Kept.ite (.ite ht.modLanding ht) (.ite ht.modLanding ht)).of_eq

theorem Kept.abandonMove {m : MoveReq} (hs : Kept s₀ s) : Kept s₀ (s.abandonMove m) := hs.endMove.foldl fun hs => hs.tell

theorem Kept.queueReplica {h p : Nat} {e : MapEntry} {t : Nat × Nat × Nat} (hs : Kept s₀ s) : Kept s₀ (s.queueReplica h p e t) := by
  unfold State.queueReplica
  exact hs.modScaler

theorem Kept.requeueMove {m : MoveReq} (hs : Kept s₀ s) : Kept s₀ (s.requeueMove m) := by
  unfold State.requeueMove
  exact hs.modScaler

theorem Kept.markRetired {l : Nat} {p : Nat → Bool} (hs : Kept s₀ s) : Kept s₀ (s.markRetired l p) := by
  unfold State.markRetired
  extract_lets hit keys copies t u recs v
  have hu : Kept s₀ u := (hs.foldl fun hs => hs.queueRetire).foldl fun hs => hs.queueReplica
  have hv : Kept s₀ v := hu.foldl fun hs => by
    split
    · exact .ite hs hs.tell
    · exact hs
  exact hv.foldl fun hs => .ite hs.abandonMove.requeueMove hs.abandonMove.tell

theorem Kept.failLanding {l : Nat} {pc : Option Nat} (hs : Kept s₀ s) : Kept s₀ (s.failLanding l pc) :=
  .ite hs.modLanding hs.modLanding.setBits.seeClass.raise.markRetired

theorem Kept.retireFrame {l f : Nat} (hs : Kept s₀ s) : Kept s₀ (s.retireFrame l f) :=
  .ite hs (.share hs.modLanding.modFlash.errBump.setBits.seeClass fun ht => .ite ht.raise.markRetired.failLanding ht.raise.markRetired)

theorem Kept.correctedError {la : Nat} (hs : Kept s₀ s) : Kept s₀ (s.correctedError la) :=
  .share hs.of_eq.errBump.setBits.seeClass fun ht => .share (Kept.ite ht.raise ht).modLanding fun hu => .ite hu.retireFrame hu

theorem Kept.uncorrectable {la : Nat} (hs : Kept s₀ s) : Kept s₀ (s.uncorrectable la) :=
  hs.of_eq.setReg.setReg.errBump.setBits.seeClass.raise.retireFrame

theorem Kept.undetected {la : Nat} (hs : Kept s₀ s) : Kept s₀ (s.undetected la) := by
  unfold State.undetected
  extract_lets d t
  have ht : Kept s₀ t := hs.putGranule
  clear_value t
  exact ht.of_eq

theorem Kept.checkGranule {la : Nat} (hs : Kept s₀ s) : Kept s₀ (s.checkGranule la) := by
  unfold State.checkGranule
  split
  · exact hs
  · split
    · exact hs
    · exact hs.correctedError
    · exact hs.uncorrectable
    · exact .ite hs.fresh.uncorrectable hs.fresh.undetected

theorem Kept.addFlush {la : Nat} (hs : Kept s₀ s) : Kept s₀ (s.addFlush la) := .ite hs.modLanding.count hs

theorem Kept.addFlushAll (hs : Kept s₀ s) : Kept s₀ s.addFlushAll := hs.foldl fun hs => hs.addFlush

theorem Kept.readGranule {la : Nat} (hs : Kept s₀ s) : Kept s₀ (s.readGranule la).2 := .mk_snd hs.addFlush.checkGranule.count

theorem Kept.writeGranule {la : Nat} {d : BitVec 512} {en : BitVec 64} {poison : Bool} (hs : Kept s₀ s) : Kept s₀ (s.writeGranule la d en poison) :=
  (Kept.ite hs.addFlush hs.addFlush.checkGranule).putGranule.count

theorem Kept.addKeep {la : Nat} (hs : Kept s₀ s) : Kept s₀ (s.addKeep la) := by
  dsimp only [State.addKeep]
  split
  · exact .ite hs.modLanding.addFlush hs.modLanding
  · exact hs.modLanding

theorem Kept.addGranule {la : Nat} {int : Bool} {d : BitVec 512} {en : BitVec 64} {poison : Bool} (hs : Kept s₀ s) :
    Kept s₀ (s.addGranule la int d en poison) :=
  
  .share (.ite hs hs.touchPage.checkGranule.count) fun ht => .ite ht.count (.ite ht.putGranule.addKeep ht.putGranule.addKeep.count.count.count)

theorem Kept.releaseFrame {l f : Nat} (hs : Kept s₀ s) : Kept s₀ (s.releaseFrame l f) := hs.modLanding

theorem Kept.zeroFrame {l f : Nat} (hs : Kept s₀ s) : Kept s₀ (s.zeroFrame l f) :=
  hs.step fun h => { h with mem := filter_memWf _ _ h.mem }

theorem Kept.modReq {id : Nat} {f : Req → Req} (hs : Kept s₀ s) : Kept s₀ (s.modReq id f) := hs.of_eq

theorem Kept.dropReq {id : Nat} (hs : Kept s₀ s) : Kept s₀ (s.dropReq id) := hs.of_eq

theorem Kept.answer {r : Req} {a : Answer} (hs : Kept s₀ s) : Kept s₀ (s.answer r a) := by
  dsimp only [State.answer]
  split
  · exact hs.dropReq
  · split
    · split <;> exact (Kept.ite hs.dropReq.addFlush hs.dropReq).send
    · exact hs.modReq

theorem Kept.markWritten {l f off : Nat} (hs : Kept s₀ s) : Kept s₀ (s.markWritten l f off) := hs.modScaler

theorem Kept.apply {r : Req} (hs : Kept s₀ s) : Kept s₀ (s.apply r) := by
  unfold State.apply
  extract_lets t
  have ht : Kept s₀ t := hs.countBank.modLanding
  split
  · exact ht.modScaler.touchPage.writeGranule.markWritten.answer
  · exact ht.modScaler.addGranule.markWritten.answer
  · split
    · rename_i he
      exact (ht.modScaler.touchPage.readGranule.snd_eq he).answer

theorem Kept.hold {r : Req} {st : Stage} (hs : Kept s₀ s) : Kept s₀ (s.hold r st) := hs.modReq.count

theorem Kept.refuse {r : Req} (hs : Kept s₀ s) : Kept s₀ (s.refuse r) := by
  unfold State.refuse
  split
  · exact hs.answer
  · exact .ite hs.answer hs.answer

theorem Kept.serve {r : Req} (hs : Kept s₀ s) : Kept s₀ (s.serve r) := by
  unfold State.serve
  split
  · split
    · split
      · exact .ite hs.hold hs.apply
      · exact .ite hs.hold hs.apply
      · exact hs.apply
    · exact hs.answer
  · split
    · exact .ite hs.hold hs.refuse
    · exact hs.refuse

theorem Kept.arriveAt {r : Req} (hs : Kept s₀ s) : Kept s₀ (s.arriveAt r) := hs.of_eq.modLanding

/-! ## The operations of Machine/Space.lean -/

theorem CellSt.Good.ptcPut {set way : Nat} {e : Option PtcEntry} (hx : x.Good) : (x.ptcPut set way e).Good := hx.of_eq

theorem CellSt.Good.ptcTouch {set way : Nat} (hx : x.Good) : (x.ptcTouch set way).Good := by
  dsimp only [CellSt.ptcTouch]
  refine hx.foldl fun hx => ?_
  split
  · exact hx.ptcPut
  · exact hx

theorem CellSt.Good.ptcInstall {e : PtcEntry} (hx : x.Good) : (x.ptcInstall e).Good := hx.ptcPut.ptcTouch

theorem CellSt.Good.ptcDrop {h p : Nat} (hx : x.Good) : (x.ptcDrop h p).Good := by
  unfold CellSt.ptcDrop
  split
  · exact hx.ptcPut
  · exact hx

theorem CellSt.Good.ptcSweep {h : Nat} (hx : x.Good) : (x.ptcSweep h).Good := hx.of_eq

theorem Kept.sweepHandle {h : Nat} (hs : Kept s₀ s) : Kept s₀ (s.sweepHandle h) := hs.of_cells rfl fun hx => hx.ptcSweep

theorem Kept.setMap {h p : Nat} {e : Option MapEntry} (hs : Kept s₀ s) : Kept s₀ (s.setMap h p e) := hs.modScaler

theorem Kept.noRoute {d : Nat} (hs : Kept s₀ s) : Kept s₀ (s.noRoute d) := .ite hs.count.fabEvent hs

theorem Kept.startWalk {c : Nat} {d : Desc} {p : Nat} (hs : Kept s₀ s) : Kept s₀ (s.startWalk c d p) :=
  .ite hs (.share (.ite hs.of_eq.countC.countC hs.of_eq) fun ht => .ite ht (.ite ht.send ht.noRoute))

theorem Kept.ptcInstall {c h p : Nat} {e : MapEntry} (hs : Kept s₀ s) : Kept s₀ (s.ptcInstall c h p e) := by
  unfold State.ptcInstall
  split
  · exact hs
  · exact hs.modCell fun hx => hx.ptcInstall

theorem Kept.lookup {c : Nat} {d : Desc} {p : Nat} (hs : Kept s₀ s) : Kept s₀ (s.lookup c d p).2 := by
  dsimp only [State.lookup]
  split
  · split
    · exact .mk_snd (hs.setCell fun h => (h.cell _).ptcTouch).countC
    · exact .mk_snd hs
  · exact .mk_snd hs.startWalk

/-! ## The operations of Machine/Cache.lean -/

theorem Kept.putReq {r : Req} (hs : Kept s₀ s) : Kept s₀ (s.putReq r) := hs.of_eq

theorem Kept.newId (hs : Kept s₀ s) : Kept s₀ s.newId.2 := .mk_snd hs.of_eq

theorem Kept.enterWindow {c : Nat} {r : Req} (hs : Kept s₀ s) : Kept s₀ (s.enterWindow c r) := hs.putReq

theorem Kept.letIn {c : Nat} (hs : Kept s₀ s) : Kept s₀ (s.letIn c) := hs.foldl fun hs => .ite hs.modReq hs

theorem Kept.enterWrite {c : Nat} {r : Req} (hs : Kept s₀ s) : Kept s₀ (s.enterWrite c r) := hs.of_eq.enterWindow

theorem Kept.modCc {c : Nat} {f : CacheSt → CacheSt} (hs : Kept s₀ s) : Kept s₀ (s.modCc c f) := hs.modCell

theorem Kept.writeBack {c : Nat} {l : Line} (hs : Kept s₀ s) : Kept s₀ (s.writeBack c l) := by
  dsimp only [State.writeBack]
  split
  · exact hs
  · exact hs.newId.enterWrite

theorem Kept.writeNow {c : Nat} {l : Line} (hs : Kept s₀ s) : Kept s₀ (s.writeNow c l) := by
  dsimp only [State.writeNow]
  split
  · exact hs
  · exact hs.of_eq.touchBank.writeGranule.markWritten

theorem Kept.backsNow {c : Nat} {p : Nat → Bool} (hs : Kept s₀ s) : Kept s₀ (s.backsNow c p) := hs.foldl fun hs => hs.dropReq.writeNow

theorem Kept.checkTag {c set way : Nat} (hs : Kept s₀ s) : Kept s₀ (s.checkTag c set way) := by
  unfold State.checkTag
  split
  · exact hs
  · exact .ite hs (.ite hs.modCc.errBump.seeClass.raise hs.modCc.errBump.seeClass)

theorem Kept.checkSet {c set : Nat} (hs : Kept s₀ s) : Kept s₀ (s.checkSet c set) := hs.foldl fun hs => hs.checkTag

theorem Kept.checkLine {c la : Nat} (hs : Kept s₀ s) : Kept s₀ (s.checkLine c la) := by
  dsimp only [State.checkLine]
  split
  · exact hs.checkSet
  · split
    · exact hs.checkSet.modCc.errBump.seeClass
    · exact .ite hs.checkSet.modCc.errBump.seeClass.raise hs.checkSet.modCc.errBump.seeClass
    · exact hs.checkSet

theorem Kept.evict {c set way : Nat} (hs : Kept s₀ s) : Kept s₀ (s.evict c set way) := by
  dsimp only [State.evict]
  split
  · exact hs
  · split
    · split
      · exact hs.checkLine.writeBack.countC
      · exact hs.checkLine
    · exact hs

theorem Kept.install {c : Nat} {l : Line} (hs : Kept s₀ s) : Kept s₀ (s.install c l) := by
  unfold State.install
  exact hs.checkSet.evict.modCc

theorem Kept.ccLookup {c la : Nat} (hs : Kept s₀ s) : Kept s₀ (s.ccLookup c la).2 := by
  dsimp only [State.ccLookup]
  split
  · split
    · exact .mk_snd hs.checkLine.modCc
    · exact .mk_snd hs.checkLine
  · exact .mk_snd hs.checkLine

theorem Kept.fill {c la : Nat} {d : BitVec 512} {poison wanted : Bool} {noFill : Nat} (hs : Kept s₀ s) :
    Kept s₀ (s.fill c la d poison wanted noFill) :=
  
  .ite hs (.ite hs.countC (.ite hs hs.install.countC))

theorem Kept.takeCopy {c la : Nat} {d : BitVec 512} {en : BitVec 64} {poison : Bool} (hs : Kept s₀ s) :
    Kept s₀ (s.takeCopy c la d en poison).2 := by
  dsimp only [State.takeCopy]
  split
  · exact .mk_snd hs.checkLine
  · split <;> exact .mk_snd hs.checkLine.modCc

theorem Kept.dropCopy {c la : Nat} (hs : Kept s₀ s) : Kept s₀ (s.dropCopy c la) := by
  dsimp only [State.dropCopy]
  split
  · exact hs.checkLine
  · exact (Kept.ite hs.checkLine.writeBack hs.checkLine).modCc

theorem Kept.ccStore {c la : Nat} {d : BitVec 512} {en : BitVec 64} {poison : Bool} {t : State} (hs : Kept s₀ s)
    (he : s.ccStore c la d en poison = some t) :
    Kept s₀ t := by
  unfold State.ccStore at he
  extract_lets u at he
  have hu : Kept s₀ u := hs.checkLine
  split at he
  · cases he
  · split at he
    · rw [← Option.some.inj he]
      exact hu.modCc
    · split at he
      · rw [← Option.some.inj he]
        exact hu.install
      · cases he

theorem Kept.probe {c : Nat} {p : Nat → Bool} (hs : Kept s₀ s) : Kept s₀ (s.probe c p) := hs.foldl fun hs => hs.checkSet

theorem Kept.cleanBy {c : Nat} {p : Nat → Bool} {f : State → Line → State} (hs : Kept s₀ s) (hf : ∀ {t} i, Kept s₀ t → Kept s₀ (f t i)) :
    Kept s₀ (s.cleanBy c p f) := by
  dsimp only [State.cleanBy]
  refine hs.probe.foldl fun hs => ?_
  split
  · exact (hf _ hs.checkLine).modCc
  · exact hs.checkLine

theorem Kept.cleanLines {c : Nat} {p : Nat → Bool} (hs : Kept s₀ s) : Kept s₀ (s.cleanLines c p).2 :=
  .mk_snd (hs.cleanBy fun _ hs => hs.writeBack)

theorem Kept.cleanNow {c : Nat} {p : Nat → Bool} (hs : Kept s₀ s) : Kept s₀ (s.cleanNow c p) := hs.backsNow.cleanBy fun _ hs => hs.writeNow

theorem Kept.dropLines {c : Nat} {p : Nat → Bool} (hs : Kept s₀ s) : Kept s₀ (s.dropLines c p) := hs.probe.modCc

theorem Kept.emptyCache {c : Nat} (hs : Kept s₀ s) : Kept s₀ (s.emptyCache c) := hs.modCc.countC

theorem Kept.flushCache {c : Nat} (hs : Kept s₀ s) : Kept s₀ (s.flushCache c) :=
  ((hs.backsNow.foldl fun hs => hs.errBump).foldl fun hs => (Kept.ite hs.errBump.seeClass hs).writeNow.modCc).emptyCache

theorem Kept.turnOffCache {c : Nat} (hs : Kept s₀ s) : Kept s₀ (s.turnOffCache c) := hs.cleanNow.emptyCache

/-! ## The operations of Machine/Prog.lean -/

theorem CellSt.Good.modChute {k : Nat} {f : Chute → Chute} (hx : x.Good) : (x.modChute k f).Good :=
  .ite hx.of_eq hx.of_eq

theorem CellSt.Good.push {k : Nat} {v : Slot} (hx : x.Good) : (x.push k v).Good := hx.modChute.of_eq

theorem CellSt.Good.take {k n : Nat} (hx : x.Good) : (x.take k n).Good := .ite hx.modChute.of_eq hx.modChute

theorem CellSt.Good.modProg {e : Engine} {f : Prog → Prog} (hx : x.Good) : (x.modProg e f).Good := by
  dsimp only [CellSt.modProg]
  split <;> exact hx.of_eq

theorem Kept.sumFlag {c : Nat} {e : Engine} {b : Nat} (hs : Kept s₀ s) : Kept s₀ (s.sumFlag c e b) := hs.modCell fun hx => hx.modProg

theorem Kept.sumFlagIf {c : Nat} {e : Engine} {b : Nat} {on : Bool} (hs : Kept s₀ s) : Kept s₀ (s.sumFlagIf c e b on) := .ite hs.sumFlag hs

theorem Kept.retire {c : Nat} {e : Engine} (hs : Kept s₀ s) : Kept s₀ (s.retire c e) := by
  dsimp only [State.retire]
  refine hs.modCell fun hx => ?_
  split <;> exact (CellSt.Good.ite hx hx.modProg).of_eq

theorem Kept.engineFault {c : Nat} {e : Engine} {code : Nat} {info : W64} (hs : Kept s₀ s) : Kept s₀ (s.engineFault c e code info) := by
  cases e
  all_goals exact .share (hs.modCell fun hx => hx.modProg.of_eq) fun ht => .ite ht.reportPoison (.ite ht ht.errBump)

theorem Kept.endProg {c : Nat} {e : Engine} (hs : Kept s₀ s) : Kept s₀ (s.endProg c e) := by
  unfold State.endProg
  split
  · exact hs
  · next p _ =>
    refine Kept.flagToken (hs.modCell fun {x} hx => ?_)
    extract_lets y
    have hy : y.Good := hx.opWrite
    clear_value y
    cases e
    · exact hy.of_eq
    · exact hy.of_eq

theorem CellSt.Good.emptyChutes {ich : Byte} {och : BitVec 4} (hx : x.Good) : (x.emptyChutes ich och).Good := hx.of_eq

theorem Kept.dropUnissued {c : Nat} (hs : Kept s₀ s) : Kept s₀ (s.dropUnissued c) := hs.of_eq

theorem Kept.abortPrograms {c : Nat} (hs : Kept s₀ s) : Kept s₀ (s.abortPrograms c) :=
  (hs.modCell fun hx => hx.modProg.modProg.emptyChutes).dropUnissued.endProg.endProg

/-! ## The operations of Machine/AReq.lean -/

theorem Kept.granuleMark {c : Nat} {keys : List Nat} {poison lost : Bool} (hs : Kept s₀ s) : Kept s₀ (s.granuleMark c keys poison lost) :=
  .ite hs.sumFlagIf.countC.sumFlag hs.sumFlagIf

theorem Kept.deliverAs {c : Nat} {keys : List Nat} {d : BitVec 512} {poison lost : Bool} {fault : Option (Nat × W64)} (hs : Kept s₀ s) :
    Kept s₀ (s.deliverAs c keys d poison lost fault) := by
  dsimp only [State.deliverAs]
  split
  · exact hs
  · exact .ite hs.modCell hs.modCell.granuleMark

theorem Kept.deliver {c : Nat} {keys : List Nat} {d : BitVec 512} {poison : Bool} (hs : Kept s₀ s) : Kept s₀ (s.deliver c keys d poison) :=
  hs.deliverAs

theorem Kept.enterLoad {c : Nat} {r : Req} (hs : Kept s₀ s) : Kept s₀ (s.enterLoad c r) := by
  dsimp only [State.enterLoad]
  split
  · exact .ite hs.dropReq.modReq.countC hs.enterWindow
  · exact hs.enterWindow

theorem Kept.dropPref {c : Nat} {r : Req} (hs : Kept s₀ s) : Kept s₀ (s.dropPref c r) := hs.dropReq.countC

theorem Kept.loseAtIssue {c : Nat} {r : Req} (hs : Kept s₀ s) : Kept s₀ (s.loseAtIssue c r) := .ite hs.dropPref.count hs.putReq

theorem Kept.rewalk {c : Nat} {r : Req} (hs : Kept s₀ s) : Kept s₀ (s.rewalk c r) := by
  unfold State.rewalk
  extract_lets t
  have ht : Kept s₀ t := hs.modCell fun hx => hx.ptcDrop
  split
  · exact ht.putReq.startWalk
  · exact ht.putReq

theorem Kept.routeReq {c : Nat} {r : Req} {e : MapEntry} (hs : Kept s₀ s) : Kept s₀ (s.routeReq c r e).1 := by
  dsimp only [State.routeReq]
  split
  · exact .mk_fst hs.dropPref
  · split
    · split
      · exact .mk_fst hs.rewalk
      · exact .mk_fst hs.noRoute.loseAtIssue
    · split
      · split
        · exact .mk_fst (.ite hs.dropReq hs.dropPref)
        · split
          · exact .mk_fst hs.dropReq
          · split
            · exact .mk_fst hs.enterWrite
            · exact .mk_fst hs.enterLoad
      · split
        · exact .mk_fst hs.dropCopy.enterWrite
        · split
          · next he =>
            split at he
            · exact .mk_fst (hs.ccStore he).dropReq
            · cases he
          · exact .mk_fst hs.takeCopy.enterWrite
        · split
          · split
            · exact .mk_fst hs.ccLookup.dropReq
            · exact .mk_fst hs.ccLookup.dropReq.countC.deliver
          · exact .mk_fst hs.ccLookup.enterLoad

theorem Kept.startReq {c : Nat} {d : Desc} {r : Req} (hs : Kept s₀ s) : Kept s₀ (s.startReq c d r).1 := by
  dsimp only [State.startReq]
  split
  · exact .mk_fst hs.newId.deliver
  · split
    · exact .mk_fst hs.newId.countC
    · split
      · next he => exact (hs.newId.lookup.snd_eq he).routeReq
      · next he => exact .mk_fst (hs.newId.lookup.snd_eq he).putReq

theorem Kept.issueReq {c : Nat} {r : Req} (hs : Kept s₀ s) : Kept s₀ (s.issueReq c r) :=
  .ite (Kept.ite hs.countC hs).countC.modCell.arriveAt (.ite (Kept.ite hs.countC hs).noRoute.loseAtIssue
    (Kept.ite hs.countC hs).modCell.countC.putReq.send)

theorem Kept.capHot {c : Nat} {r : Req} (hs : Kept s₀ s) : Kept s₀ (s.capHot c r) := hs.setReg

theorem Kept.noteCap {c : Nat} (hs : Kept s₀ s) : Kept s₀ (s.noteCap c) := .ite hs hs.modCell

theorem Kept.capCycles {c n : Nat} (hs : Kept s₀ s) : Kept s₀ (s.capCycles c n) := by
  unfold State.capCycles
  split
  · exact .ite hs hs.capHot.countC
  · exact hs

theorem Kept.issueUpTo {c n : Nat} (hs : Kept s₀ s) : Kept s₀ (s.issueUpTo c n) := by
  induction n generalizing s with
  | zero => exact hs
  | succ n ih =>
    unfold State.issueUpTo
    split
    · exact ih hs.issueReq
    · exact hs

theorem Kept.issueCycle {c : Nat} (hs : Kept s₀ s) : Kept s₀ (s.issueCycle c) := hs.letIn.noteCap.issueUpTo.letIn.noteCap

theorem Kept.deliverLost {c : Nat} {r : Req} {lost : Bool} (hs : Kept s₀ s) : Kept s₀ (s.deliverLost c r lost) :=
  .ite hs.deliverAs hs

theorem Kept.takeData {c : Nat} {r : Req} {d : BitVec 512} {p : Bool} (hs : Kept s₀ s) : Kept s₀ (s.takeData c r d p) :=
  .share (.ite hs.dropReq.fill hs.dropReq) fun ht => .ite ht.deliver ht

theorem Kept.takeLost {c : Nat} {r : Req} (hs : Kept s₀ s) : Kept s₀ (s.takeLost c r) :=
  .ite hs.dropReq.count.countC (.ite hs.dropReq.count.sumFlagIf hs.dropReq.count.deliverLost)

theorem Kept.takeRedirect {c : Nat} {r : Req} {e : Option MapEntry} (hs : Kept s₀ s) : Kept s₀ (s.takeRedirect c r e).1 := by
  dsimp only [State.takeRedirect]
  split
  · exact .mk_fst hs.count.dropPref
  · split
    · exact .mk_fst hs.count.dropReq
    · split
      · exact .mk_fst hs.count.putReq
      · split
        · exact hs.count.ptcInstall.routeReq
        · exact .mk_fst hs.count.rewalk

theorem Kept.reqFault {c : Nat} {r : Req} {f : ReqFault} (hs : Kept s₀ s) : Kept s₀ (s.reqFault c r f) := by
  unfold State.reqFault
  split
  · exact hs
  · split
    · exact hs
    · split
      · exact .ite hs.deliverAs hs.engineFault
      · exact hs.engineFault

theorem Kept.takeAck {r : Req} {bad : Bool} (hs : Kept s₀ s) : Kept s₀ (s.takeAck r bad) := .ite hs.dropReq.count hs.dropReq

theorem Kept.endWalk {w : Walk} (hs : Kept s₀ s) : Kept s₀ (s.endWalk w) := by
  unfold State.endWalk
  exact hs.of_eq.modFab

theorem Kept.resume {c : Nat} {e : WalkEnd} {l : List Req} (hs : Kept s₀ s) : Kept s₀ (s.resume c e l) := by
  induction l generalizing s with
  | nil => exact hs
  | cons r l ih =>
    unfold State.resume
    split
    · exact ih hs.routeReq.reqFault
    · exact ih hs.loseAtIssue
    · exact ih (.ite hs.dropPref hs.putReq)

/-! ## The operations of Machine/ARun.lean -/

theorem Kept.recordBad {c idx pos : Nat} (hs : Kept s₀ s) : Kept s₀ (s.recordBad c idx pos) := .ite hs hs.setReg.setReg.setReg

theorem Kept.countLenient {c n : Nat} (hs : Kept s₀ s) : Kept s₀ (s.countLenient c n) := .ite hs hs.countC.sumFlag

theorem Kept.countItem {c pos : Nat} {it : Item} (hs : Kept s₀ s) : Kept s₀ (s.countItem c pos it) := by
  unfold State.countItem
  split
  · exact hs.recordBad.countLenient
  · exact hs.countLenient
  · exact hs.countC.sumFlag
  · exact hs

theorem Kept.badIndexFault {c idx pos : Nat} (hs : Kept s₀ s) : Kept s₀ (s.badIndexFault c idx pos) := hs.recordBad.engineFault

theorem CellSt.Good.modOp {f : AOp → AOp} (hx : x.Good) : (x.modOp f).Good := hx.of_eq

theorem Kept.askAll {c : Nat} {p : Prog} {l : List Ask} {went : Bool} (hs : Kept s₀ s) : Kept s₀ (s.askAll c p l went).1 := by
  induction l generalizing s went with
  | nil => exact hs
  | cons a l ih =>
    unfold State.askAll
    split
    · exact hs
    · split
      · exact ih hs
      · split
        · exact hs
        · extract_lets t
          have ht : Kept s₀ t := hs.modCell fun hx => hx.modOp
          split
          · next he =>
            split
            · exact ih (ht.startReq.fst_eq he).reqFault
            · exact ht.startReq.fst_eq he
          · next he => exact ih (ht.startReq.fst_eq he)

theorem CellSt.Good.opWriteP {a : Nat} {v : List (Byte × Bool)} (hx : x.Good) : (x.opWriteP a v).Good :=
  hx.opWrite.foldl fun hx => hx.opMark

theorem CellSt.Good.sendStrm {t : Strm} {done : Nat} (hx : x.Good) : (x.sendStrm t done).1.Good := by
  dsimp only [CellSt.sendStrm]
  split
  · exact hx.foldl fun hs => hs.push
  · exact hx.opWriteP

theorem Kept.sendAll {c : Nat} {l : List Strm} {went : Bool} (hs : Kept s₀ s) : Kept s₀ (s.sendAll c l went).1 := by
  induction l generalizing s went with
  | nil => exact hs
  | cons r l ih =>
    unfold State.sendAll
    split
    · exact hs
    · exact ih (hs.setCell fun h => (h.cell c).sendStrm.modOp)

theorem Kept.settleAhead {c : Nat} {asks : List Ask} (hs : Kept s₀ s) : Kept s₀ (s.settleAhead c asks).1 := by
  dsimp only [State.settleAhead]
  split
  · exact .mk_fst hs
  · split
    · exact .mk_fst hs
    · exact .mk_fst ((hs.modCell fun hx => hx.modOp).foldl fun hs => hs.granuleMark)

theorem Kept.readRound {c : Nat} {p : Prog} {pl : Plan} (hs : Kept s₀ s) : Kept s₀ (s.readRound c p pl).1 := by
  unfold State.readRound
  split
  · next he => exact .mk_fst (hs.settleAhead.fst_eq he)
  · next he =>
    extract_lets t u v
    have ht : Kept s₀ t := (hs.settleAhead.fst_eq he).foldl fun hs => hs.countItem
    have hv : Kept s₀ v := (Kept.ite ht ht.countC.sumFlag).modCell fun hx => hx.modOp
    clear_value v
    split
    · exact .mk_fst hv
    · split
      next he =>
        have hsent := hv.sendAll.fst_eq he
        split
        · exact .mk_fst hsent
        · exact .mk_fst hsent
        · split
          next he =>
            have hasked := hsent.askAll.fst_eq he
            split
            · exact .mk_fst hasked
            · split
              · exact .mk_fst hasked
              · split
                · exact .mk_fst hasked
                · extract_lets ahead
                  split
                  · exact .mk_fst hasked
                  · split
                    · exact .mk_fst hasked
                    · exact .mk_fst hasked

/-! ## The operations of Machine/APump.lean -/

theorem Kept.haulCheck {c : Nat} {o : AOp} (hs : Kept s₀ s) : Kept s₀ (s.haulCheck c o).1 := by
  unfold State.haulCheck
  extract_lets q qd cur
  split
  · exact .mk_fst hs
  · split
    · exact .mk_fst hs
    · split
      · exact .mk_fst hs
      · split
        · exact .mk_fst hs
        · extract_lets i0 p0
          split
          · exact .mk_fst hs
          · split
            · next he => exact .mk_fst (hs.lookup.snd_eq he)
            · next he =>
              have ht := hs.lookup.snd_eq he
              split
              · exact .mk_fst ht
              · exact .mk_fst (ht.modCell fun hx => hx.modOp)

theorem Kept.putStep {c : Nat} {p : Prog} {add int : Bool} {st : WStep} (hs : Kept s₀ s) : Kept s₀ (s.putStep c p add int st).1 := by
  unfold State.putStep
  split
  · exact .mk_fst hs
  · exact hs.startReq

theorem Kept.takeFor {c : Nat} {o : AOp} {n : Nat} (hs : Kept s₀ s) : Kept s₀ (s.takeFor c o n).1 := by
  dsimp only [State.takeFor]
  split
  · exact .mk_fst hs
  · exact .mk_fst (hs.modCell fun hx => hx.take.modOp)

theorem Kept.stepUnit {c : Nat} {p : Prog} {o : AOp} {u : WUnit} (hs : Kept s₀ s) : Kept s₀ (s.stepUnit c p o u).1 := by
  unfold State.stepUnit
  extract_lets j t v
  split
  · split
    · exact .mk_fst (hs.countItem.modCell fun hx => hx.modOp)
    · exact .mk_fst hs
  · split
    · exact .mk_fst hs
    · split
      · next he => exact .mk_fst (hs.putStep.fst_eq he)
      · next he => exact .mk_fst ((hs.putStep.fst_eq he).modCell fun hx => hx.modOp)
  · have ht : Kept s₀ t := by
      dsimp only [t]
      split
      · exact hs.countItem
      · exact hs
    exact .mk_fst ((Kept.ite ht.countC.sumFlag ht).modCell fun hx => hx.modOp)

theorem Kept.writeRound {c : Nat} {p : Prog} {o : AOp} (hs : Kept s₀ s) : Kept s₀ (s.writeRound c p o).1 := by
  dsimp only [State.writeRound]
  split
  · exact .mk_fst hs
  · split
    · exact .mk_fst hs
    · split
      · exact .mk_fst hs
      · exact hs.takeFor
      · split
        · rename_i he
          exact .mk_fst (hs.askAll.fst_eq he)
        · rename_i he
          exact .mk_fst (hs.askAll.fst_eq he)
      · exact hs.stepUnit

theorem Kept.prefRound {c : Nat} {p : Prog} {o : AOp} (hs : Kept s₀ s) : Kept s₀ (s.prefRound c p o).1 := by
  -- The round is named as a pair: its first part alone would have the kernel evaluate the list of what is asked.
  generalize hr : s.prefRound c p o = r
  unfold State.prefRound at hr
  extract_lets q cur next at hr
  have hnext {t : State} (ht : Kept s₀ t) : Kept s₀ (next t).1 := .mk_fst (ht.modCell fun hx => hx.modOp)
  clear_value next cur
  split at hr
  · exact hr ▸ .mk_fst hs
  · split at hr
    · exact hr ▸ hnext hs.countC
    · split at hr
      · exact hr ▸ hnext hs.countC
      · extract_lets asks at hr
        clear_value asks
        split at hr
        next he =>
          have ht := hs.askAll.fst_eq he
          split at hr
          · exact hr ▸ .mk_fst ht
          · split at hr
            · exact hr ▸ hnext ht
            · exact hr ▸ .mk_fst ht

theorem Kept.aRound {c : Nat} {p : Prog} {o : AOp} (hs : Kept s₀ s) : Kept s₀ (s.aRound c p o).1 := by
  dsimp only [State.aRound]
  split
  · exact hs.readRound
  · exact hs.readRound
  · exact hs.readRound
  · exact hs.readRound
  · exact hs.readRound
  · exact hs.prefRound
  · split
    · exact .mk_fst hs
    · exact hs.writeRound
  · split
    · rename_i he
      exact .mk_fst (hs.haulCheck.fst_eq he)
    · rename_i he
      exact (hs.haulCheck.fst_eq he).writeRound
  · exact hs.writeRound

theorem Kept.writeARegs {c : Nat} {l : List (Nat × W64)} (hs : Kept s₀ s) : Kept s₀ (s.writeARegs c l) := hs.modCell

theorem Kept.pumpGo {c n : Nat} (hs : Kept s₀ s) : Kept s₀ (State.pumpGo c n s) := by
  induction n generalizing s with
  | zero => exact hs
  | succ n ih =>
    unfold State.pumpGo
    split
    · split
      · next he => exact ih (hs.aRound.fst_eq he)
      · next he => exact (hs.aRound.fst_eq he).modCell
      · next he => exact (hs.aRound.fst_eq he).engineFault
      · next he => exact (hs.aRound.fst_eq he).badIndexFault
      · next he => exact (hs.aRound.fst_eq he).writeARegs.retire
    · exact hs

theorem Kept.pumpA {c : Nat} (hs : Kept s₀ s) : Kept s₀ (s.pumpA c) := hs.pumpGo

/-! ## The operations of Machine/CMaint.lean -/

theorem Kept.modMaint {c : Nat} {f : Maint → Maint} (hs : Kept s₀ s) : Kept s₀ (s.modMaint c f) := hs.modCc

theorem Kept.maintStart {c : Nat} (hs : Kept s₀ s) : Kept s₀ (s.maintStart c) := .ite hs.setBits (.ite hs.modMaint (.ite hs.modMaint hs.modMaint))

theorem Kept.lockLine {c la : Nat} (hs : Kept s₀ s) : Kept s₀ (s.lockLine c la) := by
  unfold State.lockLine
  split
  · exact hs
  · exact .ite hs (.ite hs.countC.setBits hs.modCc)

theorem Kept.maintFetch {c la : Nat} (hs : Kept s₀ s) : Kept s₀ (s.maintFetch c la) := by
  unfold State.maintFetch
  split
  · exact hs
  · exact hs.newId.modMaint.arriveAt

theorem Kept.maintCount {c : Nat} {has : Nat → Bool} (hs : Kept s₀ s) : Kept s₀ (s.maintCount c has) := hs.countC

theorem Kept.maintAwait {c : Nat} {has : Nat → Bool} (hs : Kept s₀ s) : Kept s₀ (s.maintAwait c has) := by
  unfold State.maintAwait
  exact hs.modMaint

theorem Kept.maintClean {c : Nat} {has : Nat → Bool} (hs : Kept s₀ s) : Kept s₀ (s.maintClean c has) := hs.maintCount.cleanLines.maintAwait

theorem Kept.maintInvalidate {c : Nat} {has : Nat → Bool} (hs : Kept s₀ s) : Kept s₀ (s.maintInvalidate c has) := hs.maintCount.countC.dropLines

theorem Kept.maintCleanInv {c : Nat} {has : Nat → Bool} (hs : Kept s₀ s) : Kept s₀ (s.maintCleanInv c has) := hs.maintClean.dropLines

theorem Kept.maintPreload {c : Nat} {las : List Nat} (hs : Kept s₀ s) : Kept s₀ (s.maintPreload c las) :=
  hs.foldl fun hs => .ite hs.checkLine.countC.lockLine hs.checkLine.countC.maintFetch

theorem Kept.maintUnlock {c : Nat} {has : Nat → Bool} (hs : Kept s₀ s) : Kept s₀ (s.maintUnlock c has) := hs.maintCount.modCc

theorem Kept.maintAct {c op : Nat} {has : Nat → Bool} {las : List Nat} (hs : Kept s₀ s) : Kept s₀ (s.maintAct c op has las) := by
  unfold State.maintAct
  split
  · exact hs.maintClean
  · exact hs.maintInvalidate
  · exact hs.maintCleanInv
  · exact hs.maintPreload
  · exact hs.maintUnlock

theorem Kept.maintBegin {c : Nat} (hs : Kept s₀ s) : Kept s₀ (s.maintBegin c) := .ite hs (.ite hs.modMaint (.ite hs.modMaint.maintAwait hs.modMaint))

theorem Kept.maintLook {c : Nat} {d : Desc} {p : Nat} (hs : Kept s₀ s) : Kept s₀ (s.maintLook c d p).2 := by
  unfold State.maintLook
  split
  · exact .mk_snd hs.modMaint
  · split
    · exact .mk_snd hs
    · split
      · rename_i he
        exact .mk_snd (hs.lookup.snd_eq he)
      · rename_i he
        exact .mk_snd (hs.lookup.snd_eq he).modMaint

theorem Kept.maintNext {c : Nat} (hs : Kept s₀ s) : Kept s₀ (s.maintNext c) := hs.modMaint

theorem Kept.maintRetry {c : Nat} {d : Desc} {p : Nat} {e : MapEntry} {l : Nat} (hs : Kept s₀ s) : Kept s₀ (s.maintRetry c d p e l).1 := by
  dsimp only [State.maintRetry]
  split
  · exact .mk_fst hs.count.modMaint.modMaint.maintNext
  · split
    · exact .mk_fst hs.count.modMaint.ptcInstall.modMaint
    · exact .mk_fst (hs.count.modMaint.modCell fun hx => hx.ptcDrop).startWalk.modMaint

theorem Kept.maintPlot {c : Nat} (hs : Kept s₀ s) : Kept s₀ (s.maintPlot c).1 := by
  unfold State.maintPlot
  extract_lets m h i0 fin
  have hfin {t : State} (ht : Kept s₀ t) : Kept s₀ (fin t).1 := .mk_fst ht.modMaint
  split
  · exact hfin hs
  · split
    · exact hfin hs
    · split
      · next he => exact .mk_fst (hs.maintLook.snd_eq he)
      · next he => exact .mk_fst (hs.maintLook.snd_eq he).maintNext
      · next he =>
        have ht := hs.maintLook.snd_eq he
        split
        · exact .mk_fst ht.maintNext
        · split
          · exact .mk_fst ht.maintAct.maintNext
          · exact ht.maintRetry

theorem Kept.maintGo {c n : Nat} (hs : Kept s₀ s) : Kept s₀ (State.maintGo c n s) := by
  induction n generalizing s with
  | zero => exact hs
  | succ n ih =>
    unfold State.maintGo
    split
    · next he => exact ih (hs.maintPlot.fst_eq he)
    · next he => exact hs.maintPlot.fst_eq he

theorem Kept.maintRun {c op : Nat} (hs : Kept s₀ s) : Kept s₀ (s.maintRun c op) :=
  .ite (.ite hs.maintBegin (.ite hs.maintBegin.maintAct.modMaint hs.maintBegin.maintGo)) hs

theorem Kept.maintComplete {c : Nat} (hs : Kept s₀ s) : Kept s₀ (s.maintComplete c) := .ite hs.modMaint hs

theorem Kept.maintData {c : Nat} {r : Req} {d : BitVec 512} {p : Bool} (hs : Kept s₀ s) : Kept s₀ (s.maintData c r d p) :=
  .ite hs.dropReq.countC (Kept.ite hs.dropReq hs.dropReq.install.countC).lockLine

theorem Kept.maintSend {c : Nat} {r : Req} {e : MapEntry} (hs : Kept s₀ s) : Kept s₀ (s.maintSend c r e) := by
  unfold State.maintSend
  split
  · exact hs.arriveAt
  · exact hs.dropReq

theorem Kept.maintRedirect {c : Nat} {r : Req} {e : Option MapEntry} (hs : Kept s₀ s) : Kept s₀ (s.maintRedirect c r e) := by
  dsimp only [State.maintRedirect]
  split
  · exact hs.count.dropReq.modMaint
  · split
    · exact hs.count.dropReq
    · split
      · exact hs.count.ptcInstall.maintSend
      · exact (hs.count.modCell fun hx => hx.ptcDrop).putReq.startWalk

theorem Kept.maintWalked {c h p : Nat} {e : WalkEnd} (hs : Kept s₀ s) : Kept s₀ (s.maintWalked c h p e) := by
  unfold State.maintWalked
  extract_lets entry t m
  have ht : Kept s₀ t := by
    clear_value entry
    refine hs.foldl fun hs => ?_
    cases entry with
    | some m => exact hs.maintSend
    | none => exact .ite hs.dropReq.count hs.dropReq
  exact .ite ht.modMaint ht

theorem Kept.frameAck {c l f : Nat} (hs : Kept s₀ s) : Kept s₀ (s.frameAck c l f) := hs.modScaler.modLanding

theorem Kept.frameBegin {c l f : Nat} (hs : Kept s₀ s) : Kept s₀ (s.frameBegin c l f) := (Kept.ite hs hs.countC.setBits).dropLines.modCell

theorem Kept.frameInvalidate {c l f : Nat} (hs : Kept s₀ s) : Kept s₀ (s.frameInvalidate c l f) :=
  .ite hs (.ite (Kept.ite hs hs.frameBegin).frameAck.modCell (.ite hs hs.frameBegin))

/-! ## The operations of Machine/Access.lean -/

theorem Kept.engineIssue {c : Nat} {e : Engine} {free : Bool} {cls op : Nat} {w : W64} {f : Prog → State} (hs : Kept s₀ s) (hf : ∀ i, Kept s₀ (f i)) :
    Kept s₀ (s.engineIssue c e free cls op w f) := by
  unfold State.engineIssue
  split
  · exact hs
  · split
    · exact hs
    · split
      · exact hs.engineFault
      · split
        · exact hs.engineFault
        · exact .ite (hf _) hs

theorem Kept.aIssue {c op : Nat} {w : W64} {f : Prog → State} (hs : Kept s₀ s) (hf : ∀ i, Kept s₀ (f i)) : Kept s₀ (s.aIssue c op w f) :=
  hs.engineIssue fun _ => hf _

theorem Kept.setA {c i : Nat} {v : W64} (hs : Kept s₀ s) : Kept s₀ (s.setA c i v) := hs.modCell

theorem Kept.setN {c i : Nat} {v : W32} (hs : Kept s₀ s) : Kept s₀ (s.setN c i v) := hs.modCell

theorem Kept.aAdda {c : Nat} {w : W64} (hs : Kept s₀ s) : Kept s₀ (s.aAdda c w) := hs.aIssue fun _ => hs.setA.retire

theorem Kept.aAddan {c : Nat} {w : W64} (hs : Kept s₀ s) : Kept s₀ (s.aAddan c w) := hs.aIssue fun _ => hs.setA.retire

theorem Kept.aSetn {c : Nat} {w : W64} (hs : Kept s₀ s) : Kept s₀ (s.aSetn c w) := hs.aIssue fun _ => hs.setN.retire

theorem Kept.aAddn {c : Nat} {w : W64} (hs : Kept s₀ s) : Kept s₀ (s.aAddn c w) := hs.aIssue fun _ => hs.setN.retire

theorem Kept.openLoop {c : Nat} {e : Engine} {p : Prog} {len n : Nat} (hs : Kept s₀ s) : Kept s₀ (s.openLoop c e p len n) :=
  .ite hs.engineFault (hs.modCell fun hx => hx.of_eq.modProg)

theorem Kept.aLoop {c : Nat} {w : W64} (hs : Kept s₀ s) : Kept s₀ (s.aLoop c w) := hs.aIssue fun _ => hs.openLoop

theorem Kept.aNop {c : Nat} {w : W64} (hs : Kept s₀ s) : Kept s₀ (s.aNop c w) := hs.aIssue fun _ => hs.retire

theorem Kept.aMemory {c op : Nat} {w : W64} (hs : Kept s₀ s) : Kept s₀ (s.aMemory c op w) := by
  dsimp only [State.aMemory]
  refine hs.aIssue fun _ => ?_
  split
  · exact hs.engineFault
  · exact hs.modCell.pumpA

theorem Kept.requestIssue {c : Nat} (hs : Kept s₀ s) : Kept s₀ (s.requestIssue c) := .ite hs.issueCycle.pumpA hs

theorem Kept.granuleDelivery {c id : Nat} (hs : Kept s₀ s) : Kept s₀ (s.granuleDelivery c id) := by
  unfold State.granuleDelivery
  split
  · exact .ite hs.maintData hs.takeData.pumpA
  · exact .ite hs (.ite hs.dropReq (Kept.ite hs.dropPref hs.dropReq.deliverLost).pumpA)
  · exact hs

theorem Kept.redirectReceive {c id : Nat} (hs : Kept s₀ s) : Kept s₀ (s.redirectReceive c id) := by
  unfold State.redirectReceive
  split
  · exact .ite hs.maintRedirect hs.takeRedirect.reqFault.pumpA
  · exact hs

theorem Kept.homeLostReceive {c id : Nat} (hs : Kept s₀ s) : Kept s₀ (s.homeLostReceive c id) := by
  unfold State.homeLostReceive
  split
  · exact .ite hs.dropReq.count hs.takeLost.pumpA
  · exact hs

theorem Kept.requestAck {c id : Nat} (hs : Kept s₀ s) : Kept s₀ (s.requestAck c id) := by
  unfold State.requestAck
  split
  · exact .ite hs.takeAck.pumpA hs
  · exact .ite hs.takeAck.pumpA hs
  · exact hs

theorem Kept.cellWalk {c h p : Nat} (hs : Kept s₀ s) : Kept s₀ (s.cellWalk c h p) := by
  unfold State.cellWalk
  split
  · exact hs
  · split
    · exact hs
    · extract_lets t u waiting
      have ht : Kept s₀ t := hs.endWalk
      have hu : Kept s₀ u := by
        dsimp only [u]
        split
        · exact ht.ptcInstall
        · exact ht
      exact hu.resume.maintWalked.pumpA

theorem Kept.programComplete {c : Nat} {e : Engine} (hs : Kept s₀ s) : Kept s₀ (s.programComplete c e) := by
  unfold State.programComplete
  split
  · exact .ite hs.endProg hs
  · exact hs

theorem CellSt.Good.abortUnits (hx : x.Good) : x.abortUnits.Good := hx.of_eq

theorem Kept.programAbort {c : Nat} (hs : Kept s₀ s) : Kept s₀ (s.programAbort c) :=
  .ite (hs.modCell.abortPrograms.modCell fun hx => hx.abortUnits) hs

theorem Kept.decoupleStall {c : Nat} (hs : Kept s₀ s) : Kept s₀ (s.decoupleStall c) :=
  .ite (Kept.ite (Kept.ite hs.engineFault hs).engineFault (.ite hs.engineFault hs)).modCell.errBump.raise hs

/-! ## The operations of Machine/Barrier.lean -/

theorem Kept.barEvent {source bit code info : Nat} (hs : Kept s₀ s) : Kept s₀ (s.barEvent source bit code info) :=
  .ite hs.setBits.lookoutReport hs.setBits

theorem Kept.barDrop {n : Nat} (hs : Kept s₀ s) : Kept s₀ (s.barDrop n) := hs.count.barEvent

theorem Kept.barSend {l n : Nat} {e : Byte} {brk : Nat} (hs : Kept s₀ s) : Kept s₀ (s.barSend l n e brk) := hs.of_eq

theorem Kept.barUp {n : Nat} (hs : Kept s₀ s) : Kept s₀ (s.barUp n) := .ite (.ite hs.barSend.setBar hs.setBar) hs

theorem Kept.barBreak {n cause : Nat} (hs : Kept s₀ s) : Kept s₀ (s.barBreak n cause) :=
  .ite hs (.ite (hs.setBar.barEvent.foldl fun hs => hs.barSend) hs.setBar.barEvent)

theorem Kept.barCount {c n t flag : Nat} {x : Byte} (hs : Kept s₀ s) : Kept s₀ (s.barCount c n t flag x) :=
  .ite hs.setBarCell.barUp hs.setBarCell

theorem Kept.barCellDone {n c : Nat} (hs : Kept s₀ s) : Kept s₀ (s.barCellDone n c) := (hs.foldl fun hs => hs.flagToken).setBarCell

theorem Kept.barComplete {n : Nat} (hs : Kept s₀ s) : Kept s₀ (s.barComplete n) :=
  .ite (.share (hs.foldl fun hs => hs.barCellDone) fun ht => (Kept.ite (ht.setBar.count.foldl fun hs => hs.barSend) ht.setBar.count).barUp) hs

theorem Kept.barMessage {m : BarMsg} (hs : Kept s₀ s) : Kept s₀ (s.barMessage m) :=
  .ite hs (.ite hs.barDrop (.ite hs.barBreak (.ite hs.barBreak (.ite (.ite hs.setBar.barUp (.ite hs.setBar hs.barDrop))
    (.ite hs.setBar hs.barDrop)))))

theorem Kept.barEnable {n : Nat} (hs : Kept s₀ s) : Kept s₀ (s.barEnable n) := by
  unfold State.barEnable
  split
  · exact hs
  · extract_lets t
    have ht : Kept s₀ t := hs.of_cells rfl fun {x} hx => { hx with bars := tblSet_wf (fun _ => BarCell.reset) n _ x.bars hx.bars }
    exact ht.setBar

theorem Kept.barDisable {n : Nat} (hs : Kept s₀ s) : Kept s₀ (s.barDisable n) := by
  unfold State.barDisable
  extract_lets b k clear t u
  have ht : Kept s₀ t := hs.of_cells rfl fun {x} hx => { hx with bars := tblSet_wf (fun _ => BarCell.reset) n _ x.bars hx.bars }
  have hu : Kept s₀ u := ht.setBar
  exact .ite hs (.ite hu hu.count.barEvent)

theorem Kept.barCellRestart {c : Nat} (hs : Kept s₀ s) : Kept s₀ (s.barCellRestart c) :=
  (hs.foldl fun hs => hs.barBreak).foldl fun hs => hs.setBarCell

/-! ## The operations of Machine/Host.lean -/

theorem Kept.emit {o : NetOut} (hs : Kept s₀ s) : Kept s₀ (s.emit o) := by
  dsimp only [State.emit]
  split
  · exact hs.modEth.modEth.count
  · split
    · exact hs.modEth
    · exact hs.modEth.modEth.count

theorem Kept.transmit {pri : Nat} {o : NetOut} (hs : Kept s₀ s) : Kept s₀ (s.transmit pri o) := .ite hs (.ite hs.modEth hs.emit)

theorem Kept.qctSend {x : Session} {flags qid opc : Nat} {seq ackno : W32} {status : Nat} {tag : W32} {payload : List Byte} (hs : Kept s₀ s) :
    Kept s₀ (s.qctSend x flags qid opc seq ackno status tag payload) :=
  
  hs.transmit

theorem Kept.modQueue {q : Nat} {f : QSt → QSt} (hs : Kept s₀ s) : Kept s₀ (s.modQueue q f) := hs.modEth

theorem Kept.sendCompletion {q : Nat} {c : Completion} {retx : Bool} (hs : Kept s₀ s) : Kept s₀ (s.sendCompletion q c retx) := by
  dsimp only [State.sendCompletion]
  split
  · exact hs
  · exact hs.modQueue.qctSend

theorem Kept.complete {q : Nat} {sess : W32} {cmd : QCmd} {status : Nat} {payload : List Byte} (hs : Kept s₀ s) :
    Kept s₀ (s.complete q sess cmd status payload) := by
  dsimp only [State.complete]
  split
  · exact hs
  · exact .ite hs hs.modQueue.sendCompletion

theorem Kept.modJob {j : Nat} {f : HostWait → HostWait} (hs : Kept s₀ s) : Kept s₀ (s.modJob j f) := hs.modEth

theorem Kept.dropJob {j : Nat} (hs : Kept s₀ s) : Kept s₀ (s.dropJob j) := hs.modEth

theorem Kept.newJob {what : HostJob} {handle stage : Nat} (hs : Kept s₀ s) : Kept s₀ (s.newJob what handle stage).2 := .mk_snd hs.modEth

theorem Kept.completeJob {w : HostWait} {status : Nat} {payload : List Byte} (hs : Kept s₀ s) : Kept s₀ (s.completeJob w status payload) := by
  unfold State.completeJob
  split
  · exact hs.dropJob.complete
  · exact hs.dropJob

theorem Kept.completeOn {opc h status : Nat} (hs : Kept s₀ s) : Kept s₀ (s.completeOn opc h status) := by
  unfold State.completeOn
  split
  · exact hs.completeJob
  · exact hs

theorem Kept.hostRow {q opc : Nat} {payload : List Byte} {f : State → W32 → QCmd → State} (hs : Kept s₀ s)
    (hf : ∀ {t} i j, Kept s₀ t → Kept s₀ (f t i j)) :
    Kept s₀ (s.hostRow q opc payload f) := by
  unfold State.hostRow
  split
  · exact hs
  · exact .ite (hf _ _ hs.modQueue.count) hs

theorem Kept.hostRoute {r : Req} {e : MapEntry} (hs : Kept s₀ s) : Kept s₀ (s.hostRoute r e) := by
  dsimp only [State.hostRoute]
  split
  · split
    · exact .ite hs.arriveAt hs.putReq.send
    · exact .ite hs.putReq.startWalk hs.noRoute.putReq
    · exact hs.noRoute.putReq
  · exact .ite hs.arriveAt hs.putReq.send

theorem Kept.hostTranslate {r : Req} (hs : Kept s₀ s) : Kept s₀ (s.hostTranslate r) := by
  unfold State.hostTranslate
  split
  · exact hs.putReq
  · split
    · split
      · exact hs.hostRoute
      · exact hs.putReq
    · exact .ite hs.putReq hs.putReq.startWalk

theorem Kept.hostAsk {j : Nat} {op : ReqOp} {h i : Nat} {p : Piece} {b : List Byte} (hs : Kept s₀ s) : Kept s₀ (s.hostAsk j op h i p b) :=
  hs.newId.modJob.hostTranslate

theorem Kept.hostAccess {j : Nat} {op : ReqOp} {d : Desc} {b len : Nat} {data : List Byte} (hs : Kept s₀ s) :
    Kept s₀ (s.hostAccess j op d b len data) :=
  
  hs.foldl fun hs => hs.hostAsk

theorem Kept.hostTake {j : Nat} {r : Req} {a : Answer} (hs : Kept s₀ s) : Kept s₀ (s.hostTake j r a) := by
  dsimp only [State.hostTake]
  split
  · exact (Kept.ite hs.modScaler hs).dropReq.modJob
  · exact hs.dropReq.modJob
  · exact hs.count.dropReq.modJob
  · exact hs.count.dropReq.modJob
  · exact .ite hs.count.dropReq.modJob hs.dropReq.modJob
  · split
    · exact hs.count.dropReq.modJob
    · split
      · exact .ite hs.count.hostRoute hs.count.hostTranslate
      · exact hs.count.hostTranslate

theorem Kept.hostTakeAll {n : Nat} (hs : Kept s₀ s) : Kept s₀ (s.hostTakeAll n) := by
  induction n generalizing s with
  | zero => exact hs
  | succ n ih =>
    unfold State.hostTakeAll
    split
    · exact ih hs.hostTake
    · exact hs

theorem Kept.hostWalk {h p : Nat} (hs : Kept s₀ s) : Kept s₀ (s.hostWalk h p) := by
  unfold State.hostWalk
  split
  · exact hs
  · split
    · exact hs
    · extract_lets t waiting u m fill
      have hu : Kept s₀ u := hs.endWalk.foldl fun hs => by
        split
        · exact hs.hostRoute
        · exact hs.putReq
        · exact hs.putReq
      exact hu.modEth

/-! ## The operations of Machine/Objects.lean -/

theorem Kept.setDesc {h : Nat} {d : Option Desc} (hs : Kept s₀ s) : Kept s₀ (s.setDesc h d) := hs.modScaler

theorem Kept.setObjState {h : Nat} {st : ObjState} (hs : Kept s₀ s) : Kept s₀ (s.setObjState h st) := by
  unfold State.setObjState
  split
  · exact hs.setDesc
  · exact hs

theorem Kept.allocGo {h lnd n p rot : Nat} {acc fs : List (Nat × Nat)} {t : State} (hs : Kept s₀ s)
    (he : State.allocGo h lnd n p rot acc s = some (fs, t)) :
    Kept s₀ t := by
  induction n generalizing s p rot acc with
  | zero =>
    cases he
    exact hs
  | succ n ih =>
    unfold State.allocGo at he
    split at he
    · cases he
    · split at he
      · cases he
      · exact ih hs.modLanding he

theorem Kept.alloc {h first n lnd : Nat} {fs : List (Nat × Nat)} {t : State} (hs : Kept s₀ s) (he : s.alloc h first n lnd = some (fs, t)) :
    Kept s₀ t :=
  hs.allocGo he

theorem Kept.mapRun {h dev first : Nat} {fs : List (Nat × Nat)} (hs : Kept s₀ s) : Kept s₀ (s.mapRun h dev first fs) := hs.foldl fun hs => hs.setMap

theorem Kept.modCreate {h : Nat} {f : Creating → Creating} (hs : Kept s₀ s) : Kept s₀ (s.modCreate h f) :=
  hs.modScaler

theorem Kept.answerAsk {asker : Option Nat} {opc h status : Nat} (hs : Kept s₀ s) : Kept s₀ (s.answerAsk asker opc h status) := by
  unfold State.answerAsk
  split
  · exact hs.tell
  · exact hs.completeOn

theorem Kept.endCreate {c : Creating} {status : Nat} (hs : Kept s₀ s) : Kept s₀ (s.endCreate c status) :=
  .ite hs.modScaler hs.modScaler.answerAsk

theorem Kept.dropRuns {c : Creating} (hs : Kept s₀ s) : Kept s₀ (s.dropRuns c) :=
  hs.foldl fun hs => (Kept.ite hs.releaseFrame hs.tell).setMap

theorem Kept.setGroup {g : Nat} {div : List (Nat × Nat)} (hs : Kept s₀ s) : Kept s₀ (s.setGroup g div) := hs.modScaler

theorem Kept.fixGroup {d : Desc} {runs : List (Nat × Nat × Nat)} (hs : Kept s₀ s) : Kept s₀ (s.fixGroup d runs) := .ite hs hs.setGroup.tellAll

theorem Kept.unfixGroup {c : Creating} (hs : Kept s₀ s) : Kept s₀ (s.unfixGroup c) := .ite hs hs.setGroup.tellAll

theorem Kept.failCreate {c : Creating} {status : Nat} (hs : Kept s₀ s) : Kept s₀ (s.failCreate c status) :=
  hs.dropRuns.unfixGroup.setDesc.tellAll.endCreate

theorem Kept.createStep {h : Nat} (hs : Kept s₀ s) : Kept s₀ (s.createStep h) := by
  dsimp only [State.createStep]
  split
  · exact hs
  · split
    · exact hs
    · split
      · split
        · exact hs.failCreate
        · refine hs.modCreate.fixGroup.foldl fun hs => ?_
          split
          · split
            · rename_i he
              exact (hs.alloc he).mapRun
            · exact hs.modCreate
          · exact hs.tell
      · exact .ite hs.modCreate.tellAll (.ite hs.setObjState.tellAll.endCreate hs.failCreate)

theorem Kept.createGo {h : Nat} (hs : Kept s₀ s) : Kept s₀ (s.createGo h) := hs.createStep.createStep.createStep.createStep

theorem Kept.startCreate {d : Desc} {asker wset : Option Nat} {runs : List (Nat × Nat × Nat)} (hs : Kept s₀ s) :
    Kept s₀ (s.startCreate d asker wset runs) :=
  
  .ite hs.endCreate hs.setDesc.modScaler.tellAll.createGo

theorem Kept.createHeard {h dev : Nat} (hs : Kept s₀ s) : Kept s₀ (s.createHeard h dev) := hs.modCreate

theorem Kept.joinCreates {dev : Nat} (hs : Kept s₀ s) : Kept s₀ (s.joinCreates dev) := hs.foldl fun hs => hs.modCreate.tell

theorem Kept.replan {c : Creating} (hs : Kept s₀ s) : Kept s₀ (s.replan c) := hs.dropRuns.modCreate.tellAll.createGo

theorem Kept.onGroupFix {src g : Nat} {div : List (Nat × Nat)} (hs : Kept s₀ s) : Kept s₀ (s.onGroupFix src g div) :=
  .ite hs (.ite hs.setGroup (hs.setGroup.foldl fun hs => .ite hs hs.replan))

theorem Kept.onFreeFrames {src h : Nat} {free : List Nat} (hs : Kept s₀ s) : Kept s₀ (s.onFreeFrames src h free) := by
  dsimp only [State.onFreeFrames]
  split
  · exact .ite hs.modCreate.createHeard.createGo hs
  · exact hs

theorem Kept.onAllocRun {src h first n lnd : Nat} (hs : Kept s₀ s) : Kept s₀ (s.onAllocRun src h first n lnd) := by
  unfold State.onAllocRun
  split
  · rename_i he
    exact (hs.alloc he).tell
  · exact hs.tell

theorem Kept.giveBack {src h first : Nat} {fs : List (Nat × Nat)} (hs : Kept s₀ s) : Kept s₀ (s.giveBack src h first fs) := hs.foldl fun hs => hs.tell

theorem Kept.onAllocDone {src h first : Nat} {fs : List (Nat × Nat)} (hs : Kept s₀ s) : Kept s₀ (s.onAllocDone src h first fs) := by
  dsimp only [State.onAllocDone]
  split
  · exact .ite (Kept.ite hs.modCreate hs.mapRun).createHeard.createGo (.ite hs.mapRun.createHeard.createGo (.ite hs.giveBack hs))
  · exact hs.giveBack

theorem Kept.onDescInstall {src : Nat} {d : Desc} (hs : Kept s₀ s) : Kept s₀ (s.onDescInstall src d) := by
  dsimp only [State.onDescInstall]
  split
  · exact hs.setDesc.tell
  · split
    · split
      · exact hs.failCreate.setDesc.tell
      · exact hs.setDesc.tell
    · exact hs.tell

theorem Kept.onDescAck {src h : Nat} (hs : Kept s₀ s) : Kept s₀ (s.onDescAck src h) := by
  unfold State.onDescAck
  split
  · exact .ite hs.createHeard.createGo hs
  · exact hs

theorem Kept.onDescNack {h : Nat} (hs : Kept s₀ s) : Kept s₀ (s.onDescNack h) := by
  unfold State.onDescNack
  split
  · exact hs.failCreate
  · exact hs

theorem Kept.onDescDrop {h steward : Nat} (hs : Kept s₀ s) : Kept s₀ (s.onDescDrop h steward) := by
  unfold State.onDescDrop
  split
  · exact .ite hs.setDesc hs
  · exact hs

theorem Kept.onFrameRelease {lnd frame h p : Nat} {e : Option MapEntry} (hs : Kept s₀ s) : Kept s₀ (s.onFrameRelease lnd frame h p e) := by
  dsimp only [State.onFrameRelease]
  split
  · split
    · split
      · exact hs.releaseFrame.modLanding
      · exact hs.releaseFrame
    · exact hs
  · exact hs

theorem Kept.freeHere {h : Nat} (hs : Kept s₀ s) : Kept s₀ (s.freeHere h) := by
  unfold State.freeHere
  exact ((hs.setObjState.foldl fun hs => hs.endMove).foldl fun hs => hs.releaseFrame).sweepHandle.modScaler.modEth

theorem Kept.freeStep {h : Nat} (hs : Kept s₀ s) : Kept s₀ (s.freeStep h) := by
  dsimp only [State.freeStep]
  split
  · exact hs
  · exact .ite hs hs.modScaler.tellAll.answerAsk

theorem Kept.startFree {h : Nat} {asker : Option Nat} (hs : Kept s₀ s) : Kept s₀ (s.startFree h asker) := hs.freeHere.modScaler.tellAll.freeStep

theorem Kept.onObjFree {src h : Nat} (hs : Kept s₀ s) : Kept s₀ (s.onObjFree src h) := hs.freeHere.tell

theorem Kept.onFreeAck {src h : Nat} (hs : Kept s₀ s) : Kept s₀ (s.onFreeAck src h) := hs.modScaler.freeStep

theorem Kept.askFree {h : Nat} {asker : Option Nat} (hs : Kept s₀ s) : Kept s₀ (s.askFree h asker) := by
  unfold State.askFree
  split
  · exact .ite hs.answerAsk (.ite hs.startFree hs.tell)
  · exact hs.answerAsk

theorem Kept.sealStep (hs : Kept s₀ s) : Kept s₀ s.sealStep := by
  dsimp only [State.sealStep]
  refine hs.foldl fun hs => ?_
  split
  · exact hs
  · split
    · exact .ite hs.modScaler.setObjState.tellAll.answerAsk hs.modScaler.answerAsk
    · exact hs.modScaler.answerAsk

theorem Kept.askSeal {h : Nat} {asker : Option Nat} (hs : Kept s₀ s) : Kept s₀ (s.askSeal h asker) := by
  unfold State.askSeal
  split
  · exact .ite hs.answerAsk (.ite hs.modScaler.sealStep hs.tell)
  · exact hs.answerAsk

theorem Kept.askHint {h hint : Nat} {asker : Option Nat} (hs : Kept s₀ s) : Kept s₀ (s.askHint h hint asker) := by
  unfold State.askHint
  split
  · exact .ite hs.answerAsk (.ite hs.modScaler.answerAsk (.ite hs.answerAsk hs.tell))
  · exact hs.answerAsk

theorem Kept.onQueryAsk {src h p : Nat} (hs : Kept s₀ s) : Kept s₀ (s.onQueryAsk src h p) := hs.tell

theorem Kept.onQueryDone {h : Nat} {e : Option MapEntry} {ld st ad : Nat} {rs : List (Nat × Nat)} (hs : Kept s₀ s) :
    Kept s₀ (s.onQueryDone h e ld st ad rs) := by
  unfold State.onQueryDone
  split
  · split <;> exact hs.completeJob
  · exact hs

/-! ## The operations of Machine/Moves.lean -/

theorem Kept.modMove {h p : Nat} {f : Move → Move} (hs : Kept s₀ s) : Kept s₀ (s.modMove h p f) := hs.modScaler

theorem Kept.dropMove {h p : Nat} (hs : Kept s₀ s) : Kept s₀ (s.dropMove h p) := hs.modScaler

theorem Kept.putMove {m : MoveReq} (hs : Kept s₀ s) : Kept s₀ (s.putMove m) := hs.dropMove.modScaler

theorem Kept.startSweep {h : Nat} (hs : Kept s₀ s) : Kept s₀ (s.startSweep h) := .ite hs hs.modScaler.sweepHandle.tellAll

theorem Kept.sweepCheck {h p : Nat} (hs : Kept s₀ s) : Kept s₀ (s.sweepCheck h p) := by
  unfold State.sweepCheck
  split
  · exact .ite hs.startSweep hs
  · exact hs

theorem Kept.onSweep {src h : Nat} (hs : Kept s₀ s) : Kept s₀ (s.onSweep src h) := hs.sweepHandle.tell

theorem Kept.onSweepAck {src h : Nat} (hs : Kept s₀ s) : Kept s₀ (s.onSweepAck src h) := hs.modScaler

theorem Kept.noteStall {h : Nat} (hs : Kept s₀ s) : Kept s₀ (s.noteStall h) := .ite hs hs.plcEvent

theorem Kept.installFrame {t : Nat × Nat × Nat} {h p : Nat} {g : BitVec 16} (hs : Kept s₀ s) : Kept s₀ (s.installFrame t h p g) :=
  .ite hs.modLanding hs.tell

theorem Kept.bumpFrames {h p : Nat} {e : MapEntry} (hs : Kept s₀ s) : Kept s₀ (s.bumpFrames h p e) := hs.foldl fun hs => hs.installFrame

theorem Kept.leaveFrame {t : Nat × Nat × Nat} {h p : Nat} (hs : Kept s₀ s) : Kept s₀ (s.leaveFrame t h p) := .ite hs.onFrameRelease hs.tell

theorem Kept.dropReplica {h p : Nat} {t : Nat × Nat × Nat} (hs : Kept s₀ s) : Kept s₀ (s.dropReplica h p t) := by
  dsimp only [State.dropReplica]
  split
  · exact hs
  · exact hs.setMap.bumpFrames.leaveFrame.count.sweepCheck

theorem Kept.copyWhere {m : MoveReq} {q : Nat → Bool} (hs : Kept s₀ s) : Kept s₀ (s.copyWhere m q) :=
  .share ((hs.foldl fun hs => hs.addFlush).foldl fun hs => hs.checkGranule) fun ht => .share (.ite ht.count.count.modScaler ht.count.count)
    fun hu => .ite (hu.foldl fun hs => hs.putGranule).count (hu.foldl fun hs => hs.send).modMove

theorem Kept.beginCopy {m : MoveReq} (hs : Kept s₀ s) : Kept s₀ (s.beginCopy m) := hs.putMove.copyWhere

theorem Kept.beginOrWait {m : MoveReq} (hs : Kept s₀ s) : Kept s₀ (s.beginOrWait m) := .ite hs.beginCopy hs.putMove.modMove

theorem Kept.resumeCopies (hs : Kept s₀ s) : Kept s₀ s.resumeCopies := hs.foldl fun hs => hs.beginOrWait

theorem Kept.reserve {m k : MoveReq} {t : State} (hs : Kept s₀ s) (he : s.reserve m = some (k, t)) : Kept s₀ t := by
  unfold State.reserve at he
  extract_lets named pick at he
  clear_value pick
  cases pick with
  | none => cases he
  | some l =>
    dsimp only at he
    split at he
    · cases he
    · cases he
      exact hs.modLanding

theorem Kept.pinCheck {m : MoveReq} (hs : Kept s₀ s) : Kept s₀ (s.pinCheck m) := by
  unfold State.pinCheck
  split
  · exact .ite hs.plcEvent hs
  · exact hs

theorem Kept.noFrameFor {m : MoveReq} (hs : Kept s₀ s) : Kept s₀ (s.noFrameFor m) := by
  unfold State.noFrameFor
  extract_lets t u
  have ht : Kept s₀ t := hs.dropMove
  have hu : Kept s₀ u := by
    clear_value t
    dsimp only [u]
    split
    · exact .ite ht.setMap ht
    · exact ht
  exact .ite hu.plcEvent hu

theorem Kept.startMove {m : MoveReq} (hs : Kept s₀ s) : Kept s₀ (s.startMove m) := by
  unfold State.startMove
  split
  · extract_lets k t
    have ht : Kept s₀ t := hs.setMap
    clear_value k t
    split
    · exact hs
    · split
      · split
        · exact ht.noFrameFor
        · next he => exact .share (ht.reserve he).putMove.pinCheck fun hu => .ite hu.beginOrWait hu.tell
      · exact ht.putMove.tell
  · exact hs

theorem Kept.startQueued (hs : Kept s₀ s) : Kept s₀ s.startQueued :=
  hs.resumeCopies.foldl fun hs => .ite hs (.ite hs.noteStall hs.modScaler.startMove)

theorem Kept.onMoveAsk {src : Nat} {m : MoveReq} (hs : Kept s₀ s) : Kept s₀ (s.onMoveAsk src m) := by
  dsimp only [State.onMoveAsk]
  split
  · exact hs.tell
  · rename_i he
    exact .share (hs.reserve he).putMove.tell fun ht => .ite ht.beginOrWait (.ite ht ht.tell)

theorem Kept.onMoveGo {m : MoveReq} (hs : Kept s₀ s) : Kept s₀ (s.onMoveGo m) := by
  unfold State.onMoveGo
  extract_lets t
  have ht : Kept s₀ t := .ite hs.putMove.pinCheck hs
  split
  · split
    · exact .ite ht.beginOrWait ht.abandonMove
    · exact ht.abandonMove
  · exact ht

theorem Kept.onMoveAgain {m : MoveReq} (hs : Kept s₀ s) : Kept s₀ (s.onMoveAgain m) := .ite hs.requeueMove.startQueued hs

theorem Kept.overMarked {m : MoveReq} (hs : Kept s₀ s) : Kept s₀ (s.overMarked m) := .ite hs.plcEvent.modScaler hs.plcEvent

theorem Kept.abandonOver {m : MoveReq} (hs : Kept s₀ s) : Kept s₀ (s.abandonOver m) :=
  .share (hs.endMove.foldl fun hs => hs.tell) fun ht => .ite ht.overMarked ht

theorem Kept.onMoveEnd {m : MoveReq} {spent : Bool} (hs : Kept s₀ s) : Kept s₀ (s.onMoveEnd m spent) :=
  .ite hs (.share (.ite hs.noFrameFor hs.endMove) fun ht => (Kept.ite ht.overMarked ht).sealStep.startQueued)

theorem Kept.openWindow {m : Move} (hs : Kept s₀ s) : Kept s₀ (s.openWindow m) := by
  unfold State.openWindow
  split
  extract_lets t u w
  have hu : Kept s₀ u := hs.modMove.foldl fun hs => hs.cleanNow
  clear_value u
  exact hu.copyWhere.modMove

theorem Kept.moveCopyDone {h p : Nat} (hs : Kept s₀ s) : Kept s₀ (s.moveCopyDone h p) := by
  unfold State.moveCopyDone
  split
  · exact hs
  · split
    · exact hs
    · split
      · exact .ite hs.modMove (.ite (.ite hs.modMove.copyWhere hs) (.ite hs.openWindow hs))
      · exact .ite hs.abandonOver.sealStep.startQueued (.ite hs.openWindow hs)
      · exact hs

theorem Kept.flipMap {m : MoveReq} (hs : Kept s₀ s) : Kept s₀ (s.flipMap m) := by
  dsimp only [State.flipMap]
  split
  · exact hs
  · exact .share (.ite hs.setMap.modScaler.bumpFrames (hs.setMap.modScaler.foldl fun hs => hs.installFrame)) fun ht => (Kept.ite ht.count
    (.ite ht.leaveFrame ht)).sweepCheck

theorem Kept.flipTarget {m : MoveReq} (hs : Kept s₀ s) : Kept s₀ (s.flipTarget m) := by
  unfold State.flipTarget
  split
  extract_lets t go
  have ht : Kept s₀ t := hs.modLanding
  exact ht.of_eq

theorem Kept.flipSource {m : MoveReq} (hs : Kept s₀ s) : Kept s₀ (s.flipSource m) := hs.modLanding.foldl fun hs => hs.answer

theorem Kept.onMoveFlip {m : MoveReq} (hs : Kept s₀ s) : Kept s₀ (s.onMoveFlip m) :=
  .share (.ite (Kept.ite hs.flipTarget hs).flipMap (.ite hs.flipTarget hs)) fun ht => .ite ht.dropMove.sealStep.startQueued ht.modMove

theorem Kept.moveFlip {h p : Nat} (hs : Kept s₀ s) : Kept s₀ (s.moveFlip h p) := by
  dsimp only [State.moveFlip]
  split
  · exact hs
  · exact .ite hs (.ite hs.noteStall (.share ((Kept.ite hs.count hs).foldl fun hs => hs.tell).onMoveFlip fun ht => .ite ht ht.flipSource))

theorem Kept.onMoveInv {h p : Nat} (hs : Kept s₀ s) : Kept s₀ (s.onMoveInv h p) := (hs.dropMove.foldl fun hs => hs.serve).sealStep.startQueued

theorem Kept.moveInvalidateDone {h p : Nat} (hs : Kept s₀ s) : Kept s₀ (s.moveInvalidateDone h p) := by
  dsimp only [State.moveInvalidateDone]
  split
  · exact hs
  · exact .ite hs (hs.releaseFrame.modLanding.count.foldl fun hs => hs.tell).onMoveInv

theorem Kept.onRetired {src h p lnd frame : Nat} (hs : Kept s₀ s) : Kept s₀ (s.onRetired src h p lnd frame) := by
  unfold State.onRetired
  split
  · exact .ite hs.queueRetire (.ite hs.queueReplica hs)
  · exact hs

theorem Kept.lossMoves {x : Nat} (hs : Kept s₀ s) : Kept s₀ (s.lossMoves x) := hs.foldl fun hs => hs.abandonMove

theorem Kept.lossPlot {x h p : Nat} {e : MapEntry} (hs : Kept s₀ s) : Kept s₀ (s.lossPlot x h p e) :=
  .ite hs (.ite hs.startSweep.noteStall (Kept.ite hs.setMap.count hs.setMap.count.bumpFrames).sweepCheck)

theorem Kept.lossMaps {x : Nat} (hs : Kept s₀ s) : Kept s₀ (s.lossMaps x) := by
  unfold State.lossMaps
  refine hs.foldl fun hs => ?_
  split
  · exact hs.lossPlot
  · exact hs

theorem Kept.sweepComplete {h : Nat} (hs : Kept s₀ s) : Kept s₀ (s.sweepComplete h) := by
  dsimp only [State.sweepComplete]
  split
  · exact hs
  · exact .ite hs ((hs.modScaler.count.foldl fun hs => hs.sweepCheck).foldl fun hs => hs.lossMaps).startQueued

theorem Kept.lossObjects {x : Nat} (hs : Kept s₀ s) : Kept s₀ (s.lossObjects x) :=
  ((hs.foldl fun hs => hs.freeHere.setDesc).modScaler.foldl fun hs => hs.freeStep).foldl fun hs => hs.createGo

/-! ## The operations of Machine/Interval.lean -/

theorem Kept.coolReplicas (hs : Kept s₀ s) : Kept s₀ s.coolReplicas := by
  dsimp only [State.coolReplicas]
  refine hs.modScaler.foldl fun hs => ?_
  split
  · exact .ite hs.noteStall hs.dropReplica.modScaler
  · exact hs

theorem Kept.onReportAsk {src : Nat} (hs : Kept s₀ s) : Kept s₀ (s.onReportAsk src) := hs.modScaler.tell

theorem Kept.takeReport {src : Nat} {free served failed : List Nat} {ts : List (Nat × Nat × Nat × Nat × Nat × Nat)} (hs : Kept s₀ s) :
    Kept s₀ (s.takeReport src free served failed ts) :=
  
  hs.modScaler

theorem Kept.review (hs : Kept s₀ s) : Kept s₀ s.review := (Kept.ite hs.modScaler hs.modScaler.coolReplicas).modScaler.startQueued

theorem Kept.reviewWhenDue {waited : Bool} (hs : Kept s₀ s) : Kept s₀ (s.reviewWhenDue waited) := .ite hs.review hs

theorem Kept.onReport {src : Nat} {free served failed : List Nat} {ts : List (Nat × Nat × Nat × Nat × Nat × Nat)} (hs : Kept s₀ s) :
    Kept s₀ (s.onReport src free served failed ts) :=
  
  hs.takeReport.reviewWhenDue

theorem Kept.closeInterval (hs : Kept s₀ s) : Kept s₀ s.closeInterval := by
  unfold State.closeInterval
  exact hs.of_eq.modScaler

theorem Kept.placementInterval (hs : Kept s₀ s) : Kept s₀ s.placementInterval :=
  .ite hs (Kept.ite hs hs.review).closeInterval.modScaler.tellAll.reviewWhenDue

/-! ## The operations of Machine/Threads.lean -/

theorem Kept.thFault {th : ThreadRef} {code info : Nat} (hs : Kept s₀ s) : Kept s₀ (s.thFault th code info) := hs.threadFault

theorem Kept.thIssue {th : ThreadRef} {cls op : Nat} {w : W64} {f : State} (hs : Kept s₀ s) (hf : Kept s₀ f) :
    Kept s₀ (s.thIssue th cls op w f) := by
  unfold State.thIssue
  split
  · exact hs
  · split
    · exact hs.thFault
    · split
      · exact hs.thFault
      · split
        · exact hs
        · split
          · exact hs.thFault
          · exact .ite hf hs

theorem Kept.thNext {th : ThreadRef} {f : Thread → Thread} (hs : Kept s₀ s) (hf : ∀ t, (f t).regs.length = t.regs.length := by intro; rfl) :
    Kept s₀ (s.thNext th f) :=
  hs.modThread hf

theorem Kept.thRet {th : ThreadRef} {r : Nat} {v : W64} (hs : Kept s₀ s) : Kept s₀ (s.thRet th r v) :=
  hs.thNext fun t => t.setReg_length r v

theorem Kept.sAlu {th : ThreadRef} {op : Nat} {w : W64} {f : W64 → W64 → W64} (hs : Kept s₀ s) : Kept s₀ (s.sAlu th op w f) :=
  hs.thIssue hs.thRet

theorem Kept.sAluImm {th : ThreadRef} {op : Nat} {w : W64} {f : W64 → W64 → W64} (hs : Kept s₀ s) : Kept s₀ (s.sAluImm th op w f) :=
  hs.thIssue hs.thRet

theorem Kept.sJumpTo {th : ThreadRef} {target : W64} {link : Option Nat} (hs : Kept s₀ s) : Kept s₀ (s.sJumpTo th target link) := by
  refine .ite hs.thFault (hs.modThread fun t => ?_)
  cases link with
  | some r => exact t.setReg_length r _
  | none => rfl

theorem Kept.sBranch {th : ThreadRef} {op : Nat} {w : W64} {c : W64 → W64 → Bool} (hs : Kept s₀ s) : Kept s₀ (s.sBranch th op w c) :=
  hs.thIssue (.ite hs.sJumpTo hs.thNext)

theorem Kept.sJal {th : ThreadRef} {w : W64} (hs : Kept s₀ s) : Kept s₀ (s.sJal th w) := hs.thIssue hs.sJumpTo

theorem Kept.sJalr {th : ThreadRef} {w : W64} (hs : Kept s₀ s) : Kept s₀ (s.sJalr th w) := hs.thIssue hs.sJumpTo

theorem Kept.sLoad {th : ThreadRef} {op : Nat} {w : W64} {ext : Nat → Nat → W64} (hs : Kept s₀ s) : Kept s₀ (s.sLoad th op w ext) := by
  dsimp only [State.sLoad]
  refine hs.thIssue ?_
  split
  · exact hs.thFault
  · split
    · exact hs.thFault
    · exact hs.thRet

theorem Kept.sStore {th : ThreadRef} {w : W64} (hs : Kept s₀ s) : Kept s₀ (s.sStore th w) := by
  dsimp only [State.sStore]
  refine hs.thIssue ?_
  split
  · exact hs.thFault
  · exact (hs.modCell fun hx => hx.opWrite).thNext

theorem Kept.sTime {th : ThreadRef} {w : W64} (hs : Kept s₀ s) : Kept s₀ (s.sTime th w) := hs.thIssue hs.thRet

theorem Kept.sTick {th : ThreadRef} {w : W64} (hs : Kept s₀ s) : Kept s₀ (s.sTick th w) := hs.thIssue hs.thRet

theorem CellSt.Good.launch {e : Engine} {slot token : Nat} {b : List Byte} (hx : x.Good) : (x.launch e slot token b).Good := by
  dsimp only [CellSt.launch]
  split <;> exact (CellSt.Good.ite hx.emptyChutes hx).of_eq.of_eq

theorem Kept.launch {th : ThreadRef} {e : Engine} {w : W64} (hs : Kept s₀ s) : Kept s₀ (s.launch th e w) := by
  unfold State.launch
  refine hs.thIssue ?_
  extract_lets x a b l t u
  have ht : Kept s₀ t := hs.modCell fun hx => hx.launch
  have hu : Kept s₀ u := by
    clear_value t
    cases e with
    | access => exact ht.setReg.setReg.setReg.setReg
    | execute => exact ht
  refine .ite hs.thRet (.ite hs.thRet ?_)
  split
  · exact hs.thFault
  · exact .ite hs.thRet (.ite hs.thRet hu.thRet)

theorem Kept.fenceClean {c : Nat} (hs : Kept s₀ s) : Kept s₀ (s.fenceClean c) := by
  unfold State.fenceClean
  split
  next he => exact (hs.cleanLines.snd_eq he).countC

theorem Kept.fence {th : ThreadRef} {w : W64} (hs : Kept s₀ s) : Kept s₀ (s.fence th w) :=
  hs.thIssue (Kept.ite hs hs.fenceClean).modThread

theorem Kept.fenceComplete {th : ThreadRef} (hs : Kept s₀ s) : Kept s₀ (s.fenceComplete th) := by
  dsimp only [State.fenceComplete]
  split
  · exact .ite (.ite hs.fenceClean (.ite hs (Kept.ite hs hs.addFlushAll).thNext.countC)) hs
  · exact hs

theorem Kept.wait {th : ThreadRef} {w : W64} (hs : Kept s₀ s) : Kept s₀ (s.wait th w) :=
  hs.thIssue (.ite hs.thFault (.ite hs.thFault (.ite (hs.thNext fun t => by exact Thread.setReg_length _ _ _)
    (hs.thNext.modCell fun hx => hx.leave))))

theorem Kept.toReady {th : ThreadRef} (hs : Kept s₀ s) : Kept s₀ (s.toReady th) := hs.thNext.modCell fun hx => hx.leave

theorem Kept.sleep {th : ThreadRef} {w : W64} (hs : Kept s₀ s) : Kept s₀ (s.sleep th w) :=
  hs.thIssue (.ite hs.toReady (.ite hs.thFault (hs.thNext.modCell fun hx => hx.leave)))

theorem Kept.yield {th : ThreadRef} {w : W64} (hs : Kept s₀ s) : Kept s₀ (s.yield th w) := hs.thIssue hs.toReady

theorem Kept.signalTo {c t : Nat} {m : W32} (hs : Kept s₀ s) : Kept s₀ (s.signalTo c t m).2 := by
  unfold State.signalTo
  split
  · exact .mk_snd hs
  · exact .mk_snd hs.flagThread

theorem Kept.signal {th : ThreadRef} {w : W64} (hs : Kept s₀ s) : Kept s₀ (s.signal th w) :=
  hs.thIssue (.ite hs.thFault hs.signalTo.thRet)

theorem Kept.flags {th : ThreadRef} {w : W64} (hs : Kept s₀ s) : Kept s₀ (s.flags th w) :=
  hs.thIssue (hs.thNext fun t => by exact t.setReg_length _ _)

theorem Kept.mbox {th : ThreadRef} {w : W64} (hs : Kept s₀ s) : Kept s₀ (s.mbox th w) :=
  hs.thIssue (hs.thNext fun t => by exact t.setReg_length _ _)

theorem Kept.barrier {th : ThreadRef} {w : W64} (hs : Kept s₀ s) : Kept s₀ (s.barrier th w) := by
  dsimp only [State.barrier]
  refine hs.thIssue ?_
  split
  · exact hs.thFault
  · split
    · exact hs.thFault
    · split
      · exact hs.barCount.thNext
      · exact hs.barDrop.thNext
      · exact hs.errBump.barEvent.thFault

theorem Kept.setpri {th : ThreadRef} {w : W64} (hs : Kept s₀ s) : Kept s₀ (s.setpri th w) :=
  hs.thIssue (.ite hs.thFault hs.thNext)

theorem Kept.schEvent {c bit code info : Nat} (hs : Kept s₀ s) : Kept s₀ (s.schEvent c bit code info) := .ite hs.setBits.raise hs.setBits

theorem Kept.post {th : ThreadRef} {w : W64} (hs : Kept s₀ s) : Kept s₀ (s.post th w) :=
  hs.thIssue (.ite hs.thFault (Kept.ite hs.pushEvent hs.pushEvent.fresh.countC.schEvent).thNext)

theorem Kept.exitTh {th : ThreadRef} {w : W64} (hs : Kept s₀ s) : Kept s₀ (s.exitTh th w) :=
  hs.thIssue (hs.modCell fun hx => hx.freeSlot)

theorem Kept.dispatch {c core t : Nat} (hs : Kept s₀ s) : Kept s₀ (s.dispatch c core t) :=
  .ite (hs.modCell fun hx => hx.enter.of_modAt).countC.countC.countC.maxReg hs

theorem Kept.threadWake {th : ThreadRef} (hs : Kept s₀ s) : Kept s₀ (s.threadWake th) := by
  dsimp only [State.threadWake]
  split
  · exact .ite ((hs.endEventWait.modThread fun t => by exact t.setReg_length _ _).modCell fun hx => hx.enter) hs
  · exact hs

theorem Kept.deadlineOf {c t : Nat} (hs : Kept s₀ s) : Kept s₀ (s.deadlineOf c t) := by
  unfold State.deadlineOf
  extract_lets th
  split
  · exact hs
  · split
    · exact hs.modThread.modCell fun hx => hx.enter
    · exact .ite hs ((hs.endEventWait.modThread fun t => by exact t.setReg_length _ _).modCell fun hx => hx.enter)
    · exact hs

theorem Kept.deadlinesDue {c : Nat} (hs : Kept s₀ s) : Kept s₀ (s.deadlinesDue c) := .ite (hs.foldl fun hs => hs.deadlineOf) hs

theorem Kept.starvation {th : ThreadRef} (hs : Kept s₀ s) : Kept s₀ (s.starvation th) := .ite hs.modThread.setBits.countC.schEvent hs

/-! ## The operations of Machine/Work.lean -/

theorem Kept.modSet {n : Nat} {f : WSet → WSet} (hs : Kept s₀ s) : Kept s₀ (s.modSet n f) := hs.modScaler

theorem Kept.seedCells (hs : Kept s₀ s) : Kept s₀ s.seedCells := by
  refine hs.step fun h => { h with cells := List.forall_mem_map.2 fun x hx => ?_ }
  have hmem : x.1 ∈ s.cells := List.fst_mem_of_mem_zipIdx hx
  exact (h.cells x.1 hmem).of_eq

theorem Kept.addSet {n : Nat} {owned : Bool} {row col : Nat} {items : List WRec} {part : Option Nat} (hs : Kept s₀ s) :
    Kept s₀ (s.addSet n owned row col items part) := by
  unfold State.addSet
  exact hs.seedCells.modScaler

theorem Kept.tiredStatus (hs : Kept s₀ s) : Kept s₀ s.tiredStatus.2 := by
  unfold State.tiredStatus
  split
  · rename_i he
    exact .mk_snd (hs.fresh.snd_eq he)

theorem Kept.newSetNumber (hs : Kept s₀ s) : Kept s₀ s.newSetNumber.2 := hs.fresh

theorem CellSt.Good.refill (hx : x.Good) : x.refill.Good := hx.of_eq

theorem Kept.giveItem {c : Nat} {q : QItem} (hs : Kept s₀ s) : Kept s₀ (s.giveItem c q) :=
  (hs.modCell fun hx => hx.of_eq.refill).modSet

theorem Kept.assignHere {n : Nat} {items : List (WorkItem × Nat)} (hs : Kept s₀ s) : Kept s₀ (s.assignHere n items) := by
  dsimp only [State.assignHere]
  refine hs.foldl fun hs => ?_
  split
  · exact hs.giveItem
  · exact hs

theorem Kept.moveCost {c : Nat} {q : QItem} (hs : Kept s₀ s) : Kept s₀ (s.moveCost c q) := hs.modSet

theorem Kept.rebalance {c : Nat} (hs : Kept s₀ s) : Kept s₀ (s.rebalance c) := by
  dsimp only [State.rebalance]
  split
  · exact hs
  · split
    · exact hs
    · exact (hs.modCell fun hx => hx.of_eq.refill).foldl fun hs => hs.moveCost.giveItem

theorem Kept.requeueCell {c : Nat} (hs : Kept s₀ s) : Kept s₀ (s.requeueCell c) := by
  dsimp only [State.requeueCell]
  split
  · exact hs
  · refine hs.modCell.foldl fun hs => ?_
    split
    · exact hs.moveCost.giveItem.count
    · exact hs

theorem CellSt.Good.drawEdges {it : WorkItem} (hx : x.Good) : (x.drawEdges it).Good := hx.of_eq

theorem Kept.wtake {th : ThreadRef} {w : W64} (hs : Kept s₀ s) : Kept s₀ (s.wtake th w) := by
  dsimp only [State.wtake]
  refine hs.thIssue ?_
  split
  · exact hs.thFault
  · split
    · exact hs.thRet
    · split
      · exact hs.thRet
      · exact .ite hs.thFault (.share (hs.modCell fun hx => hx.of_eq.refill.opWrite) fun ht => (Kept.ite (ht.modCell
        fun hx => hx.drawEdges).count ht).thRet)

theorem Kept.setComplete {n : Nat} (hs : Kept s₀ s) : Kept s₀ (s.setComplete n) := hs.modSet

theorem Kept.ownerComplete {n : Nat} (hs : Kept s₀ s) : Kept s₀ (s.ownerComplete n) := by
  dsimp only [State.ownerComplete]
  split
  · exact hs
  · split
    · exact hs
    · split
      · split
        · exact .ite hs.setComplete.tellAll.startFree hs.setComplete.tellAll
        · exact hs.setComplete.tellAll
      · exact hs.setComplete.tellAll

theorem Kept.onItemDone {it : WorkItem} (hs : Kept s₀ s) : Kept s₀ (s.onItemDone it) := hs.modSet.ownerComplete

theorem Kept.wdone {th : ThreadRef} {w : W64} (hs : Kept s₀ s) : Kept s₀ (s.wdone th w) := by
  dsimp only [State.wdone]
  refine hs.thIssue ?_
  split
  · exact hs.thFault
  · split
    · exact hs.thFault
    · split
      · exact hs.thRet
      · exact hs.modCell.count.modSet.onItemDone.tellAll.thRet

theorem Kept.startRows {feature : Nat} {rows : List Nat} (hs : Kept s₀ s) : Kept s₀ (s.startRows feature rows) := by
  dsimp only [State.startRows]
  split
  · exact .ite (hs.modScaler.newJob.foldl fun hs => .ite hs.hostAccess hs) hs
  · exact hs

theorem Kept.onWorkSetNew {n feature : Nat} {rows : List Nat} (hs : Kept s₀ s) : Kept s₀ (s.onWorkSetNew n feature rows) :=
  (Kept.ite hs hs.addSet).startRows

theorem Kept.onItemsAssign {n : Nat} {items : List (WorkItem × Nat)} (hs : Kept s₀ s) : Kept s₀ (s.onItemsAssign n items) :=
  (Kept.ite hs hs.addSet).assignHere

theorem Kept.giveOut {n : Nat} {items : List (Nat × WorkItem × Nat)} (hs : Kept s₀ s) : Kept s₀ (s.giveOut n items) :=
  (hs.foldl fun hs => .ite hs hs.tell).assignHere

theorem Kept.askMap {j h p : Nat} (hs : Kept s₀ s) : Kept s₀ (s.askMap j h p) := by
  dsimp only [State.askMap]
  split
  · exact hs.modJob
  · exact .ite hs.modJob (.ite hs.modJob hs.modJob.startWalk)

theorem Kept.askHomes {j : Nat} {row col : Desc} {items : List (WorkItem × Nat)} (hs : Kept s₀ s) : Kept s₀ (s.askHomes j row col items) :=
  hs.foldl fun hs => hs.askMap

theorem Kept.lossWork {x : Nat} (hs : Kept s₀ s) : Kept s₀ (s.lossWork x) := by
  dsimp only [State.lossWork]
  refine hs.foldl fun hs => ?_
  split
  · exact hs
  · split
    · exact hs.newJob.modJob.askHomes
    · exact hs.newJob.modJob

theorem Kept.reassign {w : HostWait} {n : Nat} (hs : Kept s₀ s) : Kept s₀ (s.reassign w n) := by
  dsimp only [State.reassign]
  split
  · exact hs
  · split
    · exact hs.dropJob
    · exact hs.dropJob.modSet.giveOut.count

theorem Kept.startWork {q : Nat} {sess : W32} {c : QCmd} (hs : Kept s₀ s) : Kept s₀ (s.startWork q sess c) := by
  dsimp only [State.startWork]
  split
  · exact hs.complete
  · split
    · exact .ite hs.complete (.ite hs.complete (.ite hs.newSetNumber.addSet.tellAll.setComplete.tellAll.complete hs.newJob.hostAccess))
    · exact hs.complete

theorem Kept.endWork {w : HostWait} {a : WorkArgs} {row col : Desc} {n : Nat} {part : Option Nat} (hs : Kept s₀ s) :
    Kept s₀ (s.endWork w a row col n part) :=
  
  .share hs.addSet.tellAll.startRows.giveOut fun ht => (Kept.ite ht.count.count.plcEvent ht.count.count).completeJob

theorem Kept.workStage {w : HostWait} {p : List Byte} (hs : Kept s₀ s) : Kept s₀ (s.workStage w p) := by
  dsimp only [State.workStage]
  split
  · split
    · exact .ite hs.completeJob (.ite hs.tiredStatus.completeJob (.ite hs.completeJob (.ite hs.completeJob hs.modJob.askHomes)))
    · split
      · exact .ite hs (.ite hs.newSetNumber.endWork (.ite hs.newSetNumber.completeJob hs.newSetNumber.modJob.startCreate))
      · split
        · exact hs
        · split
          · exact .ite hs.endWork hs.completeJob
          · exact hs.completeJob
  · exact hs.completeJob

/-! ## The operations of Machine/Wake.lean -/

theorem Kept.powerSetDone {status : Nat} (hs : Kept s₀ s) : Kept s₀ (s.powerSetDone status) := hs.completeOn

theorem Kept.wake (hs : Kept s₀ s) : Kept s₀ s.wake := .ite hs (.ite (.ite hs hs.modPower.powerSetDone) (.ite hs hs.modPower))

theorem Kept.wakeByUse (hs : Kept s₀ s) : Kept s₀ s.wakeByUse := .ite hs hs.wake

/-! ## The operations of Machine/Settle.lean -/

theorem Kept.finishRead {w : HostWait} {p : List Byte} (hs : Kept s₀ s) : Kept s₀ (s.finishRead w p) := by
  unfold State.finishRead
  split
  · exact hs.completeJob
  · split
    · exact hs.tiredStatus.completeJob
    · split
      · exact hs.completeJob
      · split <;> exact hs.completeJob

theorem Kept.finishWrite {w : HostWait} (hs : Kept s₀ s) : Kept s₀ (s.finishWrite w) :=
  .ite hs.completeJob (.ite hs.tiredStatus.completeJob hs.completeJob)

theorem Kept.rdmaSend {pri qpn : Nat} {psn : BitVec 24} {b : List Byte} (hs : Kept s₀ s) : Kept s₀ (s.rdmaSend pri qpn psn b) :=
  hs.foldl fun hs => hs.transmit

theorem Kept.finishRdma {w : HostWait} {pri : Nat} {r : RdmaReq} (hs : Kept s₀ s) : Kept s₀ (s.finishRdma w pri r) := by
  dsimp only [State.finishRdma]
  split
  · exact hs.dropJob
  · split
    · exact hs.dropJob
    · split
      · exact hs.dropJob.transmit.count
      · split
        · exact hs.dropJob
        · split
          · exact hs.dropJob
          · split
            · exact hs.dropJob
            · exact hs.dropJob.rdmaSend.count

theorem Kept.finishJob {w : HostWait} (hs : Kept s₀ s) : Kept s₀ (s.finishJob w) := by
  unfold State.finishJob
  split
  · exact hs
  · split
    · exact hs.dropJob
    · exact hs.reassign
    · exact hs.finishRdma
    · exact .ite hs.finishRead (.ite hs.finishWrite (.ite hs.workStage hs))

theorem Kept.jobPass (hs : Kept s₀ s) : Kept s₀ s.jobPass := by
  unfold State.jobPass
  refine hs.foldl fun hs => ?_
  split
  · exact hs.finishJob
  · exact hs

theorem Kept.badOpc {q n : Nat} (hs : Kept s₀ s) : Kept s₀ (s.badOpc q n) := by
  induction n generalizing s with
  | zero => exact hs
  | succ n ih =>
    unfold State.badOpc
    split
    · exact hs
    · exact .ite hs (ih hs.modQueue.complete)

theorem Kept.badOpcs (hs : Kept s₀ s) : Kept s₀ s.badOpcs := by
  unfold State.badOpcs
  split
  · exact hs
  · exact hs.foldl fun hs => hs.badOpc

theorem Kept.settle (hs : Kept s₀ s) : Kept s₀ s.settle := hs.hostTakeAll.jobPass.jobPass.jobPass.sealStep.badOpcs

/-! ## The operations of Machine/LandCmd.lean -/

theorem Kept.landingRequest {l id : Nat} (hs : Kept s₀ s) : Kept s₀ (s.landingRequest l id) := by
  unfold State.landingRequest
  split
  · exact .ite hs.serve.settle hs
  · exact hs

theorem Kept.scrubStart {l : Nat} (hs : Kept s₀ s) : Kept s₀ (s.scrubStart l) := .ite hs hs.modLanding

theorem Kept.scrubEnd {l : Nat} (hs : Kept s₀ s) : Kept s₀ (s.scrubEnd l) := hs.modLanding

theorem Kept.scrubRead {l : Nat} (hs : Kept s₀ s) : Kept s₀ (s.scrubRead l) :=
  .ite hs (.ite hs.scrubStart (.ite hs.scrubStart.scrubEnd (.share hs.scrubStart.checkGranule.count fun ht => .ite ht.scrubEnd ht.modLanding)))

theorem Kept.frameZeroFill {l f : Nat} (hs : Kept s₀ s) : Kept s₀ (s.frameZeroFill l f) := .ite hs.zeroFrame.modLanding.count hs

theorem Kept.landingFail {l : Nat} (hs : Kept s₀ s) : Kept s₀ (s.landingFail l) := .ite hs hs.fresh.failLanding.settle

/-! ## The operations of Machine/Link.lean -/

theorem Kept.sendFlit {l kind seq vc units body : Nat} (hs : Kept s₀ s) : Kept s₀ (s.sendFlit l kind seq vc units body) := hs.modLink.count

theorem Kept.sendData {l v : Nat} {p : Packet} (hs : Kept s₀ s) : Kept s₀ (s.sendData l v p) := hs.sendFlit.modLink

theorem Kept.sendNak {l : Nat} (hs : Kept s₀ s) : Kept s₀ (s.sendNak l) := hs.sendFlit

theorem Kept.flitIn {l : Nat} {f : Flit} (hs : Kept s₀ s) : Kept s₀ (s.flitIn l f) := hs.modLink.count

theorem Kept.flitBad {l : Nat} (hs : Kept s₀ s) : Kept s₀ (s.flitBad l) := hs.errBump.seeClass

theorem Kept.dataIn {l : Nat} {f : Flit} (hs : Kept s₀ s) : Kept s₀ (s.dataIn l f) := by
  unfold State.dataIn
  exact hs.modLink.modFab

theorem Kept.dataFlit {l : Nat} {f : Flit} (hs : Kept s₀ s) : Kept s₀ (s.dataFlit l f) :=
  .ite hs (.ite hs.flitBad.sendNak (.ite hs.flitIn.dataIn hs.flitIn.sendNak))

theorem Kept.idleFlit {l : Nat} {f : Flit} (hs : Kept s₀ s) : Kept s₀ (s.idleFlit l f) := .ite hs (.ite hs.flitBad hs.flitIn)

/-! ## The operations of Machine/Router.lean -/

theorem Kept.bounce {p : Packet} (hs : Kept s₀ s) : Kept s₀ (s.bounce p) := .ite hs.send hs

theorem Kept.holdPk {p : Packet} {parked : Bool} (hs : Kept s₀ s) : Kept s₀ (s.holdPk p parked) := .ite hs (.ite hs.bounce hs.modFab)

theorem Kept.releaseHeld (hs : Kept s₀ s) : Kept s₀ s.releaseHeld := by
  unfold State.releaseHeld
  exact hs.modFab

theorem Kept.late (hs : Kept s₀ s) : Kept s₀ s.late := hs.count

theorem Kept.answerIn {p : Packet} (hs : Kept s₀ s) : Kept s₀ (s.answerIn p) := by
  dsimp only [State.answerIn]
  split
  · exact hs.putReq
  · split
    · exact hs.modFab
    · split
      · exact hs.modFab
      · split
        · exact .ite hs.modMove (.ite hs.abandonMove hs.late)
        · exact hs.late

theorem Kept.arrivePk {p : Packet} (hs : Kept s₀ s) : Kept s₀ (s.arrivePk p) := by
  unfold State.arrivePk
  split
  · exact hs.count
  · exact .ite hs.modFab (.ite hs.answerIn (.ite hs (.ite hs.count hs.modFab)))

theorem Kept.transit {p : Packet} (hs : Kept s₀ s) : Kept s₀ (s.transit p).2 := by
  unfold State.transit
  split
  · exact .mk_snd hs
  · split
    · exact .mk_snd hs.count.fabEvent
    · exact .mk_snd hs.count

theorem Kept.dropRouted {p : Packet} (hs : Kept s₀ s) : Kept s₀ (s.dropRouted p) := hs.modFab

theorem Kept.packetRoute {p : Packet} (hs : Kept s₀ s) : Kept s₀ (s.packetRoute p) := by
  unfold State.packetRoute
  split
  · exact hs
  · split
    · exact .ite hs.dropRouted.arrivePk.wakeByUse (.ite hs.wakeByUse hs.dropRouted.arrivePk.settle)
    · split
      · split
        · exact hs
        · split
          · rename_i he
            exact (hs.dropRouted.transit.snd_eq he).sendData
          · rename_i he
            exact (hs.dropRouted.transit.snd_eq he)
      · split
        · rename_i he
          exact hs.dropRouted.holdPk
        · rename_i he
          exact (hs.dropRouted.transit.snd_eq he)

theorem Kept.norouteExpiry {p : Packet} (hs : Kept s₀ s) : Kept s₀ (s.norouteExpiry p) := by
  unfold State.norouteExpiry
  split
  · exact hs
  · exact .ite hs hs.modFab.count.fabEvent.bounce

theorem Kept.parkedExpiry {p : Packet} (hs : Kept s₀ s) : Kept s₀ (s.parkedExpiry p) := by
  unfold State.parkedExpiry
  split
  · exact hs
  · exact .ite hs hs.modFab.count.fabEvent.bounce

theorem Kept.takeArrived {p : Packet} (hs : Kept s₀ s) : Kept s₀ (s.takeArrived p) := hs.modFab

theorem Kept.requestIn {p : Packet} {typ : Nat} {f : State → State} (hs : Kept s₀ s) (hf : ∀ {t}, Kept s₀ t → Kept s₀ (f t)) :
    Kept s₀ (s.requestIn p typ f) :=
  
  .ite hs (.ite hs.takeArrived.send.count (.ite hs.takeArrived.send (hf hs.takeArrived)))

theorem Kept.landPacket {p : Packet} {op : ReqOp} (hs : Kept s₀ s) : Kept s₀ (s.landPacket p op) :=
  .ite hs.send hs.newId.arriveAt

theorem Kept.walkIn {p : Packet} (hs : Kept s₀ s) : Kept s₀ (s.walkIn p) := by
  unfold State.walkIn
  split <;> exact hs.send

theorem Kept.moveIn {p : Packet} (hs : Kept s₀ s) : Kept s₀ (s.moveIn p) := by
  dsimp only [State.moveIn]
  split
  · exact .ite hs.putGranule.count.send hs
  · exact hs

/-! ## The operations of Machine/Member.lean -/

theorem Kept.membIn {p : Packet} {code : Nat} {f : State → State} (hs : Kept s₀ s) (hf : ∀ {t}, Kept s₀ t → Kept s₀ (f t)) :
    Kept s₀ (s.membIn p code f) :=
  
  .ite hs (hf hs.takeArrived)

theorem Kept.sendOver {l : Nat} {p : Packet} (hs : Kept s₀ s) : Kept s₀ (s.sendOver l p) := .ite hs.sendData hs

theorem Kept.startProbe {x : Nat} {forJoin : Option Packet} {takeover : Bool} (hs : Kept s₀ s) : Kept s₀ (s.startProbe x forJoin takeover) :=
  .ite hs (hs.modFab.foldl fun hs => hs.sendOver)

theorem Kept.downHeard {x : Nat} (hs : Kept s₀ s) : Kept s₀ (s.downHeard x) := .ite (.ite hs.startProbe hs) (.ite hs.modFab.startProbe hs)

theorem Kept.reportDown {x l to_ : Nat} (hs : Kept s₀ s) : Kept s₀ (s.reportDown x l to_) := hs.modFab.send

theorem Kept.linkDown {l : Nat} (hs : Kept s₀ s) : Kept s₀ (s.linkDown l) := by
  unfold State.linkDown
  extract_lets k t u v w
  have hv : Kept s₀ v := hs.modLink.errBump.seeClass.fabEvent
  have hw : Kept s₀ w := by
    clear_value v
    dsimp only [w]
    split
    · exact .ite hv.send hv
    · exact hv
  exact .ite (.ite hw.downHeard hw.reportDown) hw

theorem Kept.linkTrained {l lanes : Nat} (hs : Kept s₀ s) : Kept s₀ (s.linkTrained l lanes) :=
  .ite hs (Kept.ite hs.modLink.fabEvent hs.modLink).releaseHeld

theorem Kept.livenessTimeout {l : Nat} (hs : Kept s₀ s) : Kept s₀ (s.livenessTimeout l) := .ite hs.linkDown hs

theorem Kept.nakIn {l : Nat} {f : Flit} (hs : Kept s₀ s) : Kept s₀ (s.nakIn l f) :=
  .ite hs (.ite hs.flitBad (.ite hs.flitIn.modLink.linkDown hs.flitIn.modLink.modLink.count.count))

theorem Kept.heartbeat {l : Nat} {f : Flit} (hs : Kept s₀ s) : Kept s₀ (s.heartbeat l f) :=
  .ite hs (.ite hs.flitBad (.ite hs.flitIn.modLink.fabEvent hs.flitIn.modLink))

theorem Kept.heartbeatSend {l : Nat} (hs : Kept s₀ s) : Kept s₀ (s.heartbeatSend l) := by
  unfold State.heartbeatSend
  extract_lets k t
  have ht : Kept s₀ t := by
    dsimp only [t]
    split
    · exact hs.sendFlit
    · exact .ite hs.sendFlit hs.sendFlit
    · exact hs.sendFlit
  exact .ite hs ht.modLink

theorem Kept.plainFlit {l kind : Nat} {f : Flit} {g : State → State} (hs : Kept s₀ s) (hg : ∀ {t}, Kept s₀ t → Kept s₀ (g t)) :
    Kept s₀ (s.plainFlit l kind f g) :=
  
  .ite hs (.ite hs.flitBad (hg hs.flitIn))

theorem Kept.beaconIn {l : Nat} {f : Flit} (hs : Kept s₀ s) : Kept s₀ (s.beaconIn l f) := hs.plainFlit fun hs => hs.modLink

theorem Kept.wakeIn {l : Nat} {f : Flit} (hs : Kept s₀ s) : Kept s₀ (s.wakeIn l f) := hs.plainFlit fun hs => .ite hs.wakeByUse hs

theorem Kept.resumeDone {l : Nat} (hs : Kept s₀ s) : Kept s₀ (s.resumeDone l) := .ite hs.modLink.releaseHeld hs

theorem Kept.sendResume {l : Nat} (hs : Kept s₀ s) : Kept s₀ (s.sendResume l) := hs.sendFlit.modLink.resumeDone

theorem Kept.resumeIn {l : Nat} {f : Flit} (hs : Kept s₀ s) : Kept s₀ (s.resumeIn l f) :=
  hs.plainFlit fun hs => .ite (.ite hs.modLink.sendResume hs.modLink.resumeDone) hs

theorem Kept.recoverIn {p : Packet} (hs : Kept s₀ s) : Kept s₀ (s.recoverIn p) := hs.membIn fun hs => hs.modLink.send

theorem Kept.recoverResp {p : Packet} (hs : Kept s₀ s) : Kept s₀ (s.recoverResp p) := by
  dsimp only [State.recoverResp]
  refine hs.membIn fun hs => ?_
  split
  · exact hs
  · exact hs.modLink.modFab.releaseHeld

theorem Kept.lossJobs {x : Nat} (hs : Kept s₀ s) : Kept s₀ (s.lossJobs x) := by
  dsimp only [State.lossJobs]
  refine hs.foldl fun hs => ?_
  split
  · exact .ite hs (.ite hs.askFree (.ite hs.completeJob hs))
  · exact hs

theorem Kept.lossPackets {x : Nat} (hs : Kept s₀ s) : Kept s₀ (s.lossPackets x) := hs.modFab.foldl fun hs => .ite hs.bounce (.ite hs hs.count)

theorem Kept.lossLinks {x : Nat} (hs : Kept s₀ s) : Kept s₀ (s.lossLinks x) := hs.foldl fun hs => .ite hs (.ite hs.modLink hs.modLink.count)

theorem Kept.lossBars {x : Nat} (hs : Kept s₀ s) : Kept s₀ (s.lossBars x) := hs.foldl fun hs => .ite hs.barBreak hs

theorem Kept.lossRequests {x : Nat} (hs : Kept s₀ s) : Kept s₀ (s.lossRequests x) := by
  unfold State.lossRequests
  refine hs.foldl fun hs => ?_
  split
  · split
    · exact hs.rewalk
    · exact hs.hostTranslate
    · exact hs.putReq
  · exact hs.putReq

theorem Kept.lossOf {x : Nat} (hs : Kept s₀ s) : Kept s₀ (s.lossOf x) :=
  hs.modFab.lossMoves.lossMaps.lossObjects.lossRequests.lossPackets.lossLinks.lossWork.lossBars.lossJobs.reviewWhenDue.fabEvent.settle

theorem Kept.installEpoch {e : W32} {change x keeper : Nat} (hs : Kept s₀ s) : Kept s₀ (s.installEpoch e change x keeper) :=
  .share (Kept.ite hs.fabEvent hs).modFab.count fun ht => .ite ht.modFab.fabEvent.joinCreates (.ite (.ite ht.modFab ht.lossOf) ht)

theorem Kept.flood {e : W32} {change x keeper : Nat} (hs : Kept s₀ s) : Kept s₀ (s.flood e change x keeper) :=
  hs.modFab.foldl fun hs => .ite hs.sendOver hs

theorem Kept.change {change x : Nat} (hs : Kept s₀ s) : Kept s₀ (s.change change x) := hs.flood.installEpoch

theorem Kept.epochIn {p : Packet} (hs : Kept s₀ s) : Kept s₀ (s.epochIn p) :=
  hs.membIn fun hs => .ite hs (.ite hs.flood.installEpoch hs.flood)

theorem Kept.expel (hs : Kept s₀ s) : Kept s₀ s.expel := .ite hs (hs.modFab.fabEvent.foldl fun hs => hs.lossOf).modFab

theorem Kept.fencedIn {p : Packet} (hs : Kept s₀ s) : Kept s₀ (s.fencedIn p) := .ite hs (.ite hs.takeArrived.expel hs.takeArrived.late)

theorem Kept.welcome {x : Nat} (hs : Kept s₀ s) : Kept s₀ (s.welcome x) := by
  dsimp only [State.welcome]
  refine hs.tell.foldl fun hs => ?_
  split
  · exact .ite hs hs.tell
  · exact hs

theorem Kept.joinResp {x result : Nat} {e : W32} (hs : Kept s₀ s) : Kept s₀ (s.joinResp x result e) := hs.send

theorem Kept.decideJoin {p : Packet} (hs : Kept s₀ s) : Kept s₀ (s.decideJoin p) :=
  .ite hs.joinResp (.ite hs.joinResp hs.change.welcome.joinResp)

theorem Kept.joinIn {p : Packet} (hs : Kept s₀ s) : Kept s₀ (s.joinIn p) :=
  .ite hs (hs.membIn fun hs => .ite hs (.ite hs.startProbe hs.decideJoin))

theorem Kept.probeIn {p : Packet} (hs : Kept s₀ s) : Kept s₀ (s.probeIn p) := hs.membIn fun hs => .ite hs.send hs

theorem Kept.probeRespIn {p : Packet} (hs : Kept s₀ s) : Kept s₀ (s.probeRespIn p) := by
  dsimp only [State.probeRespIn]
  refine hs.membIn fun hs => ?_
  split
  · exact hs
  · split
    · exact hs.modFab.joinResp
    · exact hs.modFab

theorem Kept.probeTimeout {x : Nat} (hs : Kept s₀ s) : Kept s₀ (s.probeTimeout x) := by
  unfold State.probeTimeout
  split
  · exact hs
  · extract_lets more t u
    have ht : Kept s₀ t := hs.modFab.change
    have hu : Kept s₀ u := .ite (ht.foldl fun hs => hs.startProbe) ht
    clear_value u
    split
    · exact hs
    · split
      · exact hu.decideJoin
      · exact hu

theorem Kept.reportTimeout {x : Nat} (hs : Kept s₀ s) : Kept s₀ (s.reportTimeout x) := by
  dsimp only [State.reportTimeout]
  split
  · exact hs
  · exact .ite hs (.ite hs.modFab.expel (.ite hs.modFab.downHeard hs.modFab.reportDown))

theorem Kept.downIn {p : Packet} (hs : Kept s₀ s) : Kept s₀ (s.downIn p) := hs.membIn fun hs => hs.send.downHeard

theorem Kept.drainTimeout (hs : Kept s₀ s) : Kept s₀ s.drainTimeout := by
  dsimp only [State.drainTimeout]
  split
  · exact hs
  · exact .ite hs (Kept.ite hs.of_eq.modFab hs.of_eq.modFab.count.fabEvent).settle

theorem Kept.found (hs : Kept s₀ s) : Kept s₀ s.found := .ite hs.modFab hs

theorem Kept.rejoinClean (hs : Kept s₀ s) : Kept s₀ s.rejoinClean := by
  unfold State.rejoinClean
  extract_lets used t u v w
  have hu : Kept s₀ u := (hs.foldl fun hs => hs.releaseFrame.zeroFrame).foldl fun hs => hs.barDisable
  have hv : Kept s₀ v := by
    clear_value u
    exact hu.of_cells rfl fun hx => hx.of_eq
  clear_value v
  have hw : Kept s₀ w := hv.foldl fun hs => hs.dropLines
  exact hw.modScaler

theorem Kept.join (hs : Kept s₀ s) : Kept s₀ s.join := by
  dsimp only [State.join]
  split
  · exact hs
  · exact .ite hs (Kept.ite hs.rejoinClean hs).modFab.send

theorem Kept.joinFailed {result : Nat} (hs : Kept s₀ s) : Kept s₀ (s.joinFailed result) := hs.modFab

theorem Kept.joinRespIn {p : Packet} (hs : Kept s₀ s) : Kept s₀ (s.joinRespIn p) :=
  hs.membIn fun hs => .ite hs (.ite hs.modFab.fabEvent hs.joinFailed)

theorem Kept.joinTimeout (hs : Kept s₀ s) : Kept s₀ s.joinTimeout := by
  unfold State.joinTimeout
  split
  · exact hs
  · exact .ite hs.joinFailed hs

/-! ## The operations of Machine/Mgmt.lean -/

theorem Kept.onAsk {src : Nat} {m : MgmtMsg} (hs : Kept s₀ s) : Kept s₀ (s.onAsk src m) := by
  unfold State.onAsk
  split
  · exact .ite hs.tell hs.startCreate
  · exact hs.askFree
  · exact hs.askSeal
  · exact hs.askHint
  · exact hs

theorem Kept.onMembers {table : List (Nat × Nat)} {groups : List (Nat × List (Nat × Nat))} (hs : Kept s₀ s) :
    Kept s₀ (s.onMembers table groups) := by
  unfold State.onMembers
  exact hs.modFab.modScaler

theorem Kept.mgmtIn {src : Nat} {m : MgmtMsg} (hs : Kept s₀ s) : Kept s₀ (s.mgmtIn src m) := by
  unfold State.mgmtIn
  split
  · exact hs.tell
  · exact hs.onFreeFrames
  · exact hs.onAllocRun
  · exact hs.onAllocDone
  · exact hs.onDescInstall
  · exact hs.onDescAck
  · exact hs.onDescNack
  · exact hs.setObjState
  · exact hs.onDescDrop
  · exact hs.onMembers
  · exact hs.onGroupFix
  · exact hs.onObjFree
  · exact hs.onFreeAck
  · exact hs.onSweep
  · exact hs.onSweepAck
  · exact hs.onAsk
  · exact hs.onAsk
  · exact hs.onAsk
  · exact hs.onAsk
  · exact hs.completeOn
  · exact hs.onQueryAsk
  · exact hs.onQueryDone
  · exact hs.onWorkSetNew
  · exact hs.setComplete
  · exact hs.onItemsAssign
  · exact hs.onItemDone
  · exact hs.modLanding
  · exact hs.onFrameRelease
  · exact hs.onRetired
  · exact hs.onReport
  · exact hs.onReportAsk
  · exact hs.onMoveAsk
  · exact hs.onMoveGo
  · exact hs.onMoveFlip
  · exact hs.onMoveInv
  · exact hs.onMoveEnd
  · exact hs.onMoveAgain

theorem Kept.mgmt {src : Nat} {m : MgmtMsg} (hs : Kept s₀ s) : Kept s₀ (s.mgmt src m) := .ite hs (.ite hs.wakeByUse hs.mgmtIn.settle)

/-! ## The operations of Machine/HostObj.lean -/

theorem Kept.waitOn {q : Nat} {sess : W32} {c : QCmd} {h : Nat} (hs : Kept s₀ s) : Kept s₀ (s.waitOn q sess c h) :=
  hs.newJob

theorem Kept.objCreate {q : Nat} {sess : W32} {c : QCmd} (hs : Kept s₀ s) : Kept s₀ (s.objCreate q sess c) :=
  .ite hs.complete (.ite hs.complete (.ite hs.waitOn.startCreate hs.waitOn.tell))

theorem Kept.handleCmd {q : Nat} {sess : W32} {c : QCmd} {n : Nat} {f : State → Nat → State} (hs : Kept s₀ s)
    (hf : ∀ {t} i, Kept s₀ t → Kept s₀ (f t i)) :
    Kept s₀ (s.handleCmd q sess c n f) :=
  
  .ite hs.complete (hf _ hs.waitOn)

theorem Kept.objQuery {q : Nat} {sess : W32} {c : QCmd} (hs : Kept s₀ s) : Kept s₀ (s.objQuery q sess c) := by
  unfold State.objQuery
  split
  · exact hs.complete
  · split <;> exact hs.complete

theorem Kept.objAccess {q : Nat} {sess : W32} {c : QCmd} {write : Bool} (hs : Kept s₀ s) : Kept s₀ (s.objAccess q sess c write) := by
  dsimp only [State.objAccess]
  split
  · exact hs.complete
  · exact .ite hs.complete (.ite hs.complete hs.newJob.hostAccess)

theorem Kept.queryPlot {q : Nat} {sess : W32} {c : QCmd} (hs : Kept s₀ s) : Kept s₀ (s.queryPlot q sess c) := by
  dsimp only [State.queryPlot]
  split
  · exact hs.complete
  · split
    · exact hs.complete
    · split
      · exact hs.complete
      · split
        · split <;> exact hs.complete
        · exact .ite hs.complete hs.waitOn.tell

theorem Kept.queryWork {q : Nat} {sess : W32} {c : QCmd} (hs : Kept s₀ s) : Kept s₀ (s.queryWork q sess c) := by
  dsimp only [State.queryWork]
  split
  · exact hs.complete
  · split <;> exact hs.complete

theorem Kept.hostDo {q opc : Nat} {payload : List Byte} {f : State → W32 → QCmd → State} (hs : Kept s₀ s)
    (hf : ∀ {t} i j, Kept s₀ t → Kept s₀ (f t i j)) :
    Kept s₀ (s.hostDo q opc payload f) :=
  
  (hs.hostRow fun _ _ hs => hf _ _ hs).settle

/-! ## The operations of Machine/HostCell.lean -/

theorem CellSt.Good.startThread {t pri pc : Nat} {args : List W64} (hx : x.Good) (ha : args.length = 4) : (x.startThread t pri pc args).Good := by
  refine CellSt.Good.enter { hx with regs := modAt_all _ _ _ _ hx.regs fun _ _ => ?_ }
  simp [ha]

theorem Kept.threadStart {q : Nat} {sess : W32} {c : QCmd} (hs : Kept s₀ s) : Kept s₀ (s.threadStart q sess c) := by
  unfold State.threadStart
  extract_lets p target unit slot pri pc
  refine .ite hs.complete ?_
  generalize (if target = 0 then _ else _ : Option Nat) = cell
  cases cell with
  | none => exact hs.complete
  | some cell =>
    dsimp only
    generalize (if slot = 255 then _ else _ : Option Nat) = free
    cases free with
    | none => exact hs.complete
    | some t => exact (hs.unpark.modCell fun hx => hx.startThread (by rfl)).complete

theorem Kept.slotCmd {q : Nat} {sess : W32} {c : QCmd} {n : Nat} {f : State → Nat → Nat → State} (hs : Kept s₀ s)
    (hf : ∀ {t} i j, Kept s₀ t → Kept s₀ (f t i j)) :
    Kept s₀ (s.slotCmd q sess c n f) :=
  
  .ite hs.complete (hf _ _ hs)

theorem Kept.threadStop {q : Nat} {sess : W32} {c : QCmd} (hs : Kept s₀ s) : Kept s₀ (s.threadStop q sess c) :=
  hs.slotCmd fun _ _ hs => (hs.modCell fun hx => hx.freeSlot).complete

theorem Kept.threadFree {q : Nat} {sess : W32} {c : QCmd} (hs : Kept s₀ s) : Kept s₀ (s.threadFree q sess c) :=
  hs.slotCmd fun _ _ hs => .ite (hs.modCell fun hx => hx.freeSlot).complete hs.complete

theorem Kept.threadSignal {q : Nat} {sess : W32} {c : QCmd} (hs : Kept s₀ s) : Kept s₀ (s.threadSignal q sess c) :=
  hs.slotCmd fun _ _ hs => .ite hs.complete hs.signalTo.complete

theorem Kept.progLoad {q : Nat} {sess : W32} {c : QCmd} (hs : Kept s₀ s) : Kept s₀ (s.progLoad q sess c) :=
  .ite hs.complete (hs.foldl fun hs => hs.unpark.modCell fun hx => hx.opWrite).complete

/-! ## The operations of Machine/Session.lean -/

theorem Kept.bootFirst (hs : Kept s₀ s) : Kept s₀ s.bootFirst := by
  unfold State.bootFirst
  exact hs.modEth

theorem Kept.closeSession (hs : Kept s₀ s) : Kept s₀ s.closeSession := by
  unfold State.closeSession
  split
  · exact hs
  · extract_lets t
    have ht : Kept s₀ t := hs.modEth
    clear_value t
    split
    · exact .ite (ht.modSec.modFlash (by split <;> exact .of_eq)) ht
    · exact ht

theorem Kept.qctBare {d : Datagram} {flags : Nat} {h : QctHdr} {status : Nat} (hs : Kept s₀ s) : Kept s₀ (s.qctBare d flags h status) :=
  hs.transmit

theorem Kept.newSession (hs : Kept s₀ s) : Kept s₀ s.newSession.2 := hs.fresh

theorem Kept.openSession {d : Datagram} {h : QctHdr} {q w : Nat} (hs : Kept s₀ s) : Kept s₀ (s.openSession d h q w) :=
  hs.newSession.modEth.bootFirst.count.complete

theorem Kept.sessionOpen {d : Datagram} {h : QctHdr} (hs : Kept s₀ s) : Kept s₀ (s.sessionOpen d h) := by
  dsimp only [State.sessionOpen]
  split
  · exact hs.qctBare
  · split
    · exact hs.openSession
    · split
      · split
        · exact hs.sendCompletion
        · exact hs
      · exact .ite hs.closeSession.modEth.openSession hs.qctBare

theorem Kept.rxDrop (hs : Kept s₀ s) : Kept s₀ s.rxDrop := hs.count

theorem Kept.sendAckOnly {q : Nat} (hs : Kept s₀ s) : Kept s₀ (s.sendAckOnly q) := by
  unfold State.sendAckOnly
  split
  · exact hs
  · exact hs.modQueue.qctSend

theorem Kept.cmdArrive {q w : Nat} {h : QctHdr} (hs : Kept s₀ s) : Kept s₀ (s.cmdArrive q w h) := by
  dsimp only [State.cmdArrive]
  split
  · exact hs
  · split
    · exact .share hs.modEth.modQueue.settle fun ht => .ite (.ite ht ht.wakeByUse) ht
    · split
      · split
        · exact hs.count.sendCompletion.count
        · exact hs.count
      · exact hs.sendAckOnly.count

theorem Kept.ackArrive {q : Nat} {a : W32} (hs : Kept s₀ s) : Kept s₀ (s.ackArrive q a) := .ite hs.modEth hs.modQueue

theorem Kept.qctArrive {d : Datagram} (hs : Kept s₀ s) : Kept s₀ (s.qctArrive d) := by
  dsimp only [State.qctArrive]
  split
  · exact hs.rxDrop
  · split
    · exact hs.modEth
    · split
      · exact hs.qctBare
      · exact .ite hs.modEth.qctBare (.ite hs.count (.ite hs.modEth.rxDrop (.ite hs.modEth.ackArrive hs.modEth.ackArrive.cmdArrive)))

theorem Kept.qctRetransmit {q : Nat} (hs : Kept s₀ s) : Kept s₀ (s.qctRetransmit q) := by
  dsimp only [State.qctRetransmit]
  split
  · exact hs
  · split
    · exact hs
    · exact hs.sendCompletion.count.modQueue

theorem Kept.ackonly {q : Nat} (hs : Kept s₀ s) : Kept s₀ (s.ackonly q) := by
  unfold State.ackonly
  split
  · exact hs
  · exact .ite hs.sendAckOnly hs

theorem Kept.keepaliveLoss (hs : Kept s₀ s) : Kept s₀ s.keepaliveLoss := by
  unfold State.keepaliveLoss
  split
  · exact hs
  · exact .ite hs.closeSession.count hs

theorem Kept.eventSend (hs : Kept s₀ s) : Kept s₀ s.eventSend := by
  dsimp only [State.eventSend]
  split
  · exact hs
  · split
    · exact hs
    · split
      · exact hs.modEth.qctSend
      · split
        · split
          · exact hs.qctSend
          · exact hs
        · exact hs

/-! ## The operations of Machine/Port.lean -/

theorem Kept.modQp {n : Nat} {f : Qp → Qp} (hs : Kept s₀ s) : Kept s₀ (s.modQp n f) := hs.modEth

theorem Kept.rdmaNak {pri : Nat} {q : Qp} {psn : BitVec 24} {access : Bool} (hs : Kept s₀ s) : Kept s₀ (s.rdmaNak pri q psn access) :=
  hs.transmit.count

theorem Kept.rdmaArrive {pri : Nat} {r : RdmaReq} (hs : Kept s₀ s) : Kept s₀ (s.rdmaArrive pri r) := by
  unfold State.rdmaArrive
  split
  · exact hs.rxDrop
  · split
    · exact hs.rxDrop
    · split
      · exact hs.rxDrop
      · extract_lets len t u
        have ht : Kept s₀ t := hs.modQp
        have hu : Kept s₀ u := .ite ht.transmit ht
        clear_value u
        split
        · exact hu.modQp.rdmaNak
        · split
          · exact hu.rdmaNak
          · split
            next he => exact (hu.newJob.snd_eq he).hostAccess.settle

theorem Kept.cnpArrive {qpn : Nat} (hs : Kept s₀ s) : Kept s₀ (s.cnpArrive qpn) := hs.modQp

theorem Kept.qpCreate {q : Nat} {sess : W32} {c : QCmd} (hs : Kept s₀ s) : Kept s₀ (s.qpCreate q sess c) :=
  .ite hs.complete (.ite hs.complete hs.fresh.modEth.complete)

theorem Kept.qpDestroy {q : Nat} {sess : W32} {c : QCmd} (hs : Kept s₀ s) : Kept s₀ (s.qpDestroy q sess c) :=
  .ite hs.complete hs.modEth.complete

theorem Kept.mrCreate {q : Nat} {sess : W32} {c : QCmd} (hs : Kept s₀ s) : Kept s₀ (s.mrCreate q sess c) := by
  dsimp only [State.mrCreate]
  split
  · exact hs.complete
  · exact .ite hs.complete hs.fresh.modEth.complete

theorem Kept.mrDestroy {q : Nat} {sess : W32} {c : QCmd} (hs : Kept s₀ s) : Kept s₀ (s.mrDestroy q sess c) :=
  .ite hs.complete hs.modEth.complete

theorem Kept.macsecKey {q : Nat} {sess : W32} {c : QCmd} (hs : Kept s₀ s) : Kept s₀ (s.macsecKey q sess c) :=
  .ite hs.complete hs.modEth.complete

theorem Kept.drainTx (hs : Kept s₀ s) : Kept s₀ s.drainTx := hs.modEth.foldl fun hs => hs.emit

theorem Kept.pfcArrive {pri : Byte} (hs : Kept s₀ s) : Kept s₀ (s.pfcArrive pri) := .ite hs.count.modEth.drainTx hs.count

theorem Kept.macsecIn {f : Frame} (hs : Kept s₀ s) : Kept s₀ (s.macsecIn f).2 := by
  dsimp only [State.macsecIn]
  split
  · exact .mk_snd hs.modEth
  · split
    · exact .mk_snd hs.modEth.count
    · exact .mk_snd hs.modEth
  · split
    · exact .mk_snd hs.modEth.rxDrop
    · split
      · exact .mk_snd hs.modEth.count
      · split
        · exact .mk_snd hs.modEth.modEth
        · exact .mk_snd hs.modEth.count

theorem Kept.ipArrive {pri : Nat} {v6 : Bool} {src dst : BitVec 128} {b : IpBody} (hs : Kept s₀ s) : Kept s₀ (s.ipArrive pri v6 src dst b) := by
  unfold State.ipArrive
  split
  · exact .ite hs.transmit hs
  · split
    · exact hs.rxDrop
    · split
      · exact hs.transmit
      · exact .ite hs.rxDrop (.ite hs.qctArrive hs.rxDrop)
      · exact hs.rdmaArrive
      · exact hs.rxDrop

theorem Kept.frameReceive {f : Frame} (hs : Kept s₀ s) : Kept s₀ (s.frameReceive f) := by
  dsimp only [State.frameReceive]
  split
  · exact hs.count.errBump.seeClass
  · split
    · exact hs.count.rxDrop
    · split
      · rename_i he
        exact (hs.count.macsecIn.snd_eq he)
      · rename_i he
        split
        · exact (hs.count.macsecIn.snd_eq he).rxDrop
        · split
          · exact (hs.count.macsecIn.snd_eq he).count
          · exact (hs.count.macsecIn.snd_eq he).pfcArrive
          · exact .ite (hs.count.macsecIn.snd_eq he).transmit (hs.count.macsecIn.snd_eq he)
          · exact .ite (hs.count.macsecIn.snd_eq he).rxDrop (hs.count.macsecIn.snd_eq he).ipArrive
          · exact (hs.count.macsecIn.snd_eq he).rxDrop

theorem Kept.portUp {lanes : Nat} (hs : Kept s₀ s) : Kept s₀ (s.portUp lanes) := .ite hs (.ite hs.modEth hs.modEth)

theorem Kept.portDown (hs : Kept s₀ s) : Kept s₀ s.portDown := .ite hs.modEth hs

/-! ## The operations of Machine/Power.lean -/

theorem Kept.powerEvent {bit : Nat} (hs : Kept s₀ s) : Kept s₀ (s.powerEvent bit) := .ite hs.setBits.fresh.fresh.raise hs.setBits

theorem Kept.thermEvent {bit info : Nat} (hs : Kept s₀ s) : Kept s₀ (s.thermEvent bit info) := .ite hs.setBits.raise hs.setBits

theorem Kept.rungChanged (hs : Kept s₀ s) : Kept s₀ s.rungChanged := hs.count.powerEvent

theorem Kept.setpointChange {c : Nat} (hs : Kept s₀ s) : Kept s₀ (s.setpointChange c) := .ite hs.modPower hs

theorem Kept.powerSetRung {q : Nat} {sess : W32} {c : QCmd} (hs : Kept s₀ s) : Kept s₀ (s.powerSetRung q sess c) :=
  .ite hs.complete (.ite hs.complete (.ite hs.complete hs.newJob.modPower))

theorem Kept.powerSetSp {q : Nat} {sess : W32} {c : QCmd} (hs : Kept s₀ s) : Kept s₀ (s.powerSetSp q sess c) :=
  .ite hs.complete (hs.foldl fun hs => hs.setRegF).complete

theorem Kept.flushAll (hs : Kept s₀ s) : Kept s₀ s.flushAll := hs.foldl fun hs => hs.turnOffCache

theorem Kept.parkedTake {t : Nat} (hs : Kept s₀ s) : Kept s₀ (s.parkedTake t) := hs.of_cells rfl fun hx => .ite hx.of_eq hx

theorem Kept.quietLinks {dormant : Bool} (hs : Kept s₀ s) : Kept s₀ (s.quietLinks dormant) := hs.modFab

/-- Cells after reset. -/
theorem CellSt.Good.of_mem_replicate {n : Nat} : ∀ x ∈ List.replicate n CellSt.reset, x.Good := fun x hx => by
  rw [List.eq_of_mem_replicate hx]
  exact .reset

theorem Kept.fallowDown (hs : Kept s₀ s) : Kept s₀ s.fallowDown := by
  unfold State.fallowDown
  extract_lets base t u
  have ht : Kept s₀ t := hs.step fun h => { h with mem := rfl, cells := CellSt.Good.of_mem_replicate }
  clear_value t
  exact ht.closeSession.modEth.modFab.modPower

theorem Kept.drainDone (hs : Kept s₀ s) : Kept s₀ s.drainDone :=
  .ite (.share (Kept.ite hs.flushAll.quietLinks hs).parkedTake.modPower.rungChanged fun ht => .ite ht.powerSetDone.fallowDown ht.powerSetDone) hs

theorem Kept.drainTimeUp (hs : Kept s₀ s) : Kept s₀ s.drainTimeUp := .ite hs.modPower.powerEvent.powerSetDone.settle hs

theorem Kept.rungExit (hs : Kept s₀ s) : Kept s₀ s.rungExit :=
  .ite (.share ((hs.modPower.rungChanged.foldl fun hs => hs.setpointChange).foldl fun hs => .ite hs.modLink.sendResume hs.modLink) fun ht =>
    .ite ht ht.powerSetDone.settle.releaseHeld) hs

theorem Kept.wakePin (hs : Kept s₀ s) : Kept s₀ s.wakePin := .ite hs.wake hs

theorem Kept.cellPark {c : Nat} (hs : Kept s₀ s) : Kept s₀ (s.cellPark c) := .ite hs.modCell.count hs

theorem Kept.cellUnpark {c : Nat} (hs : Kept s₀ s) : Kept s₀ (s.cellUnpark c) := .ite hs.unpark hs

theorem Kept.thermCheck (hs : Kept s₀ s) : Kept s₀ s.thermCheck := .ite (.ite hs (.ite hs.modPower.thermEvent hs.modPower)) (.ite hs.modPower hs)

theorem Kept.reading {sensor : Nat} {t : ℤ} (hs : Kept s₀ s) : Kept s₀ (s.reading sensor t) :=
  .ite hs.modPower (Kept.ite hs.modPower.setRegF hs.modPower).thermCheck

theorem Kept.throttleStep {f : Nat} (hs : Kept s₀ s) : Kept s₀ (s.throttleStep f) :=
  .ite hs (.ite (hs.modPower.foldl fun hs => hs.setpointChange).count.thermEvent (.ite (hs.modPower.foldl
    fun hs => hs.setpointChange).count.thermEvent hs))

/-! ## The operations of Machine/Boot.lean -/

theorem Kept.deviceReset {cause : Nat} (hs : Kept s₀ s) : Kept s₀ (s.deviceReset cause) :=
  hs.step fun _ => ⟨rfl, rfl, rfl, CellSt.Good.of_mem_replicate, Nat.succ_pos _⟩

theorem Kept.fatalReset (hs : Kept s₀ s) : Kept s₀ s.fatalReset := by
  unfold State.fatalReset
  exact hs.deviceReset.modPower

theorem Kept.deviceFatal (hs : Kept s₀ s) : Kept s₀ s.deviceFatal := .ite hs.fatalReset hs

theorem Kept.watchdog (hs : Kept s₀ s) : Kept s₀ s.watchdog := .ite hs.deviceReset hs

theorem Kept.powerOn (hs : Kept s₀ s) : Kept s₀ s.powerOn := by
  unfold State.powerOn
  extract_lets t
  have ht : Kept s₀ t := hs.deviceReset
  clear_value t
  exact .ite hs (Kept.of_eq ht).modPower

theorem Kept.vstbyLoss (hs : Kept s₀ s) : Kept s₀ s.vstbyLoss := .ite hs (Kept.ite hs.fresh.modFlash hs.fresh).deviceReset.modPower

theorem Kept.railsUp (hs : Kept s₀ s) : Kept s₀ s.railsUp := .ite hs.modPower hs

theorem Kept.pwrEnRise (hs : Kept s₀ s) : Kept s₀ s.pwrEnRise := .ite hs (.ite hs.modPower.railsUp hs.modPower)

theorem Kept.pwrGoodTimeout (hs : Kept s₀ s) : Kept s₀ s.pwrGoodTimeout := .ite hs.modPower hs

theorem Kept.rstAssert (hs : Kept s₀ s) : Kept s₀ s.rstAssert := .ite hs.modPower hs.deviceReset.modPower

theorem Kept.pwrEnFall (hs : Kept s₀ s) : Kept s₀ s.pwrEnFall := .ite hs (Kept.ite hs hs.rstAssert).modPower

theorem Kept.railFailure (hs : Kept s₀ s) : Kept s₀ s.railFailure :=
  .ite hs (.share (Kept.ite hs.deviceReset hs).modPower fun ht => .ite ht.modPower ht)

theorem Kept.tripRailReturn (hs : Kept s₀ s) : Kept s₀ s.tripRailReturn := .ite hs.railsUp hs

theorem Kept.trip (hs : Kept s₀ s) : Kept s₀ s.trip := .ite hs hs.deviceReset.modPower

theorem Kept.sense {sensor : Nat} {t : ℤ} (hs : Kept s₀ s) : Kept s₀ (s.sense sensor t) := .ite hs (.ite hs.reading.trip hs.reading)

theorem Kept.bootFails {reason : Nat} (hs : Kept s₀ s) : Kept s₀ (s.bootFails reason) := by
  unfold State.bootFails
  exact hs.fresh.modPower.modSec

theorem FusesForward.endTrials {f : FlashSt} : FusesForward f f.endTrials := by
  unfold FlashSt.endTrials
  refine List.foldlRecOn _ _ (.refl f) fun g hg k _ => ?_
  split
  · exact hg.modSlot
  · exact hg

theorem FusesForward.attempt {f : FlashSt} {b : BootTry} {k : Nat} (h : FusesForward f b.flash) : FusesForward f (b.attempt k).flash := by
  unfold BootTry.attempt
  extract_lets why trial
  have hmark (st : Nat) : FusesForward f (if trial then b.flash.mark k st else b.flash) := by
    split
    · exact h.modSlot
    · exact h
  split
  · exact h
  · split
    · exact hmark 3
    · exact hmark 5

/-- The ROM's choice of a slot marks slots of the boot flash only. -/
theorem FusesForward.choose {f : FlashSt} : FusesForward f f.choose.flash :=
  List.foldlRecOn _ BootTry.attempt (motive := fun b => FusesForward f b.flash) FusesForward.endTrials fun _ h _ _ => h.attempt

theorem Kept.bootRom {strap : BitVec 3} (hs : Kept s₀ s) : Kept s₀ (s.bootRom strap) := by
  unfold State.bootRom
  extract_lets p t b u v
  have ht : Kept s₀ t := hs.modPower
  have hv : Kept s₀ v := by
    clear_value t
    have hu : Kept s₀ u := ht.step (fun h => { h with }) rfl .choose
    exact hu.modSec
  refine .ite hs (.ite ht.bootFails ?_)
  clear_value v
  split
  · exact hv.bootFails
  · exact hv.modPower.modSec

theorem Kept.raiseIncarn (hs : Kept s₀ s) : Kept s₀ s.raiseIncarn := hs.modFlash

theorem Kept.loadConfig (hs : Kept s₀ s) : Kept s₀ s.loadConfig := by
  unfold State.loadConfig
  extract_lets f w a b c t u
  have hc : Kept s₀ c := Kept.setRegF (hs.setReg.setReg.setReg.setReg.foldl fun hs => hs.setReg)
  have hu : Kept s₀ u := by
    clear_value c
    exact (Kept.of_eq hc).modEth.modPower
  exact hu.foldl fun hs => .ite hs.failLanding hs

theorem Kept.bootEvent (hs : Kept s₀ s) : Kept s₀ s.bootEvent := hs.pushEvent

theorem Kept.lookoutBoot (hs : Kept s₀ s) : Kept s₀ s.lookoutBoot := by
  unfold State.lookoutBoot
  extract_lets t k x f cfg u
  have ht : Kept s₀ t := hs.raiseIncarn
  clear_value t
  exact .ite hs (.ite (ht.modFlash (FusesForward.refl _).modSlot).deviceReset ht.modSec.loadConfig.modPower.bootEvent)

theorem Kept.fallowExit (hs : Kept s₀ s) : Kept s₀ s.fallowExit :=
  .ite (.ite hs.fatalReset hs.deviceReset.raiseIncarn.of_eq.setReg.setReg.modFab.loadConfig.modPower.rungChanged.bootEvent) hs

theorem Kept.i3cAddress {a : BitVec 7} (hs : Kept s₀ s) : Kept s₀ (s.i3cAddress a) := .ite hs hs.modPower

/-! ## The operations of Machine/Security.lean -/

theorem Kept.attest {q : Nat} {sess : W32} {c : QCmd} (hs : Kept s₀ s) : Kept s₀ (s.attest q sess c) :=
  .ite hs.complete hs.fresh.complete

theorem Kept.deny {q : Nat} {sess : W32} {c : QCmd} {why : Nat} (hs : Kept s₀ s) : Kept s₀ (s.deny q sess c why) :=
  hs.modSec.errBump.fresh.raise.complete

theorem Kept.denyOpen {q : Nat} {sess : W32} {c : QCmd} (hs : Kept s₀ s) : Kept s₀ (s.denyOpen q sess c) :=
  hs.fresh.complete

theorem Kept.fwBegin {q : Nat} {sess : W32} {c : QCmd} (hs : Kept s₀ s) : Kept s₀ (s.fwBegin q sess c) :=
  .ite hs.complete (.ite hs.complete (.ite hs.deny (hs.modFlash (FusesForward.refl _).modSlot).modSec.complete))

theorem Kept.fwData {q : Nat} {sess : W32} {c : QCmd} (hs : Kept s₀ s) : Kept s₀ (s.fwData q sess c) := by
  unfold State.fwData
  extract_lets p
  split
  · exact hs.complete
  · split
    · exact hs.denyOpen
    · exact .ite hs.deny (hs.modFlash (FusesForward.refl _).modSlot).complete

theorem Kept.fwCommit {q : Nat} {sess : W32} {c : QCmd} (hs : Kept s₀ s) : Kept s₀ (s.fwCommit q sess c) := by
  unfold State.fwCommit
  split
  · exact hs.complete
  · split
    · exact hs.denyOpen
    · exact .ite hs.deny (hs.modFlash (FusesForward.refl _).modSlot).modSec.complete

theorem Kept.raiseArb {q : Nat} {sess : W32} {c : QCmd} (hs : Kept s₀ s) : Kept s₀ (s.raiseArb q sess c) :=
  .ite hs.deny (hs.modFlash ⟨Nat.le_max_left .., fun _ h => h, fun _ h => h, rfl, rfl⟩).complete

/-- A revocation mask takes more bits. -/
theorem FusesForward.revoke {f g : FlashSt} {m : BitVec 4} (h : FusesForward f g) : FusesForward f { g with revoked := g.revoked ||| m } :=
  h.trans ⟨Nat.le_refl _, fun k hk => by simp [hk], fun _ h => h, rfl, rfl⟩

theorem Kept.fwConfirm {q : Nat} {sess : W32} {c : QCmd} (hs : Kept s₀ s) : Kept s₀ (s.fwConfirm q sess c) := by
  refine .ite hs.complete (.ite hs.denyOpen (Kept.modSec (hs.modFlash ?_)).raiseArb)
  refine FusesForward.revoke ?_
  have h := (FusesForward.refl s.flash).modSlot (k := s.sec.slot) (u := fun x => { x with state := 4 })
  split
  · exact h.modSlot
  · exact h

theorem Kept.fwRaise {q : Nat} {sess : W32} {c : QCmd} (hs : Kept s₀ s) : Kept s₀ (s.fwRaise q sess c) :=
  .ite hs.complete (.ite hs.denyOpen hs.raiseArb)

theorem Kept.fwAbort {q : Nat} {sess : W32} {c : QCmd} (hs : Kept s₀ s) : Kept s₀ (s.fwAbort q sess c) := by
  unfold State.fwAbort
  split
  · exact hs.complete
  · split
    · exact hs.denyOpen
    · exact (hs.modFlash (FusesForward.refl _).modSlot).modSec.complete

theorem Kept.ownerEnrol {q : Nat} {sess : W32} {c : QCmd} (hs : Kept s₀ s) : Kept s₀ (s.ownerEnrol q sess c) := by
  unfold State.ownerEnrol
  extract_lets p key t
  split
  · exact hs.complete
  · split
    · exact hs.deny
    · split
      · exact hs.deny
      · next howner =>
        have ht : Kept s₀ t := Kept.setRegF (hs.modFlash ⟨Nat.le_refl _, fun _ h => h, fun o ho => by simp [ho] at howner, rfl, rfl⟩)
        exact .ite hs.deny ht.complete

theorem Kept.jtagChallenge (hs : Kept s₀ s) : Kept s₀ s.jtagChallenge := .ite hs (.ite hs.modSec hs.fresh.fresh.fresh.fresh.modSec)

theorem Kept.jtagResponse {b : List Byte} (hs : Kept s₀ s) : Kept s₀ (s.jtagResponse b) :=
  .ite hs (.ite hs.modSec.fresh.raise hs.modSec.errBump)

theorem Kept.fwRow {q op : Nat} {payload : List Byte} {f : State → W32 → QCmd → State} (hs : Kept s₀ s)
    (hf : ∀ {t} i j, Kept s₀ t → Kept s₀ (f t i j)) :
    Kept s₀ (s.fwRow q op payload f) :=
  
  .ite (hs.hostDo fun _ _ hs => hf _ _ hs) hs

/-! ## The operations of Machine/Errors.lean -/

theorem Kept.dropRequests {c : Nat} (hs : Kept s₀ s) : Kept s₀ (s.dropRequests c) := hs.of_eq

theorem CellSt.Good.restart {mode : CellMode} {starts : List W64} {now : W64} (hx : x.Good) : (x.restart mode starts now).Good where
  opmem := rfl
  bars := hx.bars
  regs := List.forall_mem_map.2 fun t ht => (t.restart_regs_length x.tick).trans (hx.regs t ht)

theorem Kept.cellRestart {c : Nat} (hs : Kept s₀ s) : Kept s₀ (s.cellRestart c) :=
  .ite hs (.share (hs.errBump.abortPrograms.dropRequests.flushCache.barCellRestart.foldl fun hs => hs.setReg) fun ht => .ite (ht.modCell
    fun hx => hx.restart).requeueCell.fresh.seeClass.raise (ht.modCell fun hx => hx.restart))

theorem Kept.parityError {c : Nat} (hs : Kept s₀ s) : Kept s₀ (s.parityError c) := .ite hs.fresh.seeClass.raise hs

theorem Kept.restartDone {c : Nat} (hs : Kept s₀ s) : Kept s₀ (s.restartDone c) := .ite hs (.ite hs.fatalReset hs.requeueCell.modCell)

theorem Kept.forward {f : Nat} (hs : Kept s₀ s) : Kept s₀ (s.forward f) := by
  unfold State.forward
  split
  · exact hs
  · split
    · exact hs
    · exact hs.of_eq.lookoutReport

theorem Kept.clearErrs (hs : Kept s₀ s) : Kept s₀ s.clearErrs := hs.step fun h => { h with regs := filter_wf _ _ _ h.regs }

/-! ## The operations of Machine/XCore.lean -/

theorem Kept.xIssue {c cls op : Nat} {w : W64} {f : Prog → State} (hs : Kept s₀ s) (hf : ∀ i, Kept s₀ (f i)) : Kept s₀ (s.xIssue c cls op w f) :=
  hs.engineIssue fun _ => hf _

theorem Kept.xFault {c code info : Nat} (hs : Kept s₀ s) : Kept s₀ (s.xFault c code info) := hs.engineFault

theorem Kept.modHold {c : Nat} {f : XHold → XHold} (hs : Kept s₀ s) : Kept s₀ (s.modHold c f) := hs.modCell

theorem Kept.loopNums {p : Prog} (hs : Kept s₀ s) : Kept s₀ (s.loopNums p).2 := by
  unfold State.loopNums
  split
  · exact .mk_snd hs
  · exact .mk_snd hs.of_eq

theorem Kept.xHold {c n : Nat} {choice : Bool × Option Nat} {pair : Pair} {li : List Nat} {own : Option LateM} (hs : Kept s₀ s) :
    Kept s₀ (s.xHold c n choice pair li own) :=
  
  hs.modCell

theorem Kept.pull {c i port need : Nat} {h : ReadAs} (hs : Kept s₀ s) : Kept s₀ (s.pull c i port need h).2 := by
  dsimp only [State.pull]
  split
  · exact .mk_snd hs
  · split
    · exact .mk_snd (hs.modCell fun hx => .ite hx.modChute.of_eq hx.modChute).modHold
    · split
      · exact .mk_snd hs
      · exact .mk_snd hs.modHold

theorem Kept.xStop {c port : Nat} {xn : XStop} (hs : Kept s₀ s) : Kept s₀ (s.xStop c port xn) := by
  dsimp only [State.xStop]
  split
  · exact hs.modCell
  · exact hs.xFault

theorem Kept.pullThen {c i port need : Nat} {h : ReadAs} {f : State → State} (hs : Kept s₀ s) (hf : ∀ {t}, Kept s₀ t → Kept s₀ (f t)) :
    Kept s₀ (s.pullThen c i port need h f) := by
  unfold State.pullThen
  split
  · rename_i he
    exact hf (hs.pull.snd_eq he)
  · rename_i he
    exact (hs.pull.snd_eq he).xStop

theorem Kept.putOut {c i port off : Nat} {b : List Byte} (hs : Kept s₀ s) : Kept s₀ (s.putOut c i port off b) :=
  .ite hs (.ite hs.modHold (hs.modCell fun hx => hx.opWrite))

theorem Kept.flushOut {c i port : Nat} (hs : Kept s₀ s) : Kept s₀ (s.flushOut c i port) := hs.modHold

theorem CellSt.Good.pushGo {l : List (Nat × Slot)} (hx : x.Good) : (pushGo x l).1.Good := by
  induction l generalizing x with
  | nil => exact hx
  | cons a l ih =>
    unfold Machine.pushGo
    split
    · exact hx
    · exact ih hx.push

theorem Kept.pushOuts {c : Nat} (hs : Kept s₀ s) : Kept s₀ (s.pushOuts c).2 := .mk_snd (hs.setCell fun h => (h.cell _).pushGo).modHold

theorem Kept.countCvt {c : Nat} {e : List CvtEv} (hs : Kept s₀ s) : Kept s₀ (s.countCvt c e) :=
  .ite (.ite (.ite hs hs.countC.sumFlag) (Kept.ite hs hs.countC.sumFlag).countC.sumFlag) (Kept.ite (.ite hs hs.countC.sumFlag)
    (Kept.ite hs hs.countC.sumFlag).countC.sumFlag).countC.sumFlag

theorem Kept.setK {c j : Nat} {v : W32} (hs : Kept s₀ s) : Kept s₀ (s.setK c j v) := hs.modCell

theorem Kept.xNop {c : Nat} {w : W64} (hs : Kept s₀ s) : Kept s₀ (s.xNop c w) := hs.xIssue fun _ => hs.retire

theorem Kept.xSetk {c : Nat} {w : W64} (hs : Kept s₀ s) : Kept s₀ (s.xSetk c w) := hs.xIssue fun _ => hs.setK.retire

theorem Kept.xAddk {c : Nat} {w : W64} (hs : Kept s₀ s) : Kept s₀ (s.xAddk c w) := hs.xIssue fun _ => hs.setK.retire

theorem Kept.xLoop {c : Nat} {w : W64} (hs : Kept s₀ s) : Kept s₀ (s.xLoop c w) := hs.xIssue fun _ => hs.openLoop

theorem Kept.xMa {c : Nat} {w : W64} (hs : Kept s₀ s) : Kept s₀ (s.xMa c w) := hs.xIssue fun _ => hs.modCell.retire

theorem Kept.vsetvl {c : Nat} {w : W64} (hs : Kept s₀ s) : Kept s₀ (s.vsetvl c w) := hs.xIssue fun _ => hs.modCell.retire

/-! ## The operations of Machine/Matrix.lean -/

theorem CellSt.Good.modArr {f : ArraySt → ArraySt} (hx : x.Good) : (x.modArr f).Good := hx.of_eq

theorem Kept.modArr {c : Nat} {f : ArraySt → ArraySt} (hs : Kept s₀ s) : Kept s₀ (s.modArr c f) :=
  hs.modCell fun hx => hx.modArr

theorem CellSt.Good.rawWrite {a : Nat} {b : List Byte} (hx : x.Good) : (x.rawWrite a b).Good where
  opmem := memWrite_wf b x.opmem a hx.opmem
  bars := hx.bars
  regs := hx.regs

theorem CellSt.Good.setSpillRow {g : Geo} {t r : Nat} {v : List FVal} (hx : x.Good) : (x.setSpillRow g t r v).Good :=
  hx.rawWrite

theorem CellSt.Good.dropSpill {g : Geo} {t : Nat} (hx : x.Good) : (x.dropSpill g t).Good := hx.foldl fun hx => hx.rawWrite.rawWrite

theorem Kept.mStart {c op : Nat} {g : Geo} {w : W64} (hs : Kept s₀ s) : Kept s₀ (s.mStart c op g w) := hs.modArr

theorem Kept.mcfgGo {c : Nat} {w : W64} (hs : Kept s₀ s) : Kept s₀ (s.mcfgGo c w) := by
  refine .retire (hs.modCell fun {x} hx => ?_)
  exact { opmem := filter_memWf x.opmem _ hx.opmem, bars := hx.bars, regs := hx.regs }

theorem Kept.mldwGo {c : Nat} {w : W64} (hs : Kept s₀ s) : Kept s₀ (s.mldwGo c w) :=
  hs.pullThen fun hs => hs.pullThen fun hs => .ite hs.engineFault (.ite hs.retire hs.modArr.mStart.retire)

theorem Kept.mpreGo {c : Nat} {w : W64} (hs : Kept s₀ s) : Kept s₀ (s.mpreGo c w) :=
  hs.pullThen fun hs => .ite hs.retire (hs.modCell fun hx => hx.dropSpill.modArr).mStart.retire

theorem CellSt.Good.spillOne {g : Geo} {t r : Nat} (hx : x.Good) : (x.spillOne g t r).Good := by
  unfold CellSt.spillOne
  exact hx.setSpillRow.modArr

theorem Kept.spill {c : Nat} {g : Geo} {t r0 m : Nat} (hs : Kept s₀ s) : Kept s₀ (s.spill c g t r0 m) :=
  .ite hs (.ite hs (hs.modCell fun hx => (hx.foldl fun hx => hx.spillOne).modArr).countC)

theorem Kept.countPass {c : Nat} {g : Geo} {r : Replay} {holds : Nat} (hs : Kept s₀ s) : Kept s₀ (s.countPass c g r holds) := by
  unfold State.countPass
  extract_lets m groups
  split
  next v t he =>
    have ht : Kept s₀ t := by
      split at he
      · exact hs.fresh.snd_eq he
      · exact Kept.snd_eq (.mk_snd hs) he
    extract_lets busy other
    split
    next o u he =>
      have hu : Kept s₀ u := by
        clear_value other
        cases other with
        | true => exact ht.fresh.snd_eq he
        | false => exact Kept.snd_eq (.mk_snd ht) he
      exact .ite hu.countC.countC.countC.countC.countC.countC hu.countC.countC.countC

theorem CellSt.Good.imageRows {g : Geo} {t r0 m : Nat} (hx : x.Good) : (x.imageRows g t r0 m).Good := hx.foldl fun hx => hx.rawWrite

theorem Kept.passDone {c : Nat} {g : Geo} {r : Replay} {feet : List (List Foot)} (hs : Kept s₀ s) : Kept s₀ (s.passDone c g r feet) :=
  hs.modArr.modArr.sumFlagIf.sumFlagIf.sumFlagIf.countC.countC

theorem Kept.pass {c : Nat} {r : Replay} (hs : Kept s₀ s) : Kept s₀ (s.pass c r) :=
  .share (.ite ((Kept.ite hs.of_eq hs).modCell fun hx => hx.imageRows) (.ite hs.of_eq hs)) fun ht =>
    .ite ht.countPass.modArr.modArr ht.countPass.modArr.passDone

theorem Kept.mmulEnter {c : Nat} {w : W64} {rows : List (List Byte)} {nz : List (List Nat)} {scales : List Byte} (hs : Kept s₀ s) :
    Kept s₀ (s.mmulEnter c w rows nz scales) := by
  unfold State.mmulEnter
  extract_lets x g t f clash
  clear_value clash
  split
  · exact hs.xFault
  · split
    extract_lets u v y r
    have hu : Kept s₀ u := by
      dsimp only [u]
      split
      · exact hs.countC
      · exact hs
    clear_value u
    exact hu.modArr.spill.mStart.pass.retire

theorem Kept.mmulBlock {c : Nat} {w : W64} {skip : Bool} (hs : Kept s₀ s) : Kept s₀ (s.mmulBlock c w skip) := by
  dsimp only [State.mmulBlock]
  refine hs.pullThen fun hs => ?_
  split
  · exact hs.engineFault
  · refine hs.pullThen fun hs => ?_
    refine hs.pullThen fun hs => ?_
    split
    · exact hs.retire
    · split
      · exact hs.engineFault
      · exact hs.mmulEnter

theorem Kept.mmulRows {c : Nat} {w : W64} {skip : Bool} (hs : Kept s₀ s) : Kept s₀ (s.mmulRows c w skip) :=
  hs.pullThen fun hs => hs.pullThen fun hs => .ite hs.retire hs.mmulEnter

theorem Kept.mmulGo {c : Nat} {w : W64} (hs : Kept s₀ s) : Kept s₀ (s.mmulGo c w) := .ite hs.mmulBlock hs.mmulRows

theorem CellSt.Good.scaleTile {g : Geo} {t : Nat} (hx : x.Good) : (x.scaleTile g t).Good := by
  unfold CellSt.scaleTile
  exact (CellSt.Good.ite (hx.foldl fun hx => hx.setSpillRow) hx).modArr

theorem CellSt.Good.restoreRows {g : Geo} {t r0 m : Nat} (hx : x.Good) : (x.restoreRows g t r0 m).Good :=
  hx.foldl fun hx => hx.modArr

theorem Kept.audit {c n : Nat} (hs : Kept s₀ s) : Kept s₀ (s.audit c n) :=
  .share (.ite hs.countC.countC.countC hs.countC) fun ht => .ite (.ite ht.modCell.setBits.fresh.raise ht.modCell.setBits) ht.modCell

theorem Kept.drainEnd {c : Nat} {w : W64} (hs : Kept s₀ s) : Kept s₀ (s.drainEnd c w) := by
  unfold State.drainEnd
  extract_lets x g ovf t u
  have ht : Kept s₀ t := .ite hs.modArr.sumFlag.countC hs
  have hu : Kept s₀ u := by
    clear_value t
    dsimp only [u]
    split
    · exact ht.countC
    · exact ht.audit
    · exact ht
  exact hu.mStart.retire

theorem Kept.drainGo {c n : Nat} {w : W64} (hs : Kept s₀ s) : Kept s₀ (s.drainGo c w n) := by
  induction n generalizing s with
  | zero => exact hs
  | succ n ih =>
    unfold State.drainGo
    split
    · next he => exact (hs.pushOuts.snd_eq he).xStop
    · next he =>
      have ht := hs.pushOuts.snd_eq he
      extract_lets x g h skip need
      refine .ite (.ite ht.drainEnd (ih ht.flushOut.flushOut)) ?_
      clear_value need
      split
      · next he => exact (ht.pull.snd_eq he).xStop
      · next he => exact .share (ht.pull.snd_eq he).putOut.putOut.countC.countCvt fun hu => ih (Kept.ite hu.countC.sumFlag hu).modHold

theorem Kept.mdrainGo {c : Nat} {w : W64} (hs : Kept s₀ s) : Kept s₀ (s.mdrainGo c w) := hs.drainGo

theorem Kept.mGo {c op : Nat} {w : W64} (hs : Kept s₀ s) : Kept s₀ (s.mGo c op w) := by
  unfold State.mGo
  split
  · exact hs.mcfgGo
  · exact hs.mldwGo
  · exact hs.mpreGo
  · exact hs.mmulGo
  · exact hs.mdrainGo

theorem Kept.mRun {c : Nat} {i : LateM} {own : Option LateM} (hs : Kept s₀ s) : Kept s₀ (s.mRun c i own) := by
  dsimp only [State.mRun]
  split
  · exact hs.xHold.engineFault
  · exact hs.xHold.mGo

theorem Kept.lateGo {c n : Nat} (hs : Kept s₀ s) : Kept s₀ (s.lateGo c n) := by
  induction n generalizing s with
  | zero => exact hs
  | succ n ih =>
    unfold State.lateGo
    split
    · split
      · exact hs
      · exact ih hs.modCell.mRun
    · exact hs

theorem Kept.lateRun {c : Nat} (hs : Kept s₀ s) : Kept s₀ (s.lateRun c) := hs.lateGo

theorem Kept.mIssue {c op : Nat} {w : W64} (hs : Kept s₀ s) : Kept s₀ (s.mIssue c op w) := by
  unfold State.mIssue
  extract_lets x g
  refine hs.xIssue fun p => ?_
  refine .ite hs (.ite hs.engineFault ?_)
  split
  next li t he =>
    have ht : Kept s₀ t := by
      cases op with
      | zero => exact Kept.snd_eq (.mk_snd hs) he
      | succ n => exact hs.loopNums.snd_eq he
    split
    · exact ht.engineFault
    · split
      · exact ht.engineFault
      · exact .ite ht.mRun (ht.modCell fun hx => hx.modProg.of_eq)

theorem Kept.mcfg {c : Nat} {w : W64} (hs : Kept s₀ s) : Kept s₀ (s.mcfg c w) := hs.mIssue

theorem Kept.mldw {c : Nat} {w : W64} (hs : Kept s₀ s) : Kept s₀ (s.mldw c w) := hs.mIssue

theorem Kept.mpre {c : Nat} {w : W64} (hs : Kept s₀ s) : Kept s₀ (s.mpre c w) := hs.mIssue

theorem Kept.mmul {c : Nat} {w : W64} (hs : Kept s₀ s) : Kept s₀ (s.mmul c w) := hs.mIssue

theorem Kept.mdrain {c : Nat} {w : W64} (hs : Kept s₀ s) : Kept s₀ (s.mdrain c w) := hs.mIssue

theorem Kept.overflowReplay {c : Nat} (hs : Kept s₀ s) : Kept s₀ (s.overflowReplay c) := by
  dsimp only [State.overflowReplay]
  split
  · exact hs
  · exact .ite (hs.modCell fun hx => hx.restoreRows.scaleTile.modArr).countC.pass.lateRun hs

theorem Kept.mComplete {c : Nat} {take : ArraySt → Option MOp × List MOp} {f : MOp → State → State} (hs : Kept s₀ s)
    (hf : ∀ {t} i, Kept s₀ t → Kept s₀ (f i t)) :
    Kept s₀ (s.mComplete c take f) := by
  unfold State.mComplete
  split
  · split
    · exact hs
    · exact (hf _ hs.modArr).lateRun
  · exact hs

theorem Kept.mldwComplete {c : Nat} (hs : Kept s₀ s) : Kept s₀ (s.mldwComplete c) := by
  unfold State.mldwComplete
  exact hs.mComplete fun _ hs => hs.modArr.countC

theorem Kept.mpreComplete {c : Nat} (hs : Kept s₀ s) : Kept s₀ (s.mpreComplete c) := by
  unfold State.mpreComplete
  exact hs.mComplete fun _ hs => hs

theorem Kept.mmulComplete {c : Nat} (hs : Kept s₀ s) : Kept s₀ (s.mmulComplete c) := by
  unfold State.mmulComplete
  exact hs.mComplete fun _ hs => hs

theorem Kept.mdrainComplete {c : Nat} (hs : Kept s₀ s) : Kept s₀ (s.mdrainComplete c) := by
  unfold State.mdrainComplete
  exact hs.mComplete fun _ hs => hs

/-! ## The operations of Machine/View.lean -/

theorem Kept.clearRc {a : Nat} (hs : Kept s₀ s) : Kept s₀ (s.clearRc a) := by
  dsimp only [State.clearRc]
  split
  · exact .ite hs.setRegF hs
  · exact .ite hs.modLanding hs
  · exact .ite hs.setReg hs
  · exact hs

/-! ## The operations of Machine/RegIo.lean -/

theorem Kept.takeUnit {j u : Nat} (hs : Kept s₀ s) : Kept s₀ (s.takeUnit j u) := (hs.foldl fun hs => hs.clearRc).of_eq

theorem Kept.take {j scope : Nat} (hs : Kept s₀ s) : Kept s₀ (s.take j scope) := by
  dsimp only [State.take]
  split
  · exact hs
  · exact (hs.foldl fun hs => hs.takeUnit).of_eq

theorem Kept.release {j scope : Nat} (hs : Kept s₀ s) : Kept s₀ (s.release j scope) := hs.of_eq

theorem Kept.touchReg {a : Nat} (hs : Kept s₀ s) : Kept s₀ (s.touchReg a) := by
  unfold State.touchReg
  split
  · exact hs.unpark
  · exact hs

theorem Kept.readReg {j a : Nat} (hs : Kept s₀ s) : Kept s₀ (s.readReg j a).2 := by
  dsimp only [State.readReg]
  split
  · exact .mk_snd hs
  · split
    · exact .mk_snd hs.touchReg
    · exact .mk_snd hs.touchReg.clearRc

theorem Kept.readRegs {j : Nat} {l : List Nat} (hs : Kept s₀ s) : Kept s₀ (s.readRegs j l).2 := by
  induction l generalizing s with
  | nil => exact hs
  | cons a l ih => exact ih hs.readReg

theorem Kept.plainReg {a : Nat} {v : W32} (hs : Kept s₀ s) : Kept s₀ (s.plainReg a v) := .ite hs hs.setReg

theorem Kept.snapCtl {j scope : Nat} {v : W32} (hs : Kept s₀ s) : Kept s₀ (s.snapCtl j scope v) :=
  .ite (Kept.ite hs.release hs).take (.ite hs.release hs)

theorem Kept.writeErrs {o a : Nat} {v : W32} (hs : Kept s₀ s) : Kept s₀ (s.writeErrs o a v) :=
  .ite hs.of_eq (.ite (.ite hs.clearErrs hs) (.ite hs.plainReg.snapCtl (.ite hs.plainReg.snapCtl (.ite (.ite hs.cellRestart hs) hs))))

theorem Kept.writeEth {o a : Nat} {v : W32} (hs : Kept s₀ s) : Kept s₀ (s.writeEth o a v) :=
  .ite (.ite hs.plainReg (.ite hs.plainReg.modEth hs.plainReg.modEth)) (.ite hs hs.plainReg)

theorem Kept.linkEnable {l : Nat} {on : Bool} (hs : Kept s₀ s) : Kept s₀ (s.linkEnable l on) :=
  .ite (.ite hs.modLink hs) (Kept.ite hs.linkDown hs).modLink

theorem Kept.writeFab {o a : Nat} {v : W32} (hs : Kept s₀ s) : Kept s₀ (s.writeFab o a v) :=
  .ite (.ite hs.plainReg.modFab hs) (.ite (.ite hs.plainReg hs) (.ite (.ite (Kept.ite hs.found hs).join (.ite hs.found hs)) (.ite (hs.plainReg.foldl
    fun hs => .ite hs hs.linkEnable) (.ite hs.modFab.releaseHeld (.ite hs hs.plainReg)))))

theorem Kept.writeSched {o a : Nat} {v : W32} (hs : Kept s₀ s) : Kept s₀ (s.writeSched o a v) :=
  .ite (.ite hs.barEnable hs.barDisable) hs.plainReg

theorem Kept.writeCell {c o a : Nat} {v : W32} (hs : Kept s₀ s) : Kept s₀ (s.writeCell c o a v) :=
  .ite (.ite hs.plainReg.maintStart.modCell hs.plainReg) (.ite hs (.ite hs.snapCtl hs.plainReg))

theorem Kept.writeReg {i3c : Bool} {a : Nat} {v : W32} (hs : Kept s₀ s) : Kept s₀ (s.writeReg i3c a v) := by
  dsimp only [State.writeReg]
  split
  · exact hs
  · split
    · exact hs.touchReg.writeErrs
    · exact .ite hs.touchReg hs.touchReg.plainReg
    · exact .ite hs.touchReg.plainReg.thermCheck hs.touchReg.plainReg
    · exact hs.touchReg.writeEth
    · exact hs.touchReg.writeFab
    · exact hs.touchReg.writeSched
    · exact hs.touchReg.writeCell
    · exact hs.touchReg.plainReg

theorem Kept.writeRegs {i3c : Bool} {l : List (Nat × W32)} (hs : Kept s₀ s) : Kept s₀ (s.writeRegs i3c l) := hs.foldl fun hs => hs.writeReg

theorem Kept.regRead {q : Nat} {sess : W32} {c : QCmd} (hs : Kept s₀ s) : Kept s₀ (s.regRead q sess c) :=
  .ite hs.complete hs.readRegs.complete

theorem Kept.regWrite {q : Nat} {sess : W32} {c : QCmd} (hs : Kept s₀ s) : Kept s₀ (s.regWrite q sess c) :=
  .ite hs.complete hs.writeRegs.complete

theorem Kept.pathRead {p : RegPath} {a n : Nat} (hs : Kept s₀ s) : Kept s₀ (s.pathRead p a n) := by
  unfold State.pathRead
  cases p with
  | i3c =>
    split
    · exact hs.modPower
    · exact hs.modPower
    · exact hs
    · exact hs.wakeByUse
    · exact .modPower hs.readRegs
  | jtag =>
    split
    · exact hs
    · exact hs
    · exact hs
    · exact hs.wakeByUse
    · exact .modSec hs.readRegs

theorem Kept.pathWrite {p : RegPath} {a : Nat} {v : W32} (hs : Kept s₀ s) : Kept s₀ (s.pathWrite p a v) := by
  unfold State.pathWrite
  split
  · split
    · exact hs.modPower
    · exact hs
  · split
    · exact hs.modPower
    · exact hs
  · exact hs
  · exact hs.wakeByUse
  · split
    · exact hs.writeReg.modPower
    · exact hs.writeReg

theorem Kept.sRdreg {th : ThreadRef} {w : W64} (hs : Kept s₀ s) : Kept s₀ (s.sRdreg th w) :=
  hs.thIssue (.ite hs.thFault (.ite hs.thRet hs.readReg.thRet))

theorem Kept.sWrreg {th : ThreadRef} {w : W64} (hs : Kept s₀ s) : Kept s₀ (s.sWrreg th w) :=
  hs.thIssue (.ite hs.thFault (.ite hs.thNext hs.thNext.writeReg))

/-! ## The operations of Machine/Time.lean -/

theorem CellSt.Good.run {n acc : Nat} {now : W64} (hx : x.Good) : (x.run n acc now).Good := hx.of_eq

theorem Kept.countSome {c i n : Nat} (hs : Kept s₀ s) : Kept s₀ (s.countSome c i n) := .ite hs hs.countC

theorem Kept.cellTime {dt c : Nat} (hs : Kept s₀ s) : Kept s₀ (s.cellTime dt c) :=
  .ite hs ((hs.modCell fun hx => hx.run).capCycles.countSome.countSome.countSome.foldl fun hs => hs.countSome)

theorem CellSt.Good.tickOne {active : Bool} (hx : x.Good) : (x.tickOne active).Good := by
  refine { hx with regs := List.forall_mem_map.2 fun t ht => ?_ }
  split
  · exact hx.regs t ht
  · exact hx.regs t ht

theorem Kept.tickAll (hs : Kept s₀ s) : Kept s₀ s.tickAll :=
  hs.step fun h => { h with cells := List.forall_mem_map.2 fun x hx => (h.cells x hx).tickOne, tick := Nat.le_max_left .. }

theorem Kept.elapse {dt : Nat} (hs : Kept s₀ s) : Kept s₀ (s.elapse dt) :=
  .ite hs (.ite (.share (hs.of_eq.foldl fun hs => hs.cellTime) fun ht => .ite ht.tickAll ht) hs.of_eq)

theorem Kept.idle (hs : Kept s₀ s) : Kept s₀ s.idle := hs.elapse

theorem Kept.tickBoundary (hs : Kept s₀ s) : Kept s₀ s.tickBoundary := hs.elapse

/-! ## The operations of Machine/Vector.lean -/

theorem Kept.vStart {c : Nat} {tile : Option Nat} {o : VOut} (hs : Kept s₀ s) : Kept s₀ (s.vStart c tile o) := by
  unfold State.vStart
  exact ((Kept.ite hs.countC.countC hs.countC.countC.countC).countCvt.foldl fun hs => hs.sumFlag).modCell.retire

theorem Kept.vIssue {c cls op : Nat} {w : W64} {f : CellSt → VRes} (hs : Kept s₀ s) : Kept s₀ (s.vIssue c cls op w f) := by
  dsimp only [State.vIssue]
  refine hs.xIssue fun _ => ?_
  split
  · exact hs
  · split
    · exact hs.engineFault
    · exact hs.vStart

theorem Kept.vHold {c op : Nat} {w : W64} {checks : CellSt → Prog → List Nat → List (Option (Nat × W64))} {uses : CellSt → List Nat → List PortUse}
    {go : State → State} (hs : Kept s₀ s) (hgo : ∀ {t}, Kept s₀ t → Kept s₀ (go t)) :
    Kept s₀ (s.vHold c op w checks uses go) := by
  dsimp only [State.vHold]
  refine hs.xIssue fun _ => ?_
  split
  · exact hs
  · split
    · exact hs.loopNums.engineFault
    · exact hgo hs.loopNums.xHold

theorem Kept.vldGo {c : Nat} {w : W64} (hs : Kept s₀ s) : Kept s₀ (s.vldGo c w) := hs.pullThen fun hs => hs.vStart

theorem Kept.vld {c : Nat} {w : W64} (hs : Kept s₀ s) : Kept s₀ (s.vld c w) := by
  unfold State.vld
  exact hs.vHold fun hs => hs.vldGo

theorem Kept.vstPush {c k : Nat} {l : List (List Byte)} (hs : Kept s₀ s) : Kept s₀ (s.vstPush c k l).2 := by
  induction l generalizing s with
  | nil => exact hs
  | cons b l ih =>
    unfold State.vstPush
    split
    · exact hs
    · exact ih (hs.modCell fun hx => hx.push).modHold

theorem Kept.vstGo {c : Nat} {w : W64} (hs : Kept s₀ s) : Kept s₀ (s.vstGo c w) := by
  dsimp only [State.vstGo]
  split
  · split
    · rename_i he
      exact (hs.vstPush.snd_eq he).vStart
    · rename_i he
      exact (hs.vstPush.snd_eq he).xStop
  · exact hs.vStart

theorem Kept.vst {c : Nat} {w : W64} (hs : Kept s₀ s) : Kept s₀ (s.vst c w) := by
  unfold State.vst
  exact hs.vHold fun hs => hs.vstGo

theorem Kept.modCarry {c : Nat} {f : Carry → Carry} (hs : Kept s₀ s) : Kept s₀ (s.modCarry c f) := hs.modCell

theorem Kept.segEmit {c : Nat} {w : W64} {p : Prog} {row : List W32} {t : State} (hs : Kept s₀ s) (he : s.segEmit c w p row = .ok t) :
    Kept s₀ t := by
  unfold State.segEmit at he
  extract_lets x b off at he
  generalize x.portFault p _ _ _ = fault at he
  cases fault with
  | some e => cases he
  | none =>
    cases he
    exact hs.putOut.modHold.modCarry.countC

theorem Kept.segLength {c : Nat} {w : W64} {p : Prog} {t : State} (hs : Kept s₀ s) (he : s.segLength c w p = .ok t) : Kept s₀ t := by
  unfold State.segLength at he
  extract_lets x len zeros at he
  split at he
  · split at he
    · exact hs.segEmit he
    · cases he
      exact hs.modCarry
  · split at he
    · cases he
    · exact hs.segEmit he

theorem Kept.segAdd {c : Nat} {w : W64} {p : Prog} {t : State} (hs : Kept s₀ s) (he : s.segAdd c w p = .ok t) : Kept s₀ t := by
  unfold State.segAdd at he
  extract_lets x sum u at he
  have hu : Kept s₀ u := hs.modCarry.modHold
  clear_value u
  split at he
  · exact hu.modCarry.segEmit he
  · cases he
    exact hu

theorem Kept.segEnd {c : Nat} {w : W64} (hs : Kept s₀ s) : Kept s₀ (s.segEnd c w) := hs.vStart

theorem Kept.segGo {c n : Nat} {w : W64} {p : Prog} (hs : Kept s₀ s) : Kept s₀ (s.segGo c w p n) := by
  induction n generalizing s with
  | zero => exact hs
  | succ n ih =>
    unfold State.segGo
    split
    · next he => exact (hs.pushOuts.snd_eq he).xStop
    · next he =>
      have ht := hs.pushOuts.snd_eq he
      extract_lets x go
      have hgo {t : State} {r : Except (Nat × W64) State} (ht : Kept s₀ t) (hr : ∀ {u}, r = .ok u → Kept s₀ u) : Kept s₀ (go r t) := by
        cases r with
        | ok u => exact ih (hr rfl)
        | error e => exact ht.engineFault
      clear_value go
      split
      · exact ht.xFault
      · exact hgo ht ht.segAdd
      · exact .ite ht.segEnd (ih ht.flushOut)
      · split
        · exact ht.engineFault
        · split
          · next he => exact (ht.pull.snd_eq he).xStop
          · next he =>
            have hu := ht.pull.snd_eq he
            exact hgo hu hu.modHold.segLength

theorem Kept.vsegsumGo {c : Nat} {w : W64} (hs : Kept s₀ s) : Kept s₀ (s.vsegsumGo c w) := by
  unfold State.vsegsumGo
  split
  · exact hs.segGo
  · exact hs

theorem Kept.vsegsum {c : Nat} {w : W64} (hs : Kept s₀ s) : Kept s₀ (s.vsegsum c w) :=
  hs.vHold fun hs => (Kept.ite hs.modCarry hs).vsegsumGo

theorem Kept.vsummary {c : Nat} {w : W64} (hs : Kept s₀ s) : Kept s₀ (s.vsummary c w) := hs.xIssue fun _ => .ite hs hs.vStart

theorem Kept.vPost {c : Nat} {v : W64} {flag : Nat} (hs : Kept s₀ s) : Kept s₀ (s.vPost c v flag) := by
  dsimp only [State.vPost]
  split
  · exact hs
  · exact .ite hs.countC.countC ((Kept.ite hs.countC.countC hs.countC).modThread fun t => by exact Thread.orFlags_regs_length _ _)

theorem Kept.vpredRun {c : Nat} {w : W64} {d : PDesc} (hs : Kept s₀ s) : Kept s₀ (s.vpredRun c w d) :=
  (Kept.ite hs.of_eq.countC hs).vStart

theorem Kept.vpred {c : Nat} {w : W64} (hs : Kept s₀ s) : Kept s₀ (s.vpred c w) := by
  unfold State.vpred
  extract_lets x m
  refine hs.xIssue fun p => ?_
  split
  next he =>
    extract_lets t a bad b
    have ht : Kept s₀ t := hs.loopNums.snd_eq he
    clear_value t
    have hbad : Kept s₀ bad := ht.engineFault
    clear_value bad
    refine .ite hs (.ite ht.engineFault (.ite hbad ?_))
    split
    · exact ht.xFault
    · refine .ite hbad ?_
      generalize (if t.regBit (rCell c 0xB0) 0 then _ else _ : Option Nat) = poisoned
      cases poisoned with
      | some k => exact ht.xFault
      | none => exact ht.vpredRun

theorem Kept.vFinish {c : Nat} {f : VecFin} (hs : Kept s₀ s) : Kept s₀ (s.vFinish c f) := by
  unfold State.vFinish
  extract_lets t
  have ht : Kept s₀ t := by
    refine hs.modCell fun {x} hx => ?_
    extract_lets y old z
    have hy : y.Good := by
      dsimp only [y]
      split
      · exact hx.opWrite
      · exact hx
    have hz : z.Good := by
      clear_value y
      dsimp only [z]
      split
      · exact hy.of_eq
      · exact hy
    exact hz.of_eq
  clear_value t
  split
  · exact ht.vPost
  · exact ht

theorem Kept.vClassBusyEnd {c : Nat} (hs : Kept s₀ s) : Kept s₀ (s.vClassBusyEnd c) := by
  unfold State.vClassBusyEnd
  split
  · exact .ite hs.vFinish.lateRun hs
  · exact hs

theorem Kept.xResume {c : Nat} {w : W64} (hs : Kept s₀ s) : Kept s₀ (s.xResume c w) := by
  dsimp only [State.xResume]
  split
  · exact hs.modCell.mldwGo
  · exact hs.modCell.mpreGo
  · exact hs.modCell.mmulGo
  · exact hs.modCell.mdrainGo
  · exact hs.modCell.vsegsumGo
  · exact hs.modCell.vldGo
  · exact hs.modCell.vstGo
  · exact hs.modCell

theorem Kept.chuteWaitEnd {c : Nat} {e : Engine} (hs : Kept s₀ s) : Kept s₀ (s.chuteWaitEnd c e) := by
  unfold State.chuteWaitEnd
  split
  · exact hs
  · split
    · exact .ite hs.pumpA hs
    · split
      · exact hs.xResume.lateRun
      · exact hs

/-! ## The instructions -/

/-- The queue of frames that would open a session. -/
theorem Kept.exec_sessionOpen {q : Nat} {payload : List Byte} (hs : Kept s₀ s) : ∃ t, exec (.sessionOpen q payload) s = .next t ∧ Kept s₀ t := by
  refine ⟨_, rfl, ?_⟩
  split
  · exact hs
  · split
    · exact hs.modEth
    · exact .ite hs.modEth.sessionOpen hs

/-- Every instruction answers a next state. -/
theorem Kept.exec_next (hs : Kept s₀ s) : ∀ i : Instr, ∃ t, exec i s = .next t ∧ Kept s₀ t
  | .objCreate .. => ⟨_, rfl, hs.hostDo fun _ _ hs => hs.objCreate⟩
  | .objFree .. => ⟨_, rfl, hs.hostDo fun _ _ hs => hs.handleCmd fun _ hs => hs.askFree⟩
  | .objSeal .. => ⟨_, rfl, hs.hostDo fun _ _ hs => hs.handleCmd fun _ hs => hs.askSeal⟩
  | .objQuery .. => ⟨_, rfl, hs.hostDo fun _ _ hs => hs.objQuery⟩
  | .objHint .. => ⟨_, rfl, hs.hostDo fun _ _ hs => hs.handleCmd fun _ hs => hs.askHint⟩
  | .objRead .. => ⟨_, rfl, hs.hostDo fun _ _ hs => hs.objAccess⟩
  | .objWrite .. => ⟨_, rfl, hs.hostDo fun _ _ hs => hs.objAccess⟩
  | .plcQueryPlot .. => ⟨_, rfl, .ite hs (hs.hostDo fun _ _ hs => hs.queryPlot)⟩
  | .plcQueryWorkSet .. => ⟨_, rfl, .ite hs (hs.hostDo fun _ _ hs => hs.queryWork)⟩
  | .workSet .. => ⟨_, rfl, hs.hostDo fun _ _ hs => hs.startWork⟩
  | .workItemRebalance .. => ⟨_, rfl, hs.rebalance⟩
  | .progLoad .. => ⟨_, rfl, .ite hs (hs.hostDo fun _ _ hs => hs.progLoad)⟩
  | .threadStart .. => ⟨_, rfl, hs.hostDo fun _ _ hs => hs.threadStart⟩
  | .threadStop .. => ⟨_, rfl, hs.hostDo fun _ _ hs => hs.threadStop⟩
  | .threadFree .. => ⟨_, rfl, hs.hostDo fun _ _ hs => hs.threadFree⟩
  | .threadSignal .. => ⟨_, rfl, hs.hostDo fun _ _ hs => hs.threadSignal⟩
  | .sessionOpen .. => hs.exec_sessionOpen
  | .sessionClose .. => ⟨_, rfl, hs.hostDo fun _ _ hs => .ite hs.complete hs.complete.closeSession⟩
  | .keepalive .. => ⟨_, rfl, hs.hostDo fun _ _ hs => .ite hs.complete hs.complete⟩
  | .regRead .. => ⟨_, rfl, .ite hs (hs.hostDo fun _ _ hs => hs.regRead)⟩
  | .regWrite .. => ⟨_, rfl, .ite hs (hs.hostDo fun _ _ hs => hs.regWrite)⟩
  | .powerSetRung .. => ⟨_, rfl, .ite hs (hs.hostDo fun _ _ hs => hs.powerSetRung)⟩
  | .powerSetSetpoint .. => ⟨_, rfl, .ite hs (hs.hostDo fun _ _ hs => hs.powerSetSp)⟩
  | .attest .. => ⟨_, rfl, hs.hostDo fun _ _ hs => hs.attest⟩
  | .fwBegin .. => ⟨_, rfl, hs.fwRow fun _ _ hs => hs.fwBegin⟩
  | .fwData .. => ⟨_, rfl, hs.fwRow fun _ _ hs => hs.fwData⟩
  | .fwCommit .. => ⟨_, rfl, hs.fwRow fun _ _ hs => hs.fwCommit⟩
  | .fwConfirm .. => ⟨_, rfl, hs.fwRow fun _ _ hs => hs.fwConfirm⟩
  | .fwRaise .. => ⟨_, rfl, hs.fwRow fun _ _ hs => hs.fwRaise⟩
  | .ownerEnrol .. => ⟨_, rfl, hs.fwRow fun _ _ hs => hs.ownerEnrol⟩
  | .fwAbort .. => ⟨_, rfl, hs.fwRow fun _ _ hs => hs.fwAbort⟩
  | .macsecKey .. => ⟨_, rfl, hs.hostDo fun _ _ hs => hs.macsecKey⟩
  | .rdmaQpCreate .. => ⟨_, rfl, .ite hs (hs.hostDo fun _ _ hs => hs.qpCreate)⟩
  | .rdmaQpDestroy .. => ⟨_, rfl, .ite hs (hs.hostDo fun _ _ hs => hs.qpDestroy)⟩
  | .rdmaMrCreate .. => ⟨_, rfl, .ite hs (hs.hostDo fun _ _ hs => hs.mrCreate)⟩
  | .rdmaMrDestroy .. => ⟨_, rfl, .ite hs (hs.hostDo fun _ _ hs => hs.mrDestroy)⟩
  | .qctPacket .. => ⟨_, rfl, .ite hs.count.qctArrive hs⟩
  | .qctRetransmit .. => ⟨_, rfl, hs.qctRetransmit⟩
  | .ackonly .. => ⟨_, rfl, hs.ackonly⟩
  | .keepaliveLoss .. => ⟨_, rfl, hs.keepaliveLoss⟩
  | .eventSend .. => ⟨_, rfl, hs.eventSend⟩
  | .rdmaWrite .. => ⟨_, rfl, .ite hs.count.rdmaArrive hs⟩
  | .rdmaRead .. => ⟨_, rfl, .ite hs.count.rdmaArrive hs⟩
  | .cnpReceive .. => ⟨_, rfl, .ite hs.count.cnpArrive hs⟩
  | .frameReceive .. => ⟨_, rfl, .ite hs.frameReceive hs⟩
  | .pfcFrame .. => ⟨_, rfl, .ite hs.count.pfcArrive hs⟩
  | .portUp .. => ⟨_, rfl, hs.portUp⟩
  | .launchA .. => ⟨_, rfl, hs.launch⟩
  | .launchX .. => ⟨_, rfl, hs.launch⟩
  | .programComplete .. => ⟨_, rfl, hs.programComplete⟩
  | .programAbort .. => ⟨_, rfl, hs.programAbort⟩
  | .chuteWaitEnd .. => ⟨_, rfl, hs.chuteWaitEnd⟩
  | .decoupleStall .. => ⟨_, rfl, hs.decoupleStall⟩
  | .wtake .. => ⟨_, rfl, hs.wtake⟩
  | .wdone .. => ⟨_, rfl, hs.wdone⟩
  | .sNop .. => ⟨_, rfl, hs.thIssue hs.thNext⟩
  | .sAdd .. => ⟨_, rfl, hs.sAlu⟩
  | .sSub .. => ⟨_, rfl, hs.sAlu⟩
  | .sMul .. => ⟨_, rfl, hs.sAlu⟩
  | .sMulhu .. => ⟨_, rfl, hs.sAlu⟩
  | .sDivu .. => ⟨_, rfl, hs.sAlu⟩
  | .sRemu .. => ⟨_, rfl, hs.sAlu⟩
  | .sAnd .. => ⟨_, rfl, hs.sAlu⟩
  | .sOr .. => ⟨_, rfl, hs.sAlu⟩
  | .sXor .. => ⟨_, rfl, hs.sAlu⟩
  | .sSll .. => ⟨_, rfl, hs.sAlu⟩
  | .sSrl .. => ⟨_, rfl, hs.sAlu⟩
  | .sSra .. => ⟨_, rfl, hs.sAlu⟩
  | .sSlt .. => ⟨_, rfl, hs.sAlu⟩
  | .sSltu .. => ⟨_, rfl, hs.sAlu⟩
  | .sAddi .. => ⟨_, rfl, hs.sAluImm⟩
  | .sAndi .. => ⟨_, rfl, hs.sAluImm⟩
  | .sOri .. => ⟨_, rfl, hs.sAluImm⟩
  | .sXori .. => ⟨_, rfl, hs.sAluImm⟩
  | .sSlli .. => ⟨_, rfl, hs.sAluImm⟩
  | .sSrli .. => ⟨_, rfl, hs.sAluImm⟩
  | .sSrai .. => ⟨_, rfl, hs.sAluImm⟩
  | .sLih .. => ⟨_, rfl, hs.sAluImm⟩
  | .sBeq .. => ⟨_, rfl, hs.sBranch⟩
  | .sBne .. => ⟨_, rfl, hs.sBranch⟩
  | .sBlt .. => ⟨_, rfl, hs.sBranch⟩
  | .sBge .. => ⟨_, rfl, hs.sBranch⟩
  | .sBltu .. => ⟨_, rfl, hs.sBranch⟩
  | .sBgeu .. => ⟨_, rfl, hs.sBranch⟩
  | .sJal .. => ⟨_, rfl, hs.sJal⟩
  | .sJalr .. => ⟨_, rfl, hs.sJalr⟩
  | .sLd .. => ⟨_, rfl, hs.sLoad⟩
  | .sLds .. => ⟨_, rfl, hs.sLoad⟩
  | .sSt .. => ⟨_, rfl, hs.sStore⟩
  | .sRdreg .. => ⟨_, rfl, hs.sRdreg⟩
  | .sWrreg .. => ⟨_, rfl, hs.sWrreg⟩
  | .sTime .. => ⟨_, rfl, hs.sTime⟩
  | .sTick .. => ⟨_, rfl, hs.sTick⟩
  | .fence .. => ⟨_, rfl, hs.fence⟩
  | .fenceComplete .. => ⟨_, rfl, hs.fenceComplete⟩
  | .wait .. => ⟨_, rfl, hs.wait⟩
  | .sleep .. => ⟨_, rfl, hs.sleep⟩
  | .yield .. => ⟨_, rfl, hs.yield⟩
  | .signal .. => ⟨_, rfl, hs.signal⟩
  | .flags .. => ⟨_, rfl, hs.flags⟩
  | .mbox .. => ⟨_, rfl, hs.mbox⟩
  | .barrier .. => ⟨_, rfl, hs.barrier⟩
  | .setpri .. => ⟨_, rfl, hs.setpri⟩
  | .post .. => ⟨_, rfl, hs.post⟩
  | .exit .. => ⟨_, rfl, hs.exitTh⟩
  | .threadDispatch .. => ⟨_, rfl, hs.dispatch⟩
  | .threadWake .. => ⟨_, rfl, hs.threadWake⟩
  | .tickBoundary .. => ⟨_, rfl, hs.tickBoundary⟩
  | .deadlineDue .. => ⟨_, rfl, hs.deadlinesDue⟩
  | .starvationLimit .. => ⟨_, rfl, hs.starvation⟩
  | .barrierMessage .. => ⟨_, rfl, .ite hs.barMessage hs⟩
  | .barrierEpisodeComplete .. => ⟨_, rfl, hs.barComplete⟩
  | .barrierChannelEnable .. => ⟨_, rfl, .ite hs.barEnable hs⟩
  | .barrierChannelDisable .. => ⟨_, rfl, .ite hs.barDisable hs⟩
  | .aAdda .. => ⟨_, rfl, hs.aAdda⟩
  | .aAddan .. => ⟨_, rfl, hs.aAddan⟩
  | .aSetn .. => ⟨_, rfl, hs.aSetn⟩
  | .aAddn .. => ⟨_, rfl, hs.aAddn⟩
  | .aLoop .. => ⟨_, rfl, hs.aLoop⟩
  | .aNop .. => ⟨_, rfl, hs.aNop⟩
  | .aGather .. => ⟨_, rfl, hs.aMemory⟩
  | .aGathercsr .. => ⟨_, rfl, hs.aMemory⟩
  | .aStream .. => ⟨_, rfl, hs.aMemory⟩
  | .aStreamc .. => ⟨_, rfl, hs.aMemory⟩
  | .aLoad .. => ⟨_, rfl, hs.aMemory⟩
  | .aPref .. => ⟨_, rfl, hs.aMemory⟩
  | .aStore .. => ⟨_, rfl, hs.aMemory⟩
  | .aStorec .. => ⟨_, rfl, hs.aMemory⟩
  | .aScadd .. => ⟨_, rfl, hs.aMemory⟩
  | .aHaul .. => ⟨_, rfl, hs.aMemory⟩
  | .requestIssue .. => ⟨_, rfl, hs.requestIssue⟩
  | .granuleDelivery .. => ⟨_, rfl, hs.granuleDelivery⟩
  | .walkComplete .. => ⟨_, rfl, .ite hs.hostWalk.settle (.ite hs.cellWalk hs)⟩
  | .redirectReceive .. => ⟨_, rfl, hs.redirectReceive⟩
  | .homeLostReceive .. => ⟨_, rfl, hs.homeLostReceive⟩
  | .requestAck .. => ⟨_, rfl, hs.requestAck⟩
  | .mcfg .. => ⟨_, rfl, hs.mcfg⟩
  | .mldw .. => ⟨_, rfl, hs.mldw⟩
  | .mldwComplete .. => ⟨_, rfl, hs.mldwComplete⟩
  | .mpre .. => ⟨_, rfl, hs.mpre⟩
  | .mmul .. => ⟨_, rfl, hs.mmul⟩
  | .mmulComplete .. => ⟨_, rfl, hs.mmulComplete⟩
  | .overflowReplay .. => ⟨_, rfl, hs.overflowReplay⟩
  | .mdrain .. => ⟨_, rfl, hs.mdrain⟩
  | .mdrainComplete .. => ⟨_, rfl, hs.mdrainComplete⟩
  | .xNop .. => ⟨_, rfl, hs.xNop⟩
  | .xSetk .. => ⟨_, rfl, hs.xSetk⟩
  | .xAddk .. => ⟨_, rfl, hs.xAddk⟩
  | .xLoop .. => ⟨_, rfl, hs.xLoop⟩
  | .xMa .. => ⟨_, rfl, hs.xMa⟩
  | .vsetvl .. => ⟨_, rfl, hs.vsetvl⟩
  | .vmov .. => ⟨_, rfl, hs.vIssue⟩
  | .vadd .. => ⟨_, rfl, hs.vIssue⟩
  | .vsub .. => ⟨_, rfl, hs.vIssue⟩
  | .vmul .. => ⟨_, rfl, hs.vIssue⟩
  | .vfma .. => ⟨_, rfl, hs.vIssue⟩
  | .vmax .. => ⟨_, rfl, hs.vIssue⟩
  | .vmin .. => ⟨_, rfl, hs.vIssue⟩
  | .vabs .. => ⟨_, rfl, hs.vIssue⟩
  | .vneg .. => ⟨_, rfl, hs.vIssue⟩
  | .viadd .. => ⟨_, rfl, hs.vIssue⟩
  | .visub .. => ⟨_, rfl, hs.vIssue⟩
  | .vimul .. => ⟨_, rfl, hs.vIssue⟩
  | .vimax .. => ⟨_, rfl, hs.vIssue⟩
  | .vimin .. => ⟨_, rfl, hs.vIssue⟩
  | .vand .. => ⟨_, rfl, hs.vIssue⟩
  | .vor .. => ⟨_, rfl, hs.vIssue⟩
  | .vxor .. => ⟨_, rfl, hs.vIssue⟩
  | .vsll .. => ⟨_, rfl, hs.vIssue⟩
  | .vsrl .. => ⟨_, rfl, hs.vIssue⟩
  | .vsra .. => ⟨_, rfl, hs.vIssue⟩
  | .vcmp .. => ⟨_, rfl, hs.vIssue⟩
  | .vsel .. => ⟨_, rfl, hs.vIssue⟩
  | .vmand .. => ⟨_, rfl, hs.vIssue⟩
  | .vmor .. => ⟨_, rfl, hs.vIssue⟩
  | .vmxor .. => ⟨_, rfl, hs.vIssue⟩
  | .vmnot .. => ⟨_, rfl, hs.vIssue⟩
  | .vmfirst .. => ⟨_, rfl, hs.vIssue⟩
  | .vlmul .. => ⟨_, rfl, hs.vIssue⟩
  | .vladd .. => ⟨_, rfl, hs.vIssue⟩
  | .vexp .. => ⟨_, rfl, hs.vIssue⟩
  | .vrcp .. => ⟨_, rfl, hs.vIssue⟩
  | .vrsq .. => ⟨_, rfl, hs.vIssue⟩
  | .vlog2 .. => ⟨_, rfl, hs.vIssue⟩
  | .vperm .. => ⟨_, rfl, hs.vIssue⟩
  | .vshuf .. => ⟨_, rfl, hs.vIssue⟩
  | .vcompress .. => ⟨_, rfl, hs.vIssue⟩
  | .vexpand .. => ⟨_, rfl, hs.vIssue⟩
  | .vrsum .. => ⟨_, rfl, hs.vIssue⟩
  | .vrmax .. => ⟨_, rfl, hs.vIssue⟩
  | .vrmin .. => ⟨_, rfl, hs.vIssue⟩
  | .vsegsum .. => ⟨_, rfl, hs.vsegsum⟩
  | .vld .. => ⟨_, rfl, hs.vld⟩
  | .vst .. => ⟨_, rfl, hs.vst⟩
  | .vsummary .. => ⟨_, rfl, hs.vsummary⟩
  | .vpred .. => ⟨_, rfl, hs.vpred⟩
  | .vcvt .. => ⟨_, rfl, hs.vIssue⟩
  | .vpack .. => ⟨_, rfl, hs.vIssue⟩
  | .vunpack .. => ⟨_, rfl, hs.vIssue⟩
  | .ccClean .. => ⟨_, rfl, hs.maintRun⟩
  | .ccInvalidate .. => ⟨_, rfl, hs.maintRun⟩
  | .ccCleanInv .. => ⟨_, rfl, hs.maintRun⟩
  | .ccPreloadLock .. => ⟨_, rfl, hs.maintRun⟩
  | .ccUnlock .. => ⟨_, rfl, hs.maintRun⟩
  | .ccMaintComplete .. => ⟨_, rfl, hs.maintComplete⟩
  | .scalerFrameInvalidate .. => ⟨_, rfl, .ite hs.frameInvalidate hs⟩
  | .landingRequest .. => ⟨_, rfl, hs.landingRequest⟩
  | .scrubRead .. => ⟨_, rfl, hs.scrubRead⟩
  | .frameZeroFill .. => ⟨_, rfl, hs.frameZeroFill⟩
  | .landingFail .. => ⟨_, rfl, hs.landingFail⟩
  | .placementInterval .. => ⟨_, rfl, hs.placementInterval.settle⟩
  | .moveCopyDone .. => ⟨_, rfl, hs.moveCopyDone.settle⟩
  | .moveFlip .. => ⟨_, rfl, hs.moveFlip.settle⟩
  | .sweepComplete .. => ⟨_, rfl, hs.sweepComplete.settle⟩
  | .moveInvalidateDone .. => ⟨_, rfl, hs.moveInvalidateDone.settle⟩
  | .linkTrained .. => ⟨_, rfl, hs.linkTrained⟩
  | .dataFlit .. => ⟨_, rfl, hs.dataFlit⟩
  | .nak .. => ⟨_, rfl, hs.nakIn⟩
  | .heartbeat .. => ⟨_, rfl, hs.heartbeat⟩
  | .heartbeatSend .. => ⟨_, rfl, hs.heartbeatSend⟩
  | .beacon .. => ⟨_, rfl, hs.beaconIn⟩
  | .wake .. => ⟨_, rfl, hs.wakeIn⟩
  | .resume .. => ⟨_, rfl, hs.resumeIn⟩
  | .linkLivenessTimeout .. => ⟨_, rfl, hs.livenessTimeout⟩
  | .packetRoute .. => ⟨_, rfl, hs.packetRoute⟩
  | .norouteHoldExpiry .. => ⟨_, rfl, hs.norouteExpiry⟩
  | .parkedHoldExpiry .. => ⟨_, rfl, hs.parkedExpiry⟩
  | .load .. => ⟨_, rfl, hs.requestIn fun hs => hs.landPacket⟩
  | .store .. => ⟨_, rfl, hs.requestIn fun hs => hs.landPacket⟩
  | .add .. => ⟨_, rfl, hs.requestIn fun hs => hs.landPacket⟩
  | .walk .. => ⟨_, rfl, hs.requestIn fun hs => hs.walkIn⟩
  | .fenced .. => ⟨_, rfl, hs.fencedIn⟩
  | .move .. => ⟨_, rfl, hs.requestIn fun hs => hs.moveIn⟩
  | .mgmt .. => ⟨_, rfl, hs.mgmt⟩
  | .membLinkDown .. => ⟨_, rfl, hs.downIn⟩
  | .probe .. => ⟨_, rfl, hs.probeIn⟩
  | .probeResp .. => ⟨_, rfl, hs.probeRespIn⟩
  | .probeTimeout .. => ⟨_, rfl, hs.probeTimeout⟩
  | .linkDownReportTimeout .. => ⟨_, rfl, hs.reportTimeout⟩
  | .epoch .. => ⟨_, rfl, hs.epochIn⟩
  | .drainTimeout .. => ⟨_, rfl, hs.drainTimeout⟩
  | .membJoin .. => ⟨_, rfl, hs.joinIn⟩
  | .joinResp .. => ⟨_, rfl, hs.joinRespIn⟩
  | .joinTimeout .. => ⟨_, rfl, hs.joinTimeout⟩
  | .recover .. => ⟨_, rfl, hs.recoverIn⟩
  | .recoverResp .. => ⟨_, rfl, hs.recoverResp⟩
  | .fabFound .. => ⟨_, rfl, hs.found⟩
  | .fabJoin .. => ⟨_, rfl, hs.join⟩
  | .powerOn .. => ⟨_, rfl, hs.powerOn⟩
  | .pwrEnRise .. => ⟨_, rfl, hs.pwrEnRise⟩
  | .pwrGoodTimeout .. => ⟨_, rfl, hs.pwrGoodTimeout⟩
  | .pwrEnFall .. => ⟨_, rfl, hs.pwrEnFall⟩
  | .resetAssert .. => ⟨_, rfl, hs.rstAssert⟩
  | .bootRom .. => ⟨_, rfl, hs.bootRom⟩
  | .lookoutBoot .. => ⟨_, rfl, hs.lookoutBoot⟩
  | .lookoutWatchdog .. => ⟨_, rfl, hs.watchdog⟩
  | .jtagUnlockChallenge .. => ⟨_, rfl, hs.jtagChallenge⟩
  | .jtagUnlockResponse .. => ⟨_, rfl, hs.jtagResponse⟩
  | .rungDrainDone .. => ⟨_, rfl, hs.drainDone⟩
  | .rungDrainTimeout .. => ⟨_, rfl, hs.drainTimeUp⟩
  | .wakePin .. => ⟨_, rfl, hs.wakePin⟩
  | .rungExit .. => ⟨_, rfl, hs.rungExit⟩
  | .fallowExit .. => ⟨_, rfl, hs.fallowExit⟩
  | .setpointChange .. => ⟨_, rfl, hs.setpointChange⟩
  | .cellPark .. => ⟨_, rfl, hs.cellPark⟩
  | .cellUnpark .. => ⟨_, rfl, hs.cellUnpark⟩
  | .thermalWarn .. => ⟨_, rfl, hs.sense⟩
  | .throttleStep .. => ⟨_, rfl, hs.throttleStep⟩
  | .thermalTrip .. => ⟨_, rfl, .ite hs.sense hs⟩
  | .cellRestart .. => ⟨_, rfl, (Kept.ite hs.parityError hs).cellRestart⟩
  | .deviceFatal .. => ⟨_, rfl, hs.deviceFatal⟩
  | .reportForward .. => ⟨_, rfl, hs.forward⟩
  | .errCntClr .. => ⟨_, rfl, .ite hs.clearErrs hs⟩
  | .snapshotTake .. => ⟨_, rfl, .ite hs.setRegF.take hs⟩
  | .snapshotRelease .. => ⟨_, rfl, .ite hs.release hs⟩
  | .registerWrite .. => ⟨_, rfl, hs.pathWrite⟩
  | .portDown .. => ⟨_, rfl, hs.portDown⟩
  | .idleFlit .. => ⟨_, rfl, hs.idleFlit⟩
  | .vstbyLoss .. => ⟨_, rfl, hs.vstbyLoss⟩
  | .railFailure .. => ⟨_, rfl, hs.railFailure⟩
  | .tripRailReturn .. => ⟨_, rfl, hs.tripRailReturn⟩
  | .cellRestartComplete .. => ⟨_, rfl, hs.restartDone⟩
  | .mpreComplete .. => ⟨_, rfl, hs.mpreComplete⟩
  | .vClassBusyEnd .. => ⟨_, rfl, hs.vClassBusyEnd⟩
  | .registerRead .. => ⟨_, rfl, hs.pathRead⟩
  | .i3cDynamicAddressing .. => ⟨_, rfl, hs.i3cAddress⟩

/-- A step takes its command off the queue, and keeps the rest of the queue with the data and one-time memory. -/
theorem step_kept (s : State) : ∃ t, step s = .next t ∧ Kept { s with pending := s.pending.tail } t := by
  unfold step
  split
  · next h => exact ⟨_, rfl, Kept.idle ⟨fun hs => { hs with }, by rw [h]; rfl, .refl _⟩⟩
  · next i rest h => rw [h]; exact (Kept.refl _).exec_next i

/-- Settles O3: every operation of the model keeps canonical data, so each instruction does, and so does each step. -/
theorem everyStepKeepsCanonicalData : Obligations.EveryStepKeepsCanonicalData := by
  intro s t hs ht
  obtain ⟨u, hu, hk⟩ := step_kept s
  cases hu.symm.trans ht
  exact hk.good { hs with }

end Sys2Proof.Machine

/-! PROOF. The landings' events: what reports and counters leave of the state, what the service of a request keeps, the bytes of a granule and of
a frame, and LandingEvents. -/

namespace Sys2Proof.Machine

variable {s t : State}

/-! ## What reports and counters leave -/

/-- Only what reports and counters write differs: registers, counters, event records and the supervisors' queues. -/
def ReportsOnly (s t : State) : Prop :=
  { t with regs := s.regs, cnts := s.cnts, eth := s.eth, supQ := s.supQ, recent := s.recent, muted := s.muted } = s

theorem ReportsOnly.trans {u : State} (h : ReportsOnly s t) (k : ReportsOnly t u) : ReportsOnly s u := by
  have hk := congrArg (fun x : State =>
    { x with regs := s.regs, cnts := s.cnts, eth := s.eth, supQ := s.supQ, recent := s.recent, muted := s.muted }) k
  exact hk.trans h

theorem ReportsOnly.rawCount {k n : Nat} (h : ReportsOnly s t) : ReportsOnly s (t.rawCount k n) := by
  refine h.trans ?_
  unfold State.rawCount
  extract_lets v u
  split
  · rfl
  · rfl

theorem ReportsOnly.pushEvent {kind source : Nat} {data : BitVec 160} (h : ReportsOnly s t) : ReportsOnly s (t.pushEvent kind source data) := by
  unfold State.pushEvent
  extract_lets put u
  have hu : ReportsOnly s u := by
    refine h.trans ?_
    dsimp only [u]
    split
    · rfl
    · rfl
  clear_value u
  split
  · exact hu.trans rfl
  · exact .rawCount (hu.trans rfl)

theorem ReportsOnly.lookoutReport {r : Report} (h : ReportsOnly s t) : ReportsOnly s (t.lookoutReport r) := by
  unfold State.lookoutReport
  split
  · split
    · exact h.trans rfl
    · exact .pushEvent (h.trans rfl)
  · exact h.pushEvent

theorem ReportsOnly.report {r : Report} (h : ReportsOnly s t) : ReportsOnly s (t.report r) := by
  unfold State.report
  extract_lets b i
  split
  · exact h.trans rfl
  · split
    · exact h.trans rfl
    · split
      · exact h.trans rfl
      · exact h.lookoutReport

theorem State.count_reportsOnly (s : State) (k n : Nat) : ReportsOnly s (s.count k n) := by
  unfold State.count
  extract_lets wraps t
  have ht : ReportsOnly s t := .rawCount rfl
  split
  · exact ht.report
  · exact ht

/-- Every other part of the state is as it was. -/
theorem ReportsOnly.part_eq {α : Type} (h : ReportsOnly s t) (part : State → α) :
    part { t with regs := s.regs, cnts := s.cnts, eth := s.eth, supQ := s.supQ, recent := s.recent, muted := s.muted } = part s :=
  congrArg part h

@[simp] theorem State.count_mem (s : State) (k n : Nat) : (s.count k n).mem = s.mem := (s.count_reportsOnly k n).part_eq State.mem

@[simp] theorem State.count_memPoison (s : State) (k n : Nat) : (s.count k n).memPoison = s.memPoison :=
  (s.count_reportsOnly k n).part_eq State.memPoison

@[simp] theorem State.count_memUpset (s : State) (k n : Nat) : (s.count k n).memUpset = s.memUpset :=
  (s.count_reportsOnly k n).part_eq State.memUpset

@[simp] theorem State.count_landings (s : State) (k n : Nat) : (s.count k n).landings = s.landings :=
  (s.count_reportsOnly k n).part_eq State.landings

@[simp] theorem State.count_reqs (s : State) (k n : Nat) : (s.count k n).reqs = s.reqs := (s.count_reportsOnly k n).part_eq State.reqs

@[simp] theorem State.count_landing (s : State) (k n l : Nat) : (s.count k n).landing l = s.landing l := by
  rw [State.landing, State.count_landings]
  rfl

/-! ## Counters -/

/-- A record that the device buffers or drops counts at most under the count of dropped records. -/
theorem State.cnt_pushEvent (h : s.Good) {j : Nat} (hj : j ≠ kEth 14) (kind source : Nat) (data : BitVec 160) :
    (s.pushEvent kind source data).cnt j = s.cnt j := by
  unfold State.pushEvent
  extract_lets put t
  have ht : t.Good ∧ t.cnt j = s.cnt j := by
    dsimp only [t]
    split
    · exact ⟨{ h with }, rfl⟩
    · exact ⟨h, rfl⟩
  obtain ⟨hgood, hcnt⟩ := ht
  clear_value t
  split
  · exact hcnt
  · rw [State.cnt_rawCount (s := t.modEth _) { hgood with }, if_neg hj]
    exact hcnt

theorem State.cnt_report (h : s.Good) {j : Nat} (hj : j ≠ kEth 14) (r : Report) : (s.report r).cnt j = s.cnt j := by
  have hlookout : (s.lookoutReport r).cnt j = s.cnt j := by
    unfold State.lookoutReport
    split
    · split
      · rfl
      · refine Eq.trans (State.cnt_pushEvent ?_ hj _ _ _) ?_
        · exact { h with }
        · rfl
    · exact State.cnt_pushEvent h hj _ _ _
  unfold State.report
  extract_lets b i
  split
  · rfl
  · split
    · rfl
    · split
      · rfl
      · exact hlookout

/-- What a counter holds after it counts. The count of dropped records may also count the record of its own wrap. -/
theorem State.cnt_count (h : s.Good) {k : Nat} (hk : k ≠ kEth 14) (n : Nat) : (s.count k n).cnt k = s.cnt k + BitVec.ofNat 64 n := by
  have hraw : (s.rawCount k n).cnt k = s.cnt k + BitVec.ofNat 64 n := by rw [State.cnt_rawCount h, if_pos rfl]
  unfold State.count
  extract_lets wraps t
  have ht : t.Good := (Kept.refl s).rawCount.good h
  split
  · exact (State.cnt_report ht hk _).trans hraw
  · exact hraw

/-! ## Scrubbing -/

@[simp] theorem State.modLanding_landing_self {l : Nat} (h : l < s.landings.length) (f : Landing → Landing) :
    (s.modLanding l f).landing l = f (s.landing l) := by
  rw [State.landing_modLanding, if_pos ⟨rfl, h⟩]

/-- A granule without a physical error reads as it is. -/
theorem State.checkGranule_clean {la : Nat} (h : tblGet 0 la s.memUpset = 0) : s.checkGranule la = s := by
  unfold State.checkGranule
  split
  · rfl
  · rw [h]
    rfl

/-- Where a landing may scrub, a scrub read of a granule of the pass counts, and the pass goes on behind it. -/
theorem State.scrubRead_next {l g : Nat} (hmay : s.mayScrub l) (hon : ((s.scrubStart l).landing l).scrubOn) (hg : g = (s.scrubStart l).scrubNext l)
    (hle : ((s.scrubStart l).landing l).scrub ≤ g) (hlt : g + 1 < landingGranules)
    (hret : ((s.scrubStart l).landing l).isRetired (g / 2 ^ 15) = false)
    (hclean : tblGet 0 (l * landingGranules + g) (s.scrubStart l).memUpset = 0) :
    s.scrubRead l = ((s.scrubStart l).count (kLnd l 6) 1).modLanding l fun x => { x with scrub := g + 1 } := by
  unfold State.scrubRead
  dsimp only
  rw [← hg, State.checkGranule_clean hclean, hmay, hon, hret]
  simp only [Bool.not_true, Bool.false_eq_true, if_false, or_false]
  rw [if_neg (by omega), if_neg (by omega)]

/-- A pass that runs goes on. -/
theorem State.scrubStart_running {l : Nat} (h : (s.landing l).scrubOn) : s.scrubStart l = s := if_pos (.inl h)

/-- No second pass begins in a scrub period. -/
theorem State.scrubStart_done {l : Nat} (h : (s.landing l).scrubbed = some (s.scrubPeriod l)) : s.scrubStart l = s := if_pos (.inr h)

theorem State.scrubStart_begins {l : Nat} (hoff : (s.landing l).scrubOn = false) (h : (s.landing l).scrubbed ≠ some (s.scrubPeriod l)) :
    s.scrubStart l = s.modLanding l fun x => { x with scrubOn := true, scrubbed := some (s.scrubPeriod l), scrub := 0 } :=
  if_neg (not_or.2 ⟨by simp [hoff], h⟩)

theorem State.scrubNext_of_not_retired {l : Nat} (h : (s.landing l).isRetired ((s.landing l).scrub / 2 ^ 15) = false) :
    s.scrubNext l = (s.landing l).scrub := by
  unfold State.scrubNext
  dsimp only
  rw [h]
  rfl

theorem kLnd_ne_kEth {l i j : Nat} (hj : j ≤ 15) : kLnd l i ≠ kEth j := by
  unfold kLnd lndBase kEth ethBase
  omega

/-! ## A frame that reads zero -/

/-- A table from which the keys outside `q` are dropped. -/
theorem tblGet_filter_from {α : Type} [DecidableEq α] {dflt : Nat → α} (d : α) (q : Nat → Bool) (k : Nat) {t : List (Nat × α)} {lo : Option Nat}
    (h : tblWfFrom dflt lo t = true) : tblGet d k (t.filter fun x => q x.1) = if q k then tblGet d k t else d := by
  induction t generalizing lo with
  | nil =>
    split
    · rfl
    · rfl
  | cons e t ih =>
    obtain ⟨-, -, ht⟩ := (tblWfFrom_cons ..).1 h
    have hbelow : k < e.1 → tblGet d k (t.filter fun x => q x.1) = d := fun hk =>
      tblGet_below d (filter_wfFrom dflt _ t _ ht) (Nat.le_of_lt hk)
    have ih := ih ht
    rw [List.filter_cons]
    split
    · next hq =>
      rw [tblGet, tblGet]
      by_cases hk : k = e.1
      · simp [hk, hq]
      · by_cases hlt : k < e.1
        · simp [hk, hlt]
        · simp [hk, hlt, ih]
    · next hq =>
      rw [tblGet]
      by_cases hk : k = e.1
      · rw [ih, hk]
        simp [hq]
      · by_cases hlt : k < e.1
        · simp [hk, hlt, hbelow hlt]
        · simp [hk, hlt, ih]

theorem memGet_filter {m : List Host.Cell} (q : Nat → Bool) (a : Nat) (h : memWf m = true) :
    memGet (m.filter fun x => q x.1) a = if q a then memGet m a else 0 :=
  tblGet_filter_from (dflt := fun _ => memDefault) memDefault q a h

/-- The bytes of a frame read zero once it is zeroed, and no other byte changes. -/
theorem State.memGet_zeroFrame (h : s.Good) (l f a : Nat) :
    memGet (s.zeroFrame l f).mem a =
      if l * 2 ^ 36 + f * 2 ^ 21 ≤ a ∧ a < l * 2 ^ 36 + (f + 1) * 2 ^ 21 then 0 else memGet s.mem a := by
  refine (memGet_filter (fun k => decide (k < (l * 2 ^ 36 + f * 2 ^ 21) / 1) || decide ((l * 2 ^ 36 + f * 2 ^ 21) / 1 + 2 ^ 21 / 1 ≤ k))
    a h.mem).trans ?_
  simp only [Nat.div_one, Bool.or_eq_true, decide_eq_true_eq]
  split
  · rw [if_neg (by omega)]
  · rw [if_pos (by omega)]

theorem State.zeroFrame_zero (s : State) (l f : Nat) : ((s.zeroFrame l f).landing l).zero = (s.landing l).zero := by
  refine (congrArg Landing.zero (modAt_getD l l _ s.landings Landing.reset)).trans ?_
  split
  · rfl
  · rfl

theorem State.frameZeroFill_eq {l f : Nat} (hact : s.active) (hmem : f ∈ (s.landing l).zero) (hinv : s.invalDone l f) :
    s.frameZeroFill l f = ((s.zeroFrame l f).modLanding l fun x =>
      { x with zero := x.zero.filter (· != f), inval := x.inval.filter fun y => y.1 != f }).count (kLnd l 1) 32768 :=
  if_pos ⟨hact, by simpa using hmem, hinv⟩

/-! ## The bytes of a granule -/

theorem leNat_lt (l : List Byte) : leNat l < 2 ^ (8 * l.length) := by
  induction l with
  | nil => exact Nat.one_pos
  | cons b l ih =>
    have hb : b.toNat < 256 := b.isLt
    rw [leNat, List.length_cons, Nat.mul_succ, Nat.pow_add]
    omega

theorem leBytes_leNat (l : List Byte) : leBytes l.length (leNat l) = l := by
  induction l with
  | nil => rfl
  | cons b l ih =>
    have hb : b.toNat < 256 := b.isLt
    rw [leNat, List.length_cons, leBytes, show (b.toNat + 256 * leNat l) / 256 = leNat l by omega, ih]
    congr 1
    refine BitVec.eq_of_toNat_eq ?_
    rw [BitVec.toNat_ofNat]
    omega

/-- A granule made of 64 bytes holds them. -/
theorem granBytes_ofNat_leNat {l : List Byte} (h : l.length = 64) : granBytes (BitVec.ofNat 512 (leNat l)) = l := by
  have hbits : 512 = 8 * l.length := by omega
  rw [granBytes, BitVec.toNat_ofNat, hbits, Nat.mod_eq_of_lt (leNat_lt l), ← h]
  exact leBytes_leNat l

theorem granBytes_length (d : BitVec 512) : (granBytes d).length = 64 := rfl

theorem memRead_length (m : List Host.Cell) (a n : Nat) : (memRead m a n).length = n := by
  induction n generalizing a with
  | zero => rfl
  | succ n ih => rw [memRead, List.length_cons, ih]

theorem memRead_congr {m m' : List Host.Cell} {a n : Nat} (h : ∀ i, i < n → memGet m' (a + i) = memGet m (a + i)) :
    memRead m' a n = memRead m a n := by
  induction n generalizing a with
  | zero => rfl
  | succ n ih =>
    have hhead := h 0 (by omega)
    rw [Nat.add_zero] at hhead
    rw [memRead, memRead, hhead, ih fun i hi => ?_]
    have hnext := h (i + 1) (by omega)
    rwa [← Nat.add_assoc, Nat.add_right_comm] at hnext

/-- The bytes of a granule are those that memory holds there. -/
theorem State.granBytes_granule (s : State) (la : Nat) : granBytes (s.granule la) = memRead s.mem (64 * la) 64 :=
  granBytes_ofNat_leNat (memRead_length ..)

/-- Each byte of a merged granule is the new one where its enable is set, else the old one. -/
theorem byteAt_mergeBytes (old new : BitVec 512) (en : BitVec 64) {i : Nat} (hi : i < 64) :
    byteAt (granBytes (mergeBytes old new en)) i = if en.getLsbD i then byteAt (granBytes new) i else byteAt (granBytes old) i := by
  have hold := granBytes_length old
  have hnew := granBytes_length new
  rw [mergeBytes, granBytes_ofNat_leNat (by simp [hold, hnew])]
  simp [byteAt, hold, hnew, hi]

@[simp] theorem State.putGranule_mem (s : State) (la : Nat) (d : BitVec 512) (poison : Bool) :
    (s.putGranule la d poison).mem = memWrite s.mem (64 * la) (granBytes d) := by
  unfold State.putGranule
  dsimp only

@[simp] theorem State.putGranule_reqs (s : State) (la : Nat) (d : BitVec 512) (poison : Bool) :
    (s.putGranule la d poison).reqs = s.reqs := by
  unfold State.putGranule
  dsimp only

/-- A granule read back after it is written whole. -/
theorem State.granBytes_granule_of_memWrite {la : Nat} {d : BitVec 512} (hwf : memWf s.mem = true)
    (ht : t.mem = memWrite s.mem (64 * la) (granBytes d)) : granBytes (t.granule la) = granBytes d := by
  rw [State.granBytes_granule, ht]
  exact memRead_memWrite (granBytes d) s.mem (64 * la) hwf

/-- No other granule changes. -/
theorem State.granule_of_memWrite_ne {la k : Nat} {d : BitVec 512} (hwf : memWf s.mem = true)
    (ht : t.mem = memWrite s.mem (64 * la) (granBytes d)) (hk : k ≠ la) : t.granule k = s.granule k := by
  rw [State.granule, State.granule, ht, memRead_congr fun i hi => ?_]
  rw [memGet_memWrite _ _ _ _ hwf, granBytes_length, if_neg (by omega)]

/-! ## What the service of a request keeps -/

/-- The part of the state that a request reads: memory with its markers, the failed pseudo-channels, and the requests. -/
structure SameStore (s t : State) : Prop where
  mem : t.mem = s.mem
  poison : t.memPoison = s.memPoison
  upset : t.memUpset = s.memUpset
  dead : ∀ l, (t.landing l).failedPcs = (s.landing l).failedPcs
  reqs : t.reqs = s.reqs

theorem SameStore.refl (s : State) : SameStore s s := ⟨rfl, rfl, rfl, fun _ => rfl, rfl⟩

theorem SameStore.count {k n : Nat} (h : SameStore s t) : SameStore s (t.count k n) := by
  obtain ⟨mem, poison, upset, dead, reqs⟩ := h
  exact ⟨by simpa, by simpa, by simpa, by simpa, by simpa⟩

theorem SameStore.modLanding {l : Nat} {f : Landing → Landing} (h : SameStore s t) (hf : ∀ x, (f x).failedPcs = x.failedPcs := by intro; rfl) :
    SameStore s (t.modLanding l f) where
  mem := h.mem
  poison := h.poison
  upset := h.upset
  dead k := by
    rw [State.landing_modLanding]
    split
    · exact (hf _).trans (h.dead k)
    · exact h.dead k
  reqs := h.reqs

theorem SameStore.modScaler {f : ScalerSt → ScalerSt} (h : SameStore s t) : SameStore s (t.modScaler f) := ⟨h.mem, h.poison, h.upset, h.dead, h.reqs⟩

theorem SameStore.ite {u : State} {c : Prop} [Decidable c] (ht : SameStore s t) (hu : SameStore s u) : SameStore s (if c then t else u) := by
  split
  · exact ht
  · exact hu

theorem SameStore.touchPage {la : Nat} (h : SameStore s t) : SameStore s (t.touchPage la) := (SameStore.ite h h.count).modLanding

theorem SameStore.addFlush {la : Nat} (h : SameStore s t) : SameStore s (t.addFlush la) := .ite h.modLanding.count h

theorem SameStore.checkGranule {la : Nat} (h : SameStore s t) (hclean : tblGet 0 la s.memUpset = 0) : SameStore s (t.checkGranule la) := by
  rw [State.checkGranule_clean (by rwa [h.upset])]
  exact h

theorem SameStore.granule_eq (h : SameStore s t) (la : Nat) : t.granule la = s.granule la := by
  rw [State.granule, State.granule, h.mem]

theorem SameStore.granulePoison_eq (h : SameStore s t) (la : Nat) : t.granulePoison la = s.granulePoison la := by
  rw [State.granulePoison, State.granulePoison, h.poison]

theorem SameStore.deadPc_eq (h : SameStore s t) (la : Nat) : t.deadPc la = s.deadPc la := by
  rw [State.deadPc, State.deadPc, h.dead]

/-! ## A request served -/

theorem State.req_modReq {id : Nat} {r : Req} {f : Req → Req} (h : s.req id = some r) (hf : ∀ q, (f q).id = q.id) :
    (s.modReq id f).req id = some (f r) := by
  have hid : r.id = id := by simpa using List.find?_some h
  have hkey : ((fun q : Req => q.id == id) ∘ fun q => if q.id = id then f q else q) = fun q => q.id == id := by
    funext q
    by_cases hq : q.id = id
    · simp [hq, hf]
    · simp [hq]
  unfold State.req State.modReq
  rw [List.find?_map, hkey, show s.reqs.find? (fun q => q.id == id) = some r from h]
  simp [hid]

/-- A request of this device takes its answer as its stage. -/
theorem State.answer_local {r : Req} {a : Answer} (hwb : r.wb = false) (hwho : ∀ d k, r.who ≠ .dev d k) :
    s.answer r a = s.modReq r.id fun q => { q with stage := .answered a } := by
  unfold State.answer
  rw [hwb]
  cases hw : r.who with
  | dev d k => exact absurd hw (hwho d k)
  | cell c => rfl
  | maint c => rfl
  | host j => rfl

/-- A request of the right generation at a frame that no move touches is applied. -/
theorem State.serve_eq_apply {r : Req} {f : FrameRec} (hrec : (s.landing r.lnd).recAt r.frame = some f) (hh : f.handle = r.handle)
    (hp : f.plot = r.plot) (hg : f.gen = r.gen) (hfrom : s.moveFrom r.lnd r.frame = none) (hto : s.moveTo r.lnd r.frame = none) :
    s.serve r = s.apply r := by
  unfold State.serve
  rw [hrec]
  dsimp only
  rw [if_pos ⟨hh, hp, hg⟩, hfrom, hto]

/-- The statistics of a request that is served, and the page that it opens. -/
def State.meterReq (s : State) (r : Req) : State :=
  let t := (s.countBank r.la).modLanding r.lnd fun x => { x with served := x.served + 1 }
  (t.modScaler fun z => { z with traffic := countTraffic r.handle r.plot (t.reqDev r) r.op z.traffic }).touchPage r.la

theorem State.meterReq_sameStore (s : State) (r : Req) : SameStore s (s.meterReq r) :=
  (SameStore.refl s).count.modLanding.modScaler.touchPage

theorem State.apply_load {r : Req} (hop : r.op = .load) :
    s.apply r = ((s.meterReq r).readGranule r.la).2.answer r
      (.data ((s.meterReq r).readGranule r.la).1.1 ((s.meterReq r).readGranule r.la).1.2) := by
  unfold State.apply State.meterReq
  rw [hop]

theorem State.apply_store {r : Req} (hop : r.op = .store) :
    s.apply r = (((s.meterReq r).writeGranule r.la r.data r.en r.poison).markWritten r.lnd r.frame r.off).answer r .ack := by
  unfold State.apply State.meterReq
  rw [hop]

/-- A granule without an error, written: its enabled bytes are merged into what memory holds. -/
theorem SameStore.writeGranule {la : Nat} {d : BitVec 512} {en : BitVec 64} {poison : Bool} (h : SameStore s t)
    (hclean : tblGet 0 la s.memUpset = 0) :
    (t.writeGranule la d en poison).mem = memWrite s.mem (64 * la) (granBytes (mergeBytes (s.granule la) d en)) ∧
      (t.writeGranule la d en poison).reqs = s.reqs := by
  unfold State.writeGranule
  extract_lets whole u v mark
  have hv : SameStore s v := .ite h.addFlush (h.addFlush.checkGranule hclean)
  clear_value v
  rw [State.count_mem, State.count_reqs, State.putGranule_mem, State.putGranule_reqs, hv.mem, hv.granule_eq]
  exact ⟨rfl, hv.reqs⟩

/-- A load served: the granule is the answer. -/
theorem State.load_served {r : Req} (hop : r.op = .load) (hreq : s.req r.id = some r) (hwb : r.wb = false) (hwho : ∀ d k, r.who ≠ .dev d k)
    (hclean : tblGet 0 r.la s.memUpset = 0) (hdead : s.deadPc r.la = false) :
    ∃ q, (s.apply r).req r.id = some q ∧ q.stage = .answered (.data (s.granule r.la) (s.granulePoison r.la)) ∧ SameMemory s (s.apply r) := by
  rw [State.apply_load hop, State.answer_local hwb hwho]
  unfold State.readGranule
  extract_lets t
  have ht : SameStore s t := ((s.meterReq_sameStore r).addFlush.checkGranule hclean).count
  clear_value t
  have hreq : t.req r.id = some r := by rwa [State.req, ht.reqs]
  refine ⟨_, State.req_modReq hreq fun _ => rfl, ?_, fun a => by rw [State.modReq_mem, ht.mem]⟩
  dsimp only
  rw [ht.granule_eq, ht.granulePoison_eq, ht.deadPc_eq, hdead, Bool.or_false]

/-- A store served: its enabled bytes stand in its granule, no other granule changes, and it is acknowledged. -/
theorem State.store_served {r : Req} (hop : r.op = .store) (hreq : s.req r.id = some r) (hwb : r.wb = false) (hwho : ∀ d k, r.who ≠ .dev d k)
    (hclean : tblGet 0 r.la s.memUpset = 0) (hwf : memWf s.mem = true) :
    ∃ q, (s.apply r).req r.id = some q ∧ q.stage = .answered .ack ∧
      (∀ i, i < 64 → byteAt (granBytes ((s.apply r).granule r.la)) i =
        if r.en.getLsbD i then byteAt (granBytes r.data) i else byteAt (granBytes (s.granule r.la)) i) ∧
      (∀ k, k ≠ r.la → (s.apply r).granule k = s.granule k) := by
  obtain ⟨hmem, hreqs⟩ := (s.meterReq_sameStore r).writeGranule (d := r.data) (en := r.en) (poison := r.poison) hclean
  rw [State.apply_store hop, State.answer_local hwb hwho]
  generalize (s.meterReq r).writeGranule r.la r.data r.en r.poison = t at hmem hreqs
  have hreq : (t.markWritten r.lnd r.frame r.off).req r.id = some r := by
    rw [← hreq, State.req, State.req, ← hreqs]
    rfl
  refine ⟨_, State.req_modReq hreq fun _ => rfl, rfl, fun i hi => ?_, fun k hk => ?_⟩
  · refine (congrArg (byteAt · i) (State.granBytes_granule_of_memWrite hwf ?_)).trans (byteAt_mergeBytes _ _ _ hi)
    exact hmem
  · exact State.granule_of_memWrite_ne hwf hmem hk

/-! ## The events -/

/-- Settles O20, clause by clause: the operations of the landings write one landing's record, or one granule, or one frame. -/
theorem landingEvents : Obligations.LandingEvents := by
  unfold Obligations.LandingEvents
  refine ⟨fun l s => ⟨?served, ?begins, ?next, ?zero, ?fail⟩, ?request⟩
  case served =>
    intro r id hreq hstage hact hmay
    refine congrArg Host.Outcome.next ?_
    rw [State.landingRequest, hreq]
    exact if_pos ⟨hstage, hact, hmay⟩
  case begins =>
    intro hmay hoff
    refine ⟨fun hdone => congrArg Host.Outcome.next ?_, fun hnew hret hclean hl => ⟨_, rfl, ?_⟩⟩
    · unfold State.scrubRead
      dsimp only
      rw [State.scrubStart_done hdone, hmay, hoff]
      rfl
    · have hstart := State.scrubStart_begins hoff hnew
      have hat : (s.scrubStart l).landing l =
          { s.landing l with scrubOn := true, scrubbed := some (s.scrubPeriod l), scrub := 0 } := by
        rw [hstart, State.modLanding_landing_self hl]
      have hscrub : ((s.scrubStart l).landing l).scrub = 0 := by rw [hat]
      have hret : ((s.scrubStart l).landing l).isRetired (0 / 2 ^ 15) = false := by
        rw [hat, Nat.zero_div]
        exact hret
      have hnext : (s.scrubStart l).scrubNext l = 0 := by
        rw [State.scrubNext_of_not_retired, hscrub]
        rw [hscrub]
        exact hret
      have hclean : tblGet 0 (l * landingGranules + 0) (s.scrubStart l).memUpset = 0 := by
        rw [hstart, Nat.add_zero]
        exact hclean
      rw [State.scrubRead_next hmay (by rw [hat]) hnext.symm (Nat.le_of_eq hscrub) (by decide) hret hclean]
      have hl' : l < ((s.scrubStart l).count (kLnd l 6) 1).landings.length := by
        rw [State.count_landings, hstart]
        simpa [State.modLanding, modAt_length] using hl
      rw [State.modLanding_landing_self hl', State.count_landing, hat]
      exact ⟨rfl, rfl, rfl, by rw [State.modLanding_mem, State.count_mem, hstart, State.modLanding_mem]⟩
  case next =>
    intro g hmay hon hg hle hlt hret hclean hl
    have hstart := State.scrubStart_running hon
    have hread := State.scrubRead_next (g := g) hmay (by rwa [hstart]) (by rwa [hstart]) (by rwa [hstart]) hlt (by rwa [hstart]) (by rwa [hstart])
    rw [hstart] at hread
    refine ⟨_, congrArg Host.Outcome.next hread, ?_, ?_, fun hgood => ?_⟩
    · rw [State.modLanding_landing_self (by rwa [State.count_landings])]
    · rw [State.modLanding_mem, State.count_mem]
    · exact State.cnt_count hgood (kLnd_ne_kEth (by decide)) 1
  case zero =>
    intro f hgood hact hmem hinv hl
    refine ⟨_, congrArg Host.Outcome.next (State.frameZeroFill_eq hact hmem hinv), fun a hlo hhi => ?_, fun a ha => ?_, ?_⟩
    · rw [State.count_mem, State.modLanding_mem, State.memGet_zeroFrame hgood, if_pos ⟨hlo, hhi⟩]
    · rw [State.count_mem, State.modLanding_mem, State.memGet_zeroFrame hgood, if_neg (by omega)]
    · have hl' : l < (s.zeroFrame l f).landings.length := by simpa [State.zeroFrame, modAt_length] using hl
      rw [State.count_landing, State.modLanding_landing_self hl']
      exact congrArg (List.filter (· != f)) (s.zeroFrame_zero l f)
  case fail =>
    intro hl hphase hrung
    refine congrArg Host.Outcome.next ?_
    exact if_neg (by simp [hphase, hrung, hl])
  case request =>
    intro s r f hrec hh hp hg hfrom hto hreq hwho hwb hclean hwf
    rw [State.serve_eq_apply hrec hh hp hg hfrom hto]
    exact ⟨fun hop hdead => State.load_served hop hreq hwb hwho hclean hdead, fun hop => State.store_served hop hreq hwb hwho hclean hwf⟩

end Sys2Proof.Machine

/-! PROOF. Re-placement at the interval, sweeps, the items that an idle cell takes, the steps of a move at its source, and PlacementEvents. -/

namespace Sys2Proof.Machine

variable {s : State}

/-! ## What a count leaves of the members and of this device's number -/

theorem State.count_fab (k n : Nat) : (s.count k n).fab = s.fab := (s.count_reportsOnly k n).part_eq State.fab

/-- A written entry is no matter to the keys above it, in a table of any form. -/
theorem tblGet_tblSet_above {α : Type} [DecidableEq α] (d e : α) {j k : Nat} (hjk : k < j) (v : α) (t : List (Nat × α)) :
    tblGet d j (tblSet e k v t) = tblGet d j t := by
  have hskip : ∀ (w : α) (l : List (Nat × α)), tblGet d j ((k, w) :: l) = tblGet d j l := fun w l => by
    rw [tblGet, if_neg (Nat.ne_of_gt hjk), if_neg (Nat.lt_asymm hjk)]
  induction t with
  | nil =>
    rw [tblSet]
    split
    · rfl
    · exact hskip v []
  | cons x t ih =>
    obtain ⟨k', w⟩ := x
    rw [tblSet]
    split
    · split
      · rfl
      · exact hskip v _
    · split
      · next hk =>
        subst hk
        rw [hskip w t]
        split
        · rfl
        · exact hskip v t
      · rw [tblGet, tblGet, ih]

/-- The registers and counters below FAB_ID leave this device's number. -/
theorem State.dev_setBits {a : Nat} (ha : a < rFabId) (v : W32) : (s.setBits a v).dev = s.dev :=
  congrArg (fld · 15 0) (tblGet_tblSet_above _ _ ha _ s.regs)

theorem State.dev_rawCount {k : Nat} (hk : k + 8 < rFabId) (n : Nat) : (s.rawCount k n).dev = s.dev := by
  unfold State.rawCount
  extract_lets v t
  split
  · exact State.dev_setBits hk 1
  · rfl

theorem State.dev_pushEvent (kind source : Nat) (data : BitVec 160) : (s.pushEvent kind source data).dev = s.dev := by
  unfold State.pushEvent
  extract_lets put t
  have ht : t.dev = s.dev := by
    dsimp only [t]
    split
    · rfl
    · rfl
  clear_value t
  split
  · exact ht
  · exact (State.dev_rawCount (by decide) 1).trans ht

theorem State.dev_report (r : Report) : (s.report r).dev = s.dev := by
  have hlookout : (s.lookoutReport r).dev = s.dev := by
    unfold State.lookoutReport
    split
    · split
      · rfl
      · exact State.dev_pushEvent _ _ _
    · exact State.dev_pushEvent _ _ _
  unfold State.report
  extract_lets b i
  split
  · rfl
  · split
    · rfl
    · split
      · rfl
      · exact hlookout

theorem State.dev_count {k : Nat} (hk : k + 8 < rFabId) (n : Nat) : (s.count k n).dev = s.dev := by
  unfold State.count
  extract_lets wraps t
  have ht : t.dev = s.dev := State.dev_rawCount hk n
  split
  · exact (State.dev_report _).trans ht
  · exact ht

/-- Who hears of a move's steps turns on this device's number alone. -/
theorem State.moveParties_count (m : MoveReq) : (s.count (kPlc 0) 1).moveParties m = s.moveParties m :=
  congrArg (fun d => ([m.steward, m.src.1, m.dst.1].filter (· != d)).eraseDups) (State.dev_count (by decide) 1)

/-! ## The interval -/

/-- An interval ends with the figures of the one before all in: the closed interval asks the others for theirs. -/
theorem State.placementInterval_asks (hphase : s.power.phase = .running) (hrung : s.power.rung < 3) (hbusy : s.power.busy = false)
    (hdue : s.scaler.due = []) :
    s.placementInterval =
      (((s.closeInterval).modScaler fun z => { z with due := s.others }).tellAll .reportAsk).reviewWhenDue true := by
  have hopen : ¬(s.power.phase ≠ .running ∨ 3 ≤ s.power.rung ∨ s.power.busy) := by simp [hphase, hrung, hbusy]
  unfold State.placementInterval
  rw [if_neg hopen, if_pos hdue]
  rfl

/-- Each landing of a closed interval holds what it served in it, and counts the next from here. -/
theorem State.closeInterval_landing {l : Nat} (hl : l < s.landings.length) :
    s.closeInterval.landing l =
      { s.landing l with servedLast := (s.landing l).served - (s.landing l).servedFrom, servedFrom := (s.landing l).served } := by
  simp [State.closeInterval, State.landing, hl]

/-- While placement is frozen, the review selects the retirements alone (R83). -/
theorem State.review_frozen {u : State} (hfrozen : s.placementFrozen = true)
    (hu : u = s.modScaler fun z => { z with trafficLast := z.gather, gather := [], due := [] }) :
    s.review = (u.modScaler fun z => { z with queue := z.queue ++ (u.pickRetire (u.carriedOver ⟨[],
      u.fab.memberList.map fun d => (d, (u.landingsOf d).2.1),
      u.fab.memberList.map fun d => (d, (u.landingsOf d).1), []⟩)).out }).startQueued := by
  have hu' : u.placementFrozen = true := by rw [hu]; exact hfrozen
  unfold State.review
  simp only [← hu, hu', List.map_map, Bool.true_or, if_true]
  rfl

/-! ## Sweeps -/

/-- No sweep starts for an entry that has advanced less than 16,384 generations (R90). -/
theorem State.sweepCheck_near {h p : Nat} (hnear : ∀ e, s.mapEntry h p = some e → s.advance h p e.gen < 16384) : s.sweepCheck h p = s := by
  unfold State.sweepCheck
  split
  · next e he => exact if_neg (Nat.not_le.mpr (hnear e he))
  · rfl

/-- A sweep that every member has acknowledged, when no entry has come far again and no device is lost: what waited goes on. -/
theorem State.sweepComplete_near {h : Nat} {x : Sweep} {u : State} (hfind : s.scaler.sweeps.find? (fun y => y.handle == h) = some x)
    (hwait : x.waiting = []) (hlost : ∀ m ∈ s.fab.members, m.2 ≠ 2)
    (hu : u = (s.modScaler fun z => { z with
        sweeps := z.sweeps.filter fun y => y.handle != h,
        base := (z.startGen.filter fun y => y.1 / 2 ^ 40 == h).foldl (fun t y => tblSet 0 y.1 y.2 t) (z.base.filter fun y => y.1 / 2 ^ 40 != h),
        startGen := z.startGen.filter fun y => y.1 / 2 ^ 40 != h }).count (kPlc 5) 1)
    (hnear : ∀ p e, u.mapEntry h p = some e → u.advance h p e.gen < 16384) : s.sweepComplete h = u.startQueued := by
  have hfold : (u.entriesOf h).foldl (fun s y => s.sweepCheck h y.1) u = u :=
    List.foldl_fixed' (fun y => State.sweepCheck_near (hnear y.1)) _
  have hnone : (u.fab.members.filterMap fun m => if m.2 = 2 then some m.1 else none) = [] := by
    rw [hu, State.count_fab]
    exact List.filterMap_eq_nil_iff.mpr fun m hm => if_neg (hlost m hm)
  unfold State.sweepComplete
  rw [hfind]
  dsimp only
  rw [if_neg (not_not.mpr hwait), ← hu, hfold, hnone]
  rfl

/-! ## Items for an idle cell -/

/-- An idle cell takes from its donor the later half of the items that may move. -/
theorem State.rebalance_idle {c d : Nat} {out rest : List QItem} (hact : s.active = true) (hup : s.cellUp c = true)
    (hidle : (s.cell c).queue = []) (hdonor : s.donor c = some d)
    (hhalf : (out, rest) = takeLast (ceilDiv (((s.cell d).queue ++ (s.cell d).held).filter fun q => q.it.kind != 2).length 2)
      ((s.cell d).queue ++ (s.cell d).held)) :
    s.rebalance c = out.foldl (fun s q => (s.moveCost d q).giveItem c q)
      (s.modCell d fun x => CellSt.refill { x with queue := [], held := rest }) := by
  have hopen : ¬(!s.active ∨ !s.cellUp c ∨ (s.cell c).queue ≠ []) := by simp [hact, hup, hidle]
  unfold State.rebalance
  rw [if_neg hopen, hdonor]
  dsimp only
  rw [← hhalf]

/-! ## The steps of a move at its source -/

section
variable {h p : Nat} {m : Move} (hmove : s.move h p = some m) (hsrc : m.req.src.1 = s.dev) (hact : s.active = true)

include hmove hsrc hact

/-- The first copy has ended (R86): a replica's window opens at once, another plot's after what was written, if much, is copied again. -/
theorem State.moveCopyDone_copying (hacked : m.unacked = 0) (hphase : m.phase = .copying) :
    s.moveCopyDone h p =
      if replicaMove m.req then s.modMove h p fun x => { x with phase := .window }
      else if 128 < m.written.length then
        if s.mayCopy m.req (4096 * m.written.length) then
          (s.modMove h p fun x => { x with phase := .recopied, written := [] }).copyWhere m.req (subBlock m.written)
        else s
      else if s.mayCopy m.req plotBytes then s.openWindow m else s := by
  have hopen : ¬(m.req.src.1 ≠ s.dev ∨ m.unacked ≠ 0 ∨ !s.active) := by simp [hsrc, hacked, hact]
  unfold State.moveCopyDone
  rw [hmove]
  dsimp only
  rw [if_neg hopen, hphase]

/-- Much was written during the second copy too: the move is abandoned (R86). -/
theorem State.moveCopyDone_recopied_over (hacked : m.unacked = 0) (hphase : m.phase = .recopied) (hover : 128 < m.written.length) :
    s.moveCopyDone h p = ((s.abandonOver m.req).sealStep).startQueued := by
  have hopen : ¬(m.req.src.1 ≠ s.dev ∨ m.unacked ≠ 0 ∨ !s.active) := by simp [hsrc, hacked, hact]
  unfold State.moveCopyDone
  rw [hmove]
  dsimp only
  rw [if_neg hopen, hphase]
  exact if_pos hover

/-- Every party learns of the flip (R84), which of a replica ends the move and is counted; the source of another keeps a forwarding record. -/
theorem State.moveFlip_window (hacked : m.unacked = 0) (hphase : m.phase = .window) (hfree : s.stalledHere m.req = false) :
    s.moveFlip h p =
      if replicaMove m.req then
        ((s.moveParties m.req).foldl (fun s d => s.tell d (.moveFlip m.req)) (s.count (kPlc 0) 1)).onMoveFlip m.req
      else (((s.moveParties m.req).foldl (fun s d => s.tell d (.moveFlip m.req)) s).onMoveFlip m.req).flipSource m.req := by
  have hopen : ¬(m.req.src.1 ≠ s.dev ∨ m.unacked ≠ 0 ∨ !s.active ∨ m.phase ≠ .window) := by simp [hsrc, hacked, hact, hphase]
  have hgo : ¬s.stalledHere m.req = true := by simp [hfree]
  unfold State.moveFlip
  rw [hmove]
  dsimp only
  rw [if_neg hopen, if_neg hgo]
  split
  · rw [State.moveParties_count]
  · rfl

/-- The last cell has acknowledged: the source frame is released, and the move ends at every party (R84, R88). -/
theorem State.moveInvalidateDone_acked (hphase : m.phase = .flipped) (hall : s.allAcked m = true) :
    s.moveInvalidateDone h p = ((s.moveParties m.req).foldl (fun s d => s.tell d (.moveInv h p))
      (((s.releaseFrame m.req.src.2.1 m.req.src.2.2).modLanding m.req.src.2.1 fun x =>
        { x with reserved := x.reserved.filter (· != m.req.src.2.2), inval := x.inval.filter fun y => y.1 != m.req.src.2.2 }).count
          (kPlc 0) 1)).onMoveInv h p := by
  have hopen : ¬(m.req.src.1 ≠ s.dev ∨ m.phase ≠ .flipped ∨ !s.allAcked m ∨ !s.active) := by simp [hsrc, hphase, hall, hact]
  unfold State.moveInvalidateDone
  rw [hmove]
  dsimp only
  rw [if_neg hopen]
  rfl

end

/-! ## The events -/

/-- Settles O21, clause by clause: each is the equation of its operation under the clause's conditions. -/
theorem placementEvents : Obligations.PlacementEvents := by
  unfold Obligations.PlacementEvents
  refine ⟨fun s => ⟨?interval, ⟨rfl, rfl, fun l hl => ?closed⟩, ?frozen, ?sweep, ?rebalance⟩, fun h p s m hmove hsrc hacked hact => ?move⟩
  case interval =>
    intro hphase hrung hbusy hdue
    exact congrArg (Host.Outcome.next ·.settle) (State.placementInterval_asks hphase hrung hbusy hdue)
  case closed =>
    rw [State.closeInterval_landing hl]
    exact ⟨rfl, rfl⟩
  case frozen =>
    rintro hfrozen u k hu rfl
    exact State.review_frozen hfrozen hu
  case sweep =>
    intro h x hfind hwait hlost u hu hnear
    exact congrArg (Host.Outcome.next ·.settle) (State.sweepComplete_near hfind hwait hlost hu hnear)
  case rebalance =>
    intro c d out rest hact hup hidle hdonor hhalf
    exact congrArg Host.Outcome.next (State.rebalance_idle hact hup hidle hdonor hhalf)
  case move =>
    have hcopy := State.moveCopyDone_copying hmove hsrc hact hacked
    have hflip := State.moveFlip_window hmove hsrc hact hacked
    refine ⟨?replica, ?opens, ?again, ?abandon, ?flip, ?acked⟩
    case replica =>
      intro hphase hrep
      exact congrArg (Host.Outcome.next ·.settle) ((hcopy hphase).trans (if_pos hrep))
    case opens =>
      intro hphase hrep hfew hmay
      refine congrArg (Host.Outcome.next ·.settle) ((hcopy hphase).trans ?_)
      rw [if_neg (by simp [hrep]), if_neg (Nat.not_lt.mpr hfew), if_pos hmay]
    case again =>
      intro hphase hrep hmany hmay
      refine congrArg (Host.Outcome.next ·.settle) ((hcopy hphase).trans ?_)
      rw [if_neg (by simp [hrep]), if_pos hmany, if_pos hmay]
    case abandon =>
      intro hphase hmany
      exact congrArg (Host.Outcome.next ·.settle) (State.moveCopyDone_recopied_over hmove hsrc hact hacked hphase hmany)
    case flip =>
      intro hphase hfree u
      refine ⟨fun hrep hu => ?_, fun hrep hu => ?_⟩
      · rw [hu]
        exact congrArg (Host.Outcome.next ·.settle) ((hflip hphase hfree).trans (if_neg (by simp [hrep])))
      · rw [hu]
        exact congrArg (Host.Outcome.next ·.settle) ((hflip hphase hfree).trans (if_pos hrep))
    case acked =>
      intro hphase hall
      exact congrArg (Host.Outcome.next ·.settle) (State.moveInvalidateDone_acked hmove hsrc hact hphase hall)

end Sys2Proof.Machine

/-! PROOF. Launches (R119 to R121): each answer of LAUNCH.A and LAUNCH.X, what an accepted launch leaves of the cell, and LaunchOutcomes. -/

namespace Sys2Proof.Machine

variable {s : State} {th : ThreadRef} {e : Engine} {w : W64}

/-! ## What a launch leaves of the cell -/

@[simp] theorem CellSt.launch_prog (x : CellSt) (e : Engine) (slot token : Nat) (b : List Byte) :
    (x.launch e slot token b).prog e = some (launchProg x slot token (launchOf b)) := by
  cases e <;> rfl

@[simp] theorem CellSt.launch_prog_other (x : CellSt) (e : Engine) (slot token : Nat) (b : List Byte) :
    (x.launch e slot token b).prog (otherEngine e) = x.prog (otherEngine e) := by
  cases e <;> (dsimp only [CellSt.launch]; split <;> rfl)

@[simp] theorem CellSt.launch_threads (x : CellSt) (e : Engine) (slot token : Nat) (b : List Byte) :
    (x.launch e slot token b).threads = x.threads := by
  cases e <;> (dsimp only [CellSt.launch]; split <;> rfl)

@[simp] theorem CellSt.launch_opmem (x : CellSt) (e : Engine) (slot token : Nat) (b : List Byte) :
    (x.launch e slot token b).opmem = x.opmem := by
  cases e <;> (dsimp only [CellSt.launch]; split <;> rfl)

/-! ## The answers of a launch (R120) -/

/-- The opcode of the launch of an engine. -/
def launchOpcode : Engine → Nat
  | .access => 0x3E
  | .execute => 0x3F

theorem State.launch_busy (h : ThreadReady s th 1 (launchOpcode e) w) (hbusy : ((s.cell th.cell).prog e).isSome) :
    s.launch th e w = s.thRet th (wRd w) 1 := by
  cases e
  all_goals exact (State.thIssue_ready h _).trans (if_pos hbusy)

theorem State.launch_misplaced (h : ThreadReady s th 1 (launchOpcode e) w) (hidle : (s.cell th.cell).prog e = none)
    (hplace : (s.sreg th (wRa w)).toNat % 32 ≠ 0 ∨ opSoft < (s.sreg th (wRa w)).toNat + 256) :
    s.launch th e w = s.thRet th (wRd w) 3 := by
  cases e
  all_goals exact (State.thIssue_ready h _).trans ((if_neg (by simp [hidle])).trans (if_pos hplace))

/-- A descriptor that the launch reads: the engine is idle, the address is one that R120 allows, and its bytes carry no poison. -/
structure LaunchReads (s : State) (th : ThreadRef) (e : Engine) (w : W64) (b : List Byte) : Prop where
  ready : ThreadReady s th 1 (launchOpcode e) w
  idle : (s.cell th.cell).prog e = none
  aligned : (s.sreg th (wRa w)).toNat % 32 = 0
  inside : (s.sreg th (wRa w)).toNat + 256 ≤ opSoft
  clean : (s.cell th.cell).opPoisoned (s.sreg th (wRa w)).toNat 256 = none
  bytes : b = memRead (s.cell th.cell).opmem (s.sreg th (wRa w)).toNat 256

/-- The state after an accepted launch, in which the thread has not gone on yet. -/
def State.launched (s : State) (th : ThreadRef) (e : Engine) (b : List Byte) : State :=
  let u := s.modCell th.cell fun x => x.launch e th.slot (x.thread th.slot).token b
  match e with
  | .access => (((u.setReg (rCell th.cell 0x108) 0).setReg (rCell th.cell 0x10C) 0).setReg (rCell th.cell 0x110) 0).setReg (rCell th.cell 0x114) 0
  | .execute => u

/-- What a launch answers for a descriptor that it reads. -/
theorem State.launch_reads {b : List Byte} (h : LaunchReads s th e w b) :
    s.launch th e w =
      if !(launchOf b).ok then s.thRet th (wRd w) 3
      else if (launchOf b).clr && (s.cell th.cell).declaredBy (otherEngine e) (launchOf b).ich (launchOf b).och then s.thRet th (wRd w) 2
      else (s.launched th e b).thRet th (wRd w) 0 := by
  obtain ⟨hready, hidle, haligned, hinside, hclean, rfl⟩ := h
  have hplace : ¬((s.sreg th (wRa w)).toNat % 32 ≠ 0 ∨ opSoft < (s.sreg th (wRa w)).toNat + 256) := by omega
  cases e
  all_goals
    refine (State.thIssue_ready hready _).trans ((if_neg (by simp [hidle])).trans ((if_neg hplace).trans ?_))
    rw [hclean]
    rfl

/-- An instruction that leaves a value in rd changes its slot by `retire`. -/
theorem State.thRet_eq_modThread (s : State) (th : ThreadRef) (w v : W64) :
    s.thRet th (wRd w) v = s.modThread th.cell th.slot (Machine.retire w v) :=
  congrArg (s.modThread th.cell th.slot) (funext fun t => by simp [Machine.retire])

theorem State.launched_cells (s : State) (th : ThreadRef) (e : Engine) (b : List Byte) :
    (s.launched th e b).cells = (s.modCell th.cell fun x => x.launch e th.slot (x.thread th.slot).token b).cells := by
  cases e <;> rfl

theorem State.launched_mem (s : State) (th : ThreadRef) (e : Engine) (b : List Byte) : (s.launched th e b).mem = s.mem := by
  cases e <;> rfl

/-- An accepted launch in its thread's cell: the engine holds its program, and the thread has 0 in rd and goes on. -/
theorem State.cell_launched_thRet (h : s.runs th) (b : List Byte) :
    ((s.launched th e b).thRet th (wRd w) 0).cell th.cell =
      { (s.cell th.cell).launch e th.slot (s.thread th.cell th.slot).token b with
        threads := modAt th.slot (Machine.retire w 0) (s.cell th.cell).threads } := by
  obtain ⟨hcell, -⟩ := State.runs_bounds h
  have hlaunched : (s.launched th e b).cell th.cell = (s.cell th.cell).launch e th.slot (s.thread th.cell th.slot).token b :=
    (congrArg (List.getD · th.cell CellSt.reset) (s.launched_cells th e b)).trans (State.cell_modCell_self hcell _)
  have hlength : th.cell < (s.launched th e b).cells.length := by
    rw [State.launched_cells, State.modCell_cells, modAt_length]
    exact hcell
  rw [State.thRet_eq_modThread, State.modThread, State.cell_modCell_self hlength, hlaunched, CellSt.launch_threads]

theorem State.cell_launched_thRet_ne {c : Nat} (hc : c ≠ th.cell) (b : List Byte) :
    ((s.launched th e b).thRet th (wRd w) 0).cell c = s.cell c :=
  (State.cell_modCell_ne hc _).trans
    ((congrArg (List.getD · c CellSt.reset) (s.launched_cells th e b)).trans (State.cell_modCell_ne hc _))

theorem State.thread_launched_thRet (h : s.runs th) (b : List Byte) :
    ((s.launched th e b).thRet th (wRd w) 0).thread th.cell th.slot = Machine.retire w 0 (s.thread th.cell th.slot) := by
  obtain ⟨-, hslot⟩ := State.runs_bounds h
  rw [State.thread, State.cell_launched_thRet h]
  exact (modAt_getD ..).trans (if_pos ⟨rfl, hslot⟩)

theorem State.prog_launched_thRet (h : s.runs th) (b : List Byte) :
    (((s.launched th e b).thRet th (wRd w) 0).cell th.cell).prog e =
      some (launchProg (s.cell th.cell) th.slot (s.thread th.cell th.slot).token (launchOf b)) := by
  rw [State.cell_launched_thRet h]
  exact CellSt.launch_prog ..

theorem State.prog_other_launched_thRet (h : s.runs th) (b : List Byte) :
    (((s.launched th e b).thRet th (wRd w) 0).cell th.cell).prog (otherEngine e) = (s.cell th.cell).prog (otherEngine e) := by
  rw [State.cell_launched_thRet h]
  exact CellSt.launch_prog_other ..

theorem State.launched_thRet_mem (s : State) (b : List Byte) : SameMemory s ((s.launched th e b).thRet th (wRd w) 0) := fun a => by
  rw [State.thRet_mem, State.launched_mem]

theorem State.launched_thRet_opmem (h : s.runs th) (b : List Byte) : SameOpmem s ((s.launched th e b).thRet th (wRd w) 0) := by
  intro c a
  by_cases hc : c = th.cell
  · rw [hc, State.cell_launched_thRet h, CellSt.launch_opmem]
  · rw [State.cell_launched_thRet_ne hc]

/-! ## What a launched program starts with -/

theorem launchProg_text_getElem? (x : CellSt) (slot token : Nat) (b : List Byte) {i : Nat} (hi : i < leAt b 4 2) :
    (launchProg x slot token (launchOf b)).text[i]? = some (BitVec.ofNat 64 (x.opNat (leAt b 0 4 + 8 * i) 8)) := by
  simp [launchProg, launchOf, List.getElem?_range hi]

/-! ## The statement -/

/-- Settles O39: LAUNCH answers in the order in which R120 gives its values (`launch_busy`, `launch_misplaced`, `launch_reads`), and an accepted one
changes its cell by `CellSt.launch` and its thread by `retire`. -/
theorem launchOutcomes : Obligations.LaunchOutcomes := by
  unfold Obligations.LaunchOutcomes
  refine ⟨?launch, ?program⟩
  case launch =>
    intro p hp th w s hready a ha
    obtain ⟨e, hop, hexec⟩ : ∃ e, p.2 = (launchOpcode e, e) ∧ exec (p.1 th w) s = .next (s.launch th e w) := by
      simp only [List.mem_cons, List.not_mem_nil, or_false] at hp
      rcases hp with rfl | rfl
      · exact ⟨.access, rfl, rfl⟩
      · exact ⟨.execute, rfl, rfl⟩
    obtain ⟨i, q⟩ := p
    subst hop ha
    dsimp only at hready hexec ⊢
    have hruns : s.runs th := hready.at_.runs
    refine ⟨fun hbusy => ⟨_, hexec, ?busy⟩, fun hidle hplace => ⟨_, hexec, ?misplaced⟩, fun hidle haligned hinside hclean l hl => ?reads⟩
    case busy =>
      rw [State.launch_busy hready hbusy]
      exact State.thRet_step hruns w 1
    case misplaced =>
      rw [State.launch_misplaced hready hidle hplace]
      exact State.thRet_step hruns w 3
    case reads =>
      have hreads := State.launch_reads ⟨hready, hidle, haligned, hinside, hclean, rfl⟩
      rw [← hl] at hreads
      refine ⟨fun hbad => ⟨_, hexec, ?_⟩, fun hok hclr hclash => ⟨_, hexec, ?_⟩, fun hok hclear => ⟨_, hexec, ?_⟩⟩
      · rw [hreads, if_pos (by simp [hbad])]
        exact State.thRet_step hruns w 3
      · rw [hreads, if_neg (by simp [hok]), if_pos (by simp [hclr, hclash])]
        exact State.thRet_step hruns w 2
      · rw [hreads, if_neg (by simp [hok]), if_neg (by simpa using hclear)]
        rw [hl]
        exact ⟨State.thread_launched_thRet hruns _, State.prog_launched_thRet hruns _, State.prog_other_launched_thRet hruns _,
          State.launched_thRet_mem s _, State.launched_thRet_opmem hruns _⟩
  case program =>
    rintro x slot token b p rfl
    refine ⟨rfl, rfl, rfl, rfl, rfl, rfl, rfl, rfl, ?_, fun i hi => launchProg_text_getElem? x slot token b hi, rfl, rfl, rfl, rfl⟩
    simp [launchProg, launchOf]

end Sys2Proof.Machine

/-! PROOF. The ends of programs (R122 to R124, R130): completion and its flag, the handling of a fault, the decouple watchdog, the end of a chute wait,
and ProgramsEnd. -/

namespace Sys2Proof.Machine

variable {s : State} {c : Nat} {e : Engine} {p : Prog}

/-! ## Parts of a cell that a change leaves -/

/-- What the change of a cell leaves in every cell, it leaves in the state. -/
theorem State.cell_modCell_part {α : Type} (part : CellSt → α) {f : CellSt → CellSt} (hf : ∀ x, part (f x) = part x) (s : State) (c d : Nat) :
    part ((s.modCell c f).cell d) = part (s.cell d) := by
  rw [State.cell_modCell]
  split
  · exact hf _
  · rfl

/-- An engine with a program is one of a cell that there is. -/
theorem State.cell_lt_of_prog (h : (s.cell c).prog e = some p) : c < s.cells.length := by
  by_contra hc
  rw [State.cell_beyond (Nat.le_of_not_lt hc)] at h
  cases e <;> cases h

theorem State.prog_of_engineRuns (h : s.engineRuns c e = some p) : (s.cell c).prog e = some p := by
  unfold State.engineRuns at h
  split at h
  · exact (Option.filter_eq_some_iff.1 h).1
  · cases h

theorem State.engineRuns_of_engineIssues (h : s.engineIssues c e = some p) : s.engineRuns c e = some p := by
  unfold State.engineIssues at h
  split at h
  · cases h
  · exact h

/-! ## Flags for a thread that may have left its slot -/

/-- Flags reach a slot, and the parking of its cell, alone. -/
theorem State.flagToken_part {α : Type} (part : CellSt → α)
    (hpart : ∀ (x : CellSt) threads parked idle, part { x with threads := threads, parked := parked, idleSince := idle } = part x)
    (s : State) (c slot token d : Nat) (m : W32) : part ((s.flagToken c slot token m).cell d) = part (s.cell d) := by
  unfold State.flagToken State.flagThread
  split
  · split
    · rfl
    · refine (State.cell_modCell_part part (fun x => hpart x _ _ _) _ _ _).trans (State.cell_modCell_part part (fun x => ?_) _ _ _)
      split
      · exact hpart x _ _ _
      · rfl
  · rfl

@[simp] theorem State.flagToken_mem (s : State) (c slot token : Nat) (m : W32) : (s.flagToken c slot token m).mem = s.mem := by
  unfold State.flagToken State.flagThread
  split
  · split <;> rfl
  · rfl

@[simp] theorem State.unpark_thread (s : State) (c d j : Nat) : (s.unpark c).thread d j = s.thread d j :=
  State.cell_modCell_part (CellSt.thread · j) (fun x => by split <;> rfl) s c d

/-- A slot that is not FREE lies in a cell and a slot that there are. -/
theorem State.thread_bounds {slot : Nat} (h : (s.thread c slot).state ≠ .free) : c < s.cells.length ∧ slot < (s.cell c).threads.length := by
  constructor
  · by_contra hc
    rw [State.thread, State.cell_beyond (Nat.le_of_not_lt hc), CellSt.thread_reset] at h
    exact h rfl
  · by_contra hslot
    rw [State.thread, CellSt.thread, List.getD_eq_default _ _ (Nat.le_of_not_lt hslot)] at h
    exact h rfl

/-- A thread takes flags that do not wake it by ORing them in. -/
theorem Thread.orFlags_flags {t : Thread} {m : W32} (h : t.state = .ready ∨ t.state = .running ∨ t.state = .sleeping) :
    (t.orFlags m).flags = t.flags ||| m := by
  unfold Thread.orFlags
  rcases h with h | h | h <;> rw [h]

/-- A thread that is READY, RUNNING or SLEEPING takes its flags. -/
theorem State.flagToken_flags {slot token : Nat} (m : W32) (htoken : (s.thread c slot).token = token)
    (hstate : (s.thread c slot).state = .ready ∨ (s.thread c slot).state = .running ∨ (s.thread c slot).state = .sleeping) :
    ((s.flagToken c slot token m).thread c slot).flags = (s.thread c slot).flags ||| m := by
  have hdeaf : (s.thread c slot).deaf = false := by
    unfold Thread.deaf
    rcases hstate with h | h | h <;> rw [h] <;> rfl
  have hthere : c < (s.unpark c).cells.length ∧ slot < ((s.unpark c).cell c).threads.length := by
    refine State.thread_bounds ?_
    rw [State.unpark_thread]
    rcases hstate with h | h | h <;> rw [h] <;> decide
  unfold State.flagToken State.flagThread
  rw [if_pos htoken, if_neg (by simp [hdeaf]), State.thread_modThread, if_pos ⟨rfl, hthere.1, rfl, hthere.2⟩, State.unpark_thread]
  exact Thread.orFlags_flags hstate

/-! ## The end of a program (R123) -/

/-- The cell after a program of it has ended: its summary stands in operand memory, and its engine is idle. -/
def CellSt.ended (x : CellSt) (e : Engine) (p : Prog) : CellSt :=
  let x := x.opWrite p.sum p.summary
  match e with
  | .access => { x with ae := { x.ae with prog := none, op := none, wait := none } }
  | .execute => { x with xe := { x.xe with prog := none, hold := none, wait := none, late := [] } }

@[simp] theorem CellSt.ended_prog (x : CellSt) (e : Engine) (p : Prog) : (x.ended e p).prog e = none := by
  cases e <;> simp only [CellSt.ended, CellSt.prog, CellSt.opWrite]

@[simp] theorem CellSt.ended_prog_other (x : CellSt) (e : Engine) (p : Prog) : (x.ended e p).prog (otherEngine e) = x.prog (otherEngine e) := by
  cases e <;> simp only [CellSt.ended, CellSt.prog, otherEngine, CellSt.opWrite]

@[simp] theorem CellSt.ended_opmem (x : CellSt) (e : Engine) (p : Prog) : (x.ended e p).opmem = memWrite x.opmem p.sum p.summary := by
  cases e <;> simp only [CellSt.ended, CellSt.opWrite]

@[simp] theorem CellSt.ended_threads (x : CellSt) (e : Engine) (p : Prog) : (x.ended e p).threads = x.threads := by
  cases e <;> simp only [CellSt.ended, CellSt.opWrite]

@[simp] theorem CellSt.ended_ich (x : CellSt) (e : Engine) (p : Prog) : (x.ended e p).ich = x.ich := by
  cases e <;> simp only [CellSt.ended, CellSt.opWrite]

theorem State.endProg_of_none (h : (s.cell c).prog e = none) : s.endProg c e = s := by
  unfold State.endProg
  rw [h]

theorem State.endProg_of_some (h : (s.cell c).prog e = some p) :
    s.endProg c e = (s.modCell c fun x => x.ended e p).flagToken c p.launcher p.token (BitVec.ofNat 32 (2 ^ p.evt)) := by
  unfold State.endProg
  rw [h]
  cases e <;> rfl

/-- What flags leave, of the cell in which a program ends. -/
theorem State.endProg_part {α : Type} (part : CellSt → α)
    (hpart : ∀ (x : CellSt) threads parked idle, part { x with threads := threads, parked := parked, idleSince := idle } = part x)
    (h : (s.cell c).prog e = some p) : part ((s.endProg c e).cell c) = part ((s.cell c).ended e p) := by
  rw [State.endProg_of_some h, State.flagToken_part part hpart, State.cell_modCell_self (State.cell_lt_of_prog h)]

theorem State.endProg_prog (s : State) (c : Nat) (e : Engine) : ((s.endProg c e).cell c).prog e = none := by
  cases h : (s.cell c).prog e with
  | none => rw [State.endProg_of_none h, h]
  | some p => exact (State.endProg_part (CellSt.prog · e) (fun _ _ _ _ => by cases e <;> rfl) h).trans (CellSt.ended_prog ..)

theorem State.endProg_prog_other (s : State) (c : Nat) (e : Engine) :
    ((s.endProg c e).cell c).prog (otherEngine e) = (s.cell c).prog (otherEngine e) := by
  cases h : (s.cell c).prog e with
  | none => rw [State.endProg_of_none h]
  | some p =>
    exact (State.endProg_part (CellSt.prog · (otherEngine e)) (fun _ _ _ _ => by cases e <;> rfl) h).trans (CellSt.ended_prog_other ..)

theorem State.endProg_ich (s : State) (c : Nat) (e : Engine) : ((s.endProg c e).cell c).ich = (s.cell c).ich := by
  cases h : (s.cell c).prog e with
  | none => rw [State.endProg_of_none h]
  | some p => exact (State.endProg_part CellSt.ich (fun _ _ _ _ => rfl) h).trans (CellSt.ended_ich ..)

theorem State.endProg_mem (s : State) (c : Nat) (e : Engine) : (s.endProg c e).mem = s.mem := by
  cases h : (s.cell c).prog e with
  | none => rw [State.endProg_of_none h]
  | some p =>
    rw [State.endProg_of_some h]
    exact State.flagToken_mem ..

theorem State.endProg_opmem (h : (s.cell c).prog e = some p) : ((s.endProg c e).cell c).opmem = memWrite (s.cell c).opmem p.sum p.summary :=
  (State.endProg_part CellSt.opmem (fun _ _ _ _ => rfl) h).trans (CellSt.ended_opmem ..)

theorem Prog.summary_length (p : Prog) : p.summary.length = 32 := rfl

/-- The completion flag reaches the thread that launched the program, if it is in its slot still and does not wait. -/
theorem State.endProg_flag (h : (s.cell c).prog e = some p) (htoken : (s.thread c p.launcher).token = p.token)
    (hstate : (s.thread c p.launcher).state = .ready ∨ (s.thread c p.launcher).state = .running ∨ (s.thread c p.launcher).state = .sleeping)
    (hevt : p.evt < 32) : ((s.endProg c e).thread c p.launcher).flags.getLsbD p.evt := by
  have hthread : (s.modCell c fun x => x.ended e p).thread c p.launcher = s.thread c p.launcher :=
    State.cell_modCell_part (CellSt.thread · p.launcher) (fun x => by rw [CellSt.thread, CellSt.ended_threads]; rfl) s c c
  rw [← hthread] at htoken hstate
  rw [State.endProg_of_some h, State.flagToken_flags _ htoken hstate, BitVec.getLsbD_or, BitVec.getLsbD_ofNat, Nat.testBit_two_pow_self]
  simp [hevt]

theorem State.programComplete_eq (h : s.engineIssues c e = some p) (hdone : s.progDone c e p) : s.programComplete c e = s.endProg c e := by
  unfold State.programComplete
  rw [h]
  exact if_pos hdone

/-! ## The handling of a fault (R124) -/

theorem CellSt.emptyChutes_ich {x : CellSt} {ich : Byte} {och : BitVec 4} {k : Nat} {v : Chute} (hk : ich.getLsbD k)
    (h : (x.emptyChutes ich och).ich[k]? = some v) : v = Chute.empty := by
  simp only [CellSt.emptyChutes, List.getElem?_map, List.getElem?_zipIdx, Option.map_eq_some_iff] at h
  obtain ⟨-, ⟨v, -, rfl⟩, rfl⟩ := h
  simp [hk]

theorem State.abortPrograms_prog (s : State) (c : Nat) (e : Engine) : ((s.abortPrograms c).cell c).prog e = none := by
  unfold State.abortPrograms
  cases e with
  | access => exact (State.endProg_prog_other _ c .execute).trans (State.endProg_prog ..)
  | execute => exact State.endProg_prog ..

theorem State.abortPrograms_mem (s : State) (c : Nat) : (s.abortPrograms c).mem = s.mem := by
  unfold State.abortPrograms
  exact (State.endProg_mem ..).trans (State.endProg_mem ..)

/-- The input chutes that a program declares are empty after the handling of a fault. -/
theorem State.abortPrograms_ich (hp : (s.cell c).prog e = some p) {k : Nat} {v : Chute} (hk : p.ichUse.getLsbD k)
    (hv : ((s.abortPrograms c).cell c).ich[k]? = some v) : v = Chute.empty := by
  unfold State.abortPrograms at hv
  extract_lets x use mark at hv
  have hmask : ((use .access).1 ||| (use .execute).1).getLsbD k := by
    cases e
    case access => simp [use, x, hp, hk]
    case execute => simp [use, x, hp, hk]
  rw [State.endProg_ich, State.endProg_ich] at hv
  have hcell := State.cell_modCell_self (State.cell_lt_of_prog hp) fun x =>
    ((x.modProg .access mark).modProg .execute mark).emptyChutes ((use .access).1 ||| (use .execute).1) ((use .access).2 ||| (use .execute).2)
  exact CellSt.emptyChutes_ich hmask ((congrArg (·.ich[k]?) hcell).symm.trans hv)

/-- The cell with no instruction in flight in either engine. -/
def CellSt.noneInFlight (x : CellSt) : CellSt :=
  { x with ae := { x.ae with op := none, wait := none }, xe := { x.xe with hold := none, wait := none, late := [] } }

theorem State.programAbort_eq (hactive : s.active) (hup : s.cellUp c) (hp : (s.cell c).prog e = some p) (hfault : p.fault.isSome)
    (hother : (s.cell c).prog (otherEngine e) = none ∨ (s.cell c).faulted (otherEngine e) ∨ (s.cell c).atBoundary (otherEngine e)) :
    s.programAbort c = ((s.modCell c CellSt.noneInFlight).abortPrograms c).modCell c CellSt.abortUnits := by
  have hfaulted : (s.cell c).faulted e = true := by
    unfold CellSt.faulted
    rw [hp]
    exact hfault
  have hends : ((s.cell c).prog (otherEngine e)).isNone || (s.cell c).faulted (otherEngine e) || (s.cell c).atBoundary (otherEngine e) := by
    rcases hother with h | h | h <;> simp [h]
  refine if_pos ?_
  cases e
  case access => simpa [hactive, hup, hfaulted, otherEngine] using hends
  case execute => simpa [hactive, hup, hfaulted, otherEngine] using hends

/-! ## The decouple watchdog (R130) -/

theorem State.raise_reportsOnly (s : State) (source kind code cls info : Nat) : ReportsOnly s (s.raise source kind code cls info) := .report rfl

/-- A stall faults the access program at the instruction at which it waits. -/
theorem State.engineFault_stall (s : State) (c : Nat) (info : W64) :
    s.engineFault c .access fDecoupleStall info =
      s.modCell c fun x =>
        { x with ae := { x.ae with prog := x.ae.prog.map fun p => { p with fault := some (0x0022, p.pc, info) }, op := none, wait := none } } :=
  rfl

/-- The cell after a stall in which its access engine alone waits. -/
def CellSt.stalledAccess (x : CellSt) (info : W64) : CellSt :=
  { x with wd := 0, ae := { x.ae with prog := x.ae.prog.map fun p => { p with fault := some (0x0022, p.pc, info) }, op := none, wait := none } }

theorem State.decoupleStall_access {k : Nat} (hactive : s.active) (hup : s.cellUp c) (hon : s.regBit (rCell c 0x10) 0)
    (hlimit : wdLimit ≤ (s.cell c).wd) (hae : (s.cell c).ae.wait = some k) (hxe : (s.cell c).xe.wait = none) (hp : (s.cell c).prog e = some p) :
    (s.decoupleStall c).cell c = (s.cell c).stalledAccess (BitVec.ofNat 64 (k + 256 * 0xFF)) := by
  have hc := State.cell_lt_of_prog hp
  have hcell : ((s.engineFault c .access fDecoupleStall (BitVec.ofNat 64 (k + 256 * 0xFF))).modCell c fun x => { x with wd := 0 }).cell c =
      (s.cell c).stalledAccess (BitVec.ofNat 64 (k + 256 * 0xFF)) := by
    rw [State.engineFault_stall, State.cell_modCell_self (by rwa [State.modCell_cells, modAt_length]), State.cell_modCell_self hc]
    rfl
  unfold State.decoupleStall
  simp only [hactive, hup, hon, hlimit, hae, hxe, Option.isSome_some, Option.isSome_none, Option.getD_some, Option.getD_none, decide_true,
    Bool.and_self, Bool.or_false, if_true, Bool.false_eq_true, if_false]
  rw [← hcell]
  exact (State.raise_reportsOnly ..).part_eq (State.cell · c)

/-! ## The end of a chute wait (R125) -/

theorem State.chuteWaitEnd_access (h : s.engineRuns c .access = some p) (hwait : (s.cell c).ae.wait.isSome) :
    s.chuteWaitEnd c .access = s.pumpA c := by
  unfold State.chuteWaitEnd
  rw [h]
  exact if_pos hwait

theorem State.chuteWaitEnd_execute {w : W64} (h : s.engineRuns c .execute = some p) (hwait : (s.cell c).xe.wait.isSome)
    (hword : (s.cell c).heldWord = some w) : s.chuteWaitEnd c .execute = (s.xResume c w).lateRun c := by
  obtain ⟨k, hk⟩ := Option.isSome_iff_exists.1 hwait
  unfold State.chuteWaitEnd
  rw [h, hk, hword]

/-- The execute engine holds an instruction of its program that has not waited under R188, and none waits. -/
structure HoldsOwn (s : State) (c : Nat) (p : Prog) : Prop where
  cell : c < s.cells.length
  prog : (s.cell c).xe.prog = some p
  own : (s.cell c).heldLate = none
  late : (s.cell c).xe.late = []

theorem HoldsOwn.modCell {f : CellSt → CellSt} (h : HoldsOwn s c p) (prog : ∀ x, (f x).xe.prog = x.xe.prog := by exact fun _ => rfl)
    (own : ∀ x, (f x).heldLate = x.heldLate := by exact fun _ => rfl) (late : ∀ x, (f x).xe.late = x.xe.late := by exact fun _ => rfl) :
    HoldsOwn (s.modCell c f) c p where
  cell := by
    rw [State.modCell_cells, modAt_length]
    exact h.cell
  prog := (congrArg (·.xe.prog) (State.cell_modCell_self h.cell f)).trans ((prog _).trans h.prog)
  own := (congrArg CellSt.heldLate (State.cell_modCell_self h.cell f)).trans ((own _).trans h.own)
  late := (congrArg (·.xe.late) (State.cell_modCell_self h.cell f)).trans ((late _).trans h.late)

theorem HoldsOwn.count {k n : Nat} (h : HoldsOwn s c p) : HoldsOwn (s.count k n) c p := by
  have hcells : (s.count k n).cells = s.cells := (s.count_reportsOnly k n).part_eq State.cells
  have hcell : (s.count k n).cell c = s.cell c := congrArg (List.getD · c CellSt.reset) hcells
  exact ⟨hcells ▸ h.cell, hcell ▸ h.prog, hcell ▸ h.own, hcell ▸ h.late⟩

@[simp] theorem CellSt.push_xe (x : CellSt) (k : Nat) (v : Slot) : (x.push k v).xe = x.xe := by
  dsimp only [CellSt.push, CellSt.modChute]
  split <;> rfl

/-- A slot pushed to a chute. -/
theorem HoldsOwn.push {k : Nat} {v : Slot} (h : HoldsOwn s c p) : HoldsOwn (s.modCell c fun x => x.push k v) c p :=
  h.modCell (fun x => congrArg XEngine.prog (x.push_xe k v)) (fun x => by simp only [CellSt.heldLate, CellSt.push_xe])
    fun x => congrArg XEngine.late (x.push_xe k v)

/-- A slot of VST dealt with. -/
theorem HoldsOwn.nextRow (h : HoldsOwn s c p) : HoldsOwn (s.modHold c fun y => { y with row := y.row + 1 }) c p :=
  h.modCell (own := fun x => by cases hx : x.xe.hold <;> simp [CellSt.heldLate, hx])

/-- The execute engine's program has gone on from `p`; no instruction of it waits. -/
structure GoneOn (s : State) (c : Nat) (p : Prog) : Prop where
  prog : (s.cell c).xe.prog = some p.next
  wait : (s.cell c).xe.wait = none
  late : (s.cell c).xe.late = []

theorem HoldsOwn.retire (h : HoldsOwn s c p) : GoneOn (s.retire c .execute) c p := by
  obtain ⟨hcell, hprog, hown, hlate⟩ := h
  have hretired : (s.retire c .execute).cell c = retiredX (s.cell c) := by
    refine (State.cell_modCell_self hcell _).trans ?_
    simp [retiredX, CellSt.modProg, hown]
  exact ⟨by rw [hretired, retiredX, hprog]; rfl, by rw [hretired]; rfl, by rw [hretired]; exact hlate⟩

theorem State.lateRun_of_late_nil (h : (s.cell c).xe.late = []) : s.lateRun c = s := by
  unfold State.lateRun
  rw [h]
  rfl

theorem State.vStart_out (s : State) (c : Nat) (tile : Option Nat) (v : VecSt) (lanes busy : Nat) :
    s.vStart c tile (v.out lanes busy) = (((s.countC c (cVx 0) lanes).countC c (cVx 1) busy).modCell c fun x =>
      { x with vec := { x.vec with busy := some busy, accRead := tile, fin := some (v.out lanes busy).fin } }).retire c .execute := rfl

theorem HoldsOwn.vStart_out {tile : Option Nat} {v : VecSt} {lanes busy : Nat} (h : HoldsOwn s c p) :
    GoneOn (s.vStart c tile (v.out lanes busy)) c p := by
  rw [State.vStart_out]
  exact HoldsOwn.retire (h.count.count.modCell)

/-- A list that fits one chunk is cut into one, or none. -/
theorem chunks_length_le_one {α : Type} {n : Nat} {l : List α} (h : l.length ≤ n) (fuel : Nat) : (chunks n fuel l).length ≤ 1 := by
  cases fuel with
  | zero => exact Nat.zero_le 1
  | succ fuel =>
    have hrest : chunks n fuel ([] : List α) = [] := by cases fuel <;> rfl
    rw [chunks, List.drop_of_length_le h, hrest]
    split
    · exact Nat.zero_le 1
    · exact Nat.le_refl 1

/-- One slot at most, to a chute that has room, is pushed. -/
theorem HoldsOwn.vstPush {k : Nat} {l : List (List Byte)} (h : HoldsOwn s c p) (hone : l.length ≤ 1) (hroom : 0 < (s.cell c).credits k) :
    (s.vstPush c k l).1 = true ∧ HoldsOwn (s.vstPush c k l).2 c p := by
  match l with
  | [] => exact ⟨rfl, h⟩
  | [b] =>
    unfold State.vstPush
    rw [if_neg (Nat.ne_of_gt hroom)]
    exact ⟨rfl, h.push.nextRow⟩

/-- VST goes on where the output chute has room for its bytes. -/
theorem HoldsOwn.vstGo {w : W64} (h : HoldsOwn s c p) (hchute : isChute (wPort w)) (hrow : (s.cell c).xhold.row = 0)
    (hroom : 0 < (s.cell c).credits (wPort w)) (hbytes : ((s.cell c).vstBytes w).length ≤ slotBytes) :
    GoneOn (s.vstGo c w) c p := by
  have hone : ((chunks slotBytes (((s.cell c).vstBytes w).length + 1) ((s.cell c).vstBytes w)).drop (s.cell c).xhold.row).length ≤ 1 := by
    rw [hrow]
    exact chunks_length_le_one hbytes _
  obtain ⟨hall, hholds⟩ := h.vstPush hone hroom
  dsimp only [State.vstGo]
  rw [if_pos hchute, ← Prod.eta (s.vstPush ..), hall]
  exact hholds.vStart_out

/-- The cell whose execute engine tries again. -/
def CellSt.retrying (x : CellSt) : CellSt := { x with xe := { x.xe with wait := none } }

theorem State.xResume_vst {w : W64} (s : State) (c : Nat) (hcls : wCls w = 5) (hop : wOp w = 0x2A) :
    s.xResume c w = (s.modCell c CellSt.retrying).vstGo c w := by
  unfold State.xResume
  rw [hcls, hop]
  rfl

/-- A VST that waited retires at the end of its wait, where the chute has room for its bytes; nothing else waits to go on. -/
theorem HoldsOwn.vst_retires {w : W64} (h : HoldsOwn s c p) (hcls : wCls w = 5) (hop : wOp w = 0x2A) (hchute : isChute (wPort w))
    (hrow : (s.cell c).xhold.row = 0) (hroom : 0 < (s.cell c).credits (wPort w)) (hbytes : ((s.cell c).vstBytes w).length ≤ slotBytes) :
    GoneOn ((s.xResume c w).lateRun c) c p := by
  have hretrying : HoldsOwn (s.modCell c CellSt.retrying) c p := h.modCell
  have hgo := hretrying.vstGo hchute
  rw [State.cell_modCell_self h.cell] at hgo
  have hgone := hgo hrow hroom hbytes
  rw [State.xResume_vst s c hcls hop, State.lateRun_of_late_nil hgone.late]
  exact hgone

/-! ## The statement -/

/-- Settles O45: each event, where it can happen, is the operation of which the lemmas above say what it leaves (`programComplete_eq`, `programAbort_eq`,
`decoupleStall_access`, `chuteWaitEnd_access` and `chuteWaitEnd_execute`). -/
theorem programsEnd : Obligations.ProgramsEnd := by
  unfold Obligations.ProgramsEnd
  refine ⟨?complete, ?abort, ?stall, ?wait⟩
  case complete =>
    intro c e s p hgood hissues hdone
    have hp := State.prog_of_engineRuns (State.engineRuns_of_engineIssues hissues)
    have hmem := (hgood.cell c).opmem
    refine ⟨s.endProg c e, congrArg Host.Outcome.next (State.programComplete_eq hissues hdone), State.endProg_prog .., State.endProg_prog_other ..,
      ?summary, ?bytes, fun a => by rw [State.endProg_mem], State.endProg_flag hp⟩
    case summary =>
      rw [State.endProg_opmem hp]
      exact memRead_memWrite p.summary _ _ hmem
    case bytes =>
      intro b hb
      rw [State.endProg_opmem hp, memGet_memWrite _ _ _ _ hmem, p.summary_length, if_neg (by omega)]
  case abort =>
    intro c e s p hactive hup hp hfault hother
    let u := s.modCell c CellSt.noneInFlight
    have hu : (u.cell c).prog e = some p :=
      (State.cell_modCell_part (CellSt.prog · e) (fun _ => by cases e <;> rfl) s c c).trans hp
    have hunits {α : Type} (part : CellSt → α) (hpart : ∀ x : CellSt, part x.abortUnits = part x) :
        part (((u.abortPrograms c).modCell c CellSt.abortUnits).cell c) = part ((u.abortPrograms c).cell c) :=
      State.cell_modCell_part part hpart _ c c
    refine ⟨_, congrArg Host.Outcome.next (State.programAbort_eq hactive hup hp hfault hother), ?_, ?_, ?_, ?_⟩
    · exact (hunits (·.ae.prog) fun _ => rfl).trans (State.abortPrograms_prog u c .access)
    · exact (hunits (·.xe.prog) fun _ => rfl).trans (State.abortPrograms_prog u c .execute)
    · intro k v _ hk hv
      exact State.abortPrograms_ich hu hk ((congrArg (·[k]?) (hunits CellSt.ich fun _ => rfl)).symm.trans hv)
    · exact fun a => congrArg (memGet · a) (State.abortPrograms_mem u c)
  case stall =>
    intro c s hactive hup hon hlimit k hae hxe p hp
    have hcell := State.decoupleStall_access (e := .access) hactive hup hon hlimit hae hxe hp
    refine ⟨_, rfl, ?_, ?_, ?_⟩
    · exact congrArg CellSt.wd hcell
    · refine (congrArg (·.ae.prog) hcell).trans ?_
      rw [CellSt.stalledAccess, hp]
      rfl
    · exact congrArg (·.xe.prog) hcell
  case wait =>
    intro c s p
    refine ⟨fun h hwait => congrArg Host.Outcome.next (State.chuteWaitEnd_access h hwait), fun w h hwait hword => ?_⟩
    have hexec : exec (.chuteWaitEnd c .execute) s = .next ((s.xResume c w).lateRun c) :=
      congrArg Host.Outcome.next (State.chuteWaitEnd_execute h hwait hword)
    refine ⟨hexec, fun hcls hop hchute hown hlate hrow hroom hbytes => ⟨_, hexec, ?_⟩⟩
    have hp := State.prog_of_engineRuns h
    have hholds : HoldsOwn s c p := ⟨State.cell_lt_of_prog hp, hp, hown, hlate⟩
    have hgone := hholds.vst_retires hcls hop hchute hrow hroom hbytes
    exact ⟨hgone.prog, hgone.wait⟩

end Sys2Proof.Machine

/-! PROOF. The engines' support instructions (R134, R224, R229): what a retirement and a fault leave of the cell, the runs of a loop, and
EngineRegistersAndLoops. -/

namespace Sys2Proof.Machine

variable {s t : State} {c op : Nat} {e : Engine} {p : Prog} {w : W64}

/-! ## What an engine that issues has -/

theorem EngineReady.engineRuns {cls : Nat} (h : EngineReady s c e p cls op w) : s.engineRuns c e = some p :=
  State.engineRuns_of_engineIssues h.at_.runs

theorem EngineReady.prog {cls : Nat} (h : EngineReady s c e p cls op w) : (s.cell c).prog e = some p := State.prog_of_engineRuns h.engineRuns

theorem EngineReady.cell_lt {cls : Nat} (h : EngineReady s c e p cls op w) : c < s.cells.length := State.cell_lt_of_prog h.prog

/-- An instruction that issues has not waited under R188. -/
theorem EngineReady.heldLate {cls : Nat} (h : EngineReady s c .execute p cls op w) : (s.cell c).heldLate = none := by
  have hhold : (s.cell c).xe.hold = none := Option.isNone_iff_eq_none.1 h.at_.free
  rw [CellSt.heldLate, hhold]
  rfl

/-- A command that issues an engine's instruction carries it out where the engine is ready for it. -/
theorem EngineReady.answers {cls : Nat} {i : Instr} {f : Prog → State} {P : State → Prop} (h : EngineReady s c e p cls op w)
    (hi : exec i s = .next (s.engineIssue c e ((s.cell c).engineFree e) cls op w f)) (hP : P (f p)) : ∃ t, exec i s = .next t ∧ P t :=
  ⟨f p, hi.trans (congrArg _ (State.engineIssue_ready h h.at_.free f)), hP⟩

/-! ## Retirement -/

theorem CellStep.congr {f g : CellSt → CellSt} (h : CellStep c f s t) (hfg : f (s.cell c) = g (s.cell c)) : CellStep c g s t :=
  ⟨h.1.trans hfg, h.2⟩

theorem CellStep.trans {u : State} {f g : CellSt → CellSt} (h : CellStep c f s t) (k : CellStep c g t u) : CellStep c (fun x => g (f x)) s u :=
  ⟨k.1.trans (congrArg g h.1), h.2.trans k.2⟩

theorem State.modCell_lt (f : CellSt → CellSt) (h : c < s.cells.length) : c < (s.modCell c f).cells.length := by
  rwa [State.modCell_cells, modAt_length]

theorem State.retire_access_step (hc : c < s.cells.length) : CellStep c retiredA s (s.retire c .access) := State.modCell_step hc _

theorem State.retire_execute_step (hc : c < s.cells.length) (hlate : (s.cell c).heldLate = none) : CellStep c retiredX s (s.retire c .execute) := by
  refine (State.modCell_step hc _).congr ?_
  simp [retiredX, CellSt.modProg, hlate]

/-- A change of the cell, after which its access instruction retires. -/
theorem EngineReady.retireA_step (h : EngineReady s c .access p 3 op w) (f : CellSt → CellSt) :
    CellStep c (fun x => retiredA (f x)) s ((s.modCell c f).retire c .access) :=
  (State.modCell_step h.cell_lt f).trans (State.retire_access_step (State.modCell_lt f h.cell_lt))

/-- A change of the cell that leaves what the execute engine holds, after which its instruction retires. -/
theorem EngineReady.retireX_step {cls : Nat} (h : EngineReady s c .execute p cls op w) (f : CellSt → CellSt)
    (hold : ∀ x, (f x).xe.hold = x.xe.hold) : CellStep c (fun x => retiredX (f x)) s ((s.modCell c f).retire c .execute) := by
  have hlate : ((s.modCell c f).cell c).heldLate = none := by
    rw [State.cell_modCell_self h.cell_lt, CellSt.heldLate, hold]
    exact h.heldLate
  exact (State.modCell_step h.cell_lt f).trans (State.retire_execute_step (State.modCell_lt f h.cell_lt) hlate)

/-! ## Faults -/

/-- The cell after a program of it has faulted: at the instruction at issue, or at the one that had waited and is carried out. -/
def CellSt.takesFault (x : CellSt) (e : Engine) (code : Nat) (info : W64) : CellSt :=
  let at_ (p : Prog) : Nat := match e, x.heldLate with | .execute, some l => l.pc | _, _ => p.pc
  let x := x.modProg e fun p => { p with fault := some (BitVec.ofNat 16 code, at_ p, info) }
  match e with
  | .access => { x with ae := { x.ae with op := none, wait := none } }
  | .execute => { x with xe := { x.xe with hold := none, wait := none, late := [] } }

theorem CellSt.takesFault_prog {x : CellSt} (code : Nat) (info : W64) (hfree : x.engineFree e) (hp : x.prog e = some p) :
    (x.takesFault e code info).prog e = some { p with fault := some (BitVec.ofNat 16 code, p.pc, info) } := by
  cases e with
  | access => exact congrArg (Option.map _) hp
  | execute =>
    have hlate : x.heldLate = none := by rw [CellSt.heldLate, Option.isNone_iff_eq_none.1 hfree]; rfl
    dsimp only [CellSt.takesFault]
    rw [hlate]
    exact congrArg (Option.map _) hp

theorem CellSt.takesFault_opmem (x : CellSt) (e : Engine) (code : Nat) (info : W64) : (x.takesFault e code info).opmem = x.opmem := by
  cases e with
  | access => rfl
  | execute => rfl

theorem State.engineFault_cells (s : State) (c : Nat) (e : Engine) (code : Nat) (info : W64) :
    (s.engineFault c e code info).cells = modAt c (·.takesFault e code info) s.cells := by
  unfold State.engineFault
  extract_lets t
  have ht : t.cells = modAt c (·.takesFault e code info) s.cells := rfl
  split
  · exact ((State.raise_reportsOnly ..).part_eq State.cells).trans ht
  · split
    · exact ht
    · exact ht

theorem State.engineFault_mem (s : State) (c : Nat) (e : Engine) (code : Nat) (info : W64) : (s.engineFault c e code info).mem = s.mem := by
  unfold State.engineFault
  extract_lets t
  split
  · exact (State.raise_reportsOnly ..).part_eq State.mem
  · split
    · rfl
    · rfl

theorem State.engineFault_cell (s : State) (c d : Nat) (e : Engine) (code : Nat) (info : W64) :
    (s.engineFault c e code info).cell d = (s.modCell c (·.takesFault e code info)).cell d :=
  congrArg (List.getD · d CellSt.reset) (s.engineFault_cells c e code info)

/-- The program that faults at issue has its code, the index of the instruction and FAULT_INFO. -/
theorem EngineReady.engineFault_prog {cls : Nat} (h : EngineReady s c e p cls op w) (code : Nat) (info : W64) :
    ((s.engineFault c e code info).cell c).prog e = some { p with fault := some (BitVec.ofNat 16 code, p.pc, info) } := by
  rw [State.engineFault_cell, State.cell_modCell_self h.cell_lt]
  exact CellSt.takesFault_prog code info h.at_.free h.prog

theorem State.engineFault_opmem (s : State) (c : Nat) (e : Engine) (code : Nat) (info : W64) : SameOpmem s (s.engineFault c e code info) := by
  intro d a
  rw [State.engineFault_cell]
  exact congrArg (memGet · a) (State.cell_modCell_part CellSt.opmem (fun x => x.takesFault_opmem e code info) s c d)

/-! ## Loops (R134, R229) -/

/-- A loop opens over the next instructions where fewer than four are open. -/
theorem EngineReady.openLoop_opens {cls : Nat} (h : EngineReady s c e p cls op w) (len n : Nat) (hroom : p.loops.length ≠ 4) :
    OnlyCell c s (s.openLoop c e p len n) ∧ ((s.openLoop c e p len n).cell c).prog e = some (p.loop len n) ∧
      ((s.openLoop c e p len n).cell c).wd = 0 := by
  unfold State.openLoop
  rw [if_neg (show p.loops.length ≠ loopDepth from hroom)]
  refine ⟨s.modCell_only c _, ?_, ?_⟩
  all_goals rw [State.cell_modCell_self h.cell_lt]
  · cases e with
    | access => exact congrArg (Option.map _) h.prog
    | execute => exact congrArg (Option.map _) h.prog
  · cases e with
    | access => rfl
    | execute => rfl

/-- A fifth loop faults LOOP_DEPTH. -/
theorem EngineReady.openLoop_depth {cls : Nat} (h : EngineReady s c e p cls op w) (len n : Nat) (hfull : p.loops.length = 4) :
    ((s.openLoop c e p len n).cell c).prog e = some { p with fault := some (0x0006, p.pc, 0) } := by
  unfold State.openLoop
  rw [if_pos (show p.loops.length = loopDepth from hfull)]
  exact h.engineFault_prog fLoopDepth 0

/-- The program at an instruction, with its open loops. -/
def Prog.moved (p : Prog) (pc : Nat) (loops : List Loop) : Prog := { p with pc := pc, loops := loops }

/-- Inside the body of its innermost loop a program goes on by one instruction. -/
theorem Prog.next_moved_inside {l : Loop} {ls : List Loop} {pc : Nat} (hpc : pc < l.last) :
    (p.moved pc (l :: ls)).next = p.moved (pc + 1) (l :: ls) := by
  dsimp only [Prog.next, Prog.after, Prog.moved, Prog.afterGo]
  rw [if_neg (Nat.not_le.2 hpc)]

/-- At the end of the body a run that is not the last begins the next one. -/
theorem Prog.next_moved_again {l : Loop} {ls : List Loop} (hleft : 1 < l.left) :
    (p.moved l.last (l :: ls)).next = p.moved l.first ({ l with left := l.left - 1, iter := l.iter + 1 } :: ls) := by
  dsimp only [Prog.next, Prog.after, Prog.moved, Prog.afterGo]
  rw [if_pos (Nat.le_refl _), if_pos hleft]

/-- At the end of the last run the only loop is left. -/
theorem Prog.next_moved_leaves {l : Loop} (hleft : l.left ≤ 1) : (p.moved l.last [l]).next = p.moved (l.last + 1) [] := by
  dsimp only [Prog.next, Prog.after, Prog.moved, Prog.afterGo]
  rw [if_pos (Nat.le_refl _), if_neg (Nat.not_lt.2 hleft)]

theorem Prog.iterate_next_inside {l : Loop} {ls : List Loop} {pc : Nat} (i : Nat) (hi : pc + i ≤ l.last) :
    Prog.next^[i] (p.moved pc (l :: ls)) = p.moved (pc + i) (l :: ls) := by
  induction i with
  | zero => rfl
  | succ i ih =>
    have hpc : pc + i < l.last := hi
    rw [Function.iterate_succ_apply', ih (Nat.le_of_lt hpc), Prog.next_moved_inside hpc, Nat.add_assoc]

/-- One run of a body of `k + 1` instructions reaches the body's end, and what comes after it. -/
theorem Prog.iterate_next_run {l : Loop} {k : Nat} (hbody : l.first + k = l.last) :
    Prog.next^[k + 1] (p.moved l.first [l]) = (p.moved l.last [l]).next := by
  rw [Function.iterate_succ_apply', Prog.iterate_next_inside k (Nat.le_of_eq hbody), hbody]

/-- The runs that are due of the only loop: the program is then past it. -/
theorem Prog.iterate_next_runs {l : Loop} {k n : Nat} (hbody : l.first + k = l.last) (hleft : l.left = n + 1) :
    Prog.next^[(n + 1) * (k + 1)] (p.moved l.first [l]) = p.moved (l.last + 1) [] := by
  induction n generalizing l with
  | zero => rw [Nat.one_mul, Prog.iterate_next_run hbody, Prog.next_moved_leaves (Nat.le_of_eq hleft)]
  | succ n ih =>
    rw [Nat.succ_mul, Function.iterate_add_apply, Prog.iterate_next_run hbody, Prog.next_moved_again (by omega)]
    exact ih hbody (by dsimp only; omega)

/-- A loop of `n` runs over `k` instructions of a straight line. -/
theorem Prog.iterate_next_loop {k n : Nat} (hk : 0 < k) (hend : p.pc + k < p.text.length) (hloops : p.loops = []) :
    Prog.next^[n * k] (p.loop k n) = p.moved (p.pc + k + 1) [] := by
  have hlast : Nat.min (p.pc + k) (p.text.length - 1) = p.pc + k := Nat.min_eq_left (by omega)
  have hmax : Nat.max (p.pc + k) p.pc = p.pc + k := Nat.max_eq_left (by omega)
  unfold Prog.loop
  rw [hlast]
  cases n with
  | zero =>
    rw [Nat.zero_mul, Function.iterate_zero_apply, if_pos (.inl rfl), hmax, Prog.after, hloops]
    rfl
  | succ n =>
    obtain ⟨k, rfl⟩ := Nat.exists_eq_succ_of_ne_zero (Nat.ne_of_gt hk)
    rw [if_neg (by omega), hloops]
    exact Prog.iterate_next_runs (Nat.add_right_comm ..) rfl

/-! ## The statement -/

/-- An element replaced by a value that is computed from it. -/
theorem modAt_getD_self {α : Type} (i : Nat) (f : α → α) (l : List α) (d : α) : modAt i (fun _ => f (l.getD i d)) l = modAt i f l := by
  induction l generalizing i with
  | nil => simp [modAt]
  | cons a l ih =>
    cases i with
    | zero => rfl
    | succ i => exact congrArg (a :: ·) (ih i)


/-- A value sign-extended is the number it was. -/
theorem wImm_toInt (w : W64) : (wImm w).toInt = (w.truncate 32 : W32).toInt := BitVec.toInt_signExtend_of_le (by decide)

/-- Settles O11: an instruction that issues is its operation (`EngineReady.answers`), a register write is a change of the cell after which it
retires (`retireA_step`, `retireX_step`), and a loop's runs are counted down to none (`Prog.iterate_next_loop`). -/
theorem engineRegistersAndLoops : Obligations.EngineRegistersAndLoops := by
  unfold Obligations.EngineRegistersAndLoops
  refine ⟨?access, ?execute, ?loops, ?runs⟩
  case access =>
    intro c w s p
    refine ⟨fun h => h.answers rfl ?nop, fun h => h.answers rfl ?adda, fun h => h.answers rfl ?addan, fun h => h.answers rfl ?setn,
      fun h => h.answers rfl ?addn⟩
    case nop => exact State.retire_access_step h.cell_lt
    case adda => exact (h.retireA_step _).congr (by rw [← wImm_toInt]; rfl)
    case addan => exact (h.retireA_step _).congr rfl
    case setn => exact h.retireA_step _
    case addn => exact (h.retireA_step _).congr rfl
  case execute =>
    intro c w s p
    refine ⟨fun h => h.answers rfl ?nop, fun h => h.answers rfl ?setk, fun h => h.answers rfl ?addk, fun h => h.answers rfl ?ma,
      fun h => h.answers rfl ?vsetvl⟩
    case nop => exact State.retire_execute_step h.cell_lt h.heldLate
    case setk => exact h.retireX_step _ fun _ => rfl
    case addk =>
      refine (h.retireX_step _ ?_).congr ?_
      · exact fun _ => rfl
      · rw [← modAt_getD_self (wKj w) (· + w.truncate 32) (s.cell c).xe.k 0]
        rfl
    case ma => exact h.retireX_step _ fun _ => rfl
    case vsetvl =>
      obtain ⟨hcell, honly⟩ := h.retireX_step (fun x => { x with vec := { x.vec with
        vl := vlOf (s.cell c) w, fin := x.vec.fin.map fun f => { f with vl := vlOf (s.cell c) w } } }) fun _ => rfl
      refine ⟨?_, ?_, honly⟩
      · exact (congrArg (·.xe.prog) hcell).trans (congrArg (Option.map _) h.prog)
      · exact congrArg (·.vec.vl) hcell
  case loops =>
    intro c w s p
    exact ⟨fun h => ⟨fun hroom => h.answers rfl (h.openLoop_opens _ _ hroom), fun hfull => h.answers rfl (h.openLoop_depth _ _ hfull)⟩,
      fun h => ⟨fun hroom => h.answers rfl (h.openLoop_opens _ _ hroom), fun hfull => h.answers rfl (h.openLoop_depth _ _ hfull)⟩⟩
  case runs =>
    rintro p k n hk hend hloops q rfl
    rw [List.foldl_const, List.length_range, Prog.iterate_next_loop hk hend hloops]
    exact ⟨rfl, rfl⟩

end Sys2Proof.Machine

/-! PROOF. The memory instructions of the access class (R135, R136, R138): their issue, the descriptor that faults one, the retirement of one
whose count is 0, and AccessInstructionsIssue. -/

namespace Sys2Proof.Machine

variable {s t : State} {c op : Nat} {p : Prog} {w : W64} {o : AOp}

/-! ## Issue -/

/-- The memory instructions of the access class, each with its opcode. -/
def accessMemory : List ((Nat → W64 → Instr) × Nat) :=
  [(.aGather, 0x10), (.aGathercsr, 0x11), (.aStream, 0x12), (.aStreamc, 0x13), (.aLoad, 0x14), (.aPref, 0x15), (.aStore, 0x20),
    (.aStorec, 0x21), (.aScadd, 0x22), (.aHaul, 0x23)]

theorem exec_accessMemory : ∀ x ∈ accessMemory, ∀ c w s, exec (x.1 c w) s = .next (s.aMemory c x.2 w) := by
  simp only [accessMemory, List.forall_mem_cons, List.not_mem_nil, false_imp_iff, implies_true, and_true]
  exact ⟨fun _ _ _ => rfl, fun _ _ _ => rfl, fun _ _ _ => rfl, fun _ _ _ => rfl, fun _ _ _ => rfl, fun _ _ _ => rfl, fun _ _ _ => rfl,
    fun _ _ _ => rfl, fun _ _ _ => rfl, fun _ _ _ => rfl⟩

theorem EngineReady.wOp {e : Engine} {cls : Nat} (h : EngineReady s c e p cls op w) : wOp w = op := by
  have hcode := h.code
  simp only [isOp, Bool.and_eq_true, beq_iff_eq] at hcode
  exact hcode.1.2

/-- A descriptor that is misplaced, poisoned or malformed faults the instruction. -/
theorem EngineReady.aMemory_faults {code a : Nat} (h : EngineReady s c .access p 3 op w)
    (hdesc : descFault (s.cell c) (aRoles op w) = some (code, a)) : s.aMemory c op w = s.engineFault c .access code (BitVec.ofNat 64 a) := by
  refine (State.engineIssue_ready h h.at_.free _).trans ?_
  rw [hdesc]

theorem EngineReady.aMemory_issues (h : EngineReady s c .access p 3 op w) (hdesc : descFault (s.cell c) (aRoles op w) = none) :
    s.aMemory c op w = (s.modCell c (issuedA w)).pumpA c := by
  obtain rfl := h.wOp
  refine (State.engineIssue_ready h h.at_.free _).trans ?_
  rw [hdesc]
  rfl

/-! ## What an instruction that asks for nothing leaves -/

/-- Only the access engine of the cell differs, and it runs the program that it ran. -/
structure SameProgram (c : Nat) (s t : State) : Prop where
  only : OnlyCell c s t
  opmem : (t.cell c).opmem = (s.cell c).opmem
  prog : (t.cell c).ae.prog = (s.cell c).ae.prog

theorem SameProgram.trans {u : State} (h : SameProgram c s t) (k : SameProgram c t u) : SameProgram c s u :=
  ⟨h.only.trans k.only, k.opmem.trans h.opmem, k.prog.trans h.prog⟩

theorem SameProgram.refl (s : State) : SameProgram c s s := ⟨⟨rfl, fun _ _ => rfl⟩, rfl, rfl⟩

theorem State.modCell_sameProgram (s : State) (c : Nat) {f : CellSt → CellSt} (opmem : ∀ x, (f x).opmem = x.opmem)
    (prog : ∀ x, (f x).ae.prog = x.ae.prog) : SameProgram c s (s.modCell c f) :=
  ⟨s.modCell_only c f, State.cell_modCell_part CellSt.opmem opmem s c c, State.cell_modCell_part (·.ae.prog) prog s c c⟩

theorem OnlyCell.opmem (h : OnlyCell c s t) (hc : (t.cell c).opmem = (s.cell c).opmem) : SameOpmem s t := by
  intro d a
  by_cases hd : d = c
  · rw [hd, hc]
  · rw [h.cells d hd]

/-! ## A round of an instruction whose count is 0 (R138) -/

/-- What a round that deals with nothing leaves of a reading instruction. -/
def AOp.dealtWithNone (o : AOp) : AOp := { o with done := Nat.max o.done 0, pushed := setAt 3 (Nat.max (o.pushedAt 3) 0) o.pushed }

theorem State.cell_lt_of_op (hop : (s.cell c).ae.op = some o) : c < s.cells.length := by
  by_contra hc
  rw [State.cell_beyond (Nat.le_of_not_lt hc)] at hop
  cases hop

/-- A reading instruction that has no item to deal with, and none to wait for, retires. -/
theorem State.readRound_done (p : Prog) (hop : (s.cell c).ae.op = some o) (hasked : o.asked = []) :
    s.readRound c p (Plan.only .done) = (s.modCell c (·.modOp AOp.dealtWithNone), .retire) := by
  have hsettle : s.settleAhead c (Plan.only .done).asks = (s, none) := by
    unfold State.settleAhead
    rw [hop]
    simp [Plan.only]
  have hwaits : AOp.waits o.dealtWithNone = false := by simp [AOp.waits, AOp.dealtWithNone, hasked]
  have hnext : ((s.modCell c (·.modOp AOp.dealtWithNone)).cell c).ae.op = some o.dealtWithNone := by
    rw [State.cell_modCell_self (State.cell_lt_of_op hop), CellSt.modOp, hop]
    rfl
  unfold State.readRound
  rw [hsettle]
  -- with nothing counted, sent or asked, the instruction in flight decides how the round ends
  change (match ((s.modCell c (·.modOp AOp.dealtWithNone)).cell c).ae.op with
    | none => _
    | some o => _) = _
  rw [hnext]
  dsimp only
  rw [hwaits]
  rfl

/-- What can keep an instruction with a count of 0: an A.GATHERCSR in edge mode goes by its column object, an A.STOREC's CAP must be in order and an
A.HAUL's parts of one length, and earlier requests of the program must be gone. -/
structure EmptyRound (s : State) (c : Nat) (p : Prog) (o : AOp) : Prop where
  op : (s.cell c).ae.op = some o
  count : o.n = 0
  asked : o.asked = []
  vertices : wOp o.word = 0x11 → wEdgeMode o.word = false
  storec : wOp o.word = 0x21 → storecBad s o = none
  haul : wOp o.word = 0x23 → (o.desc 0).len = (o.desc 1).len
  writes : s.writesInside c p = false
  reads : s.readsOut c p = false

theorem EmptyRound.writeRound (h : EmptyRound s c p o) : s.writeRound c p o = (s, .retire) := by
  unfold State.writeRound
  rw [if_pos (by rw [h.count]; exact Nat.zero_le _), h.writes]
  rfl

theorem EmptyRound.prefRound (h : EmptyRound s c p o) : s.prefRound c p o = (s, .retire) := by
  unfold State.prefRound
  rw [if_pos (by rw [h.count]; exact Nat.zero_le _), h.reads]
  rfl

theorem EmptyRound.haulCheck (h : EmptyRound s c p o) (hop : wOp o.word = 0x23) : s.haulCheck c o = (s, none) := by
  unfold State.haulCheck
  dsimp only
  rw [if_neg (not_not.2 (h.haul hop)), if_pos h.count]

/-- The plan of a reading instruction whose count is 0. -/
theorem EmptyRound.plan (h : EmptyRound s c p o) (x : CellSt) (lenient : Bool) :
    planGather s x lenient o = Plan.only .done ∧ (wOp o.word = 0x11 → planGatherCsr s x lenient o = Plan.only .done) ∧
      planStream s x lenient o = Plan.only .done ∧ planStreamc s x lenient o = Plan.only .done ∧ planLoad s lenient o = Plan.only .done := by
  refine ⟨if_pos h.count, fun hop => ?_, if_pos h.count, if_pos h.count, if_pos h.count⟩
  exact if_pos ⟨h.count, by rw [h.vertices hop]; rfl⟩

/-- The first round of an instruction with a count of 0 is that of an empty plan, or changes nothing. -/
theorem EmptyRound.aRound_cases (h : EmptyRound s c p o) (hop : wOp o.word ∈ accessMemory.map (·.2)) :
    s.aRound c p o = s.readRound c p (Plan.only .done) ∨ s.aRound c p o = (s, .retire) := by
  obtain ⟨hgather, hcsr, hstream, hstreamc, hload⟩ := h.plan (s.cell c) p.lenient
  simp only [accessMemory, List.map_cons, List.map_nil, List.mem_cons, List.not_mem_nil, or_false] at hop
  rcases hop with hop | hop | hop | hop | hop | hop | hop | hop | hop | hop
  · exact .inl (by simp only [State.aRound, hop, hgather])
  · exact .inl (by simp only [State.aRound, hop, hcsr hop])
  · exact .inl (by simp only [State.aRound, hop, hstream])
  · exact .inl (by simp only [State.aRound, hop, hstreamc])
  · exact .inl (by simp only [State.aRound, hop, hload])
  · exact .inr (by simp only [State.aRound, hop, h.prefRound])
  · exact .inr (by simp only [State.aRound, hop, h.writeRound])
  · exact .inr (by simp only [State.aRound, hop, h.storec hop, h.writeRound])
  · exact .inr (by simp only [State.aRound, hop, h.writeRound])
  · exact .inr (by simp only [State.aRound, hop, h.haulCheck hop, h.writeRound])

/-- An instruction with a count of 0 retires in its first round. -/
theorem EmptyRound.aRound (h : EmptyRound s c p o) (hop : wOp o.word ∈ accessMemory.map (·.2)) :
    ∃ t, s.aRound c p o = (t, .retire) ∧ SameProgram c s t := by
  rcases h.aRound_cases hop with hround | hround
  · exact ⟨_, hround.trans (State.readRound_done p h.op h.asked), s.modCell_sameProgram c (fun _ => rfl) fun _ => rfl⟩
  · exact ⟨s, hround, .refl s⟩

/-! ## The drive to the retirement -/

/-- An instruction whose first round retires it. -/
theorem State.pumpA_retires (hruns : s.engineRuns c .access = some p) (hop : (s.cell c).ae.op = some o) (hround : s.aRound c p o = (t, .retire)) :
    s.pumpA c = (t.writeARegs c (t.aAdvance o)).retire c .access := by
  have hfuel (n : Nat) : State.pumpGo c (n + 1) s = (t.writeARegs c (t.aAdvance o)).retire c .access := by
    unfold State.pumpGo
    rw [hruns, hop]
    dsimp only
    rw [hround]
  exact hfuel (2 ^ 60 - 1)

/-- What an engine runs is what its cell says of it. -/
theorem State.engineRuns_modCell {e : Engine} (f : CellSt → CellSt) (mode : ∀ x, (f x).mode = x.mode) (parked : ∀ x, (f x).parked = x.parked)
    (prog : ∀ x, (f x).prog e = x.prog e) : (s.modCell c f).engineRuns c e = s.engineRuns c e := by
  have hmode := State.cell_modCell_part CellSt.mode mode s c c
  have hparked := State.cell_modCell_part CellSt.parked parked s c c
  have hprog := State.cell_modCell_part (CellSt.prog · e) prog s c c
  unfold State.engineRuns State.cellUp
  rw [hmode, hparked, hprog]
  rfl

/-- The instruction that asks for nothing is gone, and the program has gone on from `p`. -/
theorem SameProgram.retired (h : SameProgram c s t) (hprog : (s.cell c).ae.prog = some p) (l : List (Nat × W64)) :
    ∀ u, u = (t.writeARegs c l).retire c .access →
      (u.cell c).ae.prog = some p.next ∧ (u.cell c).ae.op = none ∧ u.reqs = s.reqs ∧ SameMemory s u ∧ SameOpmem s u := by
  rintro u rfl
  have hregs : SameProgram c s (t.writeARegs c l) := h.trans (t.modCell_sameProgram c (fun _ => rfl) fun _ => rfl)
  have hp : ((t.writeARegs c l).cell c).prog .access = some p := hregs.prog.trans hprog
  obtain ⟨hcell, honly⟩ := State.retire_access_step (State.cell_lt_of_prog hp)
  have hall := hregs.only.trans honly
  have hreqs := congrArg State.reqs hall.device
  refine ⟨?_, ?_, hreqs, hall.mem, hall.opmem ?_⟩
  · rw [hcell]
    exact congrArg (Option.map Prog.next) hp
  · rw [hcell]
    rfl
  · rw [hcell]
    exact hregs.opmem

/-! ## The statement -/

/-- The instruction in flight once it has issued. -/
def issuedOp (w : W64) (x : CellSt) : AOp :=
  { word := w, descs := (aRoles (wOp w) w).map fun d => readADesc x d.1, areg := x.ae.a, n := (x.nReg (wNr w)).toNat,
    got := [], asked := [], ahead := [], pushed := [], taken := [], done := 0 }

theorem EngineReady.issuedA_op (h : EngineReady s c .access p 3 op w) :
    ((s.modCell c (issuedA w)).cell c).ae.op = some (issuedOp w (s.cell c)) := by
  rw [State.cell_modCell_self h.cell_lt]
  rfl

theorem issuedOp_haul_descs (x : CellSt) (h : wOp w = 0x23) :
    (issuedOp w x).desc 0 = readADesc x (wD1 w) ∧ (issuedOp w x).desc 1 = readADesc x (wD2 w) := by
  unfold issuedOp
  rw [h]
  exact ⟨rfl, rfl⟩

/-- Settles O12: a memory instruction faults by its descriptors or issues (`aMemory_faults`, `aMemory_issues`), and one with a count of 0 retires in
its first round (`EmptyRound.aRound`, `SameProgram.retired`). -/
theorem accessInstructionsIssue : Obligations.AccessInstructionsIssue := by
  unfold Obligations.AccessInstructionsIssue
  refine ⟨?issue, ?zero⟩
  case issue =>
    intro x hx c w s p h
    rw [exec_accessMemory x hx]
    refine ⟨fun code a hdesc => ⟨_, rfl, ?_⟩, fun hdesc => congrArg _ (h.aMemory_issues hdesc)⟩
    rw [h.aMemory_faults hdesc]
    exact ⟨h.engineFault_prog _ _, fun a => by rw [State.engineFault_mem], State.engineFault_opmem s c .access _ _⟩
  case zero =>
    intro x hx c w s p h hn hdesc hedge hwrites hreads hstorec hhaul
    have hop := h.wOp
    have hempty : EmptyRound (s.modCell c (issuedA w)) c p (issuedOp w (s.cell c)) := {
      op := h.issuedA_op
      count := congrArg BitVec.toNat hn
      asked := rfl
      vertices := fun hw => hedge (hop.symm.trans hw)
      storec := fun hw => hstorec (hop.symm.trans hw) _ h.issuedA_op
      haul := fun hw => by
        obtain ⟨hsrc, hdst⟩ := issuedOp_haul_descs (w := w) (s.cell c) hw
        rw [hsrc, hdst]
        exact hhaul (hop.symm.trans hw)
      writes := hwrites
      reads := hreads }
    obtain ⟨t, hround, hsame⟩ := hempty.aRound (hop.symm ▸ List.mem_map_of_mem hx)
    have hruns : (s.modCell c (issuedA w)).engineRuns c .access = some p :=
      (State.engineRuns_modCell (issuedA w) (fun _ => rfl) (fun _ => rfl) fun _ => rfl).trans h.engineRuns
    have hissued : SameProgram c s (s.modCell c (issuedA w)) := s.modCell_sameProgram c (fun _ => rfl) fun _ => rfl
    rw [exec_accessMemory x hx, h.aMemory_issues hdesc]
    exact ⟨_, rfl, (hissued.trans hsame).retired h.prog _ _ (State.pumpA_retires hruns h.issuedA_op hround)⟩

end Sys2Proof.Machine

/-! PROOF. The answers that reach a cell (R71 to R73, R139, R325), the sort window's cycle (R144), the end of a walk (R64, R65), and
RequestsAndAnswers. -/

namespace Sys2Proof.Machine

variable {s₀ s t : State} {c id : Nat} {r : Req}

/-! ## A request with its answer -/

theorem State.req_id (h : s.req id = some r) : r.id = id := by
  simpa using List.find?_some h

theorem State.answered_of_req {a : Answer} (h : s.req id = some r) (hstage : r.stage = .answered a) (hwho : r.who = .cell c ∨ r.who = .maint c) :
    s.answered c id = some (r, a) := by
  unfold State.answered
  rw [h, Option.bind_some, hstage]
  exact if_pos (by rcases hwho with hwho | hwho <;> simp [hwho])

theorem Req.not_maint (hwho : r.who = .cell c) : (r.who == Who.maint c) = false := by simp [hwho]

theorem Req.isWrite_of_op (hop : r.op = .store ∨ r.op = .add) : r.isWrite = true := by
  unfold Req.isWrite
  rcases hop with hop | hop <;> rw [hop] <;> rfl

theorem State.granuleDelivery_cell {d : BitVec 512} {p : Bool} (h : s.req id = some r) (hstage : r.stage = .answered (.data d p))
    (hwho : r.who = .cell c) : s.granuleDelivery c id = (s.takeData c r d p).pumpA c := by
  unfold State.granuleDelivery
  rw [State.answered_of_req h hstage (.inl hwho)]
  dsimp only
  rw [Req.not_maint hwho]
  rfl

theorem State.granuleDelivery_maint {d : BitVec 512} {p : Bool} (h : s.req id = some r) (hstage : r.stage = .answered (.data d p))
    (hwho : r.who = .maint c) : s.granuleDelivery c id = s.maintData c r d p := by
  unfold State.granuleDelivery
  rw [State.answered_of_req h hstage (.inr hwho)]
  exact if_pos (by simp [hwho])

theorem State.redirectReceive_cell {e : Option MapEntry} (h : s.req id = some r) (hstage : r.stage = .answered (.redirect e))
    (hwho : r.who = .cell c) :
    s.redirectReceive c id = ((s.takeRedirect c r e).1.reqFault c r (s.takeRedirect c r e).2).pumpA c := by
  unfold State.redirectReceive
  rw [State.answered_of_req h hstage (.inl hwho)]
  dsimp only
  rw [Req.not_maint hwho]
  rfl

theorem State.homeLostReceive_cell (h : s.req id = some r) (hstage : r.stage = .answered .homeLost) (hwho : r.who = .cell c) :
    s.homeLostReceive c id = (s.takeLost c r).pumpA c := by
  unfold State.homeLostReceive
  rw [State.answered_of_req h hstage (.inl hwho)]
  dsimp only
  rw [Req.not_maint hwho]
  rfl

theorem State.requestAck_ack (h : s.req id = some r) (hstage : r.stage = .answered .ack) (hwho : r.who = .cell c) (hwrite : r.isWrite) :
    s.requestAck c id = (s.dropReq r.id).pumpA c := by
  unfold State.requestAck
  rw [State.answered_of_req h hstage (.inl hwho)]
  exact if_pos hwrite

theorem State.requestAck_badHandle (h : s.req id = some r) (hstage : r.stage = .answered .badHandle) (hwho : r.who = .cell c)
    (hwrite : r.isWrite) : s.requestAck c id = ((s.dropReq r.id).count (kPlc 14) 1).pumpA c := by
  unfold State.requestAck
  rw [State.answered_of_req h hstage (.inl hwho)]
  exact if_pos hwrite

/-! ## A redirect (R71, R72, R150) -/

/-- A redirect is counted; a prefetch that it reaches is dropped. -/
theorem State.takeRedirect_pref (e : Option MapEntry) (hop : r.op = .pref) :
    s.takeRedirect c r e = (((s.count (kPlc 12) 1).dropReq r.id).countC c (cAe 6) 1, none) := if_pos hop

/-- The sixteenth redirect of a request is a fault of its program. -/
theorem State.takeRedirect_limit (e : Option MapEntry) (hop : r.op ≠ .pref) (hlimit : r.redirects = 15) :
    s.takeRedirect c r e = ((s.count (kPlc 12) 1).dropReq r.id, some (fRedirectLimit, r.addr)) :=
  (if_neg hop).trans (if_pos (congrArg (· + 1) hlimit))

/-- The request as it stands after one more redirect. -/
def Req.redirected (r : Req) : Req := { r with redirects := r.redirects + 1 }

/-- Below the limit a request goes on by the entry that is the newer one, or walks again. -/
theorem State.takeRedirect_goes (e : Option MapEntry) (hop : r.op ≠ .pref) (hlimit : r.redirects ≠ 15)
    (hlive : ((s.count (kPlc 12) 1).liveDesc r.handle).isSome) :
    s.takeRedirect c r e =
      match pickEntry r.gen (((s.count (kPlc 12) 1).cell c).ptcFind r.handle r.plot) e with
      | some m => ((s.count (kPlc 12) 1).ptcInstall c r.handle r.plot m).routeReq c r.redirected m
      | none => ((s.count (kPlc 12) 1).rewalk c r.redirected, none) := by
  refine (if_neg hop).trans ((if_neg ?_).trans ((if_neg ?_).trans rfl))
  · exact fun h => hlimit (Nat.succ.inj h)
  · simp [Option.isNone_eq_false_iff.2 hlive]

/-! ## A home that is lost (R73, R150, R151) -/

theorem State.takeLost_pref (hop : r.op = .pref) :
    s.takeLost c r = ((s.dropReq r.id).count (kPlc 13) 1).countC c (cAe 6) 1 := if_pos hop

theorem State.takeLost_load (hop : r.op = .load) :
    s.takeLost c r = ((s.dropReq r.id).count (kPlc 13) 1).deliverLost c r true := by
  unfold State.takeLost Req.isWrite
  rw [hop]
  rfl

theorem State.takeLost_write (hop : r.op = .store ∨ r.op = .add) : ∀ u, u = (s.dropReq r.id).count (kPlc 13) 1 →
    s.takeLost c r = u.sumFlagIf c .access sHomeLost ((u.cell c).owns r) := by
  rintro u rfl
  refine (if_neg ?_).trans (if_pos (Req.isWrite_of_op hop))
  rcases hop with hop | hop <;> simp [hop]

/-! ## Data (R139, R142, R345) -/

/-- What a fill keeps: every access engine, and of the requests their numbers but for those it makes itself. -/
structure FillKeeps (s₀ s : State) : Prop where
  ae : ∀ d, (s.cell d).ae = (s₀.cell d).ae
  next : s₀.nextReq ≤ s.nextReq
  ids : ∀ q ∈ s.reqs, (∃ r ∈ s₀.reqs, r.id = q.id) ∨ s₀.nextReq ≤ q.id

theorem FillKeeps.refl (s : State) : FillKeeps s s := ⟨fun _ => rfl, Nat.le_refl _, fun q hq => .inl ⟨q, hq, rfl⟩⟩

theorem FillKeeps.of_eq (h : FillKeeps s₀ s) (cells : t.cells = s.cells) (next : t.nextReq = s.nextReq) (reqs : t.reqs = s.reqs) :
    FillKeeps s₀ t where
  ae d := (congrArg (·.getD d CellSt.reset |>.ae) cells).trans (h.ae d)
  next := next ▸ h.next
  ids := reqs ▸ h.ids

theorem FillKeeps.reports (h : FillKeeps s₀ s) (hr : ReportsOnly s t) : FillKeeps s₀ t :=
  h.of_eq (hr.part_eq State.cells) (hr.part_eq State.nextReq) (hr.part_eq State.reqs)

theorem FillKeeps.countC {i n : Nat} (h : FillKeeps s₀ s) : FillKeeps s₀ (s.countC c i n) := h.reports (s.count_reportsOnly ..)

theorem FillKeeps.raise {source kind code cls info : Nat} (h : FillKeeps s₀ s) : FillKeeps s₀ (s.raise source kind code cls info) :=
  h.reports (s.raise_reportsOnly ..)

theorem FillKeeps.errBump {a : Nat} (h : FillKeeps s₀ s) : FillKeeps s₀ (s.errBump a) := h.reports rfl

theorem FillKeeps.ite {P : Prop} [Decidable P] (hs : FillKeeps s₀ s) (ht : FillKeeps s₀ t) : FillKeeps s₀ (if P then s else t) := by
  split
  · exact hs
  · exact ht

theorem FillKeeps.seeClass {cls : Nat} (h : FillKeeps s₀ s) : FillKeeps s₀ (s.seeClass cls) := .ite (h.of_eq rfl rfl rfl) h

theorem FillKeeps.modCc {f : CacheSt → CacheSt} (h : FillKeeps s₀ s) : FillKeeps s₀ (s.modCc c f) where
  ae d := (State.cell_modCell_part CellSt.ae (f := fun x => { x with cc := f x.cc }) (fun _ => rfl) s c d).trans (h.ae d)
  next := h.next
  ids := h.ids

theorem FillKeeps.checkTag {set way : Nat} (h : FillKeeps s₀ s) : FillKeeps s₀ (s.checkTag c set way) := by
  unfold State.checkTag
  split
  · exact h
  · exact .ite h (.ite h.modCc.errBump.seeClass.raise h.modCc.errBump.seeClass)

theorem FillKeeps.checkSet {set : Nat} (h : FillKeeps s₀ s) : FillKeeps s₀ (s.checkSet c set) :=
  List.foldlRecOn _ _ h fun _ h _ _ => h.checkTag

theorem FillKeeps.checkLine {la : Nat} (h : FillKeeps s₀ s) : FillKeeps s₀ (s.checkLine c la) := by
  dsimp only [State.checkLine]
  split
  · exact h.checkSet
  · split
    · exact h.checkSet.modCc.errBump.seeClass
    · exact .ite h.checkSet.modCc.errBump.seeClass.raise h.checkSet.modCc.errBump.seeClass
    · exact h.checkSet

/-- A request under a new number, entering the window. -/
theorem FillKeeps.enterNew {r : Req} (h : FillKeeps s₀ s) (hid : s₀.nextReq ≤ r.id) : FillKeeps s₀ (s.newId.2.enterWrite c r) where
  ae := h.ae
  next := Nat.le_succ_of_le h.next
  ids q hq := by
    rcases List.mem_append.1 hq with hq | hq
    · obtain ⟨q₀, hq₀, rfl⟩ := List.mem_map.1 (List.mem_filter.1 hq).1
      rw [apply_ite Req.id, ite_self]
      exact h.ids q₀ hq₀
    · rw [List.mem_singleton.1 hq]
      exact .inr hid

theorem FillKeeps.writeBack {l : Line} (h : FillKeeps s₀ s) : FillKeeps s₀ (s.writeBack c l) := by
  dsimp only [State.writeBack]
  split
  · exact h
  · exact h.enterNew h.next

theorem FillKeeps.evict {set way : Nat} (h : FillKeeps s₀ s) : FillKeeps s₀ (s.evict c set way) := by
  dsimp only [State.evict]
  split
  · exact h
  · split
    · split
      · exact h.checkLine.writeBack.countC
      · exact h.checkLine
    · exact h

theorem FillKeeps.install {l : Line} (h : FillKeeps s₀ s) : FillKeeps s₀ (s.install c l) := by
  unfold State.install
  exact h.checkSet.evict.modCc

theorem FillKeeps.fill {la noFill : Nat} {d : BitVec 512} {poison wanted : Bool} (h : FillKeeps s₀ s) :
    FillKeeps s₀ (s.fill c la d poison wanted noFill) :=
  .ite h (.ite h.countC (.ite h h.install.countC))

/-- Marks and counts of poison leave the instruction in flight and the requests. -/
theorem State.sumFlag_op (s : State) (c b : Nat) : ((s.sumFlag c .access b).cell c).ae.op = (s.cell c).ae.op := by
  refine State.cell_modCell_part (·.ae.op) ?_ s c c
  exact fun _ => rfl

theorem State.count_cell (s : State) (k n d : Nat) : (s.count k n).cell d = s.cell d := (s.count_reportsOnly k n).part_eq (State.cell · d)

theorem State.granuleMark_keeps (s : State) (c : Nat) (keys : List Nat) (poison lost : Bool) :
    ((s.granuleMark c keys poison lost).cell c).ae.op = (s.cell c).ae.op ∧ (s.granuleMark c keys poison lost).reqs = s.reqs := by
  unfold State.granuleMark
  extract_lets u
  have hu : (u.cell c).ae.op = (s.cell c).ae.op ∧ u.reqs = s.reqs := by
    dsimp only [u, State.sumFlagIf]
    split
    · exact ⟨s.sumFlag_op .., rfl⟩
    · exact ⟨rfl, rfl⟩
  split
  · refine ⟨?_, (u.count_reqs ..).trans hu.2⟩
    rw [State.sumFlag_op, State.countC, State.count_cell, hu.1]
  · exact hu

/-- A granule within credit reaches the instruction under every number by which it was asked for. -/
theorem State.deliver_got {o : AOp} {keys : List Nat} (d : BitVec 512) (p : Bool) (hop : (s.cell c).ae.op = some o)
    (hcredit : keys.all o.ahead.contains = false) :
    ((s.deliver c keys d p).cell c).ae.op = some { o with got := o.got ++ keys.map fun k => ⟨k, d, p, false, none, []⟩ } ∧
      (s.deliver c keys d p).reqs = s.reqs := by
  have hnew : (keys.zipIdx.map fun k => (⟨k.1, d, p, false, none, []⟩ : Granule)) = keys.map fun k => ⟨k, d, p, false, none, []⟩ := by
    conv_rhs => rw [← List.zipIdx_map_fst 0 keys, List.map_map]
    rfl
  unfold State.deliver State.deliverAs
  rw [hop]
  dsimp only
  rw [hcredit]
  simp only [Bool.false_and, Bool.false_eq_true, if_false, hnew]
  obtain ⟨hmark, hreqs⟩ := State.granuleMark_keeps (s.modCell c fun x => { x with ae := { x.ae with op := some { o with
    got := o.got ++ keys.map fun k => ⟨k, d, p, false, none, []⟩ } } }) c keys p false
  refine ⟨hmark.trans ?_, hreqs⟩
  rw [State.cell_modCell_self (State.cell_lt_of_op hop)]

theorem CellSt.owns_congr {x y : CellSt} (h : x.ae = y.ae) (r : Req) : x.owns r = y.owns r := by
  unfold CellSt.owns
  rw [h]

/-- What taking the data of a load does: its instruction has the granule, and the request is gone. -/
theorem State.takeData_load {o : AOp} (d : BitVec 512) (p : Bool) (hop : (s.cell c).ae.op = some o) (howns : (s.cell c).owns r) (hload : r.op = .load)
    (hcredit : r.keys.all o.ahead.contains = false) :
    ((s.takeData c r d p).cell c).ae.op = some { o with got := o.got ++ r.keys.map fun k => ⟨k, d, p, false, none, []⟩ } ∧
      (r.id < s.nextReq → ∀ q ∈ (s.takeData c r d p).reqs, q.id ≠ r.id) := by
  unfold State.takeData
  extract_lets u v
  have hv : FillKeeps u v := by
    dsimp only [v]
    exact .ite (FillKeeps.refl u).fill (.refl u)
  have hae : (v.cell c).ae = (s.cell c).ae := hv.ae c
  obtain ⟨hgot, hreqs⟩ := State.deliver_got d p (hae ▸ hop) hcredit
  rw [if_pos (by rw [CellSt.owns_congr hae, howns, hload]; rfl)]
  refine ⟨hgot, fun hid q hq => ?_⟩
  rw [hreqs] at hq
  rcases hv.ids q hq with ⟨k, hk, heq⟩ | hnew
  · rw [← heq]
    simpa using (List.mem_filter.1 hk).2
  · exact Nat.ne_of_gt (Nat.lt_of_lt_of_le hid hnew)

/-! ## The translation cache (R64) -/

theorem lowest_eq_some_iff {q : Nat → Bool} {n i k : Nat} :
    lowest q n i = some k ↔ i ≤ k ∧ k < i + n ∧ q k ∧ ∀ j, i ≤ j → j < k → q j = false := by
  induction n generalizing i with
  | zero => simp only [lowest, reduceCtorEq, false_iff]; omega
  | succ n ih =>
    rw [lowest]
    by_cases hq : q i
    · rw [if_pos hq, Option.some_inj]
      constructor
      · rintro rfl
        exact ⟨Nat.le_refl _, by omega, hq, fun j _ _ => by omega⟩
      · rintro ⟨hle, -, -, hlow⟩
        by_contra hne
        exact absurd (hlow i (Nat.le_refl _) (by omega)) (by simp [hq])
    · rw [if_neg hq, ih]
      constructor
      · rintro ⟨hle, hlt, hk, hlow⟩
        refine ⟨by omega, by omega, hk, fun j hj hjk => ?_⟩
        by_cases hji : j = i
        · rwa [hji, ← Bool.not_eq_true]
        · exact hlow j (by omega) hjk
      · rintro ⟨hle, hlt, hk, hlow⟩
        have hne : i ≠ k := fun h => hq (h ▸ hk)
        exact ⟨by omega, by omega, hk, fun j hj => hlow j (by omega)⟩

theorem lowest_eq_none {q : Nat → Bool} {n i : Nat} (h : lowest q n i = none) {j : Nat} (hi : i ≤ j) (hj : j < i + n) : q j = false := by
  induction n generalizing i with
  | zero => omega
  | succ n ih =>
    rw [lowest] at h
    split at h
    · cases h
    · next hq =>
      by_cases hji : j = i
      · rwa [hji, ← Bool.not_eq_true]
      · exact ih h (by omega) (by omega)

/-- A way of a plot's set holds its entry. -/
def CellSt.ptcHolds (x : CellSt) (h p w : Nat) : Bool :=
  match x.ptcAt (ptcSet h p) w with
  | some e => e.handle == h && e.plot == p
  | none => false

theorem CellSt.ptcWay_eq (x : CellSt) (h p : Nat) : x.ptcWay h p = lowest (x.ptcHolds h p) 4 0 := rfl

/-- The way into which an entry is installed: no lower way holds the plot. -/
theorem CellSt.ptcInstall_eq (x : CellSt) (e : PtcEntry) : ∃ way < 4, (∀ j < way, x.ptcHolds e.handle e.plot j = false) ∧
    x.ptcInstall e = (x.ptcPut (ptcSet e.handle e.plot) way (some e)).ptcTouch (ptcSet e.handle e.plot) way := by
  unfold CellSt.ptcInstall
  extract_lets set free old way
  have hlt {q : Nat → Bool} {w : Nat} (h : lowest q 4 0 = some w) : w < 4 := by
    obtain ⟨-, hlt, -⟩ := lowest_eq_some_iff.1 h
    omega
  have hway : way < 4 := by
    dsimp only [way]
    cases hheld : x.ptcWay e.handle e.plot with
    | some w => exact hlt hheld
    | none =>
      cases hfree : free with
      | some w => exact hlt hfree
      | none =>
        cases hold : old with
        | some w => exact hlt hold
        | none => exact Nat.zero_lt_succ 3
  refine ⟨way, hway, fun j hj => ?_, rfl⟩
  cases hheld : x.ptcWay e.handle e.plot with
  | some w =>
    obtain ⟨-, -, -, hlow⟩ := lowest_eq_some_iff.1 hheld
    refine hlow j (Nat.zero_le j) ?_
    simpa [way, hheld] using hj
  | none => exact lowest_eq_none hheld (Nat.zero_le j) (by omega)

/-- An entry but for its recency bit. -/
def PtcEntry.unused (e : PtcEntry) : PtcEntry := { e with used := false }

/-- The entries of a set, but for their recency bits. -/
def CellSt.ptcEntries (x : CellSt) (set w : Nat) : Option PtcEntry := (x.ptcAt set w).map PtcEntry.unused

theorem CellSt.ptcHolds_eq (x : CellSt) (h p w : Nat) :
    x.ptcHolds h p w = (x.ptcEntries (ptcSet h p) w).any fun e => e.handle == h && e.plot == p := by
  unfold CellSt.ptcHolds CellSt.ptcEntries
  cases x.ptcAt (ptcSet h p) w with
  | none => rfl
  | some e => rfl

theorem CellSt.ptcFind_congr {x y : CellSt} {h p : Nat} (he : ∀ w, y.ptcEntries (ptcSet h p) w = x.ptcEntries (ptcSet h p) w) :
    y.ptcFind h p = x.ptcFind h p := by
  have hentry (z : CellSt) (w : Nat) : (z.ptcAt (ptcSet h p) w).map (·.entry) = (z.ptcEntries (ptcSet h p) w).map (·.entry) := by
    rw [CellSt.ptcEntries, Option.map_map]
    rfl
  have hholds : y.ptcHolds h p = x.ptcHolds h p := funext fun w => by rw [CellSt.ptcHolds_eq, CellSt.ptcHolds_eq, he]
  unfold CellSt.ptcFind
  rw [CellSt.ptcWay_eq, CellSt.ptcWay_eq, hholds]
  congr 1
  funext w
  rw [hentry, hentry, he]

/-- The cell's translation cache in canonical form. -/
def CellSt.PtcWf (x : CellSt) : Prop := tblWf (fun _ => none) x.ptc = true

theorem CellSt.PtcWf.put {x : CellSt} (h : x.PtcWf) (set w : Nat) (e : Option PtcEntry) : (x.ptcPut set w e).PtcWf :=
  tblSet_wf (fun _ => none) _ e x.ptc h

theorem CellSt.PtcWf.ptcAt_put {x : CellSt} (h : x.PtcWf) (set w j : Nat) (e : Option PtcEntry) :
    (x.ptcPut set w e).ptcAt set j = if j = w then e else x.ptcAt set j := by
  refine (tblGet_tblSet (fun _ => none) (4 * set + j) (4 * set + w) e x.ptc h).trans ?_
  simp only [Nat.add_left_cancel_iff]
  rfl

theorem CellSt.PtcWf.ptcEntries_touch {x : CellSt} (h : x.PtcWf) (set way w : Nat) :
    (x.ptcTouch set way).ptcEntries set w = x.ptcEntries set w := by
  unfold CellSt.ptcTouch
  extract_lets all
  refine (List.foldlRecOn (motive := fun y : CellSt => y.PtcWf ∧ y.ptcEntries set w = x.ptcEntries set w) _ _ ⟨h, rfl⟩ ?_).2
  rintro y ⟨hy, he⟩ j -
  split
  · next e hj =>
    refine ⟨hy.put .., Eq.trans ?_ he⟩
    unfold CellSt.ptcEntries
    rw [hy.ptcAt_put]
    split
    · next hw => rw [hw, hj]; rfl
    · rfl
  · exact ⟨hy, he⟩

/-- An install is found again. -/
theorem CellSt.PtcWf.ptcFind_install {x : CellSt} (h : x.PtcWf) (e : PtcEntry) : (x.ptcInstall e).ptcFind e.handle e.plot = some e.entry := by
  obtain ⟨way, hway, hlow, heq⟩ := x.ptcInstall_eq e
  have hat := h.ptcAt_put (ptcSet e.handle e.plot) way (e := some e)
  have hfound : (x.ptcPut (ptcSet e.handle e.plot) way (some e)).ptcWay e.handle e.plot = some way := by
    rw [CellSt.ptcWay_eq, lowest_eq_some_iff]
    refine ⟨Nat.zero_le _, by omega, ?_, fun j _ hj => ?_⟩
    · simp [CellSt.ptcHolds, hat]
    · rw [← hlow j hj, CellSt.ptcHolds, CellSt.ptcHolds, hat, if_neg (Nat.ne_of_lt hj)]
  rw [heq, CellSt.ptcFind_congr fun w => (h.put ..).ptcEntries_touch _ way w, CellSt.ptcFind, hfound, Option.bind_some, hat, if_pos rfl]
  rfl

/-! ## The sort window's cycle, and the end of a walk (R64, R65, R144) -/

theorem State.requestIssue_eq (hactive : s.active) (hc : c < 192) : s.requestIssue c = (s.issueCycle c).pumpA c :=
  if_pos (by simp [hactive, hc])

/-- The first request that leaves the window in a cycle, and the three that may follow. -/
theorem State.issueCycle_some (hpick : ((s.letIn c).noteCap c).pickIssue c = some r) :
    s.issueCycle c = ((((((s.letIn c).noteCap c).issueReq c r).issueUpTo c 3).letIn c).noteCap c) := by
  unfold State.issueCycle
  rw [State.issueUpTo, hpick]

theorem State.issueCycle_none (hpick : ((s.letIn c).noteCap c).pickIssue c = none) :
    s.issueCycle c = ((((s.letIn c).noteCap c).letIn c).noteCap c) := by
  unfold State.issueCycle
  rw [State.issueUpTo, hpick]

/-- A walk that has ended with an entry. -/
theorem State.cellWalk_entry {h q : Nat} {wk : Walk} {m : MapEntry}
    (hfind : s.walks.find? (fun w => w.cell == c && w.handle == h && w.plot == q) = some wk) (hend : s.walkEnd wk = some (.entry m)) :
    ∀ u, u = (s.endWalk wk).ptcInstall c h q m → s.cellWalk c h q = ((u.resume c (.entry m)
      (u.reqs.filter fun r => r.ofCell c && r.stage == .walking && r.handle == h && r.plot == q)).maintWalked c h q (.entry m)).pumpA c := by
  rintro u rfl
  unfold State.cellWalk
  rw [hfind]
  dsimp only
  rw [hend]

theorem exec_walkComplete_cell (s : State) (h q : Nat) (hc : c < 192) : exec (.walkComplete c h q) s = .next (s.cellWalk c h q) :=
  congrArg Host.Outcome.next ((if_neg (Nat.ne_of_lt hc)).trans (if_pos hc))

theorem State.not_mem_endWalk (s : State) (wk : Walk) : ∀ w ∈ (s.endWalk wk).walks, w ≠ wk := fun w hw => by
  simpa using (List.mem_filter.1 hw).2

/-! ## The statement -/

/-- Settles O44: each answer is what its operation takes it for (`takeRedirect_goes`, `takeLost_write` and the like), data reach the instruction that
asked (`takeData_load`), a cycle lets its first request leave (`issueCycle_some`), and an entry that a walk installs is found again
(`ptcFind_install`). -/
theorem requestsAndAnswers : Obligations.RequestsAndAnswers := by
  unfold Obligations.RequestsAndAnswers
  refine ⟨?answers, ?data, ?issue, ?walk, fun x e h => CellSt.PtcWf.ptcFind_install h e⟩
  case answers =>
    intro c id s r hreq
    obtain rfl := State.req_id hreq
    refine ⟨fun d p hstage hwho => congrArg _ (State.granuleDelivery_cell hreq hstage hwho),
      fun d p hstage hwho => congrArg _ (State.granuleDelivery_maint hreq hstage hwho), ?redirect, ?lost, ?ack⟩
    case redirect =>
      rintro e hstage hwho u rfl
      have hexec : exec (.redirectReceive c r.id) s =
          .next (((s.takeRedirect c r e).1.reqFault c r (s.takeRedirect c r e).2).pumpA c) :=
        congrArg _ (State.redirectReceive_cell hreq hstage hwho)
      refine ⟨fun hop => ?pref, fun hop hlimit => ?limit, fun hop hlimit hlive q hq => ?goes⟩
      case pref =>
        rw [hexec, State.takeRedirect_pref e hop]
        rfl
      case limit => rw [hexec, State.takeRedirect_limit e hop hlimit]
      case goes =>
        obtain rfl : q = r.redirected := hq
        rw [hexec, State.takeRedirect_goes e hop hlimit hlive]
        refine ⟨fun m v hpick hv => ?_, fun hpick => ?_⟩
        · rw [hpick, hv]
        · rw [hpick]
          rfl
    case lost =>
      rintro hstage hwho u rfl
      have hexec : exec (.homeLostReceive c r.id) s = .next ((s.takeLost c r).pumpA c) :=
        congrArg _ (State.homeLostReceive_cell hreq hstage hwho)
      refine ⟨fun hop => ?_, fun hop => ?_, fun hop => ?_⟩
      · rw [hexec, State.takeLost_pref hop]
      · rw [hexec, State.takeLost_load hop]
      · rw [hexec, State.takeLost_write hop _ rfl]
    case ack =>
      intro hwho hop
      have hwrite := Req.isWrite_of_op hop
      exact ⟨fun hstage => congrArg _ (State.requestAck_ack hreq hstage hwho hwrite),
        fun hstage => congrArg _ (State.requestAck_badHandle hreq hstage hwho hwrite)⟩
  case data =>
    rintro s c r d p o - hop howns hload hcredit t rfl
    exact State.takeData_load d p hop howns hload hcredit
  case issue =>
    intro c s hactive hc
    refine ⟨congrArg _ (State.requestIssue_eq hactive hc), ?_⟩
    rintro u rfl
    exact ⟨fun r hpick => State.issueCycle_some hpick, fun hpick => State.issueCycle_none hpick⟩
  case walk =>
    intro c h q s wk m hc hfind hend
    refine ⟨fun u hu => ?_, s.not_mem_endWalk wk⟩
    rw [exec_walkComplete_cell s h q hc, State.cellWalk_entry hfind hend u hu]

end Sys2Proof.Machine

/-! PROOF. The instructions of the dense array (R188, R230, R262): their issue, what one held leaves of its cell until it retires, and MatrixIssues. -/

namespace Sys2Proof.Machine

variable {s t : State} {c op : Nat} {p : Prog} {w : W64} {k : Pair}

/-! ## The instruction held -/

/-- The iteration numbers of the open loops take free values at most. -/
theorem State.loopNums_eq (s : State) (p : Prog) : (s.loopNums p).2 = { s with free := (s.loopNums p).2.free } := by
  unfold State.loopNums
  split
  · rfl
  · rfl

theorem State.loopNums_cells (s : State) (p : Prog) : (s.loopNums p).2.cells = s.cells := by rw [State.loopNums_eq]

theorem State.loopNums_cell (s : State) (p : Prog) (d : Nat) : (s.loopNums p).2.cell d = s.cell d := by
  rw [State.loopNums_eq]
  rfl

theorem State.loopNums_mem (s : State) (p : Prog) : (s.loopNums p).2.mem = s.mem := by rw [State.loopNums_eq]

theorem State.loopNums_cnts (s : State) (p : Prog) : (s.loopNums p).2.cnts = s.cnts := by rw [State.loopNums_eq]

/-- What the execute engine holds of an M-class instruction that has just issued. -/
def State.issuedM (s : State) (c : Nat) (p : Prog) (w : W64) (k : Pair) : XHold :=
  { ins := List.replicate 3 [], outs := [], part := List.replicate 3 [], row := 0, sent := 0, tally := 0, ovf := false,
    choice := (s.takenM c p w k).choice, pair := k, li := (s.loopNums p).1, own := none }

/-- The cell in which the execute engine holds an instruction. -/
def CellSt.holding (x : CellSt) (h : XHold) : CellSt := { x with xe := { x.xe with hold := some h } }

theorem State.heldM_cell (w : W64) (k : Pair) (hc : c < s.cells.length) : (s.heldM c p w k).cell c = (s.cell c).holding (s.issuedM c p w k) := by
  refine (State.cell_modCell_self (by rwa [State.loopNums_cells]) _).trans ?_
  rw [State.loopNums_cell]
  rfl

theorem State.heldM_length (s : State) (c : Nat) (p : Prog) (w : W64) (k : Pair) : (s.heldM c p w k).cells.length = s.cells.length := by
  rw [State.heldM, State.xHold, State.modCell_cells, modAt_length, State.loopNums_cells]

/-- What an instruction held leaves of each cell. -/
theorem State.heldM_part {α : Type} (part : CellSt → α) (hpart : ∀ x h, part (CellSt.holding x h) = part x) (s : State) (c d : Nat) (p : Prog) (w : W64)
    (k : Pair) : part ((s.heldM c p w k).cell d) = part (s.cell d) := by
  rw [← State.loopNums_cell s p d]
  refine State.cell_modCell_part part ?_ _ c d
  exact fun x => hpart x _

theorem State.heldM_mem (s : State) (c : Nat) (p : Prog) (w : W64) (k : Pair) : (s.heldM c p w k).mem = s.mem := s.loopNums_mem p

theorem State.heldM_cnts (s : State) (c : Nat) (p : Prog) (w : W64) (k : Pair) : (s.heldM c p w k).cnts = s.cnts := s.loopNums_cnts p

theorem State.heldM_opmem (s : State) (c : Nat) (p : Prog) (w : W64) (k : Pair) : SameOpmem s (s.heldM c p w k) := fun d a =>
  congrArg (memGet · a) (s.heldM_part CellSt.opmem (fun _ _ => rfl) c d p w k)

/-! ## Changes of the array -/

theorem State.cell_modArr_self (hc : c < s.cells.length) (f : ArraySt → ArraySt) : (s.modArr c f).cell c = (s.cell c).modArr f :=
  State.cell_modCell_self hc _

theorem State.modArr_lt (hc : c < s.cells.length) (f : ArraySt → ArraySt) : c < (s.modArr c f).cells.length := State.modCell_lt _ hc

/-! ## Issue -/

/-- The M-class instructions other than MCFG, each with its opcode. -/
def matrixInstrs : List ((Nat → W64 → Instr) × Nat) := [(.mldw, 1), (.mpre, 2), (.mmul, 3), (.mdrain, 4)]

theorem exec_matrixInstrs : ∀ x ∈ matrixInstrs, ∀ c w s, exec (x.1 c w) s = .next (s.mIssue c x.2 w) := by
  simp only [matrixInstrs, List.forall_mem_cons, List.not_mem_nil, false_imp_iff, implies_true, and_true]
  exact ⟨fun _ _ _ => rfl, fun _ _ _ => rfl, fun _ _ _ => rfl, fun _ _ _ => rfl⟩

/-- The cell in which an instruction that has issued is kept, while its program goes on. -/
def CellSt.keepLate (x : CellSt) (i : LateM) : CellSt :=
  { x.modProg .execute Prog.next with xe := { (x.modProg .execute Prog.next).xe with late := x.xe.late ++ [i] } }

/-- An instruction that issues is carried out where it need not wait, and kept where it must. -/
theorem MatrixIssue.mIssue (h : MatrixIssue s c p op w k) : s.mIssue c op w =
    if (s.cell c).mFree (s.cell c).xe.late (s.takenM c p w k) then (s.loopNums p).2.mRun c (s.takenM c p w k) none
    else (s.loopNums p).2.modCell c (·.keepLate (s.takenM c p w k)) := by
  obtain ⟨hissue, hother, hmcfg, hpred, hunit, hpair, hports⟩ := h
  have hquarter : ¬ ((!(s.cell c).arr.quarter) = true ∧ wQ w ≠ 0) := by
    rcases hunit with hunit | hunit <;> simp [hunit]
  refine (State.engineIssue_ready hissue hissue.at_.free _).trans ?_
  rw [if_neg (by simp [hmcfg, hpred]), if_neg hquarter, if_neg (by omega)]
  dsimp only
  rw [hpair]
  dsimp only
  rw [hports]
  rfl

/-- An instruction that issues and need not wait faults by its checks, or goes on. -/
theorem MatrixIssue.mIssue_free (h : MatrixIssue s c p op w k) (hfree : (s.cell c).mFree (s.cell c).xe.late (s.takenM c p w k)) : s.mIssue c op w =
    match mChecks op w (s.cell c) ((s.cell c).arr.geo w) k with
    | some (code, info) => (s.heldM c p w k).engineFault c .execute code info
    | none => (s.heldM c p w k).mGo c op w := by
  have hop : wOp (s.takenM c p w k).word = op := h.issue.wOp
  rw [h.mIssue, if_pos hfree]
  unfold State.mRun
  rw [hop, State.loopNums_cell]
  rfl

theorem MatrixReady.mIssue (h : MatrixReady s c p op w k) : s.mIssue c op w = (s.heldM c p w k).mGo c op w := by
  rw [h.issue.mIssue_free h.free, h.checks]

theorem MatrixReady.cell_lt (h : MatrixReady s c p op w k) : c < s.cells.length := h.issue.issue.cell_lt

/-! ## A check that fails -/

theorem CellSt.takesFault_execute {x : CellSt} (code : Nat) (info : W64) (hown : x.heldLate = none) (hp : x.xe.prog = some p) :
    (x.takesFault .execute code info).xe.prog = some { p with fault := some (BitVec.ofNat 16 code, p.pc, info) } := by
  dsimp only [CellSt.takesFault]
  rw [hown]
  exact congrArg (Option.map _) hp

theorem State.engineFault_arr (s : State) (c d : Nat) (e : Engine) (code : Nat) (info : W64) :
    ((s.engineFault c e code info).cell d).arr = (s.cell d).arr := by
  rw [State.engineFault_cell]
  refine State.cell_modCell_part CellSt.arr (fun x => ?_) s c d
  cases e with
  | access => rfl
  | execute => rfl

/-- The program of the instruction held faults at it. -/
theorem MatrixIssue.heldM_faults (h : MatrixIssue s c p op w k) (code : Nat) (info : W64) : ∀ u, u = (s.heldM c p w k).engineFault c .execute code info →
    (u.cell c).xe.prog = some { p with fault := some (BitVec.ofNat 16 code, p.pc, info) } ∧ (u.cell c).arr = (s.cell c).arr ∧
      SameMemory s u ∧ SameOpmem s u := by
  rintro u rfl
  have hc := h.issue.cell_lt
  refine ⟨?_, ?_, fun a => ?_, fun d a => ?_⟩
  · rw [State.engineFault_cell, State.cell_modCell_self (by rwa [State.heldM_length]), State.heldM_cell w k hc]
    exact CellSt.takesFault_execute code info rfl h.issue.prog
  · rw [State.engineFault_arr, State.heldM_cell w k hc]
    rfl
  · rw [State.engineFault_mem, State.heldM_mem]
  · exact (State.engineFault_opmem _ c .execute code info d a).trans (s.heldM_opmem c p w k d a)

/-! ## An instruction that must wait -/

theorem MatrixIssue.mIssue_waits (h : MatrixIssue s c p op w k) (hwaits : (s.cell c).mFree (s.cell c).xe.late (s.takenM c p w k) = false) :
    ∀ u, u = s.mIssue c op w → (u.cell c).xe.prog = some p.next ∧ (u.cell c).xe.late = (s.cell c).xe.late ++ [s.takenM c p w k] ∧
      (u.cell c).arr = (s.cell c).arr ∧ SameMemory s u ∧ SameOpmem s u := by
  rintro u rfl
  have hcell : ((s.loopNums p).2.modCell c (·.keepLate (s.takenM c p w k))).cell c = (s.cell c).keepLate (s.takenM c p w k) := by
    rw [State.cell_modCell_self (by rw [State.loopNums_cells]; exact h.issue.cell_lt), State.loopNums_cell]
  rw [h.mIssue, if_neg (by simp [hwaits]), hcell]
  refine ⟨congrArg (Option.map Prog.next) h.issue.prog, rfl, rfl, fun a => ?_, fun d a => ?_⟩
  · exact congrArg (memGet · a) (s.loopNums_mem p)
  · refine congrArg (memGet · a) ((State.cell_modCell_part CellSt.opmem ?_ _ c d).trans (congrArg CellSt.opmem (s.loopNums_cell p d)))
    exact fun _ => rfl

/-! ## The statement -/

/-- Settles O13: an instruction that issues faults by its checks or goes on (`MatrixIssue.mIssue_free`), or is kept (`mIssue_waits`). -/
theorem matrixIssues : Obligations.MatrixIssues := by
  unfold Obligations.MatrixIssues
  intro c w s p k
  refine ⟨fun h => congrArg _ h.mIssue, fun h => congrArg _ h.mIssue, fun h => congrArg _ h.mIssue, fun h => congrArg _ h.mIssue, ?_⟩
  intro x hx h
  rw [exec_matrixInstrs x hx]
  refine ⟨fun hfree code info hchecks => ⟨_, rfl, ?_⟩, fun hwaits => ⟨_, rfl, h.mIssue_waits hwaits _ rfl⟩⟩
  rw [h.mIssue_free hfree, hchecks]
  exact h.heldM_faults code info _ rfl

end Sys2Proof.Machine

/-! PROOF. The completions of the array's instructions and its replays (R177, R188, R205, R206), and MatrixCompletions. -/

namespace Sys2Proof.Machine

variable {s : State} {c : Nat} {o : MOp} {pre rest : List MOp}

/-! ## The oldest instruction of a kind -/

theorem takeFirst_append {α : Type} {q : α → Bool} {a : α} {pre rest : List α} (hpre : ∀ b ∈ pre, q b = false) (ha : q a = true) :
    takeFirst q (pre ++ a :: rest) = (some a, pre ++ rest) := by
  induction pre with
  | nil => simp [takeFirst, ha]
  | cons b pre ih =>
    obtain ⟨hb, hpre⟩ := List.forall_mem_cons.1 hpre
    simp [takeFirst, hb, ih hpre]

/-- Where no replay is due, the oldest MMUL completes. -/
theorem takeMmul_eq_takeFirst {due : Nat → Bool} (hdue : ∀ u, due u = false) (l : List MOp) : takeMmul due l = takeFirst (fun o => o.op == 3) l := by
  induction l with
  | nil => rfl
  | cons o l ih => simp [takeMmul, takeFirst, hdue, ih]

theorem ArraySt.oldest_eq {a : ArraySt} (hmops : a.mops = pre ++ o :: rest) (hpre : ∀ q ∈ pre, q.op ≠ o.op) :
    a.oldest o.op = (some o, pre ++ rest) := by
  rw [ArraySt.oldest, hmops]
  exact takeFirst_append (fun q hq => by simpa using hpre q hq) (by simp)

/-! ## Completion -/

/-- An instruction under way completes, and nothing waits for it. -/
theorem State.mComplete_eq {take : ArraySt → Option MOp × List MOp} {f : MOp → State → State} (hactive : s.active) (hup : s.cellUp c)
    (htake : take (s.cell c).arr = (some o, rest)) : ∀ t, t = f o (s.modArr c fun a => { a with mops := rest }) → (t.cell c).xe.late = [] →
    s.mComplete c take f = t := by
  rintro t rfl hlate
  unfold State.mComplete
  rw [hactive, hup, htake]
  exact State.lateRun_of_late_nil hlate

/-- A completion that does no more than end its instruction. -/
theorem State.mComplete_step {take : ArraySt → Option MOp × List MOp} (hactive : s.active) (hup : s.cellUp c) (hc : c < s.cells.length)
    (htake : take (s.cell c).arr = (some o, rest)) (hlate : (s.cell c).xe.late = []) :
    CellStep c (fun x => { x with arr := { x.arr with mops := rest } }) s (s.mComplete c take fun _ s => s) := by
  have hstep : CellStep c (fun x => { x with arr := { x.arr with mops := rest } }) s (s.modArr c fun a => { a with mops := rest }) :=
    State.modCell_step hc _
  rwa [State.mComplete_eq hactive hup htake _ rfl]
  rw [hstep.1]
  exact hlate

theorem kCell_ne_kEth {i j : Nat} (hj : j ≤ 15) : kCell c i ≠ kEth j := by
  unfold kCell cellBase kEth ethBase
  omega

theorem modAt_getElem?_self {α : Type} (i : Nat) (f : α → α) (l : List α) : (modAt i f l)[i]? = l[i]?.map f := by
  induction l generalizing i with
  | nil => simp [modAt]
  | cons a l ih =>
    cases i with
    | zero => rfl
    | succ i => exact ih i

/-- The bank of a weight load is LOADED. -/
def ArraySt.loads (a : ArraySt) (o : MOp) : ArraySt :=
  { a with banks := modAt (2 * o.unit + o.bank) (fun b => { b with loaded := true }) a.banks }

theorem ArraySt.loads_loaded (a : ArraySt) (o : MOp) {b : Bank} (h : (a.loads o).banks[2 * o.unit + o.bank]? = some b) : b.loaded := by
  rw [ArraySt.loads, modAt_getElem?_self, Option.map_eq_some_iff] at h
  obtain ⟨_, _, rfl⟩ := h
  rfl

/-- A weight load that completes leaves its bank LOADED, and is counted. -/
theorem State.mldwComplete_loads (hactive : s.active) (hup : s.cellUp c) (hc : c < s.cells.length) (hlate : (s.cell c).xe.late = [])
    (htake : (s.cell c).arr.oldest 1 = (some o, rest)) : ∀ t, t = s.mldwComplete c → (t.cell c).arr.mops = rest ∧
      (∀ b, (t.cell c).arr.banks[2 * o.unit + o.bank]? = some b → b.loaded) ∧
      (s.Good → t.cnt (kCell c (cMx 3)) = s.cnt (kCell c (cMx 3)) + 1) := by
  let u := (s.modArr c fun a => { a with mops := rest }).modArr c (·.loads o)
  have hcell : (u.countC c (cMx 3) 1).cell c = (s.cell c).modArr fun a => { a with mops := rest }.loads o := by
    rw [State.countC, State.count_cell, State.cell_modArr_self (State.modArr_lt hc _), State.cell_modArr_self hc]
    rfl
  rintro t rfl
  have ht : s.mldwComplete c = u.countC c (cMx 3) 1 := State.mComplete_eq hactive hup htake _ rfl (by rw [hcell]; exact hlate)
  rw [ht, hcell]
  refine ⟨rfl, fun b hb => ArraySt.loads_loaded _ o hb, fun hgood => ?_⟩
  exact State.cnt_count ((Kept.refl s).modArr.modArr.good hgood) (kCell_ne_kEth (by decide)) 1

/-! ## Replays -/

/-- What every step of a fold leaves, the fold leaves. -/
theorem foldl_part {α β γ : Type} (part : α → γ) {f : α → β → α} (l : List β) (a : α) (hf : ∀ a b, part (f a b) = part a := by intros; rfl) :
    part (l.foldl f a) = part a := by
  induction l generalizing a with
  | nil => rfl
  | cons b l ih => exact (ih _).trans (hf a b)

theorem CellSt.restoreRows_stat (x : CellSt) (g : Geo) (t r0 m : Nat) : (x.restoreRows g t r0 m).arr.stat = x.arr.stat :=
  foldl_part (·.arr.stat) _ x

/-- A tile that is scaled has its T raised by 16 and one more replay. -/
theorem CellSt.scaleTile_stat (x : CellSt) (g : Geo) (t : Nat) :
    (x.scaleTile g t).arr.stat = modAt (g.stat t) (fun q => { q with t := q.t + 16, replays := q.replays + 1 }) x.arr.stat := by
  have hspill : ((List.range g.n).foldl (fun x r => x.setSpillRow g t r ((x.spillRow g t r).map (FVal.scale (-16)))) x).arr = x.arr :=
    foldl_part CellSt.arr _ x
  refine congrArg (modAt (g.stat t) _) ((foldl_part ArraySt.stat _ _).trans (congrArg ArraySt.stat ?_))
  split
  · exact hspill
  · rfl

theorem ArraySt.status_of_stat {a b : ArraySt} {g : Geo} {t : Nat} {f : QStat → QStat} (h : b.stat = modAt (g.stat t) f a.stat)
    (ht : g.stat t < a.stat.length) : b.status g t = f (a.status g t) := by
  rw [ArraySt.status, h, modAt_getD, if_pos ⟨rfl, ht⟩]
  rfl

theorem State.overflowReplay_eq {r : Replay} {due : List Replay} (hdue : (s.cell c).arr.replays = r :: due) (hactive : s.active)
    (hup : s.cellUp c) : ∀ g, g = r.geo (s.cell c).arr.quarter → s.overflowReplay c =
      (((s.modCell c fun x => ((x.restoreRows g r.tile r.r0 r.m).scaleTile g r.tile).modArr fun a => { a with replays := due }).countC c
        (cMx 7) 1).pass c { r with taken := r.taken + 1 }).lateRun c := by
  rintro g rfl
  unfold State.overflowReplay
  rw [hdue, hactive, hup]
  rfl

/-! ## The statement -/

/-- Settles O14: a completion ends the oldest instruction of its kind (`mComplete_step`, `mldwComplete_loads`), and a replay makes its pass again over
the tile restored and scaled (`overflowReplay_eq`, `scaleTile_stat`). -/
theorem matrixCompletions : Obligations.MatrixCompletions := by
  unfold Obligations.MatrixCompletions
  refine ⟨?completes, ?replay⟩
  case completes =>
    intro c s o pre rest hactive hup hc hmops hpre hlate
    have htake := ArraySt.oldest_eq hmops hpre
    refine ⟨fun hop => ⟨_, rfl, ?_⟩, fun hop => ⟨_, rfl, ?_⟩, fun hop hdue => ⟨_, rfl, ?_⟩, fun hop => ⟨_, rfl, ?_⟩⟩
    · exact State.mldwComplete_loads hactive hup hc hlate (hop ▸ htake) _ rfl
    · exact State.mComplete_step hactive hup hc (hop ▸ htake) hlate
    · refine State.mComplete_step (o := o) hactive hup hc ?_ hlate
      rw [takeMmul_eq_takeFirst fun u => by rw [hdue]; rfl]
      exact hop ▸ htake
    · exact State.mComplete_step hactive hup hc (hop ▸ htake) hlate
  case replay =>
    rintro c s r due hdue hactive hup g x y hg rfl rfl
    refine ⟨⟨_, rfl, State.overflowReplay_eq hdue hactive hup g hg⟩, fun hstat => ?_⟩
    rw [← CellSt.restoreRows_stat _ g r.tile r.r0 r.m] at hstat
    rw [ArraySt.status_of_stat (CellSt.scaleTile_stat _ g r.tile) hstat, ArraySt.status, CellSt.restoreRows_stat]
    rfl

end Sys2Proof.Machine

/-! PROOF. MMUL (R180, R182, R205, R206, R262): how its sources are read, what its pass leaves of the cell, and MultiplyPasses. -/

namespace Sys2Proof.Machine

variable {s s₀ t : State} {c : Nat} {p : Prog} {w : W64} {k : Pair} {l : List MOp}

/-! ## Sources in operand memory (R181, R262) -/

/-- An element replaced by itself. -/
theorem modAt_eq_self {α : Type} {i : Nat} {f : α → α} {l : List α} {d : α} (h : f (l.getD i d) = l.getD i d) : modAt i f l = l := by
  induction l generalizing i with
  | nil => simp [modAt]
  | cons a l ih =>
    cases i with
    | zero => exact congrArg (· :: l) h
    | succ i => exact congrArg (a :: ·) (ih h)

theorem State.modCell_eq_self {f : CellSt → CellSt} (h : f (s.cell c) = s.cell c) : s.modCell c f = s := by
  rw [State.modCell, modAt_eq_self h]

theorem State.modHold_eq_self {f : XHold → XHold} (h : (s.cell c).xe.hold.map f = (s.cell c).xe.hold) : s.modHold c f = s :=
  State.modCell_eq_self (by rw [h])

theorem isChute_of_le {port : Nat} (h : 12 ≤ port) : isChute port = false := by simpa [isChute] using h

theorem State.pull_of_le {i port need : Nat} (h : ReadAs) (hle : need ≤ ((s.cell c).xhold.ins.getD i []).length) :
    s.pull c i port need h = (none, s) := if_pos hle

/-- A source that holds its bytes already, or needs none. -/
theorem State.pullThen_of_le {i port need : Nat} (h : ReadAs) (f : State → State) (hle : need ≤ ((s.cell c).xhold.ins.getD i []).length) :
    s.pullThen c i port need h f = f s := by
  rw [State.pullThen, State.pull_of_le h hle]

theorem State.pullThen_zero (s : State) (c i port : Nat) (h : ReadAs) (f : State → State) : s.pullThen c i port 0 h f = f s :=
  State.pullThen_of_le h f (Nat.zero_le _)

/-- Bytes of operand memory come to source `i` of the instruction held. -/
def State.takeIn (s : State) (c i : Nat) (b : List Byte) : State := s.modHold c fun y => { y with ins := modAt i (· ++ b) y.ins }

theorem State.takeIn_nil (s : State) (c i : Nat) : s.takeIn c i [] = s := by
  refine State.modHold_eq_self ?_
  cases (s.cell c).xe.hold with
  | none => rfl
  | some y => simp [modAt_eq_self (d := ([] : List Byte))]

/-- A source that holds nothing yet takes all its bytes from operand memory that is free of poison. -/
theorem State.pullThen_opmem {i port need : Nat} (h : ReadAs) (f : State → State) (hport : 12 ≤ port) (hempty : (s.cell c).xhold.ins.getD i [] = [])
    (hclean : (s.cell c).opPoisoned ((s.cell c).portAddr port) need = none) :
    s.pullThen c i port need h f = f (s.takeIn c i (memRead (s.cell c).opmem ((s.cell c).portAddr port) need)) := by
  cases need with
  | zero => rw [State.pullThen_zero, memRead, State.takeIn_nil]
  | succ need =>
    unfold State.pullThen State.pull
    dsimp only
    rw [hempty, if_neg (by simp), isChute_of_le hport]
    simp only [List.length_nil, Nat.add_zero, Nat.sub_zero, hclean, ite_self, Bool.false_eq_true, if_false]
    rfl

/-- The bytes that source 0 of an instruction that has just issued takes. -/
theorem State.takeIn_heldM_src (b : List Byte) (hc : c < s.cells.length) : ∀ u, u = ((s.heldM c p w k).takeIn c 0 b).cell c →
    u.src 0 = b ∧ u.src 1 = [] := by
  rintro u rfl
  rw [State.takeIn, State.modHold, State.cell_modCell_self (by rwa [State.heldM_length]), State.heldM_cell w k hc]
  exact ⟨rfl, rfl⟩

/-! ## What an M-class instruction held leaves of its cell -/

/-- The execute engine holds an instruction of program `p` that had not to wait; flags of its summary may have been set since `s₀`, and the
instructions `l` are under way. -/
structure HoldsM (s₀ s : State) (c : Nat) (p : Prog) (l : List MOp) : Prop where
  cell : c < s.cells.length
  prog : ∃ f, (s.cell c).xe.prog = some { p with flags := f }
  own : (s.cell c).heldLate = none
  mops : (s.cell c).arr.mops = l
  mem : s.mem = s₀.mem

theorem MatrixReady.heldM_holds {op : Nat} (h : MatrixReady s c p op w k) : HoldsM s (s.heldM c p w k) c p (s.cell c).arr.mops where
  cell := by
    rw [State.heldM_length]
    exact h.cell_lt
  prog := by
    rw [State.heldM_cell w k h.cell_lt]
    exact ⟨p.flags, h.issue.issue.prog⟩
  own := by
    rw [State.heldM_cell w k h.cell_lt]
    rfl
  mops := by
    rw [State.heldM_cell w k h.cell_lt]
    rfl
  mem := s.heldM_mem c p w k

theorem HoldsM.of_eq (h : HoldsM s₀ s c p l) (cells : t.cells = s.cells) (mem : t.mem = s.mem) : HoldsM s₀ t c p l := by
  have hcell : t.cell c = s.cell c := congrArg (·.getD c CellSt.reset) cells
  exact ⟨cells ▸ h.cell, hcell ▸ h.prog, hcell ▸ h.own, hcell ▸ h.mops, mem.trans h.mem⟩

theorem HoldsM.modCell {f : CellSt → CellSt} (h : HoldsM s₀ s c p l) (prog : ∀ x, (f x).xe.prog = x.xe.prog := by intros; rfl)
    (own : ∀ x, (f x).heldLate = x.heldLate := by intros; rfl) (mops : ∀ x, (f x).arr.mops = x.arr.mops := by intros; rfl) :
    HoldsM s₀ (s.modCell c f) c p l := by
  have hcell := State.cell_modCell_self h.cell f
  refine ⟨State.modCell_lt f h.cell, ?_, ?_, ?_, h.mem⟩
  · rw [hcell, prog]
    exact h.prog
  · rw [hcell, own]
    exact h.own
  · rw [hcell, mops]
    exact h.mops

theorem HoldsM.modArr {f : ArraySt → ArraySt} (h : HoldsM s₀ s c p l) (mops : ∀ a, (f a).mops = a.mops := by intros; rfl) :
    HoldsM s₀ (s.modArr c f) c p l := h.modCell (mops := fun x => mops x.arr)

theorem HoldsM.modHold {f : XHold → XHold} (h : HoldsM s₀ s c p l) (own : ∀ y, (f y).own = y.own := by intros; rfl) :
    HoldsM s₀ (s.modHold c f) c p l :=
  h.modCell (own := fun x => by cases hx : x.xe.hold <;> simp [CellSt.heldLate, hx, own])

theorem HoldsM.countC {i n : Nat} (h : HoldsM s₀ s c p l) : HoldsM s₀ (s.countC c i n) c p l :=
  h.of_eq ((s.count_reportsOnly ..).part_eq State.cells) (s.count_mem ..)

theorem HoldsM.sumFlag {b : Nat} (h : HoldsM s₀ s c p l) : HoldsM s₀ (s.sumFlag c .execute b) c p l := by
  have hcell := State.cell_modCell_self h.cell fun x => x.modProg .execute fun p => { p with flags := p.flags ||| BitVec.ofNat 32 (2 ^ b) }
  refine ⟨State.modCell_lt _ h.cell, ?_, ?_, ?_, h.mem⟩
  · obtain ⟨f, hprog⟩ := h.prog
    exact ⟨_, (congrArg (·.xe.prog) hcell).trans (congrArg (Option.map _) hprog)⟩
  · exact (congrArg CellSt.heldLate hcell).trans h.own
  · exact (congrArg (·.arr.mops) hcell).trans h.mops

theorem HoldsM.ite {P : Prop} [Decidable P] (hs : HoldsM s₀ s c p l) (ht : HoldsM s₀ t c p l) : HoldsM s₀ (if P then s else t) c p l := by
  split
  · exact hs
  · exact ht

theorem HoldsM.sumFlagIf {b : Nat} {on : Bool} (h : HoldsM s₀ s c p l) : HoldsM s₀ (s.sumFlagIf c .execute b on) c p l := .ite h.sumFlag h

theorem HoldsM.mStart {op : Nat} {g : Geo} (h : HoldsM s₀ s c p l) : HoldsM s₀ (s.mStart c op g w) c p (l ++ [⟨op, g.u, wT w, wBank w⟩]) := by
  have hcell := State.cell_modArr_self h.cell fun a => { a with mops := a.mops ++ [{ op := op, unit := g.u, tile := wT w, bank := wBank w }] }
  refine ⟨State.modArr_lt h.cell _, ?_, ?_, ?_, h.mem⟩
  · exact hcell ▸ h.prog
  · exact hcell ▸ h.own
  · rw [State.mStart, hcell, ← h.mops]
    rfl

/-- The program of an instruction that was held has gone on. -/
structure GoneM (s₀ s : State) (c : Nat) (p : Prog) (l : List MOp) : Prop where
  prog : ∃ f, (s.cell c).xe.prog = some { p.next with flags := f }
  mops : (s.cell c).arr.mops = l
  mem : s.mem = s₀.mem

theorem HoldsM.retire (h : HoldsM s₀ s c p l) : GoneM s₀ (s.retire c .execute) c p l := by
  obtain ⟨hcell, -⟩ := State.retire_execute_step h.cell h.own
  obtain ⟨f, hprog⟩ := h.prog
  refine ⟨⟨f, ?_⟩, ?_, h.mem⟩
  · rw [hcell]
    exact congrArg (Option.map Prog.next) hprog
  · rw [hcell]
    exact h.mops

/-! ## Spills and passes (R201, R205, R206) -/

theorem HoldsM.spill {g : Geo} {t r0 m : Nat} (h : HoldsM s₀ s c p l) : HoldsM s₀ (s.spill c g t r0 m) c p l := by
  refine .ite h (.ite h (h.modCell ?_ ?_ ?_).countC)
  · exact fun x => foldl_part (·.xe.prog) _ x
  · exact fun x => foldl_part CellSt.heldLate _ x
  · exact fun x => foldl_part (·.arr.mops) _ x

/-- The part of a cell that a pass leaves until its results stand. -/
structure PassKeeps (c : Nat) (s t : State) : Prop where
  cells : t.cells.length = s.cells.length
  xe : (t.cell c).xe = (s.cell c).xe
  acc : (t.cell c).arr.acc = (s.cell c).arr.acc
  mops : (t.cell c).arr.mops = (s.cell c).arr.mops
  replays : (t.cell c).arr.replays = (s.cell c).arr.replays
  mem : t.mem = s.mem

theorem PassKeeps.refl (c : Nat) (s : State) : PassKeeps c s s := ⟨rfl, rfl, rfl, rfl, rfl, rfl⟩

theorem PassKeeps.of_eq {u : State} (h : PassKeeps c s t) (cells : u.cells = t.cells := by rfl) (mem : u.mem = t.mem := by rfl) : PassKeeps c s u := by
  have hcell : u.cell c = t.cell c := congrArg (·.getD c CellSt.reset) cells
  obtain ⟨hcells, hxe, hacc, hmops, hreplays, hmem⟩ := h
  exact ⟨cells ▸ hcells, hcell ▸ hxe, hcell ▸ hacc, hcell ▸ hmops, hcell ▸ hreplays, mem.trans hmem⟩

theorem PassKeeps.modCell {f : CellSt → CellSt} (h : PassKeeps c s t) (xe : ∀ x, (f x).xe = x.xe) (acc : ∀ x, (f x).arr.acc = x.arr.acc)
    (mops : ∀ x, (f x).arr.mops = x.arr.mops) (replays : ∀ x, (f x).arr.replays = x.arr.replays) : PassKeeps c s (t.modCell c f) where
  cells := (modAt_length ..).trans h.cells
  xe := (State.cell_modCell_part CellSt.xe xe t c c).trans h.xe
  acc := (State.cell_modCell_part (·.arr.acc) acc t c c).trans h.acc
  mops := (State.cell_modCell_part (·.arr.mops) mops t c c).trans h.mops
  replays := (State.cell_modCell_part (·.arr.replays) replays t c c).trans h.replays
  mem := h.mem

theorem PassKeeps.countC {i n : Nat} (h : PassKeeps c s t) : PassKeeps c s (t.countC c i n) :=
  h.of_eq ((t.count_reportsOnly ..).part_eq State.cells) (t.count_mem ..)

theorem PassKeeps.ite {u : State} {P : Prop} [Decidable P] (ht : PassKeeps c s t) (hu : PassKeeps c s u) : PassKeeps c s (if P then t else u) := by
  split
  · exact ht
  · exact hu

/-- A free value that is taken where it is needed. -/
theorem PassKeeps.fresh_ite {b : Bool} (h : PassKeeps c s t) : PassKeeps c s (if b then t.fresh else ((0 : W64), t)).2 := by
  cases b with
  | true => exact h.of_eq
  | false => exact h

theorem PassKeeps.snd_eq {α : Type} {q : α × State} {a : α} (h : PassKeeps c s q.2) (he : q = (a, t)) : PassKeeps c s t := by
  rw [he] at h
  exact h

theorem PassKeeps.countPass {g : Geo} {r : Replay} {holds : Nat} (h : PassKeeps c s t) : PassKeeps c s (t.countPass c g r holds) := by
  unfold State.countPass
  extract_lets m groups
  split
  next v u he =>
    have hu := h.fresh_ite.snd_eq he
    extract_lets busy other
    split
    next o y he =>
      have hy := hu.fresh_ite.snd_eq he
      exact .ite hy.countC.countC.countC.countC.countC.countC hy.countC.countC.countC

theorem PassKeeps.imageRows {g : Geo} {k r0 m : Nat} (h : PassKeeps c s t) : PassKeeps c s (t.modCell c fun x => x.imageRows g k r0 m) := by
  refine h.modCell ?_ ?_ ?_ ?_
  · exact fun x => foldl_part CellSt.xe _ x
  · exact fun x => foldl_part (·.arr.acc) _ x
  · exact fun x => foldl_part (·.arr.mops) _ x
  · exact fun x => foldl_part (·.arr.replays) _ x

/-- The state in which a pass has run, before it is known whether its results stand. -/
def State.passRan (s : State) (c : Nat) (r : Replay) : State :=
  let g := r.geo (s.cell c).arr.quarter
  let st := (s.cell c).arr.status g r.tile
  let slabs := slabPass r.fmt g.blocks (if r.sparse then r.nz else []) s.free
  let s := if r.sparse then { s with free := s.free + slabTime r.fmt g.blocks r.nz + 16 } else s
  let s := if st.cls = 3 ∨ st.cls = 4 then s.modCell c fun x => x.imageRows g r.tile r.r0 r.m else s
  (s.countPass c g r slabs.holds).modArr c fun a => a.enterRows g.u (r.nz.map List.length)

theorem State.passRan_keeps (s : State) (c : Nat) (r : Replay) : PassKeeps c s (s.passRan c r) := by
  unfold State.passRan
  extract_lets g st slabs u v
  have hu : PassKeeps c s u := .ite (PassKeeps.refl c s).of_eq (.refl c s)
  have hv : PassKeeps c s v := .ite hu.imageRows hu
  exact hv.countPass.modCell (fun _ => rfl) (fun _ => rfl) (fun _ => rfl) fun _ => rfl

/-- A pass that overflows in block-scaled traffic waits for its replay while R206 allows; the results of any other stand. -/
theorem State.pass_eq (s : State) (c : Nat) (r : Replay) : ∀ g st f, g = r.geo (s.cell c).arr.quarter → st = (s.cell c).arr.status g r.tile →
    f = passFeet (s.cell c).arr g r (slabPass r.fmt g.blocks (if r.sparse then r.nz else []) s.free) → s.pass c r =
      if (st.cls = 3 ∨ st.cls = 4) ∧ (f.any fun l => l.any (·.ovf)) ∧ r.taken < 4 ∧ st.t + 16 ≤ 64 then
        (s.passRan c r).modArr c fun a => { a with replays := (a.replays.filter fun y => y.q != r.q) ++ [r] }
      else (s.passRan c r).passDone c g r f := by
  rintro g st f rfl rfl rfl
  rfl

theorem State.sumFlagIf_arr (s : State) (c d b : Nat) (on : Bool) : ((s.sumFlagIf c .execute b on).cell d).arr = (s.cell d).arr := by
  unfold State.sumFlagIf
  split
  · refine State.cell_modCell_part CellSt.arr ?_ s c d
    exact fun _ => rfl
  · rfl

/-- Once its results stand, no replay of its unit is due. -/
theorem State.passDone_replays {g : Geo} {r : Replay} {f : List (List Foot)} (hc : c < s.cells.length) :
    ((s.passDone c g r f).cell c).arr.replays = (s.cell c).arr.replays.filter fun y => y.q != r.q := by
  unfold State.passDone
  extract_lets
  rw [State.countC, State.count_cell, State.countC, State.count_cell, State.sumFlagIf_arr, State.sumFlagIf_arr, State.sumFlagIf_arr,
    State.cell_modArr_self (State.modArr_lt hc _), State.cell_modArr_self hc]
  exact congrArg (List.filter _) (foldl_part ArraySt.replays _ (s.cell c).arr)

theorem HoldsM.passRan {r : Replay} (h : HoldsM s₀ s c p l) : HoldsM s₀ (s.passRan c r) c p l := by
  obtain ⟨hcells, hxe, -, hmops, -, hmem⟩ := s.passRan_keeps c r
  refine ⟨hcells ▸ h.cell, hxe ▸ h.prog, ?_, hmops.trans h.mops, hmem.trans h.mem⟩
  rw [CellSt.heldLate, hxe]
  exact h.own

theorem HoldsM.passDone {g : Geo} {r : Replay} {f : List (List Foot)} (h : HoldsM s₀ s c p l) : HoldsM s₀ (s.passDone c g r f) c p l := by
  refine (h.modArr ?_).modArr.sumFlagIf.sumFlagIf.sumFlagIf.countC.countC
  exact fun a => foldl_part ArraySt.mops _ a

theorem HoldsM.pass {r : Replay} (h : HoldsM s₀ s c p l) : HoldsM s₀ (s.pass c r) c p l := by
  rw [State.pass_eq s c r _ _ _ rfl rfl rfl]
  exact .ite h.passRan.modArr h.passRan.passDone

/-! ## MMUL (R180, R182) -/

/-- An MMUL of another format than 5 compares and records no scales, and its pass runs. -/
theorem State.mmulEnter_passes {rows : List (List Byte)} {nz : List (List Nat)} {scales : List Byte} {q : Bool × Option Nat} (hfmt : wFmt w ≠ 5)
    (hchoice : (s.cell c).xhold.choice = q) : ∀ g, g = (s.cell c).arr.geo w → s.mmulEnter c w rows nz scales =
      (((((q.2.elim s fun i => s.countC c (cSp i) 1).modArr c fun a =>
        a.modStatus g (wT w) fun q => { q with cls := clsOf q.cls (wFmt w), replays := 0 }).spill c g (wT w) (wR0 w) (wM w)).mStart c 3 g w).pass c
          ⟨wT w, g.u, wR0 w, wM w, wBank w, wFmt w, q.1, rows, nz, scales, 0⟩).retire c .execute := by
  rintro g rfl
  obtain ⟨sp, cnt⟩ := q
  unfold State.mmulEnter
  simp only [if_neg hfmt, hchoice]
  cases cnt with
  | none => rfl
  | some i => rfl

theorem HoldsM.mmulEnter {rows : List (List Byte)} {nz : List (List Nat)} {scales : List Byte} (h : HoldsM s₀ s c p l) (hfmt : wFmt w ≠ 5) :
    GoneM s₀ (s.mmulEnter c w rows nz scales) c p (l ++ [⟨3, ((s.cell c).arr.geo w).u, wT w, wBank w⟩]) := by
  rw [State.mmulEnter_passes hfmt rfl _ rfl]
  have hcounted : HoldsM s₀ ((s.cell c).xhold.choice.2.elim s fun i => s.countC c (cSp i) 1) c p l := by
    cases (s.cell c).xhold.choice.2 with
    | none => exact h
    | some i => exact h.countC
  exact hcounted.modArr.spill.mStart.pass.retire

theorem State.mmulEnter_clashes {rows : List (List Byte)} {nz : List (List Nat)} {scales : List Byte} {i k : Nat} (hfmt : wFmt w = 5)
    (hclash : scaleClash (s.cell c).arr ((s.cell c).arr.geo w) (wT w) (wR0 w) scales ((s.cell c).arr.bankOf ((s.cell c).arr.geo w) (wBank w)).scale =
      some (i, k)) :
    s.mmulEnter c w rows nz scales = s.xFault c fScaleMismatch (wT w + 256 * i + 65536 * k) := by
  unfold State.mmulEnter
  dsimp only
  rw [if_pos hfmt, hclash]

theorem not_scaled_ne_five {f : Nat} (h : fmtIsScaled f = false) : f ≠ 5 := by
  rintro rfl
  cases h

theorem Geo.rowScales_of_not_scaled (g : Geo) {f : Nat} (h : fmtIsScaled f = false) : g.rowScales f = 0 := by
  unfold Geo.rowScales
  rw [if_neg (not_scaled_ne_five h), if_neg (by rintro rfl; cases h)]

/-- An MMUL of packed rows of operand memory has them, and enters them. -/
theorem MatrixReady.mmulGo_enters {audit : Bool} (h : MatrixReady s c p 3 w (.runs audit)) (hpacked : w.getLsbD 10 = false) (hport : 12 ≤ wP1 w)
    (hscaled : fmtIsScaled (wFmt w) = false) : ∀ g u a n, g = (s.cell c).arr.geo w → u = s.heldM c p w (.runs audit) → a = (u.cell c).portAddr (wP1 w) →
      n = actBytes g (wFmt w) → (s.cell c).opPoisoned a (wM w * n) = none → ∀ rows, rows = chunks n (wM w) (memRead (s.cell c).opmem a (wM w * n)) →
      u.mmulGo c w = (u.takeIn c 0 (memRead (s.cell c).opmem a (wM w * n))).mmulEnter c w rows (rowGroups g (wFmt w) rows) [] := by
  intro g u a n hg hu ha hn hclean rows hrows
  have hcell : u.cell c = (s.cell c).holding (s.issuedM c p w (.runs audit)) := hu ▸ State.heldM_cell w _ h.cell_lt
  have hskip : ((u.cell c).heldPair == .skipped) = false := by rw [hcell]; rfl
  have hgeo : (u.cell c).arr.geo w = g := by rw [hcell, hg]; rfl
  have hopmem : (u.cell c).opmem = (s.cell c).opmem := by rw [hcell]; rfl
  have hempty : (u.cell c).xhold.ins.getD 0 [] = [] := by rw [hcell]; rfl
  have hunpoisoned : (u.cell c).opPoisoned ((u.cell c).portAddr (wP1 w)) (wM w * n) = none := by
    rw [← ha, hcell]
    exact hclean
  obtain ⟨hsrc, hscales⟩ := State.takeIn_heldM_src (k := .runs audit) (p := p) (w := w) (memRead (s.cell c).opmem a (wM w * n)) h.cell_lt _ rfl
  rw [← hu] at hsrc hscales
  unfold State.mmulGo State.mmulRows
  rw [show wX10 w = false from hpacked, hskip, hgeo]
  dsimp only
  rw [if_neg Bool.false_ne_true, Bool.false_and, if_neg Bool.false_ne_true, ← hn, State.pullThen_opmem _ _ hport hempty hunpoisoned,
    Geo.rowScales_of_not_scaled _ hscaled, Nat.mul_zero, ite_self, State.pullThen_zero, hopmem, ← ha, if_neg Bool.false_ne_true, hsrc, hscales, hrows]

/-- A skipped MMUL of packed rows of operand memory reads nothing, and retires. -/
theorem MatrixReady.mmulGo_skips (h : MatrixReady s c p 3 w .skipped) (hpacked : w.getLsbD 10 = false) (hport : 12 ≤ wP1 w)
    (hscaled : fmtIsScaled (wFmt w) = false) : (s.heldM c p w .skipped).mmulGo c w = (s.heldM c p w .skipped).retire c .execute := by
  have hskip : (((s.heldM c p w .skipped).cell c).heldPair == .skipped) = true := by rw [State.heldM_cell w .skipped h.cell_lt]; rfl
  unfold State.mmulGo State.mmulRows
  rw [show wX10 w = false from hpacked, hskip]
  dsimp only
  rw [if_neg Bool.false_ne_true, isChute_of_le hport, Bool.not_false, Bool.and_true, if_pos rfl, State.pullThen_zero,
    Geo.rowScales_of_not_scaled _ hscaled, Nat.mul_zero, ite_self, State.pullThen_zero]
  rfl

/-- An instruction held that retires leaves nothing but its program gone on. -/
theorem MatrixReady.heldM_retires {op : Nat} (h : MatrixReady s c p op w k) : ∀ u, u = (s.heldM c p w k).retire c .execute →
    (u.cell c).xe.prog = some p.next ∧ (u.cell c).arr = (s.cell c).arr ∧ u.cnts = s.cnts ∧ SameMemory s u ∧ SameOpmem s u := by
  rintro u rfl
  have hc := h.cell_lt
  obtain ⟨hcell, honly⟩ := State.retire_execute_step h.heldM_holds.cell h.heldM_holds.own
  have hopmem : SameOpmem (s.heldM c p w k) ((s.heldM c p w k).retire c .execute) := honly.opmem (by rw [hcell]; rfl)
  rw [hcell, State.heldM_cell w k hc]
  refine ⟨congrArg (Option.map Prog.next) h.issue.issue.prog, rfl, ?_, fun a => ?_, fun d a => (hopmem d a).trans (s.heldM_opmem c p w k d a)⟩
  · rw [State.retire_cnts, State.heldM_cnts]
  · rw [State.retire_mem, State.heldM_mem]

/-! ## The statement -/

/-- Settles O53: an MMUL enters its rows (`MatrixReady.mmulGo_enters`), its pass runs (`mmulEnter_passes`) and waits or stands (`State.pass_eq`), and a
skipped one retires (`mmulGo_skips`). -/
theorem multiplyPasses : Obligations.MultiplyPasses := by
  unfold Obligations.MultiplyPasses
  refine ⟨⟨?rows, ?enters⟩, ?pass, ?skipped⟩
  case rows =>
    intro c w s p audit h hpacked hport hscaled g u a n hg hu ha hn hclean
    have henters := h.mmulGo_enters hpacked hport hscaled g u a n hg hu ha hn hclean
    have hholds : HoldsM s (u.takeIn c 0 (memRead (s.cell c).opmem a (wM w * n))) c p (s.cell c).arr.mops := hu ▸ h.heldM_holds.modHold
    have hunit : ((u.takeIn c 0 (memRead (s.cell c).opmem a (wM w * n))).cell c).arr.geo w = g := by
      rw [hg, hu]
      refine congrArg (ArraySt.geo · w) ((State.cell_modCell_part CellSt.arr ?_ _ c c).trans (s.heldM_part CellSt.arr (fun _ _ => rfl) c c p w _))
      exact fun _ => rfl
    obtain ⟨⟨f, hprog⟩, hmops, -⟩ := hholds.mmulEnter (w := w) (rows := _) (nz := _) (scales := []) (not_scaled_ne_five hscaled)
    rw [hunit, ← henters _ rfl] at hmops
    rw [← henters _ rfl] at hprog
    have hexec : s.mIssue c 3 w = u.mmulGo c w := hu ▸ h.mIssue
    exact ⟨_, f, congrArg Host.Outcome.next hexec, hprog, hmops, henters⟩
  case enters =>
    rintro s c w rows nz scales g rfl
    refine ⟨fun i k hfmt hclash => State.mmulEnter_clashes hfmt hclash, fun sp a hfmt hchoice ha => ?_⟩
    rw [ha]
    exact State.mmulEnter_passes hfmt hchoice _ rfl
  case pass =>
    rintro s c r hc g st f hg hst hf rest rfl
    obtain ⟨hcells, -, hacc, -, hreplays, -⟩ := s.passRan_keeps c r
    have hran : c < (s.passRan c r).cells.length := hcells ▸ hc
    rw [State.pass_eq s c r g st f hg hst hf]
    refine ⟨fun hcls hovf htaken ht => ?_, fun hcls => ?_⟩
    · rw [if_pos ⟨hcls, hovf, htaken, ht⟩, State.cell_modArr_self hran, ← hreplays, ← hacc]
      exact ⟨rfl, rfl⟩
    · rw [if_neg fun h => h.1.elim hcls.1 hcls.2, State.passDone_replays hran, hreplays]
  case skipped =>
    intro c w s p h hpacked hport hscaled
    exact ⟨_, congrArg Host.Outcome.next (h.mIssue.trans (h.mmulGo_skips hpacked hport hscaled)), h.heldM_retires _ rfl⟩

end Sys2Proof.Machine

/-! PROOF. MDRAIN (R184, R185, R208): a row that is drained into operand memory, the end of the drain, and DrainWritesRow. -/

namespace Sys2Proof.Machine

variable {s s₀ t : State} {c : Nat} {p : Prog} {w : W64} {l : List MOp} {n : W64} {m : List Host.Cell}

/-! ## One row -/

/-- Where no slot is to be pushed, the drain goes on. -/
theorem State.pushOuts_of_nil (h : (s.cell c).xhold.outs = []) : s.pushOuts c = (none, s) := by
  have hset : s.setCell c (s.cell c) = s := State.modCell_eq_self rfl
  have hhold : s.modHold c (fun y => { y with outs := [] }) = s := by
    refine State.modHold_eq_self ?_
    cases hx : (s.cell c).xe.hold with
    | none => rfl
    | some y =>
      rw [CellSt.xhold, hx] at h
      exact congrArg some (congrArg (fun o => { y with outs := o }) h.symm)
  unfold State.pushOuts
  dsimp only
  rw [h, pushGo, hset, hhold]
  rfl

/-- What the results of a row leave. -/
def State.rowOut (s : State) (c : Nat) (w : W64) (row : Nat) (d : Drained) : State :=
  let s := (s.putOut c 1 (wP1 w) (row * d.out.length) d.out).putOut c 2 (wP3 w) (row * d.side.length) d.side
  let s := (s.countC c (cMx 5) 1).countCvt c d.evs
  let s := if d.empty then (s.countC c (cMx 10) 1).sumFlag c .execute sEmpty else s
  s.modHold c fun y => { y with row := y.row + 1, tally := y.tally + d.pos, ovf := y.ovf || d.ovf }

/-- A drain without a fused source deals with its next row. -/
theorem State.drainGo_row (fuel : Nat) (houts : (s.cell c).xhold.outs = []) (hrow : (s.cell c).xhold.row ≠ wM w) (hmd : wMd w = 0) :
    s.drainGo c w (fuel + 1) = (s.rowOut c w (s.cell c).xhold.row
      ((s.cell c).drainOne ((s.cell c).arr.geo w) w ((s.cell c).heldPair == .skipped) (s.cell c).xhold.row)).drainGo c w fuel := by
  rw [State.drainGo, State.pushOuts_of_nil houts]
  dsimp only
  rw [if_neg hrow, if_pos (.inl hmd), State.pull_of_le _ (Nat.zero_le _)]
  rfl

theorem State.drainGo_end (fuel : Nat) (houts : (s.cell c).xhold.outs = []) (hrow : (s.cell c).xhold.row = wM w)
    (hpart : (s.cell c).xhold.part.all List.isEmpty) : s.drainGo c w (fuel + 1) = s.drainEnd c w := by
  rw [State.drainGo, State.pushOuts_of_nil houts]
  dsimp only
  rw [if_pos hrow, if_pos hpart]

/-! ## Counts of conversions (R40) -/

/-- The events of one kind are counted, and its summary flag is set. -/
def State.countEvs (s : State) (c : Nat) (e : List CvtEv) (i flag : Nat) (ev : CvtEv) : State :=
  if countEv ev e = 0 then s else (s.countC c (cCvt i) (countEv ev e)).sumFlag c .execute flag

theorem State.countCvt_eq (s : State) (c : Nat) (e : List CvtEv) : s.countCvt c e =
    ((s.countEvs c e 0 sCvtSat .sat).countEvs c e 1 sCvtFlush .flush).countEvs c e 2 sCvtNan .nan := rfl

theorem State.countEvs_part {α : Type} (part : CellSt → α) (hpart : ∀ x f, part (CellSt.modProg x .execute f) = part x) (s : State) (c d : Nat)
    (e : List CvtEv) (i flag : Nat) (ev : CvtEv) : part ((s.countEvs c e i flag ev).cell d) = part (s.cell d) := by
  unfold State.countEvs
  split
  · rfl
  · refine (State.cell_modCell_part part (fun x => hpart x _) _ c d).trans ?_
    rw [State.countC, State.count_cell]

/-- Only the program of the execute engine, of the parts of a cell, shows that conversions are counted. -/
theorem State.countCvt_part {α : Type} (part : CellSt → α) (hpart : ∀ x f, part (CellSt.modProg x .execute f) = part x) (s : State) (c d : Nat)
    (e : List CvtEv) : part ((s.countCvt c e).cell d) = part (s.cell d) := by
  rw [State.countCvt_eq, State.countEvs_part part hpart, State.countEvs_part part hpart, State.countEvs_part part hpart]

theorem HoldsM.countEvs {e : List CvtEv} {i flag : Nat} {ev : CvtEv} (h : HoldsM s₀ s c p l) : HoldsM s₀ (s.countEvs c e i flag ev) c p l :=
  .ite h h.countC.sumFlag

theorem HoldsM.countCvt {e : List CvtEv} (h : HoldsM s₀ s c p l) : HoldsM s₀ (s.countCvt c e) c p l := by
  rw [State.countCvt_eq]
  exact h.countEvs.countEvs.countEvs

/-! ## The count of drained rows, and operand memory -/

theorem State.cnt_count_ne (h : s.Good) {j k : Nat} (hjk : j ≠ k) (hj : j ≠ kEth 14) (n : Nat) : (s.count k n).cnt j = s.cnt j := by
  have hraw : (s.rawCount k n).cnt j = s.cnt j := by rw [State.cnt_rawCount h, if_neg hjk]
  unfold State.count
  extract_lets wraps t
  have ht : t.Good := (Kept.refl s).rawCount.good h
  split
  · exact (State.cnt_report ht hj _).trans hraw
  · exact hraw

/-- The count of drained rows is `n`, and operand memory is `m`. -/
structure Drains (s : State) (c : Nat) (n : W64) (m : List Host.Cell) : Prop where
  good : s.Good
  rows : s.cnt (kCell c (cMx 5)) = n
  opmem : (s.cell c).opmem = m

theorem Drains.countC {i k : Nat} (h : Drains s c n m) (hi : i ≠ cMx 5) : Drains (s.countC c i k) c n m where
  good := (Kept.refl s).countC.good h.good
  rows := (State.cnt_count_ne h.good (by unfold kCell; omega) (kCell_ne_kEth (by decide)) _).trans h.rows
  opmem := (congrArg CellSt.opmem (s.count_cell ..)).trans h.opmem

/-- A change of the cell that leaves its data. -/
theorem Drains.modCell {f : CellSt → CellSt} (h : Drains s c n m) (hf : ∀ x, (f x).opmem = x.opmem ∧ (f x).bars = x.bars ∧ (f x).threads = x.threads) :
    Drains (s.modCell c f) c n m where
  good := (Kept.refl s).modCell (fun {x} hx => by
    obtain ⟨hopmem, hbars, hthreads⟩ := hf x
    exact ⟨hopmem ▸ hx.opmem, hbars ▸ hx.bars, hthreads ▸ hx.regs⟩) |>.good h.good
  rows := h.rows
  opmem := (State.cell_modCell_part CellSt.opmem (fun x => (hf x).1) s c c).trans h.opmem

theorem Drains.sumFlag {b : Nat} (h : Drains s c n m) : Drains (s.sumFlag c .execute b) c n m := h.modCell fun _ => ⟨rfl, rfl, rfl⟩

theorem Drains.modHold {f : XHold → XHold} (h : Drains s c n m) : Drains (s.modHold c f) c n m := h.modCell fun _ => ⟨rfl, rfl, rfl⟩

theorem Drains.modArr {f : ArraySt → ArraySt} (h : Drains s c n m) : Drains (s.modArr c f) c n m := h.modCell fun _ => ⟨rfl, rfl, rfl⟩

theorem Drains.retire (h : Drains s c n m) : Drains (s.retire c .execute) c n m := by
  refine h.modCell fun x => ?_
  dsimp only
  split
  · exact ⟨rfl, rfl, rfl⟩
  · exact ⟨rfl, rfl, rfl⟩

theorem Drains.ite {P : Prop} [Decidable P] (hs : Drains s c n m) (ht : Drains t c n m) : Drains (if P then s else t) c n m := by
  split
  · exact hs
  · exact ht

theorem Drains.countCvt {e : List CvtEv} (h : Drains s c n m) : Drains (s.countCvt c e) c n m := by
  have hevs {s : State} {i flag : Nat} {ev : CvtEv} (hi : i ≤ 2) (h : Drains s c n m) : Drains (s.countEvs c e i flag ev) c n m :=
    .ite h (h.countC (by unfold cCvt cMx; omega)).sumFlag
  rw [State.countCvt_eq]
  exact hevs (by decide) (hevs (by decide) (hevs (by decide) h))

/-- A row that goes to operand memory. -/
theorem Drains.writes {a : CellSt → Nat} {b : List Byte} (h : Drains s c n m) (hc : c < s.cells.length) :
    Drains (s.modCell c fun x => x.opWrite (a x) b) c n (memWrite m (a (s.cell c)) b) where
  good := (Kept.refl s).modCell (fun hx => hx.opWrite) |>.good h.good
  rows := h.rows
  opmem := by
    rw [State.cell_modCell_self hc, ← h.opmem]
    rfl

/-- A drained row counts. -/
theorem Drains.countRow (h : Drains s c n m) : Drains (s.countC c (cMx 5) 1) c (n + 1) m where
  good := (Kept.refl s).countC.good h.good
  rows := by
    rw [← h.rows]
    exact State.cnt_count h.good (kCell_ne_kEth (by decide)) 1
  opmem := (congrArg CellSt.opmem (s.count_cell ..)).trans h.opmem

/-! ## A row that goes to operand memory -/

/-- A drained row goes to operand memory, and has no side results. -/
structure PlainRow (w : W64) (d : Drained) : Prop where
  port : 12 ≤ wP1 w
  out : d.out ≠ []
  side : d.side = []
  full : d.empty = false

/-- Without a reduction, of a format without scales, a row has no side results. -/
theorem CellSt.drainOne_plain (x : CellSt) (g : Geo) (skip : Bool) (i : Nat) (hport : 12 ≤ wP1 w) (hred : wRed w = 0)
    (hscaled : fmtIsScaled (wFmt w) = false) (hout : (x.drainOne g w skip i).out ≠ []) : PlainRow w (x.drainOne g w skip i) := by
  have hnone (z : Row) : z.reduce 0 (wRw w) g.n = [] := by
    cases z with
    | real v => rfl
    | int v => rfl
  refine ⟨hport, hout, ?_, ?_⟩
  · unfold CellSt.drainOne
    dsimp only
    rw [hred, hscaled, hnone]
    rfl
  · unfold CellSt.drainOne
    dsimp only
    rw [hred]
    rfl

/-- The bytes of the row stand at the port's address, it is counted, and so are its conversions. -/
theorem PlainRow.rowOut_eq {d : Drained} (h : PlainRow w d) (s : State) (c : Nat) :
    s.rowOut c w 0 d = (((s.modCell c fun x => x.opWrite (x.portAddr (wP1 w)) d.out).countC c (cMx 5) 1).countCvt c d.evs).modHold c fun y =>
      { y with row := y.row + 1, tally := y.tally + d.pos, ovf := y.ovf || d.ovf } := by
  have hput : s.putOut c 1 (wP1 w) (0 * d.out.length) d.out = s.modCell c fun x => x.opWrite (x.portAddr (wP1 w)) d.out := by
    unfold State.putOut
    rw [if_neg (by simpa using h.out), isChute_of_le h.port, Nat.zero_mul]
    rfl
  unfold State.rowOut
  rw [hput, h.side, h.full]
  rfl

theorem HoldsM.rowOut {d : Drained} (h : HoldsM s₀ s c p l) (hd : PlainRow w d) : HoldsM s₀ (s.rowOut c w 0 d) c p l := by
  rw [hd.rowOut_eq]
  exact h.modCell.countC.countCvt.modHold

theorem Drains.rowOut {d : Drained} (h : Drains s c n m) (hc : c < s.cells.length) (hd : PlainRow w d) :
    Drains (s.rowOut c w 0 d) c (n + 1) (memWrite m ((s.cell c).portAddr (wP1 w)) d.out) := by
  rw [hd.rowOut_eq]
  exact (h.writes hc).countRow.countCvt.modHold

/-- The instruction held is at its next row, and the array is as it was. -/
theorem PlainRow.rowOut_cell {d : Drained} {y : XHold} (h : PlainRow w d) (hhold : (s.cell c).xe.hold = some y) :
    ∀ x, x = (s.rowOut c w 0 d).cell c →
      x.xhold = { y with row := y.row + 1, tally := y.tally + d.pos, ovf := y.ovf || d.ovf } ∧ x.arr = (s.cell c).arr := by
  obtain ⟨t, ht⟩ : ∃ t, t = ((s.modCell c fun x => x.opWrite (x.portAddr (wP1 w)) d.out).countC c (cMx 5) 1).countCvt c d.evs := ⟨_, rfl⟩
  have hpart {α : Type} (part : CellSt → α) (hprog : ∀ x f, part (CellSt.modProg x .execute f) = part x)
      (hwrite : ∀ x a b, part (CellSt.opWrite x a b) = part x) : part (t.cell c) = part (s.cell c) := by
    rw [ht, State.countCvt_part part hprog, State.countC, State.count_cell]
    exact State.cell_modCell_part part (fun x => hwrite x _ _) s c c
  have htc : c < t.cells.length := by
    by_contra hbeyond
    have hnone := hpart (·.xe.hold) (fun _ _ => rfl) fun _ _ _ => rfl
    rw [State.cell_beyond (Nat.le_of_not_lt hbeyond), hhold] at hnone
    cases hnone
  rintro x rfl
  rw [h.rowOut_eq, ← ht, State.modHold, State.cell_modCell_self htc]
  refine ⟨?_, hpart CellSt.arr (fun _ _ => rfl) fun _ _ _ => rfl⟩
  rw [CellSt.xhold]
  dsimp only
  rw [hpart (·.xe.hold) (fun _ _ => rfl) fun _ _ _ => rfl, hhold]
  rfl

/-! ## The end of a drain -/

/-- Of a pair that runs without an audit, the drain is under way, and sets OVF_SAT where a row has. -/
theorem State.drainEnd_runs (hpair : (s.cell c).heldPair = .runs false) : ∀ g, g = (s.cell c).arr.geo w → s.drainEnd c w =
    ((if (s.cell c).xhold.ovf then ((s.modArr c fun a => a.modStatus g (wT w) fun q => { q with ovfSat := true }).sumFlag c .execute sOvfSat).countC c
      (cMx 8) 1 else s).mStart c 4 g w).retire c .execute := by
  rintro g rfl
  unfold State.drainEnd
  dsimp only
  rw [hpair]

theorem HoldsM.drainEnd (h : HoldsM s₀ s c p l) (hpair : (s.cell c).heldPair = .runs false) :
    GoneM s₀ (s.drainEnd c w) c p (l ++ [⟨4, ((s.cell c).arr.geo w).u, wT w, wBank w⟩]) := by
  rw [State.drainEnd_runs hpair _ rfl]
  exact (HoldsM.ite h.modArr.sumFlag.countC h).mStart.retire

theorem Drains.drainEnd (h : Drains s c n m) (hpair : (s.cell c).heldPair = .runs false) : Drains (s.drainEnd c w) c n m := by
  rw [State.drainEnd_runs hpair _ rfl]
  exact (Drains.ite (h.modArr.sumFlag.countC (by decide)) h).modArr.retire

/-! ## A drain of one row -/

theorem MatrixReady.heldM_drains {op : Nat} {k : Pair} (h : MatrixReady s c p op w k) (hgood : s.Good) :
    Drains (s.heldM c p w k) c (s.cnt (kCell c (cMx 5))) (s.cell c).opmem where
  good := (Kept.refl s).loopNums.xHold.good hgood
  rows := by
    rw [State.cnt, State.heldM_cnts]
    rfl
  opmem := by
    rw [State.heldM_cell w k h.cell_lt]
    rfl

/-- An MDRAIN of one row without a fused source deals with the row, and ends. -/
theorem MatrixReady.mdrainGo_row {audit : Bool} (h : MatrixReady s c p 4 w (.runs audit)) (hone : wM w = 1) (hmd : wMd w = 0) :
    ∀ u d, u = s.heldM c p w (.runs audit) → d = (u.cell c).drainOne ((s.cell c).arr.geo w) w false 0 → PlainRow w d →
      u.mdrainGo c w = (u.rowOut c w 0 d).drainEnd c w := by
  rintro u d hu hd hplain
  have hcell : u.cell c = (s.cell c).holding (s.issuedM c p w (.runs audit)) := hu ▸ State.heldM_cell w _ h.cell_lt
  have hrow := State.drainGo_row (s := u) (c := c) (w := w) (wM w + 2) (by rw [hcell]; rfl) (by rw [hcell, hone]; exact Nat.zero_ne_one) hmd
  obtain ⟨hhold, -⟩ := hplain.rowOut_cell (s := u) (c := c) (by rw [hcell]; rfl) _ rfl
  rw [← State.drainGo_end (wM w + 1) (by rw [hhold]; rfl) (by rw [hhold, hone]; rfl) (by rw [hhold]; rfl)]
  rw [hcell] at hrow hd
  rw [hd]
  exact hrow

/-! ## The statement -/

/-- Settles O54: the drain of one row is that row and the drain's end (`MatrixReady.mdrainGo_row`), of which HoldsM and Drains say what they leave. -/
theorem drainWritesRow : Obligations.DrainWritesRow := by
  unfold Obligations.DrainWritesRow
  rintro c w s p hgood h hone hmd hred hscaled hport g u d rfl hu hd hout
  have hcell : u.cell c = (s.cell c).holding (s.issuedM c p w (.runs false)) := hu ▸ State.heldM_cell w (.runs false) h.cell_lt
  have hholds : HoldsM s u c p (s.cell c).arr.mops := hu ▸ h.heldM_holds
  have hdrains : Drains u c (s.cnt (kCell c (cMx 5))) (s.cell c).opmem := hu ▸ h.heldM_drains hgood
  have hplain : PlainRow w d := by
    rw [hd] at hout ⊢
    exact CellSt.drainOne_plain _ _ false 0 hport hred hscaled hout
  have hexec : exec (.mdrain c w) s = .next ((u.rowOut c w 0 d).drainEnd c w) := by
    rw [← h.mdrainGo_row hone hmd u d hu hd hplain, hu]
    exact congrArg Host.Outcome.next h.mIssue
  obtain ⟨hhold, harr⟩ := hplain.rowOut_cell (by rw [hcell]; rfl) _ rfl
  have hpair : ((u.rowOut c w 0 d).cell c).heldPair = .runs false := by
    rw [CellSt.heldPair, hhold]
    rfl
  obtain ⟨⟨f, hprog⟩, hmops, hmem⟩ := (hholds.rowOut hplain).drainEnd (w := w) hpair
  obtain ⟨-, hrows, hopmem⟩ := (hdrains.rowOut hholds.cell hplain).drainEnd (w := w) hpair
  refine ⟨_, f, hexec, ?_, hrows, ?_, hprog, fun a => by rw [hmem]⟩
  · rw [hopmem]
    exact memRead_memWrite d.out _ _ (hgood.cell c).opmem
  · rw [hmops, harr, hcell]
    rfl

end Sys2Proof.Machine

/-! PROOF. MCFG in a cell whose operand memory is not in its canonical form, and the refutation of ArrayLoads. -/

namespace Sys2Proof.Machine

/-- MCFG for the FULL configuration. -/
def mcfgFull : W64 := 0x4000000000000000

/-- A program of one MCFG. -/
def mcfgProg : Prog :=
  { launcher := 0, token := 0, number := 0, text := [mcfgFull], textPoison := [false], textAddr := 0, pc := 0, evt := 0, lenient := false, ichUse := 0,
    ochUse := 0, sum := 0, loops := [], flags := 0, fault := none, aborted := false, cycles := 0 }

/-- A device in service whose cell 0 is at the MCFG, and lists a byte beyond the software region before its byte 0: there byte 0 reads as 0, and the
table is not in the canonical form (`memWf`) that every step keeps from reset on. -/
def unorderedOpmem : State := (State.reset.modPower fun y => { y with phase := .running }).modCell 0 fun x =>
  { x with xe := { x.xe with prog := some mcfgProg }, opmem := [(opSoft, 1), (0, 1)] }

theorem unorderedOpmem_ready : EngineReady unorderedOpmem 0 .execute mcfgProg 4 0 mcfgFull :=
  ⟨⟨by decide +kernel, by decide +kernel, by decide +kernel, by decide +kernel⟩, by decide +kernel⟩

theorem unorderedOpmem_before : memGet (unorderedOpmem.cell 0).opmem 0 = 0 := by decide +kernel

/-- MCFG drops the byte beyond the region, and byte 0 shows. -/
theorem unorderedOpmem_after : memGet ((unorderedOpmem.mcfg 0 mcfgFull).cell 0).opmem 0 = 1 := by decide +kernel

/-- Refutes O46: its clause on MCFG claims that no byte of the software region changes, of every state, also of one whose operand memory is not in
canonical form; there the byte read at an address depends on entries before its own, which MCFG drops. -/
theorem not_arrayLoads : ¬ Obligations.ArrayLoads := by
  unfold Obligations.ArrayLoads
  rintro ⟨hmcfg, -, -⟩
  obtain ⟨t, ht, -, -, -, -, -, -, hbytes⟩ := hmcfg 0 mcfgFull unorderedOpmem mcfgProg unorderedOpmem_ready (by decide +kernel) (by decide +kernel)
  obtain rfl : unorderedOpmem.mcfg 0 mcfgFull = t := Host.Outcome.next.inj ht
  have hbyte := hbytes 0 (by decide)
  rw [unorderedOpmem_before, unorderedOpmem_after] at hbyte
  exact absurd hbyte (by decide)

end Sys2Proof.Machine

/-! PROOF. The lanes of the vector engine (R221, R222, R231): a write of lanes under a mask, the elements of an element-wise instruction, and
VectorLaneResults. -/

namespace Sys2Proof.Machine

variable {x : CellSt} {w : W64} {o : VOut}

/-! ## Lanes that are written (R222) -/

/-- What a lane holds after a write: the value where it is not masked, otherwise 0 with Z, or what it held. -/
def laneAfter (live z : Bool) (v old : W32) : W32 := if live then v else if z then 0 else old

/-- The lanes with one of them written. -/
def putLane (live z : Bool) (k : Nat) (v : W32) (m : List (Nat × W32)) : List (Nat × W32) :=
  if live then tblSet 0 k v m else if z then tblSet 0 k 0 m else m

/-- The table of lanes is in canonical form. -/
abbrev lanesWf (m : List (Nat × W32)) : Prop := tblWf (fun _ => (0 : W32)) m = true

theorem putLane_wf {live z : Bool} {k : Nat} {v : W32} {m : List (Nat × W32)} (h : lanesWf m) : lanesWf (putLane live z k v m) := by
  unfold putLane
  split
  · exact tblSet_wf _ k v m h
  · split
    · exact tblSet_wf _ k 0 m h
    · exact h

theorem tblGet_putLane {live z : Bool} {j k : Nat} {v : W32} {m : List (Nat × W32)} (h : lanesWf m) :
    tblGet 0 j (putLane live z k v m) = if j = k then laneAfter live z v (tblGet 0 j m) else tblGet 0 j m := by
  have hset (u : W32) : tblGet 0 j (tblSet 0 k u m) = if j = k then u else tblGet 0 j m := tblGet_tblSet (fun _ => (0 : W32)) j k u m h
  unfold putLane laneAfter
  split
  · exact hset v
  · split
    · exact hset 0
    · exact (ite_self _).symm

/-- Values written from lane `b + i` up: each lane of them as its mask bit says, every other lane as it was. -/
theorem tblGet_foldl_putLane {live : Nat → Bool} {z : Bool} (b k : Nat) (vals : List W32) (i : Nat) (m : List (Nat × W32)) (h : lanesWf m) :
    tblGet 0 k ((vals.zipIdx i).foldl (fun m e => putLane (live e.2) z (b + e.2) e.1 m) m) =
      if b + i ≤ k ∧ k < b + i + vals.length then laneAfter (live (k - b)) z (vals.getD (k - b - i) 0) (tblGet 0 k m) else tblGet 0 k m := by
  induction vals generalizing i m with
  | nil => simp
  | cons v vals ih =>
    rw [List.zipIdx_cons, List.foldl_cons, ih _ _ (putLane_wf h), tblGet_putLane h, List.length_cons]
    dsimp only
    by_cases hk : k = b + i
    · subst hk
      rw [if_neg (by omega), if_pos rfl, if_pos (by omega), Nat.add_sub_cancel_left, Nat.sub_self]
      rfl
    · rw [if_neg hk]
      by_cases hin : b + (i + 1) ≤ k ∧ k < b + (i + 1) + vals.length
      · obtain ⟨j, hj⟩ : ∃ j, k - b - i = j + 1 := ⟨k - b - (i + 1), by omega⟩
        rw [if_pos hin, if_pos (by omega), hj, List.getD_cons_succ, show k - b - (i + 1) = j by omega]
      · rw [if_neg hin, if_neg (by omega)]

theorem VecSt.putLanes_vt (v : VecSt) (vd : Nat) (vals : List W32) (live : Nat → Bool) (z : Bool) :
    (v.putLanes vd vals live z).vt = vals.zipIdx.foldl (fun m e => putLane (live e.2) z (1024 * vd + e.2) e.1 m) v.vt := rfl

theorem VecSt.lane_putLanes {v : VecSt} (h : lanesWf v.vt) (vd : Nat) (vals : List W32) (live : Nat → Bool) (z : Bool) (e : Nat) (he : e < vals.length) :
    tblGet 0 (1024 * vd + e) (v.putLanes vd vals live z).vt = laneAfter (live e) z vals[e] (v.lane (1024 * vd + e)) := by
  rw [VecSt.putLanes_vt, tblGet_foldl_putLane _ _ _ 0 _ h, if_pos (by omega), Nat.add_sub_cancel_left, Nat.sub_zero, List.getD_eq_getElem _ _ he]
  rfl

theorem VecSt.lane_putLanes_outside {v : VecSt} (h : lanesWf v.vt) (vd : Nat) (vals : List W32) (live : Nat → Bool) (z : Bool) (k : Nat)
    (hk : k < 1024 * vd ∨ 1024 * vd + vals.length ≤ k) : tblGet 0 k (v.putLanes vd vals live z).vt = v.lane k := by
  rw [VecSt.putLanes_vt, tblGet_foldl_putLane _ _ _ 0 _ h, if_neg (by omega)]
  rfl

/-! ## Element-wise instructions (R231) -/

/-- Element `e` of the result of an element-wise instruction; an operand that the instruction does not have is 0. -/
def CellSt.eltAt (x : CellSt) (op : Nat) (w : W64) (e : Nat) : W32 :=
  let arg (i : Nat) : W32 := match (srcs w (eltOf op).1)[i]? with | some v => x.srcAt e v | none => 0
  (eltOf op).2 (arg 0) (arg 1) (arg 2)

/-- A result that passes its checks is the one computed. -/
theorem checked_ok {l : List (Option (Nat × W64))} {f : VOut} (h : checked l f = .ok o) : o = f := by
  unfold checked at h
  split at h
  · cases h
  · exact (Except.ok.inj h).symm

theorem CellSt.vElt_fin {op : Nat} (h : x.vElt op w = .ok o) : o.fin = (x.vec.putLanes (wVd w)
    ((List.range (vCount x.vec (srcIsAcc (wSa w)) w)).map (x.eltAt op w)) (x.vec.live w) (wZ w)).finish := by
  unfold CellSt.vElt at h
  rw [checked_ok h]
  rfl

theorem ite_slt (a b c d : W32) : (if a.slt b then c else d) = if a.toInt < b.toInt then c else d := by
  simp only [BitVec.slt, decide_eq_true_eq]

/-- Settles O55: an element-wise instruction writes its elements (`vElt_fin`), and a write of lanes leaves each lane as its mask bit
says, and every other lane (`lane_putLanes`, `lane_putLanes_outside`). -/
theorem vectorLaneResults : Obligations.VectorLaneResults := by
  unfold Obligations.VectorLaneResults
  intro x w o hwf q hq
  have helt (e : Nat) : x.eltAt q.1 w e = q.2 (x.srcAt e (wSa w)) (x.srcAt e (wSb w)) := by
    revert q
    simp only [List.forall_mem_cons, List.not_mem_nil, false_imp_iff, implies_true, and_true, ← ite_slt]
    and_intros <;> rfl
  rintro hok n rfl
  rw [CellSt.vElt_fin hok]
  refine ⟨fun e he => ?_, fun k hk => ?_, rfl, rfl, rfl, rfl⟩
  · have hlane := VecSt.lane_putLanes hwf (wVd w) ((List.range (vCount x.vec (srcIsAcc (wSa w)) w)).map (x.eltAt q.1 w)) (x.vec.live w) (wZ w) e
      (by simpa)
    rw [List.getElem_map, List.getElem_range, helt] at hlane
    exact hlane
  · exact VecSt.lane_putLanes_outside hwf (wVd w) _ (x.vec.live w) (wZ w) k (by simpa using hk)

end Sys2Proof.Machine

/-! PROOF. The V-class and C-class instructions (R220, R230): their issue, what the start of one counts and leaves of its cell, and VectorIssues. -/

namespace Sys2Proof.Machine

variable {s s₀ : State} {c cls op : Nat} {p : Prog} {w : W64} {l : List MOp}

/-! ## The start of an instruction (R230) -/

/-- What an instruction that has computed counts, and the summary flags that it sets. -/
def State.vCounted (s : State) (c : Nat) (o : VOut) : State :=
  let s := (s.countC c (cVx 0) o.lanes).countC c (cVx 1) o.busy
  let s := if o.oor = 0 then s else s.countC c (cVx 2) o.oor
  o.flags.foldl (fun s b => s.sumFlag c .execute b) (s.countCvt c o.evs)

/-- The cell whose vector engine is busy with an instruction that has computed. -/
def CellSt.vecBusy (x : CellSt) (tile : Option Nat) (o : VOut) : CellSt :=
  { x with vec := { x.vec with busy := some o.busy, accRead := tile, fin := some o.fin } }

theorem State.vStart_eq (s : State) (c : Nat) (tile : Option Nat) (o : VOut) :
    s.vStart c tile o = ((s.vCounted c o).modCell c (·.vecBusy tile o)).retire c .execute := rfl

theorem State.countC_cell (s : State) (c i n d : Nat) : (s.countC c i n).cell d = s.cell d := State.count_cell ..

/-- Only the program of the execute engine, of the parts of a cell, shows what an instruction counts. -/
theorem State.vCounted_part {α : Type} (part : CellSt → α) (hpart : ∀ x f, part (CellSt.modProg x .execute f) = part x) (s : State) (c d : Nat)
    (o : VOut) : part ((s.vCounted c o).cell d) = part (s.cell d) := by
  have hflag (s : State) (b : Nat) : part ((s.sumFlag c .execute b).cell d) = part (s.cell d) :=
    State.cell_modCell_part part (fun x => hpart x _) s c d
  unfold State.vCounted
  extract_lets t u
  have hu : u.cell d = s.cell d := by
    have ht : t.cell d = s.cell d := (State.countC_cell ..).trans (State.countC_cell ..)
    dsimp only [u]
    split
    · exact ht
    · exact (State.countC_cell ..).trans ht
  refine (foldl_part (fun s : State => part (s.cell d)) o.flags _ hflag).trans ?_
  rw [State.countCvt_part part hpart, hu]

theorem HoldsM.foldl_sumFlag (fs : List Nat) (h : HoldsM s₀ s c p l) : HoldsM s₀ (fs.foldl (fun s b => s.sumFlag c .execute b) s) c p l := by
  induction fs generalizing s with
  | nil => exact h
  | cons f fs ih => exact ih h.sumFlag

/-- What a retirement of the execute engine leaves of each cell. -/
theorem State.retire_execute_part {α : Type} (part : CellSt → α) (hpart : ∀ (x : CellSt) wd xe, part { x with wd := wd, xe := xe } = part x)
    (s : State) (c d : Nat) : part ((s.retire c .execute).cell d) = part (s.cell d) := by
  refine State.cell_modCell_part part (fun x => ?_) s c d
  dsimp only
  split
  · exact hpart x _ _
  · exact hpart x _ _

/-- What the start of an instruction leaves of each cell. -/
theorem State.vStart_part {α : Type} (part : CellSt → α)
    (hpart : ∀ (x : CellSt) wd xe vec, part { x with wd := wd, xe := xe, vec := vec } = part x) (s : State) (c d : Nat) (tile : Option Nat) (o : VOut) :
    part ((s.vStart c tile o).cell d) = part (s.cell d) := by
  have hbusy := State.cell_modCell_part part (f := (·.vecBusy tile o)) (fun x => hpart x x.wd x.xe _) (s.vCounted c o) c d
  rw [State.vStart_eq, State.retire_execute_part part fun x wd xe => hpart x wd xe x.vec, hbusy]
  exact State.vCounted_part part (fun x _ => hpart x x.wd _ x.vec) s c d o

theorem HoldsM.vCounted (o : VOut) (h : HoldsM s₀ s c p l) : HoldsM s₀ (s.vCounted c o) c p l :=
  HoldsM.foldl_sumFlag o.flags (HoldsM.ite h.countC.countC h.countC.countC.countC).countCvt

theorem HoldsM.vStart (tile : Option Nat) (o : VOut) (h : HoldsM s₀ s c p l) : GoneM s₀ (s.vStart c tile o) c p l := (h.vCounted o).modCell.retire

theorem HoldsM.vStart_vec (tile : Option Nat) (o : VOut) (h : HoldsM s₀ s c p l) :
    ((s.vStart c tile o).cell c).vec = { (s.cell c).vec with busy := some o.busy, accRead := tile, fin := some o.fin } := by
  rw [State.vStart_eq, State.retire_execute_part CellSt.vec fun _ _ _ => rfl, State.cell_modCell_self (h.vCounted o).cell, CellSt.vecBusy,
    State.vCounted_part CellSt.vec fun _ _ => rfl]

/-! ## Issue -/

/-- An instruction that has just issued, and is not held. -/
theorem EngineReady.holds (h : EngineReady s c .execute p cls op w) : HoldsM s s c p (s.cell c).arr.mops :=
  ⟨h.cell_lt, ⟨p.flags, h.prog⟩, h.heldLate, rfl, rfl⟩

theorem EngineReady.vIssue_faults {f : CellSt → VRes} {code : Nat} {info : W64} (h : EngineReady s c .execute p cls op w)
    (hready : (s.cell c).vReady (accTile cls op w)) (hf : f (s.cell c) = .error (code, info)) :
    s.vIssue c cls op w f = s.engineFault c .execute code info := by
  refine (State.engineIssue_ready h h.at_.free _).trans ?_
  rw [hready, hf]
  rfl

theorem EngineReady.vIssue_starts {f : CellSt → VRes} {o : VOut} (h : EngineReady s c .execute p cls op w)
    (hready : (s.cell c).vReady (accTile cls op w)) (hf : f (s.cell c) = .ok o) : s.vIssue c cls op w f = s.vStart c (accTile cls op w) o := by
  refine (State.engineIssue_ready h h.at_.free _).trans ?_
  rw [hready, hf]
  rfl

theorem State.engineFault_vec (s : State) (c d : Nat) (e : Engine) (code : Nat) (info : W64) :
    ((s.engineFault c e code info).cell d).vec = (s.cell d).vec := by
  rw [State.engineFault_cell]
  refine State.cell_modCell_part CellSt.vec (fun x => ?_) s c d
  cases e with
  | access => rfl
  | execute => rfl

/-- Settles O15: an instruction that issues faults by its checks, or starts (`EngineReady.vIssue_faults`, `vIssue_starts`), of which
`HoldsM.vStart`, `HoldsM.vStart_vec` and `State.vStart_part` say what it leaves. -/
theorem vectorIssues : Obligations.VectorIssues := by
  unfold Obligations.VectorIssues
  intro x hx
  have hexec : ∀ c w s, exec (x.1 c w) s = .next (s.vIssue c x.2.1 x.2.2.1 w (x.2.2.2 w)) := by
    revert x
    simp only [List.cons_append, List.nil_append, List.forall_mem_cons, List.not_mem_nil, false_imp_iff, implies_true, and_true]
    and_intros <;> intros <;> rfl
  intro c w s p h hready
  rw [hexec]
  refine ⟨fun code info hf => ⟨_, congrArg _ (h.vIssue_faults hready hf), ?faulted⟩,
    fun o hf => ⟨_, congrArg _ (h.vIssue_starts hready hf), ?started⟩⟩
  case faulted =>
    refine ⟨h.engineFault_prog code info, State.engineFault_vec .., fun a => ?_, s.engineFault_opmem c .execute code info⟩
    rw [State.engineFault_mem]
  case started =>
    obtain ⟨hprog, -, hmem⟩ := h.holds.vStart (accTile x.2.1 x.2.2.1 w) o
    refine ⟨h.holds.vStart_vec _ o, hprog, State.vStart_part CellSt.arr (fun _ _ _ _ => rfl) s c c _ o, fun a => ?_, fun d a => ?_⟩
    · rw [hmem]
    · rw [State.vStart_part CellSt.opmem fun _ _ _ _ => rfl]

end Sys2Proof.Machine

/-! PROOF. The end of a vector instruction's busy time (R230, R248), the post of a VSUMMARY (R244), and VectorResultsLand. -/

namespace Sys2Proof.Machine

variable {s : State} {c : Nat} {f : VecFin} {p : Prog} {v : W64} {k : Nat}

/-! ## What takes effect -/

/-- The cell in which what an instruction leaves has taken effect. -/
def CellSt.vecDone (x : CellSt) (f : VecFin) : CellSt :=
  let x := match f.store with | some (a, b) => x.opWrite a b | none => x
  let x := match f.pred with
    | some (act, aud, n) => { x with pred := { x.pred with active := act, audit := aud, blocks := n } }
    | none => x
  { x with vec := { vt := f.vt, vm := f.vm, vl := f.vl, carry := f.carry, busy := none, accRead := none, fin := none } }

theorem State.vFinish_of_none (h : f.post = none) : s.vFinish c f = s.modCell c (·.vecDone f) := by
  unfold State.vFinish
  rw [h]
  rfl

theorem State.vFinish_of_some (h : f.post = some (v, k)) : s.vFinish c f = (s.modCell c (·.vecDone f)).vPost c v k := by
  unfold State.vFinish
  rw [h]
  rfl

/-- Operand memory, its poison, the predictor and the vector engine apart, a cell is as it was. -/
theorem CellSt.vecDone_part {α : Type} (part : CellSt → α)
    (hpart : ∀ (x : CellSt) opmem opPoison pred vec, part { x with opmem := opmem, opPoison := opPoison, pred := pred, vec := vec } = part x)
    (x : CellSt) (f : VecFin) : part (x.vecDone f) = part x := by
  unfold CellSt.vecDone
  cases f.store with
  | none =>
    cases f.pred with
    | none => exact hpart x _ _ _ _
    | some q => exact hpart x _ _ _ _
  | some q =>
    cases f.pred with
    | none => exact hpart x _ _ _ _
    | some q => exact hpart x _ _ _ _

/-- The bytes that an instruction stores stand in operand memory. -/
theorem CellSt.vecDone_stores {a : Nat} {b : List Byte} (x : CellSt) (h : f.store = some (a, b)) : (x.vecDone f).opmem = memWrite x.opmem a b := by
  unfold CellSt.vecDone
  rw [h]
  cases f.pred <;> rfl

theorem CellSt.vecDone_opmem (x : CellSt) (h : f.store = none) : (x.vecDone f).opmem = x.opmem := by
  unfold CellSt.vecDone
  rw [h]
  cases f.pred <;> rfl

theorem State.vClassBusyEnd_eq (hactive : s.active) (hup : s.cellUp c) (hfin : (s.cell c).vec.fin = some f) :
    ∀ t, t = s.vFinish c f → (t.cell c).xe.late = [] → s.vClassBusyEnd c = t := by
  rintro t rfl hlate
  unfold State.vClassBusyEnd
  rw [hfin, hactive, hup]
  exact State.lateRun_of_late_nil hlate

/-- A vector engine that is busy is one of a cell that there is. -/
theorem State.cell_lt_of_fin (h : (s.cell c).vec.fin = some f) : c < s.cells.length := by
  by_contra hc
  rw [State.cell_beyond (Nat.le_of_not_lt hc)] at h
  cases h

/-! ## The post of a VSUMMARY (R243, R244) -/

/-- The thread is in its slot and does not wait: it takes flags without waking. -/
def Thread.awake (t : Thread) : Prop := t.state = .ready ∨ t.state = .running ∨ t.state = .sleeping

theorem Thread.awake.deaf {t : Thread} (h : t.awake) : t.deaf = false := by
  unfold Thread.deaf
  rcases h with h | h | h <;> rw [h] <;> rfl

theorem Thread.awake.not_free {t : Thread} (h : t.awake) : t.state ≠ .free := by
  rcases h with h | h | h <;> rw [h] <;> decide

/-- A thread that does not wait takes flags by ORing them in, and changes no more. -/
theorem Thread.awake.orFlags {t : Thread} (h : t.awake) (m : W32) : t.orFlags m = { t with flags := t.flags ||| m } := by
  unfold Thread.orFlags
  rcases h with h | h | h <;> rw [h]

/-- The slot that has a post in its mailbox, and the post's flag. -/
def Thread.posted (v : W64) (k : Nat) (t : Thread) : Thread := { t with mailbox := v, unread := true }.orFlags (BitVec.ofNat 32 (2 ^ k))

theorem Thread.awake.posted {t : Thread} (h : t.awake) (v : W64) (k : Nat) :
    t.posted v k = { t with mailbox := v, unread := true, flags := t.flags ||| BitVec.ofNat 32 (2 ^ k) } :=
  Thread.awake.orFlags (t := { t with mailbox := v, unread := true }) h _

/-- The state in which a post is counted, also as one that takes the place of a post unread. -/
def State.postCounted (s : State) (c slot : Nat) : State :=
  if (s.thread c slot).unread then (s.countC c (cVx 4) 1).countC c (cVx 5) 1 else s.countC c (cVx 4) 1

theorem State.postCounted_cell (s : State) (c slot d : Nat) : (s.postCounted c slot).cell d = s.cell d := by
  unfold State.postCounted
  split
  · exact (State.countC_cell ..).trans (State.countC_cell ..)
  · exact State.countC_cell ..

/-- A post reaches the thread that launched the program, where it is in its slot still and takes flags. -/
theorem State.vPost_eq (hp : (s.cell c).xe.prog = some p) (htoken : (s.thread c p.launcher).token = p.token)
    (hdeaf : (s.thread c p.launcher).deaf = false) :
    s.vPost c v k = (s.postCounted c p.launcher).modThread c p.launcher (Thread.posted v k) := by
  unfold State.vPost
  rw [hp]
  dsimp only
  rw [hdeaf, htoken, if_neg (by simp)]
  rfl

/-- The end of a VSUMMARY gives its post to the launching thread. -/
theorem State.vClassBusyEnd_posts (hactive : s.active) (hup : s.cellUp c) (hfin : (s.cell c).vec.fin = some f) (hpost : f.post = some (v, k))
    (hp : (s.cell c).xe.prog = some p) (hlate : (s.cell c).xe.late = []) (htoken : (s.thread c p.launcher).token = p.token)
    (hawake : (s.thread c p.launcher).awake) : (s.vClassBusyEnd c).thread c p.launcher = (s.thread c p.launcher).posted v k := by
  obtain ⟨u, hu⟩ : ∃ u, u = s.modCell c (·.vecDone f) := ⟨_, rfl⟩
  have hxe : (u.cell c).xe = (s.cell c).xe :=
    hu ▸ State.cell_modCell_part CellSt.xe (fun x => x.vecDone_part CellSt.xe (fun _ _ _ _ _ => rfl) f) s c c
  have hthread : u.thread c p.launcher = s.thread c p.launcher :=
    hu ▸ State.cell_modCell_part (·.thread p.launcher) (fun x => x.vecDone_part (·.thread p.launcher) (fun _ _ _ _ _ => rfl) f) s c c
  have hcounted : (u.postCounted c p.launcher).thread c p.launcher = s.thread c p.launcher := by
    rw [State.thread, State.postCounted_cell]
    exact hthread
  obtain ⟨hc, hslot⟩ := State.thread_bounds (s := u.postCounted c p.launcher) (hcounted ▸ hawake.not_free)
  have hfinish : s.vFinish c f = (u.postCounted c p.launcher).modThread c p.launcher (Thread.posted v k) := by
    rw [State.vFinish_of_some hpost, ← hu]
    exact State.vPost_eq (hxe ▸ hp) (hthread ▸ htoken) (hthread ▸ hawake.deaf)
  have hend := State.vClassBusyEnd_eq hactive hup hfin _ hfinish.symm (by
    rw [State.modThread, State.cell_modCell_self hc, State.postCounted_cell, hxe]
    exact hlate)
  rw [hend, State.thread_modThread, if_pos ⟨rfl, hc, rfl, hslot⟩, hcounted]

/-! ## The statement -/

/-- Settles O47: what the instruction leaves takes effect in its cell (`State.vFinish_of_none`, `CellSt.vecDone`), and no instruction waits to go on. -/
theorem vectorResultsLand : Obligations.VectorResultsLand := by
  unfold Obligations.VectorResultsLand
  intro c s f hactive hup hfin hpost hlate hwf
  have hcell := State.cell_modCell_self (State.cell_lt_of_fin hfin) (·.vecDone f)
  have hend := State.vClassBusyEnd_eq hactive hup hfin _ (State.vFinish_of_none hpost).symm
  rw [hcell, CellSt.vecDone_part (·.xe.late) fun _ _ _ _ _ => rfl] at hend
  refine ⟨_, congrArg Host.Outcome.next (hend hlate), ?vec, fun hstore d a => ?kept, fun a b hstore => ?stored, fun _ => rfl⟩
  case vec =>
    rw [hcell]
    rfl
  case kept =>
    exact congrArg (memGet · a) (State.cell_modCell_part CellSt.opmem (fun x => x.vecDone_opmem hstore) s c d)
  case stored =>
    rw [hcell, CellSt.vecDone_stores _ hstore]
    refine ⟨memRead_memWrite b _ a hwf, fun k hk => ?_⟩
    rw [memGet_memWrite b _ a k hwf, if_neg (by omega)]

end Sys2Proof.Machine

/-! PROOF. The vector instructions that are held or have results of their own: VLD and VST at operand memory (R227, R228), VSUMMARY (R243), and VPRED
without prediction (R260, R261). -/

namespace Sys2Proof.Machine

variable {s : State} {c op : Nat} {p : Prog} {w : W64}

/-! ## An instruction that is held (R227, R230) -/

/-- What the execute engine holds of a V-class instruction that has just issued. -/
def State.issuedX (s : State) (p : Prog) : XHold :=
  { ins := List.replicate 3 [], outs := [], part := List.replicate 3 [], row := 0, sent := 0, tally := 0, ovf := false, choice := (false, none),
    pair := .runs false, li := (s.loopNums p).1, own := none }

theorem State.heldX_length (s : State) (c : Nat) (p : Prog) : (s.heldX c p).cells.length = s.cells.length := by
  rw [State.heldX, State.xHold, State.modCell_cells, modAt_length, State.loopNums_cells]

theorem State.heldX_cell (hc : c < s.cells.length) : (s.heldX c p).cell c = (s.cell c).holding (s.issuedX p) := by
  refine (State.cell_modCell_self (by rwa [State.loopNums_cells]) _).trans ?_
  rw [State.loopNums_cell]
  rfl

theorem EngineReady.heldX_lt {cls : Nat} (h : EngineReady s c .execute p cls op w) : c < (s.heldX c p).cells.length := by
  rw [State.heldX_length]
  exact h.cell_lt

theorem State.heldX_mem (s : State) (c : Nat) (p : Prog) : (s.heldX c p).mem = s.mem := s.loopNums_mem p

theorem State.heldX_opmem (s : State) (c : Nat) (p : Prog) : SameOpmem s (s.heldX c p) := fun d a => by
  rw [← State.loopNums_cell s p d]
  refine congrArg (memGet · a) (State.cell_modCell_part CellSt.opmem ?_ _ c d)
  exact fun _ => rfl

/-- The engine holds the instruction that has just issued. -/
theorem EngineReady.heldX_holds {cls : Nat} (h : EngineReady s c .execute p cls op w) : HoldsM s (s.heldX c p) c p (s.cell c).arr.mops where
  cell := h.heldX_lt
  prog := ⟨p.flags, by rw [State.heldX_cell h.cell_lt]; exact h.prog⟩
  own := by rw [State.heldX_cell h.cell_lt]; rfl
  mops := by rw [State.heldX_cell h.cell_lt]; rfl
  mem := s.heldX_mem c p

theorem EngineReady.vHold_faults {checks : CellSt → Prog → List Nat → List (Option (Nat × W64))} {uses : CellSt → List Nat → List PortUse}
    {go : State → State} {code : Nat} {info : W64} (h : EngineReady s c .execute p 5 op w) (hready : (s.cell c).vReady (accTile 5 op w))
    (hclear : (s.cell c).vClear (uses (s.cell c) (s.loopNums p).1))
    (hchecks : (checks (s.cell c) p (s.loopNums p).1).findSome? id = some (code, info)) :
    s.vHold c op w checks uses go = (s.loopNums p).2.engineFault c .execute code info := by
  refine (State.engineIssue_ready h h.at_.free _).trans ?_
  dsimp only
  rw [hready, hclear, hchecks]
  rfl

theorem EngineReady.vHold_goes {checks : CellSt → Prog → List Nat → List (Option (Nat × W64))} {uses : CellSt → List Nat → List PortUse}
    {go : State → State} (h : EngineReady s c .execute p 5 op w) (hready : (s.cell c).vReady (accTile 5 op w))
    (hclear : (s.cell c).vClear (uses (s.cell c) (s.loopNums p).1)) (hchecks : (checks (s.cell c) p (s.loopNums p).1).findSome? id = none) :
    s.vHold c op w checks uses go = go (s.heldX c p) := by
  refine (State.engineIssue_ready h h.at_.free _).trans ?_
  dsimp only
  rw [hready, hclear, hchecks]
  rfl

/-! ## A start that sets no summary flag -/

/-- An instruction without conversions, summary flags and indices out of range. -/
structure VOut.Plain (o : VOut) : Prop where
  evs : o.evs = []
  flags : o.flags = []
  oor : o.oor = 0

/-- An instruction that sets no summary flag starts: the vector engine is busy, and the program goes on. -/
theorem VOut.Plain.vStart_cell {o : VOut} (ho : o.Plain) (tile : Option Nat) (hc : c < s.cells.length) (hown : (s.cell c).heldLate = none) :
    (s.vStart c tile o).cell c = retiredX ((s.cell c).vecBusy tile o) := by
  have hcounted : (s.vCounted c o).cells = s.cells := by
    have hcells (s : State) (i n : Nat) : (s.countC c i n).cells = s.cells := (s.count_reportsOnly ..).part_eq State.cells
    unfold State.vCounted
    rw [ho.evs, ho.flags, ho.oor]
    exact (hcells ..).trans (hcells ..)
  have hcell := State.cell_modCell_self (s := s.vCounted c o) (hcounted ▸ hc) (·.vecBusy tile o)
  have hsame : (s.vCounted c o).cell c = s.cell c := congrArg (·.getD c CellSt.reset) hcounted
  rw [hsame] at hcell
  rw [State.vStart_eq, (State.retire_execute_step (State.modCell_lt _ (hcounted ▸ hc)) (by rw [hcell]; exact hown)).1, hcell]

/-- An instruction that has started so: its program has gone on, and the vector engine holds its result. -/
theorem State.vStart_goesOn {t : State} {tile : Option Nat} {o : VOut} (hstart : t = s.vStart c tile o) (ho : o.Plain) (hc : c < s.cells.length)
    (hown : (s.cell c).heldLate = none) (hprog : (s.cell c).xe.prog = some p) : (t.cell c).xe.prog = some p.next ∧
      (t.cell c).vec = { (s.cell c).vec with busy := some o.busy, accRead := tile, fin := some o.fin } := by
  rw [hstart, ho.vStart_cell tile hc hown]
  exact ⟨congrArg (Option.map Prog.next) hprog, rfl⟩

/-! ## VLD and VST (R227, R228) -/

/-- The bytes that source 0 of an instruction that has just issued takes. -/
theorem State.takeIn_heldX_cell (b : List Byte) (hc : c < s.cells.length) :
    ((s.heldX c p).takeIn c 0 b).cell c = (s.cell c).holding { s.issuedX p with ins := [b, [], []] } := by
  rw [State.takeIn, State.modHold, State.cell_modCell_self (by rwa [State.heldX_length]), State.heldX_cell hc]
  rfl

theorem accTile_vld (w : W64) : accTile 5 0x29 w = none := by
  unfold accTile
  exact if_pos ⟨rfl, .inr rfl⟩

/-- VLD from operand memory free of poison starts with the lanes that its bytes spell. -/
theorem EngineReady.vld_starts (h : EngineReady s c .execute p 5 0x29 w) (hready : (s.cell c).vReady none) (hport : 12 ≤ wPort w) :
    ∀ n a b, n = vCount (s.cell c).vec false w → a = ((s.heldX c p).cell c).portAddr (wPort w) → b = memRead (s.cell c).opmem a (4 * n) →
      (s.cell c).vClear [(s.cell c).portUse (s.loopNums p).1 (wPort w) (4 * n) false] → groupFits (wVd w) n → maskFits w n →
      (s.cell c).vPortFault p (s.loopNums p).1 w (wPort w) (4 * n) = none → (s.cell c).opPoisoned a (4 * n) = none →
      s.vld c w = ((s.heldX c p).takeIn c 0 b).vStart c none (((s.cell c).vec.putLanes (wVd w) ((elems 10 n b).map (BitVec.ofNat 32))
        ((s.cell c).vec.live w) (wZ w)).out n (2 + ceilDiv (4 * n) 1024)) := by
  rintro n a b rfl ha rfl hclear hgroup hmask hportOk hclean
  have hgo : s.vld c w = (s.heldX c p).vldGo c w := by
    unfold State.vld
    refine h.vHold_goes (by rwa [accTile_vld]) hclear ?_
    rw [hgroup, hmask, hportOk]
    rfl
  obtain ⟨u, hu⟩ : ∃ u, u = s.heldX c p := ⟨_, rfl⟩
  have hcell : u.cell c = (s.cell c).holding (s.issuedX p) := hu ▸ State.heldX_cell h.cell_lt
  have hcount : vCount (u.cell c).vec false w = vCount (s.cell c).vec false w := by rw [hcell]; rfl
  have hopmem : (u.cell c).opmem = (s.cell c).opmem := by rw [hcell]; rfl
  have hempty : (u.cell c).xhold.ins.getD 0 [] = [] := by rw [hcell]; rfl
  have hunpoisoned : (u.cell c).opPoisoned ((u.cell c).portAddr (wPort w)) (4 * vCount (s.cell c).vec false w) = none := by
    rw [hu, ← ha, ← hu, hcell]
    exact hclean
  rw [hgo, ← hu, State.vldGo, hcount, State.pullThen_opmem _ _ hport hempty hunpoisoned, hopmem]
  dsimp only
  rw [hu, ← ha, State.takeIn_heldX_cell _ h.cell_lt, isChute_of_le hport]
  rfl

/-- VST to operand memory starts with its bytes to be stored. -/
theorem EngineReady.vst_starts (h : EngineReady s c .execute p 5 0x2A w) (hready : (s.cell c).vReady (accTile 5 0x2A w)) (hport : 12 ≤ wPort w) :
    ∀ n o, n = vCount (s.cell c).vec (srcIsAcc (wSa w)) w → o = (s.cell c).vec.out n (2 + ceilDiv (4 * n) 1024) →
      (s.cell c).vClear [(s.cell c).portUse (s.loopNums p).1 (wPort w) (4 * n) true] → maskFits w n → (s.cell c).srcFault w n (wSa w) = none →
      (s.cell c).vPortFault p (s.loopNums p).1 w (wPort w) (4 * n) = none →
      s.vst c w = (s.heldX c p).vStart c (accTile 5 0x2A w) { o with fin := { o.fin with
        store := some (((s.heldX c p).cell c).portAddr (wPort w), ((s.cell c).srcList n (wSa w)).flatMap fun v => leBytes 4 v.toNat) } } := by
  rintro n o rfl rfl hclear hmask hsrc hportOk
  have hgo : s.vst c w = (s.heldX c p).vstGo c w := by
    unfold State.vst
    refine h.vHold_goes hready hclear ?_
    rw [hmask, hsrc, hportOk]
    rfl
  rw [hgo, State.vstGo, isChute_of_le hport, State.heldX_cell h.cell_lt]
  rfl

/-! ## VSUMMARY (R243) -/

theorem EngineReady.vsummary_starts {b : Nat} (h : EngineReady s c .execute p 5 0x2B w) (hready : (s.cell c).vReady none)
    (hmops : (s.cell c).arr.mops = []) (hlate : (s.cell c).xe.late = []) (hsrc : wSa w = .tile b) :
    ∀ o v, o = (s.cell c).vec.out 0 4 →
      v = BitVec.ofNat 64 (((s.cell c).vec.lane (1024 * b)).toNat + 2 ^ 32 * ((s.cell c).vec.lane (1024 * b + 1)).toNat) →
      s.vsummary c w = s.vStart c none { o with fin := { o.fin with post := some (v, fld w 22 18) } } := by
  rintro o v rfl rfl
  refine (State.engineIssue_ready h h.at_.free _).trans ?_
  rw [hready, hmops, hlate, hsrc]
  rfl

/-! ## VPRED without prediction (R260, R261) -/

/-- What VPRED leaves with PRED_EN 0: every block below B is active, and none is audited. -/
def CellSt.vpredOff (x : CellSt) (w : W64) (d : PDesc) : VOut :=
  let m := fld w 22 18 + 1
  let all : W32 := BitVec.ofNat 32 (2 ^ d.blocks - 1)
  let o := (x.vec.putLanes (wVd w) [all, 0] allLive false).out 0 (8 + ceilDiv (m * 128 * 16 + m * 16 * 128 * d.blocks) 4096)
  { o with fin := { o.fin with pred := some (all, 0, d.blocks) } }

theorem EngineReady.vpred_starts (h : EngineReady s c .execute p 5 0x2C w) (hready : (s.cell c).vReady none)
    (hclear : (s.cell c).vClear [⟨wPort w, 0, opSoft, false⟩]) (hfull : (s.cell c).arr.quarter = false)
    (hsrc : srcFits (128 * (fld w 22 18 + 1)) (wSa w)) (hdst : groupFits (wVd w) 2) (hoff : s.regBit (rCell c 0xB0) 0 = false) {a : Nat}
    (ha : (s.cell c).maAddr (s.loopNums p).1 (wPort w) = a) (hin : a + 64 ≤ opSoft) (haligned : a % 32 = 0)
    (hclean : (s.cell c).opPoisoned a 64 = none) (hdesc : pDescOk ((s.cell c).op a 64)) :
    s.vpred c w = (s.loopNums p).2.vStart c none ((s.cell c).vpredOff w (pDescOf ((s.cell c).op a 64))) := by
  have hreg : (s.loopNums p).2.regBit (rCell c 0xB0) 0 = false := by
    rw [State.loopNums_eq]
    exact hoff
  have hbounds : ¬ ((a : Int) < 0 ∨ (opSoft : Int) < a + 64 ∨ (a : Int) % 32 ≠ 0) := by omega
  refine (State.engineIssue_ready h h.at_.free _).trans ?_
  dsimp only
  rw [hready, hclear, hfull, hsrc, hdst, ha, if_neg (by simp), if_neg (by simp), if_neg hbounds, Int.toNat_natCast, hclean]
  dsimp only
  rw [hdesc, hreg, if_neg (by simp), if_neg (by simp)]
  dsimp only
  unfold State.vpredRun
  rw [hreg, State.loopNums_cell]
  rfl

end Sys2Proof.Machine

/-! PROOF. A row of VSEGSUM (R241), and VectorMemoryAndSpecials. -/

namespace Sys2Proof.Machine

variable {s : State} {c : Nat} {p : Prog} {w : W64}

/-! ## VSEGSUM (R241) -/

/-- A VSEGSUM that passes its checks is held, with START's carry closed, and goes on. -/
theorem EngineReady.vsegsum_goes (h : EngineReady s c .execute p 5 0x28 w) (hready : (s.cell c).vReady (accTile 5 0x28 w))
    (hclear : (s.cell c).vClear [(s.cell c).portUse (s.loopNums p).1 (segLen w) 4 false, (s.cell c).portUse (s.loopNums p).1 (segDst w) opSoft true])
    (hchecks : ((s.cell c).segChecks w p (s.loopNums p).1).findSome? id = none) :
    ∀ u, u = (if segStart w then (s.heldX c p).modCarry c fun k => { k with isOpen := false, closed := 0 } else s.heldX c p) →
      s.vsegsum c w = u.segGo c w p segFuel := by
  intro u hu
  have hprog : (u.cell c).xe.prog = some p := by
    have hheld : ((s.heldX c p).cell c).xe.prog = some p := by
      rw [State.heldX_cell h.cell_lt]
      exact h.prog
    rw [hu]
    split
    · refine (State.cell_modCell_part (·.xe.prog) ?_ _ c c).trans hheld
      exact fun _ => rfl
    · exact hheld
  have hgo : s.vsegsum c w = u.vsegsumGo c w := by
    rw [hu]
    unfold State.vsegsum
    exact h.vHold_goes hready hclear hchecks
  rw [hgo, State.vsegsumGo, hprog]

theorem CellSt.segNext_row {x : CellSt} (hrow : x.xhold.row < segM w) (hopen : x.vec.carry.isOpen) : x.segNext w = .row := by
  unfold CellSt.segNext
  dsimp only
  rw [if_pos hrow, if_pos hopen]

theorem CellSt.segNext_done {x : CellSt} (hrow : segM w ≤ x.xhold.row) (hfinal : segFinal w = false) : x.segNext w = .done := by
  unfold CellSt.segNext
  dsimp only
  rw [if_neg (Nat.not_lt.2 hrow), hfinal]
  rfl

/-- Where no slot is to be pushed, the next source row is taken. -/
theorem State.segGo_row {t : State} (fuel : Nat) (houts : (s.cell c).xhold.outs = []) (hnext : (s.cell c).segNext w = .row)
    (hadd : s.segAdd c w p = .ok t) : s.segGo c w p (fuel + 1) = t.segGo c w p fuel := by
  rw [State.segGo, State.pushOuts_of_nil houts]
  dsimp only
  rw [hnext, hadd]

theorem State.segGo_end (fuel : Nat) (houts : (s.cell c).xhold.outs = []) (hnext : (s.cell c).segNext w = .done)
    (hpart : (s.cell c).xhold.part.all List.isEmpty) : s.segGo c w p (fuel + 1) = s.segEnd c w := by
  rw [State.segGo, State.pushOuts_of_nil houts]
  dsimp only
  rw [hnext]
  exact if_pos hpart

/-- The running row with the source row added at which the VSEGSUM held stands. -/
def CellSt.segSum (x : CellSt) (w : W64) : List W32 := (x.vec.carry.row.zip (x.segRow w x.xhold.row)).map fun e => f32Add e.1 e.2

/-- The state in which that source row, which ends no segment, has been added to the carry. -/
def State.segAdded (s : State) (c : Nat) (w : W64) : State :=
  (s.modCarry c fun k => { k with rem := k.rem - 1, row := (s.cell c).segSum w }).modHold c fun y => { y with row := y.row + 1 }

/-- The cell whose held VSEGSUM has added a source row, and is at the next one. -/
def CellSt.segAdded (x : CellSt) (w : W64) : CellSt :=
  { x with vec := { x.vec with carry := { x.vec.carry with rem := x.vec.carry.rem - 1, row := x.segSum w } },
           xe := { x.xe with hold := x.xe.hold.map fun y => { y with row := y.row + 1 } } }

theorem State.segAdded_cell (hc : c < s.cells.length) : (s.segAdded c w).cell c = (s.cell c).segAdded w := by
  rw [State.segAdded, State.modHold, State.modCarry, State.cell_modCell_self (State.modCell_lt _ hc), State.cell_modCell_self hc]
  rfl

theorem State.segAdded_opmem (s : State) (c d : Nat) (w : W64) : ((s.segAdded c w).cell d).opmem = (s.cell d).opmem :=
  (State.cell_modCell_part CellSt.opmem (by exact fun _ => rfl) _ c d).trans (State.cell_modCell_part CellSt.opmem (by exact fun _ => rfl) s c d)

theorem State.segAdd_open (hc : c < s.cells.length) (hrem : (s.cell c).vec.carry.rem ≠ 1) : s.segAdd c w p = .ok (s.segAdded c w) := by
  have hleft : ((s.segAdded c w).cell c).vec.carry.rem ≠ 0 := by
    rw [State.segAdded_cell hc]
    exact fun h => hrem (by simpa [CellSt.segAdded, BitVec.sub_eq_iff_eq_add] using h)
  exact if_neg hleft

/-- A VSEGSUM of one source row, which ends no segment: the row is added, and the instruction ends. -/
theorem EngineReady.vsegsum_row (h : EngineReady s c .execute p 5 0x28 w) (hfinal : segFinal w = false) (hone : segM w = 1)
    (hopen : (s.cell c).vec.carry.isOpen) (hrem : (s.cell c).vec.carry.rem ≠ 1) :
    (s.heldX c p).segGo c w p segFuel = ((s.heldX c p).segAdded c w).segEnd c w := by
  have hcell := State.heldX_cell (p := p) h.cell_lt
  have hadded := State.segAdded_cell (w := w) h.heldX_lt
  rw [hcell] at hadded
  have hadd := State.segAdd_open (p := p) (w := w) h.heldX_lt (by rw [hcell]; exact hrem)
  have hrow : ((s.heldX c p).cell c).segNext w = .row := CellSt.segNext_row (by rw [hcell, hone]; exact Nat.one_pos) (by rw [hcell]; exact hopen)
  have hdone : (((s.heldX c p).segAdded c w).cell c).segNext w = .done :=
    CellSt.segNext_done (by rw [hadded, hone]; exact Nat.le_refl 1) hfinal
  rw [segFuel, State.segGo_row _ (by rw [hcell]; rfl) hrow hadd, State.segGo_end _ (by rw [hadded]; rfl) hdone (by rw [hadded]; rfl)]

/-! ## The statement -/

/-- Settles O48: each instruction starts with its result (`vld_starts`, `vst_starts`, `vsummary_starts`, `vpred_starts`, `vsegsum_row`), and goes on
without a summary flag (`State.vStart_goesOn`); the post lands at the end of the busy time (`State.vClassBusyEnd_posts`). -/
theorem vectorMemoryAndSpecials : Obligations.VectorMemoryAndSpecials := by
  unfold Obligations.VectorMemoryAndSpecials
  refine ⟨?memory, ⟨?summary, ?post⟩, ?pred, ?segsum⟩
  case memory =>
    rintro c w s p u li rfl rfl hport
    refine ⟨fun h hready n a hn ha hclear hgroup hmask hportOk _ hclean => ?vld, fun h hready n hn hclear hmask hsrc hportOk => ?vst⟩
    case vld =>
      have hstart := h.vld_starts hready hport n a _ hn ha rfl hclear hgroup hmask hportOk hclean
      have hcell := State.takeIn_heldX_cell (p := p) (memRead (s.cell c).opmem a (4 * n)) h.cell_lt
      obtain ⟨hprog, hvec⟩ := State.vStart_goesOn hstart ⟨rfl, rfl, rfl⟩ (State.modCell_lt _ h.heldX_lt) (by rw [hcell]; rfl)
        (by rw [hcell]; exact h.prog)
      refine ⟨_, rfl, ?_⟩
      rw [hvec]
      exact ⟨rfl, rfl, hprog⟩
    case vst =>
      have hstart := h.vst_starts hready hport n _ hn rfl hclear hmask hsrc hportOk
      have hcell := State.heldX_cell (p := p) h.cell_lt
      obtain ⟨hprog, hvec⟩ := State.vStart_goesOn hstart ⟨rfl, rfl, rfl⟩ h.heldX_lt (by rw [hcell]; rfl) (by rw [hcell]; exact h.prog)
      refine ⟨_, rfl, hprog, fun d a => ?_, ?_⟩
      · rw [hstart, State.vStart_part CellSt.opmem fun _ _ _ _ => rfl]
        exact s.heldX_opmem c p d a
      · rw [hvec, hcell]
        exact ⟨_, rfl, rfl, rfl⟩
  case summary =>
    intro c w s p h hready hmops hlate b hsrc
    have hstart := h.vsummary_starts hready hmops hlate hsrc _ _ rfl rfl
    obtain ⟨hprog, hvec⟩ := State.vStart_goesOn hstart ⟨rfl, rfl, rfl⟩ h.cell_lt h.heldLate h.prog
    refine ⟨_, rfl, hprog, ?_⟩
    rw [hvec]
    exact ⟨rfl, _, rfl, rfl, rfl⟩
  case post =>
    intro c s f p v k hactive hup hfin hpost hp hlate htoken hstate
    refine ⟨_, rfl, ?_⟩
    rw [State.vClassBusyEnd_posts hactive hup hfin hpost hp hlate htoken hstate, Thread.awake.posted hstate]
    exact ⟨rfl, rfl, rfl⟩
  case pred =>
    rintro c w s p h hready hclear hfull hsrc hdst hoff a ha hin haligned hclean hdesc n rfl
    have hstart := h.vpred_starts hready hclear hfull hsrc hdst hoff ha hin haligned hclean hdesc
    have hcell := s.loopNums_cell p
    obtain ⟨hprog, hvec⟩ := State.vStart_goesOn hstart ⟨rfl, rfl, rfl⟩ (s.loopNums_cells p ▸ h.cell_lt) (by rw [hcell]; exact h.heldLate)
      (by rw [hcell]; exact h.prog)
    refine ⟨_, _, rfl, by rw [hvec], rfl, hprog, ?_, fun d b => ?_⟩
    · rw [hstart, State.vStart_part CellSt.pred fun _ _ _ _ => rfl, hcell]
    · rw [hstart, State.vStart_part CellSt.opmem fun _ _ _ _ => rfl, hcell]
  case segsum =>
    intro c w s p h hready hclear
    refine ⟨fun code info hchecks => ?faulted, ?passed⟩
    case faulted =>
      refine ⟨_, congrArg Host.Outcome.next (h.vHold_faults hready hclear hchecks), ?_, fun a => ?_, fun d a => ?_⟩
      · rw [State.engineFault_cell, State.cell_modCell_self (s.loopNums_cells p ▸ h.cell_lt), State.loopNums_cell]
        exact CellSt.takesFault_prog code info h.at_.free h.prog
      · rw [State.engineFault_mem, State.loopNums_mem]
      · rw [State.engineFault_opmem, State.loopNums_cell]
    case passed =>
      rintro hchecks k rfl
      refine ⟨fun u hu => congrArg Host.Outcome.next (h.vsegsum_goes hready hclear hchecks u hu), fun hnew hfinal hone hopen hrem => ?_⟩
      have hstart := h.vsegsum_goes hready hclear hchecks _ rfl
      rw [hnew, if_neg Bool.false_ne_true, h.vsegsum_row hfinal hone hopen hrem] at hstart
      have hcell := State.segAdded_cell (w := w) h.heldX_lt
      rw [State.heldX_cell h.cell_lt] at hcell
      have hholds : HoldsM s ((s.heldX c p).segAdded c w) c p (s.cell c).arr.mops := h.heldX_holds.modCell.modHold
      obtain ⟨hprog, hvec⟩ := State.vStart_goesOn hstart ⟨rfl, rfl, rfl⟩ hholds.cell hholds.own (by rw [hcell]; exact h.prog)
      refine ⟨_, rfl, hprog, ?_, ?_, fun a => ?_, fun d a => ?_⟩
      · have hbusy : 8 + ceilDiv (segM w * segW w) 1024 + 0 = 8 + ceilDiv (segW w) 1024 := by rw [hone, Nat.one_mul, Nat.add_zero]
        rw [hvec, ← hbusy, hcell]
        rfl
      · rw [hvec, hcell]
        rfl
      · rw [hstart]
        exact congrArg (memGet · a) (hholds.vStart _ _).mem
      · rw [hstart, State.segEnd, State.vStart_part CellSt.opmem fun _ _ _ _ => rfl, State.segAdded_opmem]
        exact s.heldX_opmem c p d a

end Sys2Proof.Machine

/-! PROOF. A thread at its instruction (R271, R300, R303): what an instruction that retires, one that leaves its core and one that faults come to, and
how a change of one slot reads. -/

namespace Sys2Proof.Machine

variable {s t : State} {th : ThreadRef} {cls op : Nat} {w : W64} {i : Instr}

/-! ## Issue -/

/-- A command that issues a thread's instruction carries it out where the thread is ready for it. -/
theorem ThreadReady.answers {u : State} {P : State → Prop} (h : ThreadReady s th cls op w) (hi : exec i s = .next (s.thIssue th cls op w u)) (hP : P u) :
    ∃ t, exec i s = .next t ∧ P t :=
  ⟨u, hi.trans (congrArg _ (State.thIssue_ready h u)), hP⟩

theorem ThreadReady.runs (h : ThreadReady s th cls op w) : s.runs th = true := h.at_.runs

theorem State.runs_state (h : s.runs th = true) : (s.thread th.cell th.slot).state = .running := by
  simp only [State.runs, Bool.and_eq_true, beq_iff_eq] at h
  exact h.1.1.2

theorem State.runs_not_free (h : s.runs th = true) : (s.thread th.cell th.slot).state ≠ .free := by
  rw [State.runs_state h]
  exact nofun

theorem State.runs_cell_lt (h : s.runs th = true) : th.cell < 192 := by
  simp only [State.runs, State.cellUp, Bool.and_eq_true, decide_eq_true_eq] at h
  exact h.1.1.1.1.2.1

/-- A thread that waits on a FENCE issues nothing. -/
theorem State.not_runs_of_fence {f : FenceWait} (h : (s.thread th.cell th.slot).fence = some f) : s.runs th = false := by
  simp [State.runs, h]

/-! ## Retirement -/

theorem ThreadStep.congr {f g : Thread → Thread} (h : ThreadStep th f s t) (hfg : f (s.thread th.cell th.slot) = g (s.thread th.cell th.slot)) :
    ThreadStep th g s t := ⟨h.1.trans hfg, h.2⟩

/-- An instruction that retires with a value for rd. -/
theorem ThreadReady.retires {v : W64} (h : ThreadReady s th cls op w) (hi : exec i s = .next (s.thIssue th cls op w (s.thRet th (wRd w) v))) :
    ∃ t, exec i s = .next t ∧ ThreadStep th (retire w v) s t := h.answers hi (State.thRet_step h.runs w v)

/-- An instruction that changes its slot alone. -/
theorem ThreadReady.changes {f : Thread → Thread} (g : Thread → Thread) (h : ThreadReady s th cls op w)
    (hi : exec i s = .next (s.thIssue th cls op w (s.modThread th.cell th.slot f)))
    (hfg : f (s.thread th.cell th.slot) = g (s.thread th.cell th.slot)) :
    ∃ t, exec i s = .next t ∧ ThreadStep th g s t := h.answers hi ((State.modThread_step h.runs f).congr hfg)

/-! ## Slots of a cell -/

theorem modAt_modAt {α : Type} (i : Nat) (f g : α → α) (l : List α) : modAt i f (modAt i g l) = modAt i (fun a => f (g a)) l := by
  induction l generalizing i with
  | nil => simp [modAt]
  | cons a l ih => cases i <;> simp [modAt, ih]

/-- Two changes of an element that agree on it. -/
theorem modAt_congr {α : Type} {i : Nat} {f g : α → α} {l : List α} (d : α) (h : f (l.getD i d) = g (l.getD i d)) : modAt i f l = modAt i g l := by
  rw [← modAt_getD_self i f l d, h, modAt_getD_self]

/-- A slot that is not FREE takes a change of it. -/
theorem State.thread_modThread_self {c k : Nat} (f : Thread → Thread) (h : (s.thread c k).state ≠ .free) :
    (s.modThread c k f).thread c k = f (s.thread c k) := by
  obtain ⟨hc, hk⟩ := State.thread_bounds h
  rw [State.thread_modThread, if_pos ⟨rfl, hc, rfl, hk⟩]

theorem State.thread_modThread_ne {c k d j : Nat} (f : Thread → Thread) (h : ¬(d = c ∧ j = k)) : (s.modThread c k f).thread d j = s.thread d j := by
  rw [State.thread_modThread, if_neg fun hdj => h ⟨hdj.1, hdj.2.2.1⟩]

theorem State.modThread_modThread (s : State) (c k : Nat) (f g : Thread → Thread) :
    (s.modThread c k g).modThread c k f = s.modThread c k fun x => f (g x) := by
  refine congrArg (fun l => { s with cells := l }) ((modAt_modAt ..).trans ?_)
  exact congrArg (modAt c · s.cells) (funext fun x => congrArg (fun l => { x with threads := l }) (modAt_modAt ..))

/-- Two changes of a slot that agree on it. -/
theorem State.modThread_congr {c k : Nat} {f g : Thread → Thread} (h : f (s.thread c k) = g (s.thread c k)) : s.modThread c k f = s.modThread c k g := by
  refine congrArg (fun l => { s with cells := l }) (modAt_congr CellSt.reset ?_)
  exact congrArg (fun l => { s.cell c with threads := l }) (modAt_congr Thread.reset h)

theorem State.modThread_eq_self {c k : Nat} {f : Thread → Thread} (h : f (s.thread c k) = s.thread c k) : s.modThread c k f = s :=
  State.modCell_eq_self (congrArg (fun l => { s.cell c with threads := l }) (modAt_eq_self h))

/-- A slot changes and enters a state (R298). -/
theorem State.enter_modThread (s : State) (c k : Nat) (f : Thread → Thread) (st : ThState) :
    ((s.modThread c k f).modCell c fun x => x.enter k st) = s.modThread c k fun x => entering st (s.cell c).tick (f x) := by
  refine congrArg (fun l => { s with cells := l }) ((modAt_modAt ..).trans (modAt_congr CellSt.reset ?_))
  exact congrArg (fun l => { s.cell c with threads := l }) (modAt_modAt ..)

/-! ## Leaving the core -/

/-- A slot changes, leaves its core and enters a state. -/
theorem State.leave_step (hc : th.cell < s.cells.length) (f : Thread → Thread) (st : ThState) :
    ReleaseStep th (fun x => entering st (s.cell th.cell).tick (f x)) s
      ((s.modThread th.cell th.slot f).modCell th.cell fun x => x.leave th.slot st) := by
  have hchanged := State.modCell_step hc fun x => { x with threads := modAt th.slot f x.threads }
  have hleft := hchanged.trans (State.modCell_step (State.modCell_lt _ hc) fun x => x.leave th.slot st)
  exact hleft.congr (congrArg (fun l => { (s.cell th.cell).releaseCore th.slot with threads := l }) (modAt_modAt ..))

/-- A slot becomes FREE (R304). -/
theorem State.freeSlot_step (hc : th.cell < s.cells.length) :
    ReleaseStep th (fun x => { entering .free (s.cell th.cell).tick x with fence := none, timed := false, wake := none, reason := 0 }) s
      (s.modCell th.cell fun x => x.freeSlot th.slot) :=
  (State.modCell_step hc fun x => x.freeSlot th.slot).congr
    (congrArg (fun l => { (s.cell th.cell).releaseCore th.slot with threads := l }) (modAt_modAt ..))

/-! ## Faults (R315) -/

theorem State.report_reportsOnly (s : State) (r : Report) : ReportsOnly s (s.report r) := .report rfl

/-- The cell after the thread of one of its slots has failed. -/
def CellSt.failed (x : CellSt) (k code info : Nat) : CellSt := { x.releaseCore k with threads := modAt k (failing code info x.tick) x.threads }

/-- What a thread fault leaves of the device's cells and memory. -/
theorem State.threadFault_parts (s : State) (c k code info : Nat) :
    (s.threadFault c k code info).cells = (s.modCell c fun x => x.failed k code info).cells ∧ (s.threadFault c k code info).mem = s.mem := by
  unfold State.threadFault
  extract_lets pc mark u v
  have hu : u = s.modCell c fun x => x.failed k code info :=
    congrArg (s.modCell c) (funext fun x => congrArg (fun l => { x.releaseCore k with threads := l }) (modAt_modAt ..))
  rw [← hu]
  have hv : v.cells = u.cells ∧ v.mem = u.mem := by
    dsimp only [v]
    split
    · have hraise := (u.seeClass 1).raise_reportsOnly (srcCell c) kError 0x0040 1 info
      exact ⟨hraise.part_eq State.cells, hraise.part_eq State.mem⟩
    · exact ⟨rfl, rfl⟩
  have hreport := v.report_reportsOnly { source := srcCell c, kind := kThreadFault, code := code, cls := 5, data := recData code k info pc }
  exact ⟨(hreport.part_eq State.cells).trans hv.1, (hreport.part_eq State.mem).trans (hv.2.trans ((congrArg State.mem hu).trans rfl))⟩

theorem State.threadFault_cell (s : State) (c k d code info : Nat) :
    (s.threadFault c k code info).cell d = (s.modCell c fun x => x.failed k code info).cell d :=
  congrArg (List.getD · d CellSt.reset) (s.threadFault_parts c k code info).1

/-- A cell's report goes to the supervisor of its field. -/
theorem State.report_cell_supQ {c : Nat} (hc : c < 192) (r : Report) (hr : r.source = srcCell c) : (s.report r).supQ = s.supQ ++ [(fieldOfCell c, r)] := by
  have hblock : r.source / 0x1000 = 2 := by rw [hr, srcCell]; omega
  have hunit : r.source % 0x1000 = c := by rw [hr, srcCell]; omega
  unfold State.report
  extract_lets b k
  rw [if_pos hblock]
  exact congrArg (fun n => s.supQ ++ [(fieldOfCell n, r)]) hunit

/-- A thread that runs and faults fails in its slot, is off its core and is reported; nothing else of the cells or of any memory changes. -/
theorem State.thFault_step (h : s.runs th = true) (code info : Nat) : FaultStep th code info s (s.thFault th code info) := by
  obtain ⟨hc, hk⟩ := State.runs_bounds h
  have hcell : (s.thFault th code info).cell th.cell = (s.cell th.cell).failed th.slot code info :=
    (s.threadFault_cell ..).trans (State.cell_modCell_self hc _)
  have hother : ∀ d, d ≠ th.cell → (s.thFault th code info).cell d = s.cell d := fun d hd =>
    (s.threadFault_cell ..).trans (State.cell_modCell_ne hd _)
  have hthread : ∀ j, (s.thFault th code info).thread th.cell j = ((s.cell th.cell).failed th.slot code info).thread j := fun j =>
    congrArg (·.thread j) hcell
  constructor
  case slot => exact (hthread _).trans ((modAt_getD ..).trans (if_pos ⟨rfl, hk⟩))
  case core =>
    rw [hcell]
    intro y hy
    obtain ⟨z, -, rfl⟩ := List.mem_map.1 hy
    split
    · exact nofun
    · assumption
  case slots => exact fun j hj => (hthread j).trans ((modAt_getD ..).trans (if_neg fun e => hj e.1))
  case cells => exact hother
  case report =>
    refine (congrArg List.getLast? (State.report_cell_supQ (State.runs_cell_lt h) _ rfl)).trans ?_
    rw [List.getLast?_append, List.getLast?_singleton]
    rfl
  case memory => exact fun a => congrArg (memGet · a) (s.threadFault_parts ..).2
  case opmem =>
    intro d a
    by_cases hd : d = th.cell
    · rw [hd, hcell]
      rfl
    · rw [hother d hd]

/-- An instruction that faults on its operands. -/
theorem ThreadReady.faults {code info : Nat} (h : ThreadReady s th cls op w) (hi : exec i s = .next (s.thIssue th cls op w (s.thFault th code info))) :
    ∃ t, exec i s = .next t ∧ FaultStep th code info s t := h.answers hi (State.thFault_step h.runs code info)

end Sys2Proof.Machine

/-! PROOF. The scalar class (R272, R276 to R278): the register file, results, moves, branches and jumps, loads and stores, and where a thread faults. -/

namespace Sys2Proof.Machine

variable {s t : State} {th : ThreadRef} {cls op : Nat} {w : W64} {i : Instr}

/-! ## The registers of a slot (R272) -/

theorem Thread.setReg_regs (x : Thread) {r : Nat} (h : r ≠ 0) (v : W64) : x.setReg r v = { x with regs := modAt (r - 1) (fun _ => v) x.regs } := if_neg h

theorem Thread.reg_setReg_self {x : Thread} {r : Nat} (h : r ≠ 0) (hr : r - 1 < x.regs.length) (v : W64) : (x.setReg r v).reg r = v := by
  rw [x.setReg_regs h, Thread.reg, if_neg h, modAt_getD, if_pos ⟨rfl, hr⟩]

theorem Thread.reg_setReg_ne (x : Thread) {r k : Nat} (h : k ≠ r) (v : W64) : (x.setReg r v).reg k = x.reg k := by
  by_cases hr : r = 0
  · rw [hr, Thread.setReg_zero]
  · by_cases hk : k = 0
    · rw [hk, Thread.reg_zero, Thread.reg_zero]
    · rw [x.setReg_regs hr, Thread.reg, if_neg hk, modAt_getD, if_neg (by omega), Thread.reg, if_neg hk]

theorem Thread.setReg_frame (x : Thread) (r : Nat) (v : W64) : { x.setReg r v with regs := x.regs } = x := by
  unfold Thread.setReg
  split <;> rfl

/-- Settles O50: s0 is no register of the list, and a write replaces one element of it (`Thread.reg_setReg_self`, `Thread.reg_setReg_ne`). -/
theorem scalarRegisterFile : Obligations.ScalarRegisterFile := by
  unfold Obligations.ScalarRegisterFile
  intro x r v hlen hr
  exact ⟨Thread.reg_zero x, Thread.setReg_zero x v, fun h => Thread.reg_setReg_self h (by omega) v, fun k hk => x.reg_setReg_ne hk v, x.setReg_frame r v⟩

/-! ## Results (R276, R277) -/

theorem sDivu'_eq (a b : W64) : sDivu' a b = if b = 0 then BitVec.allOnes 64 else a / b := by
  unfold sDivu'
  split
  · rfl
  · exact BitVec.eq_of_toNat_eq (by rw [BitVec.toNat_ofNat, BitVec.toNat_udiv, Nat.mod_eq_of_lt (Nat.lt_of_le_of_lt (Nat.div_le_self _ _) a.isLt)])

theorem sRemu'_eq (a b : W64) : sRemu' a b = if b = 0 then a else a % b := by
  unfold sRemu'
  split
  · rfl
  · exact BitVec.eq_of_toNat_eq (by rw [BitVec.toNat_ofNat, BitVec.toNat_umod, Nat.mod_eq_of_lt (Nat.lt_of_le_of_lt (Nat.mod_le _ _) a.isLt)])

theorem sSra'_eq (a b : W64) : sSra' a b = BitVec.ofInt 64 (a.toInt / 2 ^ (b.toNat % 64)) := by
  rw [sSra', BitVec.sshiftRight, Int.shiftRight_eq_div_pow]
  rfl

theorem sSlt'_eq (a b : W64) : sSlt' a b = if a.toInt < b.toInt then 1 else 0 := by
  simp [sSlt', BitVec.slt]

theorem sSltu'_eq (a b : W64) : sSltu' a b = if a.toNat < b.toNat then 1 else 0 := by
  simp [sSltu', BitVec.ult]

theorem sLih'_eq (a b : W64) : sLih' a b = b <<< 32 ||| (a &&& 0xFFFFFFFF) := by
  have hlow : a.toNat % 2 ^ 32 < 2 ^ 32 := Nat.mod_lt _ (by decide)
  have hhigh : b.toNat <<< 32 % 2 ^ 64 = (b.toNat % 2 ^ 32) <<< 32 := by
    rw [Nat.shiftLeft_eq, Nat.shiftLeft_eq, show 2 ^ 64 = 2 ^ 32 * 2 ^ 32 by decide, Nat.mul_mod_mul_right]
  refine BitVec.eq_of_toNat_eq ?_
  rw [BitVec.toNat_or, BitVec.toNat_shiftLeft, BitVec.toNat_and, hhigh, show (0xFFFFFFFF : W64).toNat = 2 ^ 32 - 1 by decide,
    Nat.and_two_pow_sub_one_eq_mod, ← Nat.shiftLeft_add_eq_or_of_lt hlow, Nat.shiftLeft_eq, sLih', BitVec.toNat_ofNat, Nat.mod_eq_of_lt (by omega)]

/-- A row of the table of scalar register instructions: the command carries its opcode out by `sAlu` with its function. -/
def IsAlu (p : (ThreadRef → W64 → Instr) × Nat × (W64 → W64 → W64)) : Prop :=
  ∃ f, (∀ th w s, exec (p.1 th w) s = .next (s.sAlu th p.2.1 w f)) ∧ ∀ a b, f a b = p.2.2 a b

/-- The same for the table of scalar instructions with an immediate. -/
def IsAluImm (p : (ThreadRef → W64 → Instr) × Nat × (W64 → W64 → W64)) : Prop :=
  ∃ f, (∀ th w s, exec (p.1 th w) s = .next (s.sAluImm th p.2.1 w f)) ∧ ∀ a b, f a b = p.2.2 a b

/-- An instruction that retires with a value for rd leaves all memory. -/
theorem ThreadReady.retires_value {v : W64} (g : Thread → Thread) (h : ThreadReady s th cls op w)
    (hi : exec i s = .next (s.thIssue th cls op w (s.thRet th (wRd w) v))) (hv : retire w v (s.thread th.cell th.slot) = g (s.thread th.cell th.slot)) :
    ∃ t, exec i s = .next t ∧ ThreadStep th g s t ∧ SameMemory s t ∧ SameOpmem s t := by
  have hstep := (State.thRet_step h.runs w v).congr hv
  exact h.answers hi ⟨hstep, hstep.mem, hstep.opmem⟩

theorem IsAlu.results {p : (ThreadRef → W64 → Instr) × Nat × (W64 → W64 → W64)} (hp : IsAlu p) (th : ThreadRef) (w : W64) (s : State)
    (h : ThreadReady s th 1 p.2.1 w) : ∃ t, exec (p.1 th w) s = .next t ∧
      ThreadStep th (fun x => retire w (p.2.2 (x.reg (wRa w)) (x.reg (wRb w))) x) s t ∧ SameMemory s t ∧ SameOpmem s t := by
  obtain ⟨f, hexec, hf⟩ := hp
  exact h.retires_value _ (hexec th w s) (by rw [hf]; rfl)

theorem IsAluImm.results {p : (ThreadRef → W64 → Instr) × Nat × (W64 → W64 → W64)} (hp : IsAluImm p) (th : ThreadRef) (w : W64) (s : State)
    (h : ThreadReady s th 1 p.2.1 w) : ∃ t, exec (p.1 th w) s = .next t ∧
      ThreadStep th (fun x => retire w (p.2.2 (x.reg (wRa w)) ((w.truncate 32).signExtend 64)) x) s t ∧ SameMemory s t ∧ SameOpmem s t := by
  obtain ⟨f, hexec, hf⟩ := hp
  exact h.retires_value _ (hexec th w s) (by rw [hf]; rfl)

/-- Settles O5: each command is `sAlu` with the function of its row. -/
theorem scalarRegisterResults : Obligations.ScalarRegisterResults := by
  unfold Obligations.ScalarRegisterResults
  refine fun p hp => IsAlu.results ?row
  revert p
  simp only [List.forall_mem_cons]
  exact ⟨⟨_, fun _ _ _ => rfl, fun _ _ => rfl⟩, ⟨_, fun _ _ _ => rfl, fun _ _ => rfl⟩, ⟨_, fun _ _ _ => rfl, fun _ _ => rfl⟩,
    ⟨_, fun _ _ _ => rfl, fun _ _ => rfl⟩, ⟨_, fun _ _ _ => rfl, sDivu'_eq⟩, ⟨_, fun _ _ _ => rfl, sRemu'_eq⟩,
    ⟨_, fun _ _ _ => rfl, fun _ _ => rfl⟩, ⟨_, fun _ _ _ => rfl, fun _ _ => rfl⟩, ⟨_, fun _ _ _ => rfl, fun _ _ => rfl⟩,
    ⟨_, fun _ _ _ => rfl, fun _ _ => rfl⟩, ⟨_, fun _ _ _ => rfl, fun _ _ => rfl⟩, ⟨_, fun _ _ _ => rfl, sSra'_eq⟩,
    ⟨_, fun _ _ _ => rfl, sSlt'_eq⟩, ⟨_, fun _ _ _ => rfl, sSltu'_eq⟩, nofun⟩

/-- Settles O6: each command is `sAluImm` with the function of its row. -/
theorem scalarImmediateResults : Obligations.ScalarImmediateResults := by
  unfold Obligations.ScalarImmediateResults
  refine fun p hp => IsAluImm.results ?row
  revert p
  simp only [List.forall_mem_cons]
  exact ⟨⟨_, fun _ _ _ => rfl, fun _ _ => rfl⟩, ⟨_, fun _ _ _ => rfl, fun _ _ => rfl⟩, ⟨_, fun _ _ _ => rfl, fun _ _ => rfl⟩,
    ⟨_, fun _ _ _ => rfl, fun _ _ => rfl⟩, ⟨_, fun _ _ _ => rfl, fun _ _ => rfl⟩, ⟨_, fun _ _ _ => rfl, fun _ _ => rfl⟩,
    ⟨_, fun _ _ _ => rfl, sSra'_eq⟩, ⟨_, fun _ _ _ => rfl, sLih'_eq⟩, nofun⟩

/-! ## Moves (R277, R285, R287) -/

/-- Settles O7: each instruction is a change of its slot (`ThreadReady.changes`, `ThreadReady.retires`). -/
theorem scalarMovesAndFlags : Obligations.ScalarMovesAndFlags := by
  unfold Obligations.ScalarMovesAndFlags
  intro th w s
  refine ⟨fun h => h.changes _ rfl rfl, fun h => h.retires rfl, fun h => h.retires rfl, fun h => h.changes _ rfl ?flags, fun h => h.changes _ rfl ?mbox,
    fun h ha => h.changes (f := fun x => { x with pri := BitVec.ofNat 3 (s.sreg th (wRa w)).toNat, pc := x.pc + 8 }) _ ?issue ?pri⟩
  case flags => simp [retire, wImm32]
  case mbox => simp [retire]
  case issue => exact congrArg (fun u => Host.Outcome.next (s.thIssue th 2 8 w u)) (if_neg (by omega))
  case pri => rfl

/-! ## Branches and jumps (R277, R278) -/

/-- A row of the table of branches: the command carries its opcode out by `sBranch` with its condition. -/
def IsBranch (p : (ThreadRef → W64 → Instr) × Nat × (W64 → W64 → Prop)) : Prop :=
  ∃ c : W64 → W64 → Bool, (∀ th w s, exec (p.1 th w) s = .next (s.sBranch th p.2.1 w c)) ∧ ∀ a b, c a b = true ↔ p.2.2 a b

/-- A target relative to a PC is as aligned as the PC. -/
theorem toNat_add_mul_mod_eight (a b : W64) : (a + 8 * b).toNat % 8 = a.toNat % 8 := by
  rw [BitVec.toNat_add, BitVec.toNat_mul, show (8 : W64).toNat = 8 from rfl]
  omega

theorem State.sTarget_mod_eight (s : State) (th : ThreadRef) (w : W64) : (s.sTarget th w).toNat % 8 = s.pcOf th % 8 := toNat_add_mul_mod_eight _ _

theorem State.sJumpTo_aligned {target : W64} (h : target.toNat % 8 = 0) (link : Option Nat) : s.sJumpTo th target link =
    s.modThread th.cell th.slot fun x => { (match link with | some r => x.setReg r (x.pc + 8) | none => x) with pc := target } :=
  if_neg (not_not_intro h)

theorem State.sJumpTo_misaligned {target : W64} (h : target.toNat % 8 ≠ 0) (link : Option Nat) :
    s.sJumpTo th target link = s.thFault th fMisaligned target.toNat := if_pos h

theorem IsBranch.targets {p : (ThreadRef → W64 → Instr) × Nat × (W64 → W64 → Prop)} (hp : IsBranch p) (th : ThreadRef) (w : W64) (s : State)
    (h : ThreadReady s th 1 p.2.1 w) :
    (p.2.2 (s.sreg th (wRa w)) (s.sreg th (wRb w)) → s.pcOf th % 8 = 0 →
      ∃ t, exec (p.1 th w) s = .next t ∧ ThreadStep th (fun x => { x with pc := x.pc + 8 * (w.truncate 32).signExtend 64 }) s t) ∧
    (¬ p.2.2 (s.sreg th (wRa w)) (s.sreg th (wRb w)) → ∃ t, exec (p.1 th w) s = .next t ∧ ThreadStep th advance s t) := by
  obtain ⟨c, hexec, hc⟩ := hp
  refine ⟨fun hcond hpc => h.answers (hexec th w s) ?_, fun hcond => h.answers (hexec th w s) ?_⟩
  · rw [if_pos ((hc _ _).2 hcond), State.sJumpTo_aligned ((s.sTarget_mod_eight th w).trans hpc)]
    exact (State.modThread_step h.runs _).congr rfl
  · rw [if_neg (fun e => hcond ((hc _ _).1 e))]
    exact State.thNext_step h.runs id

/-- Settles O8: a branch jumps where its condition holds, and a jump to an aligned target changes its slot alone (`State.sJumpTo_aligned`). -/
theorem branchAndJumpTargets : Obligations.BranchAndJumpTargets := by
  unfold Obligations.BranchAndJumpTargets
  refine ⟨fun p hp => IsBranch.targets ?row, fun th w s => ⟨fun h hpc => h.answers rfl ?jal, fun h ha => h.answers rfl ?jalr⟩⟩
  case row =>
    revert p
    simp only [List.forall_mem_cons]
    exact ⟨⟨_, fun _ _ _ => rfl, by simp⟩, ⟨_, fun _ _ _ => rfl, by simp⟩, ⟨_, fun _ _ _ => rfl, by simp [BitVec.slt]⟩,
      ⟨_, fun _ _ _ => rfl, by simp [BitVec.slt]⟩, ⟨_, fun _ _ _ => rfl, by simp [BitVec.ult]⟩, ⟨_, fun _ _ _ => rfl, by simp [BitVec.ult]⟩, nofun⟩
  case jal =>
    rw [State.sJumpTo_aligned ((s.sTarget_mod_eight th w).trans hpc)]
    exact (State.modThread_step h.runs _).congr rfl
  case jalr =>
    rw [State.sJumpTo_aligned ((toNat_add_mul_mod_eight _ _).trans ha)]
    exact (State.modThread_step h.runs _).congr rfl

/-! ## Accesses to operand memory (R117, R278) -/

theorem opAccess_misaligned {a n : Nat} (h : a % n ≠ 0) : opAccess a n = some (fMisaligned, a) := if_pos h

theorem opAccess_beyond {a n : Nat} (h : a % n = 0) (hend : opSoft < a + n) : opAccess a n = some (fOpmemProt, a) :=
  (if_neg (not_not_intro h)).trans (if_pos hend)

theorem opAccess_inside {a n : Nat} (h : a % n = 0) (hend : a + n ≤ opSoft) : opAccess a n = none :=
  (if_neg (not_not_intro h)).trans (if_neg (Nat.not_lt.2 hend))

/-- Settles O9: the address passes `opAccess` and its bytes carry no poison, so the load retires with them. -/
theorem operandLoads : Obligations.OperandLoads := by
  unfold Obligations.OperandLoads
  rintro th w s a n rfl rfl halign hend hclean
  have hinside := opAccess_inside halign hend
  refine ⟨fun h => h.answers rfl ?_, fun h => h.answers rfl ?_⟩
  all_goals
    dsimp only [wImm]
    rw [hinside]
    dsimp only
    rw [hclean]
    exact State.thRet_step h.runs w _

theorem leBytes_getD {n v j : Nat} (h : j < n) : (leBytes n v).getD j 0 = BitVec.ofNat 8 (v / 256 ^ j) := by
  induction n generalizing v j with
  | zero => omega
  | succ n ih =>
    cases j with
    | zero => simp [leBytes]
    | succ j => rw [leBytes, List.getD_cons_succ, ih (by omega), Nat.div_div_eq_div_mul, Nat.pow_succ']

theorem length_leBytes (n v : Nat) : (leBytes n v).length = n := by
  induction n generalizing v with
  | zero => rfl
  | succ n ih => rw [leBytes, List.length_cons, ih]

/-- The cell after a store by the thread of one of its slots. -/
def CellSt.stored (x : CellSt) (k a : Nat) (b : List Byte) : CellSt := { x.opWrite a b with threads := modAt k advance x.threads }

/-- A store that passes its checks writes its bytes and goes on. -/
theorem ThreadReady.stores (h : ThreadReady s th 1 0x32 w) : ∀ a, a = (s.sreg th (wRa w) + wImm w).toNat → a % wSz w = 0 → a + wSz w ≤ opSoft →
    ∃ t, exec (.sSt th w) s = .next t ∧ CellStep th.cell (·.stored th.slot a (leBytes (wSz w) (s.sreg th (wRb w)).toNat)) s t := by
  rintro a rfl halign hend
  obtain ⟨hcell, -⟩ := State.runs_bounds h.runs
  refine h.answers rfl ?_
  dsimp only
  rw [opAccess_inside halign hend]
  exact ((State.modCell_step hcell _).trans (State.modCell_step (State.modCell_lt _ hcell) _)).congr rfl

/-- Settles O32: a store is one change of its cell (`ThreadReady.stores`), whose bytes read back (`memGet_memWrite`). -/
theorem operandStore : Obligations.OperandStore := by
  unfold Obligations.OperandStore
  rintro th w s h a n ha rfl halign hend hwf
  obtain ⟨t, hexec, hcell, honly⟩ := h.stores a ha halign hend
  obtain ⟨-, hslot⟩ := State.runs_bounds h.runs
  have hread : ∀ b, memGet (t.cell th.cell).opmem b = if a ≤ b ∧ b < a + wSz w then (leBytes (wSz w) (s.sreg th (wRb w)).toNat).getD (b - a) 0
      else memGet (s.cell th.cell).opmem b := fun b => by
    rw [hcell]
    exact (memGet_memWrite _ _ _ _ hwf).trans (by rw [length_leBytes])
  have hthread : ∀ k, t.thread th.cell k = if k = th.slot ∧ th.slot < (s.cell th.cell).threads.length then advance (s.thread th.cell k)
      else s.thread th.cell k := fun k => by
    rw [State.thread, hcell]
    exact modAt_getD ..
  refine ⟨t, hexec, fun j hj => ?_, fun b hb => ?_, ?_, ?_, honly, honly.mem, fun k hk => ?_, ?_⟩
  · rw [hread, if_pos (by omega), Nat.add_sub_cancel_left, leBytes_getD hj, BitVec.toNat_ofNat]
  · rw [hread, if_neg (by omega)]
  · rw [hcell]
    exact memWrite_wf _ _ _ hwf
  · rw [hthread, if_pos ⟨rfl, hslot⟩]
  · rw [hthread, if_neg fun e => hk e.1]
  · rw [hcell]
    rfl

/-! ## Where a thread faults (R271, R278, R303) -/

/-- Every command of a thread's word issues it. -/
theorem exec_threadInstrs (th : ThreadRef) (w : W64) (s : State) : ∀ i ∈ threadInstrs th w, ∃ cls op u, exec i s = .next (s.thIssue th cls op w u) := by
  simp only [threadInstrs, List.cons_append, List.nil_append, List.forall_mem_cons, List.not_mem_nil, false_imp_iff, implies_true, and_true]
  and_intros
  all_goals exact ⟨_, _, _, rfl⟩

theorem State.thIssue_beyond (h : s.runs th = true) (hfetch : opSoft < s.pcOf th + 8) (u : State) :
    s.thIssue th cls op w u = s.thFault th fOpmemProt (s.pcOf th) := by
  rw [State.thIssue, if_neg (by simp [h]), if_pos hfetch]

theorem State.thIssue_poisoned {b : Nat} (h : s.runs th = true) (hfetch : s.pcOf th + 8 ≤ opSoft)
    (hpoison : (s.cell th.cell).opPoisoned (s.pcOf th) 8 = some b) (u : State) : s.thIssue th cls op w u = s.thFault th fPoisoned b := by
  rw [State.thIssue, if_neg (by simp [h]), if_neg (Nat.not_lt.2 hfetch), hpoison]

theorem State.thIssue_undecoded {code : Nat} (h : ThreadAt s th w) (hcode : decodeFault .core w = some code) (u : State) :
    s.thIssue th cls op w u = s.thFault th code w.toNat := by
  obtain ⟨hruns, hfetch, hclean, hword⟩ := h
  rw [State.thIssue, if_neg (by simp [hruns]), if_neg (Nat.not_lt.2 hfetch), hclean]
  dsimp only
  rw [if_neg (not_not_intro hword), hcode]

/-- A row of the table of accesses: the command checks its address, and then does what it does. -/
def IsAccess (p : (ThreadRef → W64 → Instr) × Nat) : Prop :=
  ∀ th w s, ∃ f, exec (p.1 th w) s = .next (s.thIssue th 1 p.2 w
    (match opAccess (s.sreg th (wRa w) + wImm w).toNat (wSz w) with
      | some (code, info) => s.thFault th code info
      | none => f)) ∧
    ∀ b, p.2 ≠ 0x32 → (s.cell th.cell).opPoisoned (s.sreg th (wRa w) + wImm w).toNat (wSz w) = some b → f = s.thFault th fPoisoned b

theorem IsAccess.faults {p : (ThreadRef → W64 → Instr) × Nat} (hp : IsAccess p) (h : ThreadReady s th 1 p.2 w) (a : Nat)
    (ha : a = (s.sreg th (wRa w) + (w.truncate 32).signExtend 64).toNat) :
    (a % wSz w ≠ 0 → ∃ t, exec (p.1 th w) s = .next t ∧ FaultStep th 0x0004 a s t) ∧
    (a % wSz w = 0 → opSoft < a + wSz w → ∃ t, exec (p.1 th w) s = .next t ∧ FaultStep th 0x0005 a s t) ∧
    (∀ b, p.2 ≠ 0x32 → a % wSz w = 0 → a + wSz w ≤ opSoft → (s.cell th.cell).opPoisoned a (wSz w) = some b →
      ∃ t, exec (p.1 th w) s = .next t ∧ FaultStep th 0x0040 b s t) := by
  change a = (s.sreg th (wRa w) + wImm w).toNat at ha
  obtain ⟨f, hexec, hpoison⟩ := hp th w s
  rw [← ha] at hexec hpoison
  refine ⟨fun halign => ?misaligned, fun halign hend => ?beyond, fun b hload halign hend hb => ?poisoned⟩
  case misaligned =>
    rw [opAccess_misaligned halign] at hexec
    exact h.faults hexec
  case beyond =>
    rw [opAccess_beyond halign hend] at hexec
    exact h.faults hexec
  case poisoned =>
    rw [opAccess_inside halign hend, hpoison b hload hb] at hexec
    exact h.faults hexec

/-- Settles O51: the faults before an instruction acts are the first branches of `State.thIssue`, those of its operands the first branches of what it
carries out. -/
theorem threadFaults : Obligations.ThreadFaults := by
  unfold Obligations.ThreadFaults
  refine ⟨fun th w s i hi hruns => ?before, fun th w s => ⟨fun p hp h => ?access, fun p hp h a ha halign => ?register, fun h hpc => ?jal, fun h ha => ?jalr⟩⟩
  case before =>
    obtain ⟨cls, op, u, hexec⟩ := exec_threadInstrs th w s i hi
    have hfault : ∀ {code info}, s.thIssue th cls op w u = s.thFault th code info → ∃ t, exec i s = .next t ∧ FaultStep th code info s t :=
      fun e => ⟨_, hexec.trans (congrArg _ e), State.thFault_step hruns _ _⟩
    exact ⟨fun hfetch => hfault (State.thIssue_beyond hruns hfetch u), fun b hfetch hb => hfault (State.thIssue_poisoned hruns hfetch hb u),
      fun code hat hcode => hfault (State.thIssue_undecoded hat hcode u)⟩
  case access =>
    refine IsAccess.faults ?_ h
    clear h
    revert p
    simp only [List.forall_mem_cons]
    refine ⟨fun th w s => ⟨_, rfl, fun b _ hb => ?_⟩, fun th w s => ⟨_, rfl, fun b _ hb => ?_⟩, fun th w s => ⟨_, rfl, fun b hst => absurd rfl hst⟩, nofun⟩
    · rw [hb]
    · rw [hb]
  case register =>
    simp only [List.mem_cons, List.not_mem_nil, or_false] at hp
    subst ha
    rcases hp with rfl | rfl
    · exact h.faults (congrArg (fun u => Host.Outcome.next (s.thIssue th 1 0x38 w u)) (if_pos halign))
    · exact h.faults (congrArg (fun u => Host.Outcome.next (s.thIssue th 1 0x39 w u)) (if_pos halign))
  case jal =>
    refine h.faults (congrArg (fun u => Host.Outcome.next (s.thIssue th 1 0x26 w u)) (State.sJumpTo_misaligned ?_ _))
    rwa [s.sTarget_mod_eight]
  case jalr =>
    refine h.faults (congrArg (fun u => Host.Outcome.next (s.thIssue th 1 0x27 w u)) (State.sJumpTo_misaligned ?_ _))
    rwa [toNat_add_mul_mod_eight]

end Sys2Proof.Machine

/-! PROOF. The synchronisation class (R282 to R287): flags that reach a slot, WAIT, SLEEP, YIELD, EXIT and SIGNAL, and the wakes of the scheduler
(R299, R308, R309, R312, R313). -/

namespace Sys2Proof.Machine

variable {s t : State} {th : ThreadRef} {cls op : Nat} {w : W64} {i : Instr}

/-! ## Flags that reach a slot (R282, R308, R309) -/

theorem Thread.orFlags_deaf {x : Thread} (h : x.deaf = true) (m : W32) : x.orFlags m = x := by
  simp only [Thread.deaf, Bool.or_eq_true, beq_iff_eq] at h
  unfold Thread.orFlags
  rcases h with h | h <;> rw [h]

theorem Thread.orFlags_wakes {x : Thread} {m : W32} (hstate : x.state = .waiting) (hwake : x.wake = none)
    (hmeet : flagsMeet x.modeAll x.mask (x.flags ||| m)) : x.orFlags m =
      { x with flags := if x.clr then (x.flags ||| m) &&& ~~~x.mask else x.flags ||| m, wake := some (x.flags ||| m) } := by
  unfold Thread.orFlags
  rw [hstate]
  exact if_pos (by simp [hwake, hmeet])

theorem Thread.orFlags_waits_on {x : Thread} {m : W32} (hstate : x.state = .waiting) (hmeet : flagsMeet x.modeAll x.mask (x.flags ||| m) = false) :
    x.orFlags m = { x with flags := x.flags ||| m } := by
  unfold Thread.orFlags
  rw [hstate]
  exact if_neg (by simp [hmeet])

theorem Thread.deaf_iff (x : Thread) : x.deaf = true ↔ x.state = .free ∨ x.state = .failed := by simp [Thread.deaf]

/-- Settles O52: one lemma for each kind of state (`Thread.awake.orFlags`, `Thread.orFlags_wakes`, `Thread.orFlags_waits_on`, `Thread.orFlags_deaf`). -/
theorem flagsReachSlot : Obligations.FlagsReachSlot := by
  unfold Obligations.FlagsReachSlot
  exact fun x m => ⟨fun h => Thread.awake.orFlags h m, fun hstate hwake hmeet => Thread.orFlags_wakes hstate hwake hmeet,
    fun hstate hmeet => Thread.orFlags_waits_on hstate hmeet, fun h => Thread.orFlags_deaf (x.deaf_iff.2 h) m⟩

@[simp] theorem Thread.orFlags_state (x : Thread) (m : W32) : (x.orFlags m).state = x.state := by
  unfold Thread.orFlags
  split
  case h_3 => exact (apply_ite Thread.state _ _ _).trans (ite_self _)
  all_goals rfl

/-- Every slot reads as it did, but for the flags of the one they reach. -/
theorem State.thread_flagThread (s : State) (c k d j : Nat) (m : W32) :
    (s.flagThread c k m).thread d j = if d = c ∧ j = k then (s.thread d j).orFlags m else s.thread d j := by
  unfold State.flagThread
  split
  case isTrue hdeaf =>
    split
    case isTrue h =>
      obtain ⟨rfl, rfl⟩ := h
      exact (Thread.orFlags_deaf hdeaf m).symm
    case isFalse => rfl
  case isFalse hdeaf =>
    split
    case isTrue h =>
      obtain ⟨rfl, rfl⟩ := h
      rw [State.thread_modThread_self, State.unpark_thread]
      rw [State.unpark_thread]
      exact fun hfree => hdeaf ((Thread.deaf_iff _).2 (.inl hfree))
    case isFalse h => rw [State.thread_modThread_ne _ h, State.unpark_thread]

/-- Flags change slots and the parking of a cell alone. -/
theorem State.flagThread_frame (s : State) (c k : Nat) (m : W32) :
    { s.flagThread c k m with cells := s.cells } = s ∧ SameOpmem s (s.flagThread c k m) := by
  have htoken : s.flagToken c k (s.thread c k).token m = s.flagThread c k m := if_pos rfl
  refine ⟨?_, fun d a => ?_⟩
  · unfold State.flagThread
    split <;> rfl
  · rw [← htoken, State.flagToken_part CellSt.opmem fun _ _ _ _ => rfl]

/-! ## SLEEP, YIELD, EXIT (R283, R287) -/

/-- An instruction that takes its thread off its core. -/
theorem ThreadReady.leaves {f : Thread → Thread} {st : ThState} (h : ThreadReady s th cls op w)
    (hi : exec i s = .next (s.thIssue th cls op w ((s.modThread th.cell th.slot f).modCell th.cell fun x => x.leave th.slot st))) :
    ∃ t, exec i s = .next t ∧ ReleaseStep th (fun x => entering st (s.cell th.cell).tick (f x)) s t :=
  h.answers hi (State.leave_step (State.runs_bounds h.runs).1 f st)

/-- Settles O10: each instruction leaves its core by `State.leave_step` or `State.freeSlot_step`. -/
theorem sleepYieldExit : Obligations.SleepYieldExit := by
  unfold Obligations.SleepYieldExit
  rintro th w s tick rfl
  refine ⟨fun h n hn => ⟨fun hzero => ?now, fun hmin hmax => ?later, fun hbig => ?faults⟩, fun h => h.leaves rfl,
    fun h => h.answers rfl (State.freeSlot_step (State.runs_bounds h.runs).1), fun x m hstate => Thread.awake.orFlags (.inr (.inr hstate)) m⟩
  all_goals subst hn
  case now => exact h.leaves (f := advance) (congrArg (fun u => Host.Outcome.next (s.thIssue th 2 2 w u)) (if_pos hzero))
  case later =>
    exact h.leaves (f := fun x => { advance x with
        deadline := (s.cell th.cell).tick + BitVec.ofNat 32 (s.sreg th (wRa w)).toNat, timed := true })
      (congrArg (fun u => Host.Outcome.next (s.thIssue th 2 2 w u)) ((if_neg (by omega)).trans (if_neg (by omega))))
  case faults =>
    exact h.faults (congrArg (fun u => Host.Outcome.next (s.thIssue th 2 2 w u)) ((if_neg (by omega)).trans (if_pos hbig)))

/-! ## WAIT (R282) -/

theorem flagsMeet_any (m f : W32) : flagsMeet false m f ↔ ∃ k, m.getLsbD k ∧ f.getLsbD k := by
  have hzero : f &&& m = 0 ↔ ∀ k, ¬(m.getLsbD k ∧ f.getLsbD k) := by
    refine ⟨fun h k ⟨hm, hf⟩ => ?_, fun h => BitVec.eq_of_getLsbD_eq fun k _ => ?_⟩
    · have hbit := congrArg (·.getLsbD k) h
      simp [hm, hf] at hbit
    · rw [BitVec.getLsbD_and, Bool.and_comm]
      refine Eq.trans ?_ BitVec.getLsbD_zero.symm
      exact Bool.eq_false_iff.2 fun hbit => h k (Bool.and_eq_true_iff.1 hbit)
  simp only [flagsMeet, Bool.false_eq_true, if_false, bne_iff_ne, ne_eq, hzero]
  exact not_forall_not

theorem flagsMeet_all (m f : W32) : flagsMeet true m f ↔ ∀ k, m.getLsbD k → f.getLsbD k := by
  simp only [flagsMeet, if_true, beq_iff_eq]
  refine ⟨fun h k hm => ?_, fun h => BitVec.eq_of_getLsbD_eq fun k _ => ?_⟩
  · rw [← h, BitVec.getLsbD_and, Bool.and_eq_true] at hm
    exact hm.1
  · rw [BitVec.getLsbD_and]
    cases hm : m.getLsbD k
    · exact Bool.and_false _
    · rw [h k hm, Bool.and_true]

/-- What a WAIT records in its slot. -/
def Thread.waitsFor (w : W64) (x : Thread) : Thread :=
  { x with mask := wImm32 w, modeAll := wWaitAll w, clr := wWaitClr w, waitRd := wRd w, wake := none }

/-- How a slot goes on from a WAIT that its flags satisfy. -/
def Thread.goesOnWith (w : W64) (x : Thread) : Thread := { x with flags := if wWaitClr w then x.flags &&& ~~~(wImm32 w) else x.flags, pc := x.pc + 8 }

/-- Settles O33: the branches of `State.wait`, and what `flagsMeet` says bit by bit (`flagsMeet_any`, `flagsMeet_all`). -/
theorem waitOutcomes : Obligations.WaitOutcomes := by
  unfold Obligations.WaitOutcomes
  refine ⟨fun th w s h m n hm hn => ?_, fun m f => ⟨flagsMeet_any m f, flagsMeet_all m f⟩⟩
  have hexec : ∀ {u}, (s.wait th w = s.thIssue th 2 1 w u) → exec (.wait th w) s = .next (s.thIssue th 2 1 w u) :=
    fun e => (rfl : exec (.wait th w) s = .next (s.wait th w)).trans (congrArg Host.Outcome.next e)
  subst hm hn
  refine ⟨fun hzero => ?zero, fun hmask hbig => ?big, fun hmask hfits hmeet => ?met, fun hmask hfits hmeet => ?waits⟩
  case zero => exact h.faults (hexec (congrArg (s.thIssue th 2 1 w) (if_pos hzero)))
  case big => exact h.faults (hexec (congrArg (s.thIssue th 2 1 w) ((if_neg hmask).trans (if_pos hbig))))
  case met =>
    refine h.changes (f := fun x => (x.waitsFor w |>.setReg (wRd w) (x.flags.zeroExtend 64)).goesOnWith w) _
      (hexec (congrArg (s.thIssue th 2 1 w) ((if_neg hmask).trans ((if_neg (Nat.not_le.2 hfits)).trans (if_pos hmeet))))) ?_
    unfold Thread.goesOnWith retire Thread.setReg
    split <;> rfl
  case waits =>
    exact h.leaves (f := fun x => { (x.waitsFor w) with
        timed := decide ((s.sreg th (wRb w)).toNat ≠ 0)
        deadline := if (s.sreg th (wRb w)).toNat = 0 then x.deadline else (s.cell th.cell).tick + BitVec.ofNat 32 (s.sreg th (wRb w)).toNat
        pc := x.pc + 8 })
      (hexec (congrArg (s.thIssue th 2 1 w) ((if_neg hmask).trans ((if_neg (Nat.not_le.2 hfits)).trans (if_neg (Bool.eq_false_iff.1 hmeet))))))

/-! ## SIGNAL (R284) -/

/-- A slot after a signal's flags and its sender's retirement. -/
theorem State.signal_thread (h : s.runs th) (c k d j : Nat) (m : W32) (v : W64) : ((s.flagThread c k m).thRet th (wRd w) v).thread d j =
    if d = th.cell ∧ j = th.slot then Machine.retire w v ((s.flagThread c k m).thread th.cell th.slot) else (s.flagThread c k m).thread d j := by
  rw [State.thRet_eq_modThread]
  split
  case isTrue hsender =>
    obtain ⟨rfl, rfl⟩ := hsender
    refine State.thread_modThread_self _ ?_
    rw [State.thread_flagThread, apply_ite Thread.state, Thread.orFlags_state, ite_self]
    exact State.runs_not_free h
  case isFalse hother => exact State.thread_modThread_ne _ hother

/-- Settles O34: the sender retires (`State.signal_thread`), and the flags reach their slot alone (`State.thread_flagThread`, `State.flagThread_frame`). -/
theorem signalDelivers : Obligations.SignalDelivers := by
  unfold Obligations.SignalDelivers
  rintro th w s h a c k ha rfl rfl
  have hexec : ∀ {u}, (s.signal th w = s.thIssue th 2 4 w u) → exec (.signal th w) s = .next (s.thIssue th 2 4 w u) :=
    fun e => (rfl : exec (.signal th w) s = .next (s.signal th w)).trans (congrArg Host.Outcome.next e)
  have hinside : a / 64 < 192 → ¬(2 ^ 14 ≤ a ∨ 192 ≤ a / 64) := by omega
  refine ⟨fun hbeyond => ?beyond, fun hc hdeaf => ?deaf, fun hc hfree hfailed => ?taken⟩
  case beyond =>
    subst ha
    exact h.faults (hexec (congrArg (s.thIssue th 2 4 w) (if_pos (.inr hbeyond))))
  case deaf =>
    refine h.answers rfl ?_
    dsimp only
    rw [← ha, if_neg (hinside hc), State.signalTo, if_pos ((Thread.deaf_iff _).2 hdeaf)]
    exact State.thRet_step h.runs w 1
  case taken =>
    refine h.answers rfl ?_
    dsimp only
    rw [← ha, if_neg (hinside hc), State.signalTo, if_neg fun hdeaf => ((Thread.deaf_iff _).1 hdeaf).elim hfree hfailed]
    obtain ⟨hdevice, hopmem⟩ := s.flagThread_frame (a / 64) (a % 64) (wImm32 w)
    have hthread := fun d j => State.signal_thread (w := w) h.runs (a / 64) (a % 64) d j (wImm32 w) 0
    simp only [State.thread_flagThread] at hthread
    dsimp only
    refine ⟨?sender, fun hother => ?receiver, fun d j hdj hsender => ?others, ?device, ?opmem⟩
    case sender =>
      rw [if_pos rfl, hthread, if_pos ⟨rfl, rfl⟩]
      by_cases hself : th.cell = a / 64 ∧ th.slot = a % 64
      · rw [if_pos hself, if_pos ⟨hself.1.symm, hself.2.symm⟩, hself.1, hself.2]
        rfl
      · rw [if_neg hself, if_neg fun e => hself ⟨e.1.symm, e.2.symm⟩]
    case receiver => exact (hthread _ _).trans ((if_neg hother).trans (if_pos ⟨rfl, rfl⟩))
    case others => exact (hthread _ _).trans ((if_neg hsender).trans (if_neg hdj))
    case device => exact hdevice
    case opmem =>
      intro d b
      rw [State.thRet_eq_modThread, State.modThread, State.cell_modCell_part CellSt.opmem (by exact fun _ => rfl)]
      exact hopmem d b

/-! ## Satisfied waits and due deadlines (R299, R309, R312, R313) -/

/-- A waiter at the end of its wait: its statistics, the value for its rd, and its entry into READY. -/
def Thread.woken (tick : W32) (v : W64) (x : Thread) : Thread :=
  entering .ready tick { { x with evwait := tick - x.entered }.setReg x.waitRd v with wake := none, timed := false }

theorem Thread.woken_fields (tick : W32) (v : W64) (x : Thread) : (x.woken tick v).state = .ready ∧
    (x.woken tick v).regs = (x.setReg x.waitRd v).regs ∧ (x.woken tick v).flags = x.flags ∧ (x.woken tick v).timed = false ∧
    (x.woken tick v).pc = x.pc := by
  unfold Thread.woken entering Thread.setReg
  split <;> exact ⟨rfl, rfl, rfl, rfl, rfl⟩

@[simp] theorem Thread.setReg_wake (x : Thread) (r : Nat) (v : W64) : (x.setReg r v).wake = x.wake := by unfold Thread.setReg; split <;> rfl

/-- The wait statistics show in EVWAIT of the waiter's slot, and in no other part of a cell. -/
theorem State.endEventWait_cells (s : State) (c k : Nat) : (s.endEventWait c k).cells =
    (s.modThread c k fun x => { x with evwait := (s.cell c).tick - (s.thread c k).entered }).cells := by
  unfold State.endEventWait
  extract_lets x n
  exact ((State.count_reportsOnly ..).part_eq State.cells).trans ((State.count_reportsOnly ..).part_eq State.cells)

/-- The end of a wait as one change of its slot. -/
theorem State.endWait_cells {c k : Nat} {f : Thread → Thread} {v : W64}
    (hf : ∀ x : Thread, x.wake = (s.thread c k).wake → f x = { x.setReg x.waitRd v with wake := none, timed := false }) :
    (((s.endEventWait c k).modThread c k f).modCell c fun x => x.enter k .ready).cells = (s.modThread c k (Thread.woken (s.cell c).tick v)).cells := by
  obtain ⟨u, hu⟩ : ∃ u, u = s.modThread c k fun x => { x with evwait := (s.cell c).tick - (s.thread c k).entered } := ⟨_, rfl⟩
  have hcells : (s.endEventWait c k).cells = u.cells := (s.endEventWait_cells c k).trans (congrArg State.cells hu).symm
  have htick : ((s.endEventWait c k).cell c).tick = (s.cell c).tick := by
    rw [State.cell, hcells, hu]
    exact State.cell_modCell_part CellSt.tick (by exact fun _ => rfl) s c c
  have hmod : ∀ g, ((s.endEventWait c k).modThread c k g).cells = (u.modThread c k g).cells := fun g => by
    rw [State.modThread_cells, State.modThread_cells, hcells]
  rw [State.enter_modThread, hmod, htick, hu, State.modThread_modThread]
  exact congrArg State.cells (State.modThread_congr (congrArg (entering .ready (s.cell c).tick) (hf _ rfl)))

/-- THREAD_WAKE is the end of the wait, with the flags that satisfied it. -/
theorem State.threadWake_cells {f : W32} (hstate : (s.thread th.cell th.slot).state = .waiting) (hwake : (s.thread th.cell th.slot).wake = some f)
    (hsched : s.schedules th.cell) :
    (s.threadWake th).cells = (s.modThread th.cell th.slot (Thread.woken (s.cell th.cell).tick (f.zeroExtend 64))).cells := by
  unfold State.threadWake
  dsimp only
  rw [hstate, hwake]
  dsimp only
  rw [if_pos hsched]
  exact State.endWait_cells fun _ _ => rfl

/-- A slot after the check of its deadline. -/
def Thread.dueAt (tick : W32) (x : Thread) : Thread :=
  if !x.timed || !deadlineDue tick x.deadline then x
  else match x.state with
    | .sleeping => entering .ready tick { x with timed := false }
    | .waiting => if x.wake.isSome then x else x.woken tick 0
    | _ => x

section
variable {x : Thread} {tick : W32}

theorem Thread.dueAt_not_due (h : ¬(x.timed ∧ (tick - x.deadline).toNat < 2 ^ 31)) : x.dueAt tick = x :=
  if_pos (by simpa [deadlineDue, -not_and, not_and_or] using h)

theorem Thread.dueAt_due (h : x.timed ∧ (tick - x.deadline).toNat < 2 ^ 31) : x.dueAt tick = match x.state with
    | .sleeping => entering .ready tick { x with timed := false }
    | .waiting => if x.wake.isSome then x else x.woken tick 0
    | _ => x := if_neg (by simpa [deadlineDue] using h)

theorem Thread.dueAt_sleeping (h : x.timed ∧ (tick - x.deadline).toNat < 2 ^ 31) (hstate : x.state = .sleeping) :
    x.dueAt tick = entering .ready tick { x with timed := false } := by rw [Thread.dueAt_due h, hstate]

theorem Thread.dueAt_waiting (h : x.timed ∧ (tick - x.deadline).toNat < 2 ^ 31) (hstate : x.state = .waiting) (hwake : x.wake = none) :
    x.dueAt tick = x.woken tick 0 := by
  rw [Thread.dueAt_due h, hstate]
  exact if_neg (by simp [hwake])

theorem Thread.dueAt_satisfied (hstate : x.state = .waiting) (hwake : x.wake ≠ none) : x.dueAt tick = x := by
  unfold Thread.dueAt
  rw [hstate]
  split
  · rfl
  · exact if_pos (Option.isSome_iff_ne_none.2 hwake)

theorem Thread.dueAt_neither (hwaiting : x.state ≠ .waiting) (hsleeping : x.state ≠ .sleeping) : x.dueAt tick = x := by
  unfold Thread.dueAt
  split
  · rfl
  · split
    · exact absurd ‹_› hsleeping
    · exact absurd ‹_› hwaiting
    · rfl

end

/-- The check of a deadline is a change of its slot alone, but for the counts. -/
theorem State.deadlineOf_cells (s : State) (c k : Nat) : (s.deadlineOf c k).cells = (s.modThread c k (Thread.dueAt (s.cell c).tick)).cells := by
  have hleft : (s.thread c k).dueAt (s.cell c).tick = s.thread c k → s.cells = (s.modThread c k (Thread.dueAt (s.cell c).tick)).cells := fun h =>
    congrArg State.cells (State.modThread_eq_self h).symm
  unfold State.deadlineOf
  extract_lets x
  split
  case isTrue hnot => exact hleft (if_pos hnot)
  case isFalse hnot =>
    have hdue : x.timed ∧ ((s.cell c).tick - x.deadline).toNat < 2 ^ 31 := by simpa [deadlineDue] using hnot
    cases hstate : x.state with
    | sleeping => exact (congrArg State.cells ((s.enter_modThread ..).trans (State.modThread_congr (Thread.dueAt_sleeping hdue hstate).symm)))
    | waiting =>
      dsimp only
      split
      case isTrue hwake => exact hleft (Thread.dueAt_satisfied hstate (Option.isSome_iff_ne_none.1 hwake))
      case isFalse hwake =>
        have hnone : x.wake = none := by simpa using hwake
        refine (State.endWait_cells (v := 0) fun y hy => ?_).trans
          (congrArg State.cells (State.modThread_congr (Thread.dueAt_waiting hdue hstate hnone).symm))
        rw [← hnone, ← hy, ← Thread.setReg_wake y y.waitRd 0]
    | free | ready | running | failed => exact hleft (Thread.dueAt_neither (fun e => nomatch hstate.symm.trans e) (fun e => nomatch hstate.symm.trans e))

theorem State.deadlineOf_tick (s : State) (c k : Nat) : ((s.deadlineOf c k).cell c).tick = (s.cell c).tick := by
  rw [State.cell, State.deadlineOf_cells]
  exact State.cell_modCell_part CellSt.tick (by exact fun _ => rfl) s c c

theorem State.deadlineOf_thread (s : State) (c k j : Nat) :
    (s.deadlineOf c k).thread c j = if j = k then (s.thread c j).dueAt (s.cell c).tick else s.thread c j := by
  rw [State.thread, State.cell, State.deadlineOf_cells]
  change (s.modThread c k _).thread c j = _
  split
  case isTrue h =>
    subst h
    by_cases hfree : (s.thread c j).state = .free
    · have hsame : (s.thread c j).dueAt (s.cell c).tick = s.thread c j :=
        Thread.dueAt_neither (fun e => nomatch hfree.symm.trans e) (fun e => nomatch hfree.symm.trans e)
      rw [State.modThread_eq_self hsame, hsame]
    · exact State.thread_modThread_self _ hfree
  case isFalse h => exact State.thread_modThread_ne _ fun e => h e.2

/-- The slots of a cell after the checks of the first `n` deadlines. -/
theorem State.deadlines_thread (s : State) (c n : Nat) : ∀ u, u = (List.range n).foldl (fun s k => s.deadlineOf c k) s →
    (u.cell c).tick = (s.cell c).tick ∧ ∀ k, u.thread c k = if k < n then (s.thread c k).dueAt (s.cell c).tick else s.thread c k := by
  induction n with
  | zero =>
    rintro u rfl
    exact ⟨rfl, fun _ => rfl⟩
  | succ n ih =>
    rintro u rfl
    obtain ⟨htick, hthread⟩ := ih _ rfl
    rw [List.range_succ, List.foldl_append, List.foldl_cons, List.foldl_nil]
    refine ⟨(State.deadlineOf_tick ..).trans htick, fun k => ?_⟩
    rw [State.deadlineOf_thread, hthread, htick]
    rcases Nat.lt_trichotomy k n with hlt | rfl | hgt
    · rw [if_neg (Nat.ne_of_lt hlt), if_pos hlt, if_pos (Nat.lt_succ_of_lt hlt)]
    · rw [if_pos rfl, if_neg (Nat.lt_irrefl k), if_pos (Nat.lt_succ_self k)]
    · rw [if_neg (Nat.ne_of_gt hgt), if_neg (Nat.not_lt_of_gt hgt), if_neg (by omega)]

/-- Settles O37: a wake is the end of its wait (`State.threadWake_cells`), and the deadlines of a cell change each slot by `Thread.dueAt`
(`State.deadlines_thread`). -/
theorem waitersWake : Obligations.WaitersWake := by
  unfold Obligations.WaitersWake
  refine ⟨fun th s f hstate hwake hsched => ⟨_, rfl, ?wake⟩, fun c s hsched => ⟨_, rfl, fun k hk => ?due⟩⟩
  case wake =>
    have hcells := State.threadWake_cells hstate hwake hsched
    have hthread : ∀ k, (s.threadWake th).thread th.cell k =
        (s.modThread th.cell th.slot (Thread.woken (s.cell th.cell).tick (f.zeroExtend 64))).thread th.cell k := fun k =>
      congrArg (fun l : List CellSt => (l.getD th.cell CellSt.reset).thread k) hcells
    have hnotFree : (s.thread th.cell th.slot).state ≠ .free := fun e => nomatch hstate.symm.trans e
    have hslot := (hthread th.slot).trans (State.thread_modThread_self _ hnotFree)
    obtain ⟨hready, hregs, hflags, htimed, hpc⟩ := (s.thread th.cell th.slot).woken_fields (s.cell th.cell).tick (f.zeroExtend 64)
    rw [hslot]
    refine ⟨hready, hregs, hflags, htimed, hpc, fun u hu => (hthread u).trans (State.thread_modThread_ne _ fun e => hu e.2), fun d a => ?_⟩
    rw [State.cell, hcells]
    exact congrArg (memGet · a) (State.cell_modCell_part CellSt.opmem (by exact fun _ => rfl) s th.cell d)
  case due =>
    have hthread : (s.deadlinesDue c).thread c k = (s.thread c k).dueAt (s.cell c).tick := by
      rw [State.deadlinesDue, if_pos hsched, (s.deadlines_thread c 64 _ rfl).2, if_pos hk]
    rw [hthread]
    refine ⟨fun hdue hstate => Thread.dueAt_sleeping hdue hstate, fun hdue hstate hwake => ?_, fun hdue => Thread.dueAt_not_due hdue,
      fun hstate hwake => Thread.dueAt_satisfied hstate hwake, fun hwaiting hsleeping => Thread.dueAt_neither hwaiting hsleeping⟩
    rw [Thread.dueAt_waiting hdue hstate hwake]
    exact Thread.woken_fields ..

end Sys2Proof.Machine

/-! PROOF. POST (R287, R432) and FENCE (R281, R325 to R328): the event buffer when it has room and when it is full, what cleaning the lines of a cell
and writing back the add buffers leave, and PostAndFence. -/

namespace Sys2Proof.Machine

variable {s t : State} {th : ThreadRef} {cls op : Nat} {w : W64} {c : Nat}

/-! ## The event buffer (R432) -/

@[simp] theorem State.rawCount_eth (s : State) (k n : Nat) : (s.rawCount k n).eth = s.eth := by
  unfold State.rawCount
  extract_lets v u
  split <;> rfl

theorem State.pushEvent_room (kind source : Nat) (data : BitVec 160) (hroom : s.eth.events.length < eventDepth) (hlost : s.eth.lost = 0) :
    s.pushEvent kind source data = s.modEth fun e => { e with events := e.events ++ [⟨⟨kind, source, s.timebase, data⟩, none⟩] } := by
  unfold State.pushEvent
  extract_lets put u
  have hu : u = s := if_neg fun h => h.1 hlost
  rw [hu]
  exact if_pos hroom

/-- A full buffer drops the record. -/
theorem State.pushEvent_full (kind source : Nat) (data : BitVec 160) (hfull : eventDepth ≤ s.eth.events.length) :
    (s.pushEvent kind source data).eth.events = s.eth.events := by
  unfold State.pushEvent
  extract_lets put u
  have hu : u = s := if_neg fun h => Nat.not_lt.2 hfull h.2
  rw [hu, if_neg (Nat.not_lt.2 hfull), State.rawCount_eth]
  rfl

theorem State.report_full (r : Report) (hfull : eventDepth ≤ s.eth.events.length) : (s.report r).eth.events = s.eth.events := by
  have hlookout : (s.lookoutReport r).eth.events = s.eth.events := by
    unfold State.lookoutReport
    split
    · split
      · rfl
      · exact State.pushEvent_full (s := { s with recent := _ }) _ _ _ hfull
    · exact State.pushEvent_full _ _ _ hfull
  unfold State.report
  extract_lets b k
  split
  · rfl
  · split
    · rfl
    · split
      · rfl
      · exact hlookout

theorem State.count_full (k n : Nat) (hfull : eventDepth ≤ s.eth.events.length) : (s.count k n).eth.events = s.eth.events := by
  have hraw : (s.rawCount k n).eth.events = s.eth.events := by rw [State.rawCount_eth]
  unfold State.count
  extract_lets wraps u
  split
  · exact (State.report_full _ (hraw ▸ hfull)).trans hraw
  · exact hraw

theorem State.schEvent_reportsOnly (s : State) (c bit code info : Nat) : ReportsOnly s (s.schEvent c bit code info) := by
  unfold State.schEvent
  extract_lets u
  have hu : ReportsOnly s u := rfl
  split
  · exact hu.report
  · exact hu

theorem State.schEvent_full (c bit code info : Nat) (hfull : eventDepth ≤ s.eth.events.length) : (s.schEvent c bit code info).eth.events = s.eth.events := by
  unfold State.schEvent
  extract_lets u
  have hu : u.eth.events = s.eth.events := rfl
  split
  · exact (State.report_full _ (hu ▸ hfull)).trans hu
  · exact hu

theorem State.cnt_schEvent (h : s.Good) {j : Nat} (hj : j ≠ kEth 14) (c bit code info : Nat) : (s.schEvent c bit code info).cnt j = s.cnt j := by
  unfold State.schEvent
  extract_lets u
  have hu : u.Good := (Kept.refl s).setBits.good h
  split
  · exact State.cnt_report hu hj _
  · rfl

/-! ## POST (R287) -/

theorem State.pushEvent_reportsOnly (s : State) (kind source : Nat) (data : BitVec 160) : ReportsOnly s (s.pushEvent kind source data) := .pushEvent rfl

theorem ReportsOnly.thread {d k : Nat} (h : ReportsOnly s t) : t.thread d k = s.thread d k := h.part_eq (State.thread · d k)

/-- A thread that runs goes on, whatever was counted and reported meanwhile. -/
theorem State.thNext_after (h : s.runs th) (hsame : t.thread th.cell th.slot = s.thread th.cell th.slot) :
    (t.thNext th id).thread th.cell th.slot = Machine.advance (s.thread th.cell th.slot) := by
  rw [← hsame]
  exact State.thread_modThread_self _ (hsame ▸ State.runs_not_free h)

/-- A POST that finds the buffer full. -/
def State.postDropped (s : State) (th : ThreadRef) (data : BitVec 160) : State :=
  let u := (s.pushEvent kPost (srcCell th.cell) data).fresh
  (u.2.countC th.cell cPostDrop 1).schEvent th.cell 1 (u.1.toNat % 65536) th.slot

/-- The data of a POST's record: ra and the tag. -/
def State.postData (s : State) (th : ThreadRef) (w : W64) : BitVec 160 := BitVec.ofNat 160 ((s.sreg th (wRa w)).toNat + (wImm32 w).toNat * 2 ^ 64)

theorem State.post_eq (hfits : (wImm32 w).toNat < 65536) : s.post th w = s.thIssue th 2 9 w
    ((if s.eth.events.length + (if s.eth.lost = 0 then 0 else 1) < eventDepth then s.pushEvent kPost (srcCell th.cell) (s.postData th w)
      else s.postDropped th (s.postData th w)).thNext th id) := by
  refine congrArg (s.thIssue th 2 9 w) ((if_neg (Nat.not_le.2 hfits)).trans (congrArg (fun u => State.thNext u th id) ?_))
  exact if_congr decide_eq_true_iff rfl rfl

theorem State.postDropped_thread (s : State) (th : ThreadRef) (data : BitVec 160) (d k : Nat) :
    (s.postDropped th data).thread d k = s.thread d k := by
  unfold State.postDropped
  extract_lets u
  have hpush : u.2.thread d k = s.thread d k := (s.pushEvent_reportsOnly kPost (srcCell th.cell) data).thread
  exact (State.schEvent_reportsOnly ..).thread.trans ((State.count_reportsOnly ..).thread.trans hpush)

theorem State.postDropped_full (hfull : eventDepth ≤ s.eth.events.length) (data : BitVec 160) :
    (s.postDropped th data).eth.events = s.eth.events := by
  unfold State.postDropped
  extract_lets u
  have hpush : u.2.eth.events = s.eth.events := State.pushEvent_full kPost (srcCell th.cell) data hfull
  have hcount : (u.2.countC th.cell cPostDrop 1).eth.events = s.eth.events := (State.count_full _ _ (hpush ▸ hfull)).trans hpush
  exact (State.schEvent_full _ _ _ _ (hcount ▸ hfull)).trans hcount

theorem State.postDropped_cnt (h : s.Good) (data : BitVec 160) :
    (s.postDropped th data).cnt (kCell th.cell cPostDrop) = s.cnt (kCell th.cell cPostDrop) + 1 := by
  have hkey : kCell th.cell cPostDrop ≠ kEth 14 := kCell_ne_kEth (by decide)
  unfold State.postDropped
  extract_lets u
  have hu : Kept s u.2 := (Kept.refl s).pushEvent.fresh
  have hpush : u.2.cnt (kCell th.cell cPostDrop) = s.cnt (kCell th.cell cPostDrop) := State.cnt_pushEvent h hkey ..
  exact (State.cnt_schEvent (hu.countC.good h) hkey ..).trans ((State.cnt_count (hu.good h) hkey 1).trans (congrArg (· + 1) hpush))

/-! ## The lines of a cell written back (R327) -/

/-- Every slot of every cell is as it was. -/
def SameThreads (s t : State) : Prop := ∀ d, (t.cell d).threads = (s.cell d).threads

section
variable {s₀ : State}

theorem SameThreads.refl (s : State) : SameThreads s s := fun _ => rfl

theorem SameThreads.thread (h : SameThreads s t) (d k : Nat) : t.thread d k = s.thread d k := congrArg (·.getD k Thread.reset) (h d)

theorem SameThreads.of_cells (h : SameThreads s₀ s) (cells : t.cells = s.cells) : SameThreads s₀ t := fun d =>
  (congrArg (·.getD d CellSt.reset |>.threads) cells).trans (h d)

theorem SameThreads.reports (h : SameThreads s₀ s) (hr : ReportsOnly s t) : SameThreads s₀ t := h.of_cells (hr.part_eq State.cells)

theorem SameThreads.modCc {f : CacheSt → CacheSt} (h : SameThreads s₀ s) : SameThreads s₀ (s.modCc c f) := fun d =>
  (State.cell_modCell_part CellSt.threads (f := fun x => { x with cc := f x.cc }) (fun _ => rfl) s c d).trans (h d)

theorem SameThreads.ite {P : Prop} [Decidable P] (hs : SameThreads s₀ s) (ht : SameThreads s₀ t) : SameThreads s₀ (if P then s else t) := by
  split
  · exact hs
  · exact ht

theorem SameThreads.errBump {a : Nat} (h : SameThreads s₀ s) : SameThreads s₀ (s.errBump a) := h.of_cells rfl

theorem SameThreads.seeClass {k : Nat} (h : SameThreads s₀ s) : SameThreads s₀ (s.seeClass k) := .ite (h.of_cells rfl) h

theorem SameThreads.raise {source kind code k info : Nat} (h : SameThreads s₀ s) : SameThreads s₀ (s.raise source kind code k info) :=
  h.reports (s.raise_reportsOnly ..)

theorem SameThreads.checkTag {set way : Nat} (h : SameThreads s₀ s) : SameThreads s₀ (s.checkTag c set way) := by
  unfold State.checkTag
  split
  · exact h
  · exact .ite h (.ite h.modCc.errBump.seeClass.raise h.modCc.errBump.seeClass)

theorem SameThreads.checkSet {set : Nat} (h : SameThreads s₀ s) : SameThreads s₀ (s.checkSet c set) :=
  List.foldlRecOn _ _ h fun _ h _ _ => h.checkTag

theorem SameThreads.checkLine {la : Nat} (h : SameThreads s₀ s) : SameThreads s₀ (s.checkLine c la) := by
  dsimp only [State.checkLine]
  split
  · exact h.checkSet
  · split
    · exact h.checkSet.modCc.errBump.seeClass
    · exact .ite h.checkSet.modCc.errBump.seeClass.raise h.checkSet.modCc.errBump.seeClass
    · exact h.checkSet

theorem SameThreads.writeBack {l : Line} (h : SameThreads s₀ s) : SameThreads s₀ (s.writeBack c l) := by
  dsimp only [State.writeBack]
  split
  · exact h
  · exact h.of_cells rfl

theorem SameThreads.fenceClean (h : SameThreads s₀ s) : SameThreads s₀ (s.fenceClean c) := by
  have hprobe : SameThreads s₀ (s.probe c fun _ => true) := List.foldlRecOn _ _ h fun _ h _ _ => h.checkSet
  have hclean : SameThreads s₀ (s.cleanLines c fun _ => true).2 := by
    refine List.foldlRecOn _ _ hprobe fun u hu l _ => ?_
    dsimp only
    split
    · exact hu.checkLine.writeBack.modCc
    · exact hu.checkLine
  exact hclean.reports (State.count_reportsOnly ..)

end

/-! ## The add buffers written back (R367) -/

/-- A slot that is not as a slot after reset lies in a cell and a slot that there are. -/
theorem State.thread_lt_of_ne_reset {k : Nat} (h : s.thread c k ≠ Thread.reset) : c < s.cells.length ∧ k < (s.cell c).threads.length := by
  constructor
  · by_contra hc
    rw [State.thread, State.cell_beyond (Nat.le_of_not_lt hc), CellSt.thread_reset] at h
    exact h rfl
  · by_contra hk
    exact h (List.getD_eq_default _ _ (Nat.le_of_not_lt hk))

theorem State.addFlush_parts (s : State) (la : Nat) : (s.addFlush la).cells = s.cells ∧ (s.addFlush la).mem = s.mem ∧
    (s.addFlush la).landings.length = s.landings.length := by
  unfold State.addFlush
  extract_lets l
  split
  · have hcount := State.count_reportsOnly (s.modLanding l fun x => { x with adds := x.adds.filter (· != la) }) (kLnd l 1) 1
    exact ⟨hcount.part_eq State.cells, hcount.part_eq State.mem, (congrArg List.length (hcount.part_eq State.landings)).trans (modAt_length ..)⟩
  · exact ⟨rfl, rfl, rfl⟩

theorem State.addFlushAll_parts (s : State) : s.addFlushAll.cells = s.cells ∧ s.addFlushAll.mem = s.mem :=
  ⟨foldl_part State.cells _ _ fun u la => (u.addFlush_parts la).1, foldl_part State.mem _ _ fun u la => (u.addFlush_parts la).2.1⟩

/-- The counters of a landing that there is lie below those of every cell. -/
theorem kCell_ne_kLnd {c i l j : Nat} (hl : l < 12) (hj : j ≤ 15) : kCell c i ≠ kLnd l j := by
  unfold kCell cellBase kLnd lndBase
  omega

theorem State.cnt_addFlush (h : s.Good) (hlen : s.landings.length ≤ 12) (la i : Nat) : (s.addFlush la).cnt (kCell c i) = s.cnt (kCell c i) := by
  unfold State.addFlush
  extract_lets l
  split
  case isTrue hadds =>
    have hl : l < s.landings.length := by
      by_contra hl
      rw [State.landing, List.getD_eq_default _ _ (Nat.le_of_not_lt hl)] at hadds
      simp [Landing.reset] at hadds
    exact State.cnt_count_ne ((Kept.refl s).modLanding.good h) (kCell_ne_kLnd (by omega) (by decide)) (kCell_ne_kEth (by decide)) 1
  case isFalse => rfl

theorem State.cnt_addFlushAll (h : s.Good) (hlen : s.landings.length ≤ 12) (i : Nat) : s.addFlushAll.cnt (kCell c i) = s.cnt (kCell c i) := by
  have hall : s.addFlushAll.Good ∧ s.addFlushAll.landings.length = s.landings.length ∧ s.addFlushAll.cnt (kCell c i) = s.cnt (kCell c i) := by
    refine List.foldlRecOn (motive := fun u : State => u.Good ∧ u.landings.length = s.landings.length ∧ u.cnt (kCell c i) = s.cnt (kCell c i)) _ _ ⟨h, rfl, rfl⟩
      fun u ⟨hgood, hlandings, hcnt⟩ la _ => ?_
    exact ⟨(Kept.refl u).addFlush.good hgood, (u.addFlush_parts la).2.2.trans hlandings,
      (State.cnt_addFlush hgood (hlandings ▸ hlen) la i).trans hcnt⟩
  exact hall.2.2

/-! ## The start of a FENCE (R281) -/

/-- What a FENCE records in its slot. -/
def State.fenceMark (s : State) (th : ThreadRef) (w : W64) : FenceWait := { scope := wScope w, covers := s.fenceCovers th (wKind w) }

def Thread.waitsOnFence (f : FenceWait) (x : Thread) : Thread := { x with fence := some f }

theorem Thread.waitsOnFence_pc (f : FenceWait) (x : Thread) : (x.waitsOnFence f).pc = x.pc := rfl

theorem ThreadReady.fence_marks (h : ThreadReady s th 2 0 w) : exec (.fence th w) s =
    .next ((if wScope w = 0 then s else s.fenceClean th.cell).modThread th.cell th.slot
      (Thread.waitsOnFence ((if wScope w = 0 then s else s.fenceClean th.cell).fenceMark th w))) :=
  congrArg Host.Outcome.next (State.thIssue_ready h _)

/-! ## The end of a FENCE (R281, R327, R328) -/

/-- The state in which a FENCE has been acknowledged, and is not counted yet. -/
def State.fenceEnded (s : State) (th : ThreadRef) (scope : Nat) : State :=
  (if scope = 0 then s else s.addFlushAll).thNext th fun x => { x with fence := none }

theorem State.fenceComplete_ends {f : FenceWait} (hactive : s.active) (hup : s.cellUp th.cell) (hf : (s.thread th.cell th.slot).fence = some f)
    (hcovers : f.covers.all (s.visible f.scope))
    (hclean : f.scope = 0 ∨ (s.dirtyLines th.cell (fun _ => true) = [] ∧ s.backsOut th.cell (fun _ => true) = [])) :
    s.fenceComplete th = (s.fenceEnded th f.scope).countC th.cell cFence 1 := by
  have hdirty : ¬(f.scope ≠ 0 ∧ s.dirtyLines th.cell (fun _ => true) ≠ []) := fun h => hclean.elim h.1 fun e => h.2 e.1
  have hbacks : ¬(f.scope ≠ 0 ∧ s.backsOut th.cell (fun _ => true) ≠ []) := fun h => hclean.elim h.1 fun e => h.2 e.2
  unfold State.fenceComplete
  extract_lets x
  rw [show x.fence = some f from hf]
  dsimp only
  rw [if_pos (by simp [hactive, hup, hcovers]), if_neg hdirty, if_neg hbacks]
  rfl

/-- What an acknowledged FENCE leaves: its thread goes on, and memory reads as before. -/
theorem State.fenceEnded_parts {f : FenceWait} (hf : (s.thread th.cell th.slot).fence = some f) (scope : Nat) : ∀ u, u = s.fenceEnded th scope →
    u.thread th.cell th.slot = { Machine.advance (s.thread th.cell th.slot) with fence := none } ∧ SameMemory s u ∧ SameOpmem s u := by
  rintro u rfl
  obtain ⟨v, hv⟩ : ∃ v, v = if scope = 0 then s else s.addFlushAll := ⟨_, rfl⟩
  have hcells : v.cells = s.cells := by
    rw [hv]
    split
    · rfl
    · exact s.addFlushAll_parts.1
  have hmem : v.mem = s.mem := by
    rw [hv]
    split
    · rfl
    · exact s.addFlushAll_parts.2
  have hcell : ∀ d, v.cell d = s.cell d := fun d => congrArg (·.getD d CellSt.reset) hcells
  have hthread : v.thread th.cell th.slot = s.thread th.cell th.slot := congrArg (·.thread th.slot) (hcell th.cell)
  have hthere := State.thread_lt_of_ne_reset (s := v) (c := th.cell) (k := th.slot) fun e => by
    rw [← hthread, e] at hf
    cases hf
  rw [State.fenceEnded, ← hv]
  refine ⟨?_, fun a => congrArg (memGet · a) hmem, fun d a => ?_⟩
  · rw [← hthread]
    exact (State.thread_modThread ..).trans (if_pos ⟨rfl, hthere.1, rfl, hthere.2⟩)
  · rw [← hcell d]
    exact congrArg (memGet · a) (State.cell_modCell_part CellSt.opmem (by exact fun _ => rfl) v th.cell d)

theorem State.fenceEnded_cnt (h : s.Good) (hlen : s.landings.length ≤ 12) (scope i : Nat) :
    (s.fenceEnded th scope).Good ∧ (s.fenceEnded th scope).cnt (kCell c i) = s.cnt (kCell c i) := by
  have hkept : Kept s (if scope = 0 then s else s.addFlushAll) := .ite (.refl s) (Kept.refl s).addFlushAll
  refine ⟨hkept.thNext.good h, ?_⟩
  change (if scope = 0 then s else s.addFlushAll).cnt (kCell c i) = _
  split
  · rfl
  · exact State.cnt_addFlushAll h hlen i

/-! ## The statement -/

/-- Settles O35: a POST goes by the event buffer (`State.pushEvent_room`, `State.postDropped`); a FENCE marks its slot, the cleaning of lines leaving
the slots (`SameThreads.fenceClean`), and ends by `State.fenceComplete_ends`. -/
theorem postAndFence : Obligations.PostAndFence := by
  unfold Obligations.PostAndFence
  refine ⟨fun th w s h tag htag => ?post, fun th w s => ⟨fun h hscope => ?cell, fun h hscope => ?wider, fun f hactive hup hgood hf hcovers hclean => ?ends⟩⟩
  case post =>
    subst htag
    have hexec : ∀ {u}, s.post th w = s.thIssue th 2 9 w u → exec (.post th w) s = .next (s.thIssue th 2 9 w u) := fun e =>
      (rfl : exec (.post th w) s = .next (s.post th w)).trans (congrArg Host.Outcome.next e)
    refine ⟨fun hbig => ?big, fun hfits hroom hlost => h.answers (hexec (State.post_eq hfits)) ?room,
      fun hfits hfull hgood => h.answers (hexec (State.post_eq hfits)) ?full⟩
    case big => exact h.faults (hexec (congrArg (s.thIssue th 2 9 w) (if_pos hbig)))
    case room =>
      rw [if_pos (by rw [if_pos hlost]; exact hroom), State.pushEvent_room _ _ _ hroom hlost]
      exact ⟨rfl, State.thNext_after h.runs rfl⟩
    case full =>
      change eventDepth ≤ s.eth.events.length at hfull
      rw [if_neg (Nat.not_lt.2 (Nat.le_trans hfull (Nat.le_add_right _ _)))]
      exact ⟨State.postDropped_full hfull _, State.postDropped_cnt hgood _, State.thNext_after h.runs (s.postDropped_thread ..)⟩
  case cell =>
    have hfence := h.fence_marks
    rw [if_pos hscope, State.fenceMark, hscope] at hfence
    exact ⟨_, hfence, State.modThread_step h.runs _⟩
  case wider =>
    have hfence := h.fence_marks
    rw [if_neg hscope] at hfence
    have hkept : SameThreads s (s.fenceClean th.cell) := (SameThreads.refl s).fenceClean
    have hsame := hkept.thread th.cell th.slot
    have hnotFree : ((s.fenceClean th.cell).thread th.cell th.slot).state ≠ .free := by
      rw [hsame]
      exact State.runs_not_free h.runs
    have hmarked := State.thread_modThread_self (Thread.waitsOnFence ((s.fenceClean th.cell).fenceMark th w)) hnotFree
    exact ⟨_, _, hfence, congrArg Thread.fence hmarked, rfl, by rw [hmarked, Thread.waitsOnFence_pc, hsame],
      State.not_runs_of_fence (congrArg Thread.fence hmarked)⟩
  case ends =>
    obtain ⟨hthread, hmem, hopmem⟩ := State.fenceEnded_parts hf f.scope _ rfl
    have hcount := State.count_reportsOnly (s.fenceEnded th f.scope) (kCell th.cell cFence) 1
    refine ⟨_, congrArg Host.Outcome.next (State.fenceComplete_ends hactive hup hf hcovers hclean), hcount.thread.trans hthread, fun hlen => ?_,
      fun a => ?_, fun d a => ?_⟩
    · obtain ⟨hgoodEnd, hcnt⟩ := State.fenceEnded_cnt (th := th) (c := th.cell) hgood hlen f.scope cFence
      exact (State.cnt_count hgoodEnd (kCell_ne_kEth (by decide)) 1).trans (congrArg (· + 1) hcnt)
    · exact (congrArg (memGet · a) (hcount.part_eq State.mem)).trans (hmem a)
    · exact (congrArg (memGet · a) (hcount.part_eq fun u => (u.cell d).opmem)).trans (hopmem d a)

end Sys2Proof.Machine

/-! PROOF. BARRIER (R286, R334, R335, R338): arrivals for the present and the next episode, the skew, and arrivals dropped on a closed channel. -/

namespace Sys2Proof.Machine

variable {s t : State} {th : ThreadRef} {w : W64} {c n : Nat}

/-! ## The records of a cell's channels -/

/-- A value other than the default reads back from any table, in its canonical form or not. -/
theorem tblGet_tblSet_ne_default {α : Type} [DecidableEq α] {d v : α} (hv : v ≠ d) (k : Nat) (l : List (Nat × α)) : tblGet d k (tblSet d k v l) = v := by
  induction l with
  | nil => simp [tblSet, tblGet, hv]
  | cons e l ih =>
    rw [tblSet]
    split
    · simp [tblGet]
    · split
      · simp [tblGet]
      · rw [tblGet, if_neg ‹_›, if_neg ‹_›, ih]

theorem State.barCell_setBarCell (hc : c < s.cells.length) {b : BarCell} (hb : b ≠ BarCell.reset) : (s.setBarCell c n b).barCell c n = b := by
  rw [State.barCell, State.setBarCell, State.cell_modCell_self hc]
  exact tblGet_tblSet_ne_default hb ..

/-- Passing a completion on leaves every cell and memory. -/
theorem State.barUp_parts (s : State) (n : Nat) : (s.barUp n).cells = s.cells ∧ (s.barUp n).mem = s.mem := by
  unfold State.barUp
  extract_lets b
  split
  · split <;> exact ⟨rfl, rfl⟩
  · exact ⟨rfl, rfl⟩

/-! ## Arrivals (R335) -/

theorem State.arrival_dropped (h : (s.bar n).en = false ∨ (s.bar n).broken ∨ s.barExp c n = 0) (x : Byte) : s.arrival c n x = .dropped :=
  if_pos (by simpa [or_assoc] using h)

theorem State.arrival_open (hen : (s.bar n).en) (hbroken : (s.bar n).broken = false) (hexp : s.barExp c n ≠ 0) (x : Byte) : s.arrival c n x =
    if x = (s.barCell c n).episode ∨ x = (s.barCell c n).episode + 1 then .counted else .skew (s.barCell c n).episode :=
  if_neg (by simp [hen, hbroken, hexp])

/-- What one cell and one slot of it hold for an arrival that is counted. -/
structure Arrived (s t : State) (c n : Nat) (b : BarCell) : Prop where
  cell : t.barCell c n = b
  threads : ∀ k, t.thread c k = s.thread c k
  mem : t.mem = s.mem
  opmem : SameOpmem s t

theorem State.setBarCell_arrived (hc : c < s.cells.length) {b : BarCell} (hb : b ≠ BarCell.reset) : Arrived s (s.setBarCell c n b) c n b where
  cell := State.barCell_setBarCell hc hb
  threads k := State.cell_modCell_part (·.thread k) (by exact fun _ => rfl) s c c
  mem := rfl
  opmem d a := congrArg (memGet · a) (State.cell_modCell_part CellSt.opmem (by exact fun _ => rfl) s c d)

theorem Arrived.of_parts {u : State} {b : BarCell} (h : Arrived s t c n b) (cells : u.cells = t.cells) (mem : u.mem = t.mem) : Arrived s u c n b := by
  have hcell : ∀ d, u.cell d = t.cell d := fun d => congrArg (·.getD d CellSt.reset) cells
  refine ⟨?_, fun k => ?_, mem.trans h.mem, fun d a => ?_⟩
  · rw [State.barCell, hcell]
    exact h.cell
  · rw [State.thread, hcell]
    exact h.threads k
  · rw [hcell]
    exact h.opmem d a

/-- An arrival for the present episode is counted. -/
theorem State.barCount_present (hc : c < s.cells.length) (k flag : Nat) : ∀ b, b = s.barCell c n → ∃ up, Arrived s (s.barCount c n k flag b.episode) c n
    { b with now := b.now ++ [(k, (s.thread c k).token, flag)], up := up } := by
  rintro b rfl
  refine ⟨decide (s.barExp c n ≤ ((s.barCell c n).now ++ [(k, (s.thread c k).token, flag)]).length), ?_⟩
  rw [State.barCount, if_pos rfl]
  exact (State.setBarCell_arrived hc fun e => List.append_ne_nil_of_right_ne_nil _ (List.cons_ne_nil _ _) (congrArg BarCell.now e)).of_parts
    (State.barUp_parts ..).1 (State.barUp_parts ..).2

/-- An arrival for the next episode waits. -/
theorem State.barCount_next (hc : c < s.cells.length) (k flag : Nat) : ∀ b, b = s.barCell c n → Arrived s (s.barCount c n k flag (b.episode + 1)) c n
    { b with early := b.early ++ [(k, (s.thread c k).token, flag)] } := by
  rintro b rfl
  have hnext : (s.barCell c n).episode + 1 ≠ (s.barCell c n).episode := by simp
  rw [State.barCount, if_neg hnext]
  exact State.setBarCell_arrived hc fun e => List.append_ne_nil_of_right_ne_nil _ (List.cons_ne_nil _ _) (congrArg BarCell.early e)

/-- The thread of a counted arrival goes on. -/
theorem Arrived.thNext {b : BarCell} (h : Arrived s t th.cell n b) (hruns : s.runs th) : ∀ u, u = t.thNext th id →
    u.barCell th.cell n = b ∧ u.thread th.cell th.slot = advance (s.thread th.cell th.slot) ∧ SameMemory s u ∧ SameOpmem s u := by
  rintro u rfl
  refine ⟨?_, State.thNext_after hruns (h.threads _), fun a => congrArg (memGet · a) h.mem, fun d a => ?_⟩
  · exact (State.cell_modCell_part (fun x => tblGet BarCell.reset n x.bars) (by exact fun _ => rfl) t th.cell th.cell).trans h.cell
  · exact (congrArg (memGet · a) (State.cell_modCell_part CellSt.opmem (by exact fun _ => rfl) t th.cell d)).trans (h.opmem d a)

/-! ## Skew and drops (R335, R338, R341) -/

theorem ReportsOnly.barEvent {source bit code info : Nat} (h : ReportsOnly s t) : ReportsOnly s (t.barEvent source bit code info) := by
  unfold State.barEvent
  extract_lets u
  have hu : ReportsOnly s u := h.trans rfl
  split
  · exact hu.lookoutReport
  · exact hu

/-- A fault of a thread that runs, after reports. -/
theorem ReportsOnly.thFault_slot (h : ReportsOnly s t) (hruns : s.runs th) (code info : Nat) : (t.thFault th code info).thread th.cell th.slot =
    failing code info (s.cell th.cell).tick (s.thread th.cell th.slot) := by
  have hstill : t.runs th = s.runs th := h.part_eq (State.runs · th)
  have htick : (t.cell th.cell).tick = (s.cell th.cell).tick := h.part_eq fun u => (u.cell th.cell).tick
  rw [(State.thFault_step (hstill.trans hruns) code info).slot, htick, h.thread]

/-- A record buffered or dropped writes at most the WRAPPED bit of the count of dropped records. -/
theorem State.reg_pushEvent (h : s.Good) {a : Nat} (ha : a ≠ kEth 14 + 8) (kind source : Nat) (data : BitVec 160) :
    (s.pushEvent kind source data).reg a = s.reg a := by
  unfold State.pushEvent
  extract_lets put u
  have hu : u.regs = s.regs := by
    dsimp only [u]
    split <;> rfl
  split
  · exact congrArg (tblGet (regReset a) a) hu
  · unfold State.rawCount
    extract_lets v x
    have hx : x.regs = s.regs := hu
    split
    · refine (tblGet_tblSet regReset a _ _ x.regs (hx ▸ h.regs)).trans ((if_neg ha).trans ?_)
      exact congrArg (tblGet (regReset a) a) hx
    · exact congrArg (tblGet (regReset a) a) hx

theorem State.reg_lookoutReport (h : s.Good) {a : Nat} (ha : a ≠ kEth 14 + 8) (r : Report) : (s.lookoutReport r).reg a = s.reg a := by
  unfold State.lookoutReport
  split
  · split
    · rfl
    · refine Eq.trans (State.reg_pushEvent ?_ ha _ _ _) ?_
      · exact { h with }
      · rfl
  · exact State.reg_pushEvent h ha _ _ _

/-- A barrier event sets its bit, whatever its notice does. -/
theorem State.barEvent_bit (h : s.Good) {bit : Nat} (hbit : bit < 32) (source code info : Nat) :
    (s.barEvent source bit code info).regBit rBarEvent bit := by
  unfold State.barEvent
  extract_lets u
  have hu : u.regBit rBarEvent bit := by
    change ((s.setReg rBarEvent (s.reg rBarEvent ||| BitVec.ofNat 32 (2 ^ bit))).reg rBarEvent).getLsbD bit = true
    rw [State.reg_setReg h, if_pos rfl, BitVec.getLsbD_or, BitVec.getLsbD_ofNat, Nat.testBit_two_pow_self, decide_eq_true hbit]
    exact Bool.or_true _
  split
  · rw [State.regBit, State.reg_lookoutReport ((Kept.refl s).setBits.good h) (by decide)]
    exact hu
  · exact hu

/-- A report of the device itself goes to the lookout at once. -/
theorem State.report_device (s : State) {r : Report} (h : r.source = 0) : s.report r = s.lookoutReport r := by
  unfold State.report
  simp [h]

/-- A notice of the device itself counts at most under the count of dropped records. -/
theorem State.cnt_barEvent (h : s.Good) {j : Nat} (hj : j ≠ kEth 14) (bit code info : Nat) : (s.barEvent 0 bit code info).cnt j = s.cnt j := by
  unfold State.barEvent
  extract_lets u
  have hu : u.Good := (Kept.refl s).setBits.good h
  split
  · rw [← State.report_device u rfl]
    exact State.cnt_report hu hj _
  · rfl

/-- A dropped arrival is counted, and sets bit 1 of SCH_BAR_EVENT. -/
theorem State.barDrop_marks (h : s.Good) (n : Nat) : (s.barDrop n).cnt (kBar 1) = s.cnt (kBar 1) + 1 ∧ (s.barDrop n).regBit rBarEvent 1 := by
  have hkey : kBar 1 ≠ kEth 14 := by decide
  have hgood : (s.count (kBar 1) 1).Good := (Kept.refl s).count.good h
  exact ⟨(State.cnt_barEvent hgood hkey ..).trans (State.cnt_count h hkey 1), State.barEvent_bit hgood (by decide) ..⟩

/-! ## The statement -/

/-- What BARRIER does with operands that are in range. -/
def State.barArrive (s : State) (th : ThreadRef) (w : W64) (x : Byte) : State :=
  match s.arrival th.cell (wChan w) x with
  | .counted => (s.barCount th.cell (wChan w) th.slot (wImm32 w).toNat x).thNext th id
  | .dropped => (s.barDrop (wChan w)).thNext th id
  | .skew e =>
    let info := wChan w + (s.sreg th (wRa w)).toNat * 256 + e.toNat * 65536
    ((s.errBump (rCell th.cell 0x360)).barEvent (srcCell th.cell) 0 0x0050 info).thFault th fBarrierSkew info

theorem State.barrier_eq (ha : (s.sreg th (wRa w)).toNat < 256) (hf : (wImm32 w).toNat < 32) : s.barrier th w =
    s.thIssue th 2 7 w (s.barArrive th w (BitVec.ofNat 8 (s.sreg th (wRa w)).toNat)) :=
  congrArg (s.thIssue th 2 7 w) ((if_neg (Nat.not_le.2 ha)).trans (if_neg (Nat.not_le.2 hf)))

/-- Settles O41: an arrival is counted for the present or the next episode (`State.barCount_present`, `State.barCount_next`), is a skew
(`ReportsOnly.thFault_slot`), or is dropped (`State.barDrop_marks`). -/
theorem barrierArrivals : Obligations.BarrierArrivals := by
  unfold Obligations.BarrierArrivals
  intro th w s h a n f ha hn hf
  subst ha hn hf
  have hexec : ∀ {u}, s.barrier th w = s.thIssue th 2 7 w u → exec (.barrier th w) s = .next (s.thIssue th 2 7 w u) := fun e =>
    (rfl : exec (.barrier th w) s = .next (s.barrier th w)).trans (congrArg Host.Outcome.next e)
  obtain ⟨hc, -⟩ := State.runs_bounds h.runs
  refine ⟨fun hbig => ?operand, fun hfits hflag => ?flag, fun hfits hflag hen hbroken hexp b hb => ?isOpen, fun hgood hfits hflag hclosed => ?closed⟩
  case operand => exact h.faults (hexec (congrArg (s.thIssue th 2 7 w) (if_pos hbig)))
  case flag => exact h.faults (hexec (congrArg (s.thIssue th 2 7 w) ((if_neg (Nat.not_le.2 hfits)).trans (if_pos hflag))))
  case isOpen =>
    have hepisode : ∀ e : Byte, e.toNat = (s.sreg th (wRa w)).toNat ↔ BitVec.ofNat 8 (s.sreg th (wRa w)).toNat = e := fun e => by
      rw [← BitVec.toNat_inj, BitVec.toNat_ofNat, Nat.mod_eq_of_lt hfits, eq_comm]
    have harrival := State.arrival_open hen hbroken hexp (BitVec.ofNat 8 (s.sreg th (wRa w)).toNat)
    rw [hepisode, hepisode]
    refine ⟨fun hpresent => ?present, fun hnext => ?next, fun hpast hlate => ?skew⟩
    all_goals
      refine h.answers (hexec (State.barrier_eq hfits hflag)) ?_
      rw [State.barArrive, harrival]
    case present =>
      obtain ⟨up, harrived⟩ := State.barCount_present (n := wChan w) hc th.slot (wImm32 w).toNat b hb
      obtain ⟨hcell, hthread, hmem, hopmem⟩ := harrived.thNext h.runs _ rfl
      rw [if_pos (.inl (hpresent.trans (congrArg BarCell.episode hb))), hpresent]
      dsimp only
      rw [hcell]
      exact ⟨rfl, rfl, hthread, hmem, hopmem⟩
    case next =>
      obtain ⟨hcell, hthread, hmem, hopmem⟩ := (State.barCount_next (n := wChan w) hc th.slot (wImm32 w).toNat b hb).thNext h.runs _ rfl
      rw [if_pos (.inr (hnext.trans (congrArg (fun b : BarCell => b.episode + 1) hb))), hnext]
      dsimp only
      rw [hcell]
      exact ⟨rfl, rfl, hthread, hmem, hopmem⟩
    case skew =>
      rw [if_neg (by rw [← hb]; exact not_or.2 ⟨mt (hepisode _).2 hpast, mt (hepisode _).2 hlate⟩)]
      dsimp only
      rw [ReportsOnly.thFault_slot (.barEvent (s := s) (t := s.errBump (rCell th.cell 0x360)) rfl) h.runs]
      exact ⟨rfl, rfl, rfl⟩
  case closed =>
    refine h.answers (hexec (State.barrier_eq hfits hflag)) ?_
    rw [State.barArrive, State.arrival_dropped hclosed]
    have hcount := State.count_reportsOnly s (kBar 1) 1
    exact ⟨(State.barDrop_marks hgood _).1, (State.barDrop_marks hgood _).2, State.thNext_after h.runs (ReportsOnly.thread (.barEvent hcount))⟩

end Sys2Proof.Machine

/-! PROOF. Registers by S.RDREG and S.WRREG (R277, R488), over I3C and over JTAG (R494, R497): RegisterAccess. -/

namespace Sys2Proof.Machine

variable {s : State} {th : ThreadRef} {w : W64} {p : RegPath} {a n : Nat}

/-! ## A thread's access to its cell's registers -/

/-- S.RDREG at an aligned offset. -/
theorem State.sRdreg_aligned (h : s.regOff th w % 4 = 0) : s.sRdreg th w = s.thIssue th 1 0x38 w
    (if 0x10000 ≤ s.regOff th w then s.thRet th (wRd w) 0
      else (s.readReg 1 (rCell th.cell (s.regOff th w))).2.thRet th (wRd w) ((s.readReg 1 (rCell th.cell (s.regOff th w))).1.zeroExtend 64)) := by
  rw [show (s.readReg 1 (rCell th.cell (s.regOff th w))).1.zeroExtend 64 = _ from (BitVec.ofNat_toNat 64 _).symm]
  exact congrArg (s.thIssue th 1 0x38 w) (if_neg (not_not_intro h))

/-- S.WRREG at an aligned offset. -/
theorem State.sWrreg_aligned (h : s.regOff th w % 4 = 0) : s.sWrreg th w = s.thIssue th 1 0x39 w
    (if 0x10000 ≤ s.regOff th w then s.thNext th id
      else (s.thNext th id).writeReg false (rCell th.cell (s.regOff th w)) ((s.sreg th (wRb w)).truncate 32)) :=
  congrArg (s.thIssue th 1 0x39 w) (if_neg (not_not_intro h))

/-! ## The paths of the board (R494) -/

theorem State.pathRead_i3c (h : s.pathWay .i3c a n = 4) : s.pathRead .i3c a n =
    (s.readRegs 0 (regRun a n)).2.modPower fun x => { x with i3cOut := (s.readRegs 0 (regRun a n)).1, i3cNak := false } := by
  unfold State.pathRead
  rw [h]
  rfl

theorem State.pathRead_jtag (h : s.pathWay .jtag a n = 4) : s.pathRead .jtag a n =
    (s.readRegs 0 (regRun a n)).2.modSec fun x => { x with jtagOut := (s.readRegs 0 (regRun a n)).1.flatMap fun v => leBytes 4 v.toNat } := by
  unfold State.pathRead
  rw [h]
  rfl

theorem State.pathRead_refused (h : s.pathWay .i3c a n = 1) : s.pathRead .i3c a n = s.modPower fun x => { x with i3cNak := true } := by
  unfold State.pathRead
  rw [h]
  rfl

theorem State.pathRead_held (h : s.pathWay p a n = 2) : s.pathRead p a n = s := by
  unfold State.pathRead
  rw [h]
  rfl

theorem State.pathWrite_i3c (v : W32) (h : s.pathWay .i3c a 1 = 4) :
    s.pathWrite .i3c a v = (s.writeReg true a v).modPower fun x => { x with i3cNak := false } := by
  unfold State.pathWrite
  rw [h]
  rfl

theorem State.pathWrite_jtag (v : W32) (h : s.pathWay .jtag a 1 = 4) : s.pathWrite .jtag a v = s.writeReg false a v := by
  unfold State.pathWrite
  rw [h]
  rfl

/-! ## The statement -/

/-- Settles O30: one lemma for each outcome of a thread's access (`State.sRdreg_aligned`, `State.sWrreg_aligned`) and of each path. -/
theorem registerAccess : Obligations.RegisterAccess := by
  unfold Obligations.RegisterAccess
  refine ⟨fun th w s o ho halign => ?threads, fun s p a n v => ?paths⟩
  case threads =>
    change o = s.regOff th w at ho
    subst ho
    have hread : exec (.sRdreg th w) s = .next (s.sRdreg th w) := rfl
    have hwrite : exec (.sWrreg th w) s = .next (s.sWrreg th w) := rfl
    rw [State.sRdreg_aligned halign] at hread
    rw [State.sWrreg_aligned halign] at hwrite
    refine ⟨fun h => ⟨fun hbeyond => h.answers hread ?readBeyond, fun hinside => h.answers hread ?readInside⟩,
      fun h => ⟨fun hbeyond => h.answers hwrite ?writeBeyond, fun hinside => h.answers hwrite ?writeInside⟩⟩
    case readBeyond =>
      rw [if_pos hbeyond]
      exact State.thRet_step h.runs w 0
    case readInside => rw [if_neg (Nat.not_le.2 hinside), State.thRet_eq_modThread]
    case writeBeyond =>
      rw [if_pos hbeyond]
      exact State.thNext_step h.runs id
    case writeInside =>
      rw [if_neg (Nat.not_le.2 hinside)]
      rfl
  case paths =>
    refine ⟨fun h => ⟨fun hp => ?readI3c, fun hp => ?readJtag⟩, fun h => ⟨fun hp => ?writeI3c, fun hp => ?writeJtag⟩, fun h => ?refused, fun h => ?held⟩
    case readI3c =>
      subst hp
      exact ⟨_, congrArg Host.Outcome.next (State.pathRead_i3c h), rfl, rfl⟩
    case readJtag =>
      subst hp
      exact ⟨_, congrArg Host.Outcome.next (State.pathRead_jtag h), rfl⟩
    case writeI3c =>
      subst hp
      exact ⟨_, congrArg Host.Outcome.next (State.pathWrite_i3c v h), rfl⟩
    case writeJtag =>
      subst hp
      exact congrArg Host.Outcome.next (State.pathWrite_jtag v h)
    case refused => exact ⟨_, congrArg Host.Outcome.next (State.pathRead_refused h), rfl, rfl⟩
    case held => exact congrArg Host.Outcome.next (State.pathRead_held h)

end Sys2Proof.Machine

/-! PROOF. THREAD_DISPATCH (R306): which READY thread a free core takes, what the dispatch leaves of its cell, and its counts (R317). -/

namespace Sys2Proof.Machine

variable {s t : State} {x : CellSt} {c core k : Nat}

/-! ## The choice (R306) -/

theorem CellSt.mem_ready : k ∈ x.ready ↔ k < 64 ∧ (x.thread k).state = .ready := by
  simp [CellSt.ready]

/-- The highest priority of a READY thread of a cell. -/
def CellSt.topPri (x : CellSt) : Nat := (x.ready.map fun u => (x.thread u).pri.toNat).foldl Nat.max 0

/-- A READY thread has the highest priority where none has a higher one. -/
theorem CellSt.pri_eq_topPri_iff (hk : k ∈ x.ready) :
    (x.thread k).pri.toNat = x.topPri ↔ ∀ u ∈ x.ready, (x.thread u).pri.toNat ≤ (x.thread k).pri.toNat := by
  obtain ⟨hmem, hle⟩ := List.max?_eq_some_iff.1 (List.max?_cons' (x := 0) (xs := x.ready.map fun u => (x.thread u).pri.toNat))
  change x.topPri ∈ _ at hmem
  change ∀ b ∈ _, b ≤ x.topPri at hle
  have htop : ∀ u ∈ x.ready, (x.thread u).pri.toNat ≤ x.topPri := fun u hu => hle _ (List.mem_cons_of_mem _ (List.mem_map_of_mem hu))
  refine ⟨fun h u hu => h ▸ htop u hu, fun h => Nat.le_antisymm (htop k hk) ?_⟩
  rcases List.mem_cons.1 hmem with hzero | hmax
  · exact hzero ▸ Nat.zero_le _
  · obtain ⟨u, hu, heq⟩ := List.mem_map.1 hmax
    exact heq ▸ h u hu

/-- The core is a slot's last core. -/
def CellSt.lastOn (x : CellSt) (core u : Nat) : Prop := (x.thread u).lcv ∧ (x.thread u).lastCore.toNat = core

theorem CellSt.mayTake_iff_topPri : x.mayTake core k ↔ (k ∈ x.ready ∧ (x.thread k).pri.toNat = x.topPri) ∧
    (x.lastOn core k ∨ ∀ u ∈ x.ready, (x.thread u).pri.toNat = x.topPri → ¬x.lastOn core u) := by
  simp [CellSt.mayTake, CellSt.lastOn, CellSt.topPri]

theorem CellSt.mayTake_iff : x.mayTake core k ↔
    k < 64 ∧ (x.thread k).state = .ready ∧ (∀ u, u < 64 → (x.thread u).state = .ready → (x.thread u).pri.toNat ≤ (x.thread k).pri.toNat) ∧
      (x.lastOn core k ∨ ∀ u, u < 64 → (x.thread u).state = .ready → (x.thread u).pri = (x.thread k).pri → ¬x.lastOn core u) := by
  have hchoice : k ∈ x.ready → (x.mayTake core k ↔ (∀ u ∈ x.ready, (x.thread u).pri.toNat ≤ (x.thread k).pri.toNat) ∧
      (x.lastOn core k ∨ ∀ u ∈ x.ready, (x.thread u).pri = (x.thread k).pri → ¬x.lastOn core u)) := fun hk => by
    rw [CellSt.mayTake_iff_topPri, ← CellSt.pri_eq_topPri_iff hk, and_iff_right hk]
    refine and_congr_right fun htop => ?_
    simp only [← htop, BitVec.toNat_inj]
  simp only [CellSt.mem_ready, and_imp] at hchoice
  refine ⟨fun h => ?_, fun ⟨hk, hready, h⟩ => (hchoice hk hready).2 h⟩
  obtain ⟨hk, hready⟩ := CellSt.mem_ready.1 (CellSt.mayTake_iff_topPri.1 h).1.1
  exact ⟨hk, hready, (hchoice hk hready).1 h⟩

/-! ## The dispatch -/

/-- The cell after a core of it has taken a slot. -/
def CellSt.dispatched (x : CellSt) (core k : Nat) (now : W64) : CellSt :=
  { x with
    idleSince := now, cores := modAt core (fun y => { y with slot := some k }) x.cores,
    threads := modAt k (fun y => { entering .running x.tick y with lastCore := BitVec.ofNat 2 core, lcv := true }) x.threads }

/-- What a dispatch counts: the dispatch and its wait by priority, the core's switch, and the longest wait. -/
def State.dispatchCounted (s : State) (c core p n : Nat) : State :=
  (((s.countC c (cDispatch p) 1).countC c (cRdyWait p) n).countC c (cSwitch core) 1).maxReg (rCell c (0x320 + 4 * p)) n

/-- The ticks for which a slot has been in its state. -/
def CellSt.inState (x : CellSt) (k : Nat) : Nat := (x.tick - (x.thread k).entered).toNat

theorem State.dispatch_eq (hgo : s.coresGo) (hup : s.cellUp c) (hparked : (s.cell c).parked = false) (hcore : core < 4)
    (hfree : (s.cell c).coreFree core) (hbelow : ∀ j, j < core → (s.cell c).coreFree j = false) (hmay : (s.cell c).mayTake core k) :
    s.dispatch c core k = (s.modCell c fun x => x.dispatched core k s.timebase).dispatchCounted c core
      ((s.cell c).thread k).pri.toNat ((s.cell c).inState k) := by
  have hlowest : (List.range core).any (s.cell c).coreFree = false := List.any_eq_false.2 fun j hj => by simp [hbelow j (List.mem_range.1 hj)]
  refine (if_pos ?_).trans (congrArg (fun u : State => u.dispatchCounted c core _ _) (congrArg (s.modCell c) (funext fun x => ?_)))
  · simp [hgo, hup, hparked, hcore, hfree, hlowest, hmay]
  · exact congrArg (fun l => { x.dispatched core k s.timebase with threads := l }) (modAt_modAt ..)

theorem State.dispatchCounted_reportsOnly (s : State) (c core p n : Nat) : ReportsOnly s (s.dispatchCounted c core p n) :=
  (((s.count_reportsOnly ..).trans (State.count_reportsOnly ..)).trans (State.count_reportsOnly ..)).trans rfl

/-- Priorities go up to 7, so the wait's counter and the switch's are others. -/
theorem State.cnt_dispatchCounted (h : s.Good) {p : Nat} (hp : p < 8) (c core n : Nat) :
    (s.dispatchCounted c core p n).cnt (kCell c (cDispatch p)) = s.cnt (kCell c (cDispatch p)) + 1 := by
  have hkey : kCell c (cDispatch p) ≠ kEth 14 := kCell_ne_kEth (by decide)
  have hwait : kCell c (cDispatch p) ≠ kCell c (cRdyWait p) := by unfold kCell cDispatch cRdyWait; omega
  have hswitch : kCell c (cDispatch p) ≠ kCell c (cSwitch core) := by unfold kCell cDispatch cSwitch; omega
  have hone : Kept s (s.countC c (cDispatch p) 1) := (Kept.refl s).countC
  calc (s.dispatchCounted c core p n).cnt (kCell c (cDispatch p))
    _ = ((s.countC c (cDispatch p) 1).countC c (cRdyWait p) n).cnt (kCell c (cDispatch p)) := State.cnt_count_ne (hone.countC.good h) hswitch hkey 1
    _ = (s.countC c (cDispatch p) 1).cnt (kCell c (cDispatch p)) := State.cnt_count_ne (hone.good h) hwait hkey n
    _ = s.cnt (kCell c (cDispatch p)) + 1 := State.cnt_count h hkey 1

theorem CellSt.dispatched_thread_self (hk : k < x.threads.length) (core : Nat) (now : W64) : (x.dispatched core k now).thread k =
    { entering .running x.tick (x.thread k) with lastCore := BitVec.ofNat 2 core, lcv := true } :=
  (modAt_getD ..).trans (if_pos ⟨rfl, hk⟩)

theorem CellSt.dispatched_thread_ne {u : Nat} (hu : u ≠ k) (core : Nat) (now : W64) : (x.dispatched core k now).thread u = x.thread u :=
  (modAt_getD ..).trans (if_neg fun h => hu h.1)

/-- Settles O36: the choice is that of a READY thread of the highest priority (`CellSt.mayTake_iff`), and a dispatch where it can happen is a change of
its cell and counts (`State.dispatch_eq`, `State.cnt_dispatchCounted`). -/
theorem dispatchTakesThread : Obligations.DispatchTakesThread := by
  unfold Obligations.DispatchTakesThread
  refine ⟨fun x core k => CellSt.mayTake_iff, fun c core k s hgood hgo hup hparked hcore hslot hbelow hmay => ⟨_, rfl, ?_⟩⟩
  obtain ⟨y, hy, hnone⟩ := hslot
  have hfree : (s.cell c).coreFree core := by simp [CellSt.coreFree, hy, hnone]
  have hready : (s.thread c k).state = .ready := (CellSt.mayTake_iff.1 hmay).2.1
  obtain ⟨hc, hk⟩ := State.thread_bounds (s := s) (c := c) (slot := k) (by rw [hready]; exact nofun)
  have htaken := State.modCell_step hc fun x => x.dispatched core k s.timebase
  have hgoodTaken : (s.modCell c fun x => x.dispatched core k s.timebase).Good := ((Kept.refl s).modCell fun hx => hx.of_modAt).good hgood
  rw [State.dispatch_eq hgo hup hparked hcore hfree hbelow hmay]
  generalize s.modCell c (fun x => x.dispatched core k s.timebase) = u at htaken hgoodTaken
  have hreports := u.dispatchCounted_reportsOnly c core ((s.cell c).thread k).pri.toNat ((s.cell c).inState k)
  have hcell : ∀ d, (u.dispatchCounted c core ((s.cell c).thread k).pri.toNat ((s.cell c).inState k)).cell d = u.cell d := fun d =>
    hreports.part_eq (State.cell · d)
  simp only [State.thread, hcell, htaken.1]
  refine ⟨CellSt.dispatched_thread_self hk .., ⟨{ y with slot := some k }, ?core, rfl⟩, fun j hj => CellSt.dispatched_thread_ne hj .., htaken.2.cells,
    ?count, fun a => ?memory⟩
  case core => exact (modAt_getElem?_self ..).trans (congrArg (Option.map _) hy)
  case count =>
    refine (State.cnt_dispatchCounted hgoodTaken ((s.cell c).thread k).pri.isLt ..).trans (congrArg (· + 1) ?_)
    rw [← htaken.2.device]
    rfl
  case memory => exact (congrArg (memGet · a) (hreports.part_eq State.mem)).trans (htaken.2.mem a)

end Sys2Proof.Machine

/-! PROOF. Idle time, tick boundaries (R310, R311, R461) and starvation (R314): what the passing of time in a cell leaves of every clock, what the note of
a starved thread sets, and TimePasses. -/

namespace Sys2Proof.Machine

variable {s₀ s t : State} {c : Nat}

/-! ## The clocks -/

/-- The timebase, the tick period and every cell's tick counter are as they were. -/
structure SameClocks (s t : State) : Prop where
  timebase : t.timebase = s.timebase
  period : t.tickPeriod = s.tickPeriod
  size : t.cells.length = s.cells.length
  tick : ∀ c, (t.cell c).tick = (s.cell c).tick

theorem SameClocks.refl (s : State) : SameClocks s s := ⟨rfl, rfl, rfl, fun _ => rfl⟩

theorem SameClocks.trans {u : State} (h : SameClocks s t) (k : SameClocks t u) : SameClocks s u :=
  ⟨k.timebase.trans h.timebase, k.period.trans h.period, k.size.trans h.size, fun c => (k.tick c).trans (h.tick c)⟩

theorem SameClocks.reports (h : SameClocks s₀ s) (hr : ReportsOnly s t) : SameClocks s₀ t :=
  h.trans ⟨hr.part_eq State.timebase, hr.part_eq State.tickPeriod, hr.part_eq (·.cells.length), fun c => hr.part_eq fun u => (u.cell c).tick⟩

theorem SameClocks.modCell {f : CellSt → CellSt} (h : SameClocks s₀ s) (hf : ∀ x, (f x).tick = x.tick) : SameClocks s₀ (s.modCell c f) :=
  h.trans ⟨rfl, rfl, modAt_length .., State.cell_modCell_part CellSt.tick hf s c⟩

theorem SameClocks.foldl {α : Type} {f : State → α → State} {l : List α} (h : SameClocks s₀ s)
    (hf : ∀ {s : State} {a : α}, SameClocks s₀ s → SameClocks s₀ (f s a)) : SameClocks s₀ (l.foldl f s) := by
  induction l generalizing s with
  | nil => exact h
  | cons a l ih => exact ih (hf h)

theorem SameClocks.countC {i n : Nat} (h : SameClocks s₀ s) : SameClocks s₀ (s.countC c i n) := h.reports (s.count_reportsOnly ..)

theorem SameClocks.countSome {i n : Nat} (h : SameClocks s₀ s) : SameClocks s₀ (s.countSome c i n) := by
  unfold State.countSome
  split
  · exact h
  · exact h.countC

theorem State.capHot_reportsOnly (s : State) (c : Nat) (r : Req) : ReportsOnly s (s.capHot c r) := rfl

theorem SameClocks.capCycles {n : Nat} (h : SameClocks s₀ s) : SameClocks s₀ (s.capCycles c n) := by
  unfold State.capCycles
  split
  · split
    · exact h
    · exact (h.reports (s.capHot_reportsOnly ..)).countC
  · exact h

/-- Time in a cell counts cycles; no clock goes on by it. -/
theorem SameClocks.cellTime {dt : Nat} (h : SameClocks s₀ s) : SameClocks s₀ (s.cellTime dt c) := by
  unfold State.cellTime
  extract_lets x
  split
  · exact h
  · refine SameClocks.foldl ?_ fun h => h.countSome
    exact (h.modCell (f := fun x => x.run _ _ _) fun _ => rfl).capCycles.countSome.countSome.countSome

/-! ## The passing of time (R310, R461) -/

/-- The state in which every cell has had its share of `dt` ns. -/
def State.cellsTime (s : State) (dt : Nat) : State :=
  (List.range 192).foldl (fun s c => s.cellTime dt c) { s with timebase := s.timebase + BitVec.ofNat 64 dt }

theorem State.cellsTime_clocks (s : State) (dt : Nat) : SameClocks { s with timebase := s.timebase + BitVec.ofNat 64 dt } (s.cellsTime dt) :=
  (SameClocks.refl _).foldl fun h => h.cellTime

theorem State.cellsTime_timebase (s : State) (dt : Nat) : (s.cellsTime dt).timebase = s.timebase + BitVec.ofNat 64 dt :=
  (s.cellsTime_clocks dt).timebase

theorem State.elapse_unpowered (h : s.power.phase = .unpowered) (dt : Nat) : s.elapse dt = s := if_pos h

theorem State.elapse_running (hphase : s.power.phase = .running) (hrung : s.power.rung ≠ 4) (dt : Nat) :
    s.elapse dt = if (s.cellsTime dt).timebase.toNat % (s.cellsTime dt).tickNs = 0 then (s.cellsTime dt).tickAll else s.cellsTime dt :=
  (if_neg (by rw [hphase]; exact nofun)).trans (if_pos ⟨hphase, hrung⟩)

theorem State.tickAll_timebase (s : State) : s.tickAll.timebase = s.timebase := rfl

/-- The timebase counts whenever VSTBY is present. -/
theorem State.elapse_timebase (h : s.power.phase ≠ .unpowered) (dt : Nat) : (s.elapse dt).timebase = s.timebase + BitVec.ofNat 64 dt := by
  by_cases hon : s.power.phase = .running ∧ s.power.rung ≠ 4
  · rw [State.elapse_running hon.1 hon.2]
    split
    · exact (State.tickAll_timebase _).trans (s.cellsTime_timebase dt)
    · exact s.cellsTime_timebase dt
  · exact congrArg State.timebase ((if_neg h).trans (if_neg hon))

theorem State.tickAll_tick (hc : c < s.cells.length) : (s.tickAll.cell c).tick = (s.cell c).tick + 1 := by
  have hcell : s.tickAll.cell c = (s.cell c).tickOne s.active := by
    rw [State.cell, State.cell, State.tickAll, List.getD_eq_getElem _ _ hc, List.getD_eq_getElem _ _ (hc.trans_eq (List.length_map _).symm)]
    exact List.getElem_map ..
  exact congrArg CellSt.tick hcell

/-- Where the timebase does not wrap, the next boundary is at a multiple of the tick period. -/
theorem State.boundary_multiple (hfits : s.timebase.toNat + s.toBoundary < 2 ^ 64) (hperiod : 0 < s.tickPeriod) :
    (s.timebase + BitVec.ofNat 64 s.toBoundary).toNat % s.tickNs = 0 := by
  have hns : 0 < s.tickNs := Nat.mul_pos (by decide) hperiod
  have hsum : s.timebase.toNat + s.toBoundary = (s.timebase.toNat / s.tickNs + 1) * s.tickNs := by
    have hrem := Nat.mod_lt s.timebase.toNat hns
    have hdiv := Nat.div_add_mod' s.timebase.toNat s.tickNs
    rw [State.toBoundary, Nat.add_mul]
    omega
  rw [BitVec.toNat_add, BitVec.toNat_ofNat, Nat.add_mod_mod, Nat.mod_eq_of_lt hfits, hsum]
  exact Nat.mul_mod_left ..

/-- At the boundary every cell's tick counter advances. -/
theorem State.tickBoundary_tick (hphase : s.power.phase = .running) (hrung : s.power.rung ≠ 4)
    (hboundary : (s.timebase + BitVec.ofNat 64 s.toBoundary).toNat % s.tickNs = 0) (hc : c < s.cells.length) :
    (s.tickBoundary.cell c).tick = (s.cell c).tick + 1 := by
  have hclocks := s.cellsTime_clocks s.toBoundary
  have hat : (s.cellsTime s.toBoundary).timebase.toNat % (s.cellsTime s.toBoundary).tickNs = 0 := by
    rw [State.tickNs, hclocks.period, hclocks.timebase]
    exact hboundary
  rw [State.tickBoundary, State.elapse_running hphase hrung, if_pos hat, State.tickAll_tick (hc.trans_eq hclocks.size.symm), hclocks.tick]
  rfl

/-! ## What reports and counters leave of the registers -/

theorem State.reg_report (h : s.Good) {a : Nat} (ha : a ≠ kEth 14 + 8) (r : Report) : (s.report r).reg a = s.reg a := by
  unfold State.report
  extract_lets b i
  split
  · rfl
  · split
    · rfl
    · split
      · rfl
      · exact State.reg_lookoutReport h ha r

/-- A counter writes at most its own WRAPPED bit, and that of the count of dropped records. -/
theorem State.reg_count (h : s.Good) {a k : Nat} (hk : a ≠ k + 8) (ha : a ≠ kEth 14 + 8) (n : Nat) : (s.count k n).reg a = s.reg a := by
  have hraw : (s.rawCount k n).reg a = s.reg a := by
    unfold State.rawCount
    extract_lets v u
    split
    · exact (tblGet_tblSet regReset a _ _ s.regs h.regs).trans (if_neg hk)
    · rfl
  unfold State.count
  extract_lets wraps u
  have hu : u.Good := (Kept.refl s).rawCount.good h
  split
  · exact (State.reg_report hu ha _).trans hraw
  · exact hraw

theorem State.regBit_setBits (h : s.Good) (a : Nat) {bit : Nat} (hbit : bit < 32) : (s.setBits a (BitVec.ofNat 32 (2 ^ bit))).regBit a bit := by
  rw [State.regBit, State.setBits, State.reg_setReg h, if_pos rfl, BitVec.getLsbD_or, BitVec.getLsbD_ofNat, Nat.testBit_two_pow_self,
    decide_eq_true hbit]
  exact Bool.or_true _

theorem rCell_ne_kEth_wrapped {o : Nat} : rCell c o ≠ kEth 14 + 8 := by
  unfold rCell cellBase kEth ethBase
  omega

/-- An event of a cell sets its bit of SCH_EVENT, whatever its report does. -/
theorem State.schEvent_bit (h : s.Good) {bit : Nat} (hbit : bit < 32) (c code info : Nat) :
    (s.schEvent c bit code info).regBit (rCell c 0x308) bit := by
  have hset := State.regBit_setBits h (rCell c 0x308) hbit
  unfold State.schEvent
  extract_lets u
  have hu : u.Good := (Kept.refl s).setBits.good h
  split
  · exact (congrArg (·.getLsbD bit) (State.reg_report hu rCell_ne_kEth_wrapped _)).trans hset
  · exact hset

/-- It leaves the cell's other registers. -/
theorem State.reg_schEvent (h : s.Good) {o : Nat} (ho : o ≠ 0x308) (c bit code info : Nat) :
    (s.schEvent c bit code info).reg (rCell c o) = s.reg (rCell c o) := by
  have hset : ∀ m, (s.setBits (rCell c 0x308) m).reg (rCell c o) = s.reg (rCell c o) := fun m =>
    (State.reg_setReg h ..).trans (if_neg fun e => ho (Nat.add_left_cancel e))
  unfold State.schEvent
  extract_lets u
  have hu : u.Good := (Kept.refl s).setBits.good h
  split
  · exact (State.reg_report hu rCell_ne_kEth_wrapped _).trans (hset _)
  · exact hset _

/-! ## Starvation (R314) -/

/-- The register of SCH_STARVED that holds a slot's bit. -/
def starvedReg (slot : Nat) : Nat := if slot < 32 then 0x310 else 0x314

/-- A slot marked as starved, with its bit of SCH_STARVED. -/
def State.markStarved (s : State) (th : ThreadRef) : State :=
  (s.modThread th.cell th.slot fun x => { x with starved := true }).setBits (rCell th.cell (starvedReg th.slot)) (BitVec.ofNat 32 (2 ^ (th.slot % 32)))

theorem State.starvation_eq {th : ThreadRef} (hactive : s.active) (hup : s.cellUp th.cell) (hslot : th.slot < 64)
    (hready : (s.thread th.cell th.slot).state = .ready) (hfirst : (s.thread th.cell th.slot).starved = false)
    (hlimit : s.reg (rCell th.cell 0x304) ≠ 0) (hdue : (s.reg (rCell th.cell 0x304)).toNat ≤ (s.thread th.cell th.slot).readyTicks) :
    s.starvation th = ((s.markStarved th).countC th.cell cStarve 1).schEvent th.cell 0 0x0120 th.slot := by
  have hnonzero : (s.reg (rCell th.cell 0x304)).toNat ≠ 0 := fun e => hlimit (BitVec.eq_of_toNat_eq e)
  exact if_pos (by simp [hactive, hup, hslot, hready, hfirst, hnonzero, hdue])

/-- The registers of SCH_STARVED are no counter's, and not SCH_EVENT. -/
theorem starvedReg_apart (slot : Nat) : starvedReg slot ≠ 0x308 ∧ rCell c (starvedReg slot) ≠ kCell c cStarve + 8 := by
  unfold starvedReg rCell kCell
  split <;> omega

/-- What the count and the event after it leave of the mark. -/
theorem State.markStarved_noted (h : s.Good) {th : ThreadRef} (hready : (s.thread th.cell th.slot).state = .ready) :
    ∀ t, t = ((s.markStarved th).countC th.cell cStarve 1).schEvent th.cell 0 0x0120 th.slot →
    t.thread th.cell th.slot = { s.thread th.cell th.slot with starved := true } ∧
      t.regBit (rCell th.cell (starvedReg th.slot)) (th.slot % 32) ∧ t.regBit (rCell th.cell 0x308) 0 ∧
      t.cnt (kCell th.cell cStarve) = s.cnt (kCell th.cell cStarve) + 1 := by
  rintro t rfl
  have hslot : (s.modThread th.cell th.slot fun x => { x with starved := true }).Good := (Kept.refl s).modThread.good h
  have hmark : (s.markStarved th).Good := (Kept.refl s).modThread.setBits.good h
  have hcount : ((s.markStarved th).countC th.cell cStarve 1).Good := (Kept.refl _).countC.good hmark
  have hkey : kCell th.cell cStarve ≠ kEth 14 := kCell_ne_kEth (by decide)
  obtain ⟨hevent, hwrapped⟩ := starvedReg_apart (c := th.cell) th.slot
  refine ⟨?thread, ?starved, State.schEvent_bit hcount (by decide) .., ?count⟩
  case thread =>
    refine ((State.schEvent_reportsOnly ..).thread.trans (State.count_reportsOnly ..).thread).trans ?_
    exact State.thread_modThread_self _ (by rw [hready]; exact nofun)
  case starved =>
    rw [State.regBit, State.reg_schEvent hcount hevent, State.countC, State.reg_count hmark hwrapped rCell_ne_kEth_wrapped]
    exact State.regBit_setBits hslot _ (Nat.mod_lt _ (by decide))
  case count => exact (State.cnt_schEvent hcount hkey ..).trans (State.cnt_count hmark hkey 1)

/-- Settles O38: an idle nanosecond and a boundary are `State.elapse`, of which `State.elapse_timebase` and `State.tickBoundary_tick` say what goes on,
and the note of a starved thread is a mark of its slot, a count and an event (`State.starvation_eq`, `State.markStarved_noted`). -/
theorem timePasses : Obligations.TimePasses := by
  unfold Obligations.TimePasses
  refine ⟨fun s hempty => ⟨s.idle, ?step, (Kept.refl s).idle.queue.trans hempty, fun h => State.elapse_unpowered h 1, fun h => State.elapse_timebase h 1⟩,
    fun s hgood hphase hrung => ?boundary,
    fun th s hgood hactive hup hslot hready hfirst hlimit hdue =>
      ⟨_, rfl, State.markStarved_noted hgood hready _ (State.starvation_eq hactive hup hslot hready hfirst hlimit hdue)⟩⟩
  case step => rw [step, hempty]
  case boundary =>
    have htime : s.tickBoundary.timebase = s.timebase + BitVec.ofNat 64 s.toBoundary := State.elapse_timebase (by rw [hphase]; exact nofun) _
    refine ⟨s.tickBoundary, rfl, htime, fun hfits => ?_⟩
    have hmultiple := State.boundary_multiple hfits hgood.tick
    exact ⟨htime ▸ hmultiple, fun c hc => State.tickBoundary_tick hphase hrung hmultiple hc⟩

end Sys2Proof.Machine

/-! PROOF. The end of a barrier episode (R334, R335): the flags of a cell's arrivals, the cells' next episode, and the channel's. -/

namespace Sys2Proof.Machine

variable {s t : State} {b : BarChan} {c n k bit : Nat} {x y z : Thread} {arrivals : List (Nat × Nat × Nat)} {cells : List Nat}

/-! ## The flags of a cell's arrivals (R335) -/

/-- A thread as it was, but for flags that have reached it. -/
def Thread.TookFlags (x y : Thread) : Prop := ∃ m, y = { x with flags := x.flags ||| m }

theorem Thread.TookFlags.refl (x : Thread) : x.TookFlags x := ⟨0, congrArg (fun m => { x with flags := m }) BitVec.or_zero.symm⟩

theorem Thread.TookFlags.trans (h : x.TookFlags y) (k : y.TookFlags z) : x.TookFlags z := by
  obtain ⟨m, rfl⟩ := h
  obtain ⟨m', rfl⟩ := k
  exact ⟨m ||| m', by rw [← BitVec.or_assoc]⟩

theorem Thread.TookFlags.awake (h : x.TookFlags y) (ha : x.awake) : y.awake := by
  obtain ⟨m, rfl⟩ := h
  exact ha

theorem Thread.TookFlags.token (h : x.TookFlags y) : y.token = x.token := by
  obtain ⟨m, rfl⟩ := h
  rfl

theorem Thread.TookFlags.flag (h : x.TookFlags y) (hi : x.flags.getLsbD bit) : y.flags.getLsbD bit := by
  obtain ⟨m, rfl⟩ := h
  rw [BitVec.getLsbD_or, hi, Bool.true_or]

/-- Flags for one slot of a cell leave an awake thread as it was, but for flags. -/
theorem State.flagToken_tookFlags (h : (s.thread c k).awake) (slot token : Nat) (m : W32) :
    (s.thread c k).TookFlags ((s.flagToken c slot token m).thread c k) := by
  unfold State.flagToken
  split
  · rw [State.thread_flagThread]
    split
    · exact ⟨m, h.orFlags m⟩
    · exact .refl _
  · exact .refl _

/-- Flags for a slot change its cell alone. -/
theorem State.flagToken_modCell (s : State) (c slot token : Nat) (m : W32) : ∃ f, s.flagToken c slot token m = s.modCell c f := by
  unfold State.flagToken State.flagThread
  split
  · split
    · exact ⟨id, (State.modCell_eq_self rfl).symm⟩
    · exact ⟨_, congrArg (fun l => { s with cells := l }) (modAt_modAt ..)⟩
  · exact ⟨id, (State.modCell_eq_self rfl).symm⟩

/-- The flags of arrivals, each a slot, the token of its thread and a flag, reach the threads of a cell. -/
def State.flagArrivals (s : State) (c : Nat) (arrivals : List (Nat × Nat × Nat)) : State :=
  arrivals.foldl (fun s a => s.flagToken c a.1 a.2.1 (BitVec.ofNat 32 (2 ^ a.2.2))) s

theorem State.flagArrivals_modCell (s : State) (c : Nat) (arrivals : List (Nat × Nat × Nat)) : ∃ f, s.flagArrivals c arrivals = s.modCell c f :=
  List.foldlRecOn (motive := fun t => ∃ f, t = s.modCell c f) _ _ ⟨id, (State.modCell_eq_self rfl).symm⟩ fun t ht a _ => by
    obtain ⟨f, rfl⟩ := ht
    obtain ⟨g, hg⟩ := State.flagToken_modCell (s.modCell c f) c a.1 a.2.1 (BitVec.ofNat 32 (2 ^ a.2.2))
    exact ⟨_, hg.trans (congrArg (fun l => { s with cells := l }) (modAt_modAt ..))⟩

theorem State.flagArrivals_bars (s : State) (c : Nat) (arrivals : List (Nat × Nat × Nat)) :
    ((s.flagArrivals c arrivals).cell c).bars = (s.cell c).bars :=
  List.foldlRecOn (motive := fun t : State => (t.cell c).bars = (s.cell c).bars) _ _ rfl fun _ ht _ _ =>
    (State.flagToken_part CellSt.bars (fun _ _ _ _ => rfl) ..).trans ht

theorem State.flagArrivals_tookFlags (h : (s.thread c k).awake) (arrivals : List (Nat × Nat × Nat)) :
    (s.thread c k).TookFlags ((s.flagArrivals c arrivals).thread c k) :=
  List.foldlRecOn (motive := fun t : State => (s.thread c k).TookFlags (t.thread c k)) _ _ (.refl _) fun _ ht _ _ =>
    ht.trans (State.flagToken_tookFlags (ht.awake h) ..)

/-- The flag of an arrival reaches the thread that arrived. -/
theorem State.flagArrivals_flag (h : (s.thread c k).awake) (hbit : bit < 32) (harrived : (k, (s.thread c k).token, bit) ∈ arrivals) :
    ((s.flagArrivals c arrivals).thread c k).flags.getLsbD bit := by
  obtain ⟨before, after, rfl⟩ := List.append_of_mem harrived
  have hbefore := State.flagArrivals_tookFlags h before
  have hat := State.flagToken_tookFlags (hbefore.awake h) k (s.thread c k).token (BitVec.ofNat 32 (2 ^ bit))
  have hset := State.flagToken_flags (BitVec.ofNat 32 (2 ^ bit)) hbefore.token (hbefore.awake h)
  rw [State.flagArrivals, List.foldl_append, List.foldl_cons]
  refine (State.flagArrivals_tookFlags (hat.awake (hbefore.awake h)) after).flag ?_
  refine (congrArg (BitVec.getLsbD · bit) hset).trans ?_
  rw [BitVec.getLsbD_or, BitVec.getLsbD_ofNat, Nat.testBit_two_pow_self, decide_eq_true hbit]
  exact Bool.or_true _

/-! ## The cells' next episode (R334, R335) -/

/-- A cell's part in a channel. -/
def CellSt.barPart (x : CellSt) (n : Nat) : BarCell := tblGet BarCell.reset n x.bars

/-- A cell has completed the present episode of a channel: it is at the next one, whose early arrivals are the present ones now, and the flags of
the arrivals have reached the threads that are still there and awake. -/
structure CellSt.EpisodeDone (n : Nat) (x y : CellSt) : Prop where
  episode : (y.barPart n).episode = (x.barPart n).episode + 1
  now : (y.barPart n).now = (x.barPart n).early
  early : (y.barPart n).early = []
  flags : ∀ a ∈ (x.barPart n).now, (x.thread a.1).token = a.2.1 → (x.thread a.1).awake → a.2.2 < 32 → (y.thread a.1).flags.getLsbD a.2.2

theorem State.barCellDone_modCell (s : State) (n c : Nat) : ∃ f, s.barCellDone n c = s.modCell c f := by
  obtain ⟨f, hf⟩ := State.flagArrivals_modCell s c (s.barCell c n).now
  exact ⟨_, (congrArg (State.modCell · c _) hf).trans (congrArg (fun l => { s with cells := l }) (modAt_modAt ..))⟩

/-- A part of a cell reads back from a table in canonical form, whatever the part. -/
theorem State.barCell_setBarCell_of_wf (hc : c < s.cells.length) (hwf : tblWf (fun _ => BarCell.reset) (s.cell c).bars = true) (p : BarCell) :
    (s.setBarCell c n p).barCell c n = p := by
  rw [State.barCell, State.setBarCell, State.cell_modCell_self hc]
  exact (tblGet_tblSet (fun _ => BarCell.reset) n n p _ hwf).trans (if_pos rfl)

theorem State.barCellDone_episodeDone (h : s.Good) (hc : c < s.cells.length) : (s.cell c).EpisodeDone n ((s.barCellDone n c).cell c) := by
  obtain ⟨f, hf⟩ := State.flagArrivals_modCell s c (s.barCell c n).now
  have hthere : c < (s.flagArrivals c (s.barCell c n).now).cells.length := hf ▸ State.modCell_lt f hc
  have hwf : tblWf (fun _ => BarCell.reset) ((s.flagArrivals c (s.barCell c n).now).cell c).bars = true := by
    rw [State.flagArrivals_bars]
    exact (h.cell c).bars
  have hcell := State.barCell_setBarCell_of_wf hthere hwf (n := n)
    { episode := (s.barCell c n).episode + 1, now := (s.barCell c n).early, early := [],
      up := decide ((s.flagArrivals c (s.barCell c n).now).barExp c n ≤ (s.barCell c n).early.length) }
  refine ⟨congrArg BarCell.episode hcell, congrArg BarCell.now hcell, congrArg BarCell.early hcell, ?_⟩
  rintro ⟨k, token, flag⟩ ha htoken hawake hflag
  obtain rfl : (s.thread c k).token = token := htoken
  have hthread : (s.barCellDone n c).thread c k = (s.flagArrivals c (s.barCell c n).now).thread c k :=
    State.cell_modCell_part (CellSt.thread · k) (by exact fun _ => rfl) _ c c
  exact (congrArg (·.flags.getLsbD flag) hthread).trans (State.flagArrivals_flag hawake hflag ha)

/-- Each of some cells completes the episode. -/
def State.barCellsDone (s : State) (n : Nat) (cells : List Nat) : State := cells.foldl (fun s c => s.barCellDone n c) s

theorem State.barCellsDone_device (s : State) (n : Nat) (cells : List Nat) : { s.barCellsDone n cells with cells := s.cells } = s :=
  List.foldlRecOn (motive := fun t : State => { t with cells := s.cells } = s) _ _ rfl fun t ht d _ => by
    obtain ⟨f, hf⟩ := State.barCellDone_modCell t n d
    rw [hf]
    exact ht

theorem State.barCellsDone_other (h : c ∉ cells) : (s.barCellsDone n cells).cell c = s.cell c :=
  List.foldlRecOn (motive := fun t : State => t.cell c = s.cell c) _ _ rfl fun t ht d hd => by
    obtain ⟨f, hf⟩ := State.barCellDone_modCell t n d
    rw [hf, State.cell_modCell_ne ((ne_of_mem_of_not_mem hd h).symm), ht]

/-- Where each cell is named once, what a cell does in its turn is what it does from the state before. -/
theorem State.barCellsDone_episodeDone (h : s.Good) (hc : c < s.cells.length) (hnodup : cells.Nodup) (hmem : c ∈ cells) :
    (s.cell c).EpisodeDone n ((s.barCellsDone n cells).cell c) := by
  induction cells generalizing s with
  | nil => cases hmem
  | cons d rest ih =>
    obtain ⟨hfresh, hrest⟩ := List.nodup_cons.1 hnodup
    change (s.cell c).EpisodeDone n (((s.barCellDone n d).barCellsDone n rest).cell c)
    rcases List.mem_cons.1 hmem with rfl | hlater
    · rw [State.barCellsDone_other hfresh]
      exact State.barCellDone_episodeDone h hc
    · have hgood : (s.barCellDone n d).Good := (Kept.refl s).barCellDone.good h
      obtain ⟨f, hf⟩ := State.barCellDone_modCell s n d
      rw [hf] at hgood ⊢
      rw [← State.cell_modCell_ne (s := s) (ne_of_mem_of_not_mem hlater hfresh) f]
      exact ih hgood (by rwa [State.modCell_cells, modAt_length]) hrest hlater

theorem State.barCells_nodup (s : State) (n : Nat) : (s.barCells n).Nodup := List.nodup_range.filter _

/-! ## The channel's next episode (R334) -/

/-- Messages that the tree sends are put out, and no more. -/
theorem State.barSends_eq (s : State) (links : List Nat) (n : Nat) (e : Byte) (brk : Nat) :
    ∃ out, links.foldl (fun s l => s.barSend l n e brk) s = { s with barOut := out } :=
  List.foldlRecOn (motive := fun t => ∃ out, t = { s with barOut := out }) _ _ ⟨_, rfl⟩ fun t ht _ _ => by
    obtain ⟨out, rfl⟩ := ht
    exact ⟨_, rfl⟩

theorem State.bar_setBar (hb : b ≠ BarChan.reset) : (s.setBar n b).bar n = b := tblGet_tblSet_ne_default hb n s.bars

/-- A channel that is enabled differs from one at reset. -/
theorem BarChan.ne_reset (h : b.en) : b ≠ BarChan.reset := fun e => Bool.false_ne_true ((congrArg BarChan.en e).symm.trans h)

/-- Passing a completion on moves two bits of the channel, and no counter. -/
theorem State.barUp_bar (s : State) (n : Nat) :
    (∃ sent all, (s.barUp n).bar n = { s.bar n with sentUp := sent, reached := all }) ∧ (s.barUp n).cnts = s.cnts := by
  unfold State.barUp
  extract_lets b
  split
  case isTrue h =>
    have hen : b.en := by
      simp only [Bool.and_eq_true] at h
      exact h.1.1.1.1
    split
    · exact ⟨⟨_, _, State.bar_setBar (BarChan.ne_reset (b := { b with sentUp := true }) hen)⟩, rfl⟩
    · exact ⟨⟨_, _, State.bar_setBar (BarChan.ne_reset (b := { b with reached := true }) hen)⟩, rfl⟩
  case isFalse => exact ⟨⟨_, _, rfl⟩, rfl⟩

/-- A channel at its next episode: the completion is counted, goes down the tree, and the next one may go up at once. -/
def State.barAdvance (s : State) (n : Nat) (b : BarChan) : State :=
  let t := (s.setBar n { b with done := b.done + 1, kids := b.kidsNext, kidsNext := [], sentUp := false, reached := false }).count (kBar 0) 1
  (if isSpaceChan n then (t.barChildren n).foldl (fun s l => s.barSend l n b.done 0) t else t).barUp n

theorem State.barComplete_eq (hn : n < 80) (hen : (s.bar n).en) (hbroken : (s.bar n).broken = false) (hreached : (s.bar n).reached) :
    s.barComplete n = (s.barCellsDone n (s.barCells n)).barAdvance n (s.bar n) :=
  if_pos ⟨hn, hen, by rw [hbroken]; rfl, hreached⟩

/-- What a channel at its next episode holds. -/
structure ChannelAdvanced (s t : State) (n : Nat) (b : BarChan) : Prop where
  cells : t.cells = s.cells
  done : (t.bar n).done = b.done + 1
  kids : (t.bar n).kids = b.kidsNext
  counted : t.cnt (kBar 0) = s.cnt (kBar 0) + 1

theorem ChannelAdvanced.barOut {out : List BarMsg} (h : ChannelAdvanced s t n b) : ChannelAdvanced s { t with barOut := out } n b := { h with }

theorem ChannelAdvanced.barUp (h : ChannelAdvanced s t n b) : ChannelAdvanced s (t.barUp n) n b := by
  obtain ⟨⟨sent, all, hbar⟩, hcnts⟩ := State.barUp_bar t n
  exact ⟨(State.barUp_parts t n).1.trans h.cells, (congrArg BarChan.done hbar).trans h.done, (congrArg BarChan.kids hbar).trans h.kids,
    (congrArg (tblGet 0 (kBar 0)) hcnts).trans h.counted⟩

theorem State.barAdvance_advanced (h : s.Good) (hen : b.en) : ChannelAdvanced s (s.barAdvance n b) n b := by
  unfold State.barAdvance
  extract_lets u
  have hcount : ReportsOnly (s.setBar n _) u := State.count_reportsOnly ..
  have hbar := (hcount.part_eq (State.bar · n)).trans (State.bar_setBar (BarChan.ne_reset hen))
  have hu : ChannelAdvanced s u n b := ⟨hcount.part_eq State.cells, congrArg BarChan.done hbar, congrArg BarChan.kids hbar,
    State.cnt_count ((Kept.refl s).setBar.good h) (by decide) 1⟩
  split
  · obtain ⟨out, hout⟩ := State.barSends_eq u (u.barChildren n) n b.done 0
    rw [hout]
    exact hu.barOut.barUp
  · exact hu.barUp

/-! ## The statement -/

/-- Settles O42: each taking-part cell completes the episode (`State.barCellsDone_episodeDone`), then the channel does
(`State.barAdvance_advanced`). -/
theorem barrierEpisodeEnds : Obligations.BarrierEpisodeEnds := by
  unfold Obligations.BarrierEpisodeEnds
  intro n s hgood hn hen hbroken hreached
  have hcells : (s.barCellsDone n (s.barCells n)).Good := ((Kept.refl s).foldl fun hs => hs.barCellDone).good hgood
  have hcnts : (s.barCellsDone n (s.barCells n)).cnts = s.cnts := (congrArg State.cnts (State.barCellsDone_device s n (s.barCells n)) :)
  obtain ⟨hafter, hdone, hkids, hcounted⟩ := State.barAdvance_advanced (n := n) hcells hen
  refine ⟨_, congrArg Host.Outcome.next (State.barComplete_eq hn hen hbroken hreached), hdone, hkids, ?_, fun c hmem hc => ?_⟩
  · rw [hcounted, State.cnt, hcnts]
    rfl
  · have hcell : ((s.barCellsDone n (s.barCells n)).barAdvance n (s.bar n)).cell c = (s.barCellsDone n (s.barCells n)).cell c :=
      congrArg (·.getD c CellSt.reset) hafter
    obtain ⟨hepisode, hnow, hearly, hflags⟩ := State.barCellsDone_episodeDone (n := n) hgood hc (s.barCells_nodup n) hmem
    rw [← hcell] at hepisode hnow hearly hflags
    exact ⟨hepisode, hnow, hearly, hflags⟩

end Sys2Proof.Machine

/-! PROOF. A channel's disabling in a device whose table of channels is not in its canonical form, and the refutation of BarrierChannelCommands. -/

namespace Sys2Proof.Machine

/-- A device whose table lists channel 0 twice, enabled. `State.Good` says nothing of that table; one in canonical form lists a channel once. -/
def channelTwice : State :=
  { State.reset with bars := [(0, { BarChan.reset with en := true }), (0, { BarChan.reset with en := true })] }

theorem channelTwice_good : channelTwice.Good := ⟨rfl, rfl, rfl, CellSt.Good.of_mem_replicate, by decide⟩

/-- The channel that is disabled is at reset, so its first entry goes, and the second one shows. -/
theorem channelTwice_disabled : ((channelTwice.barDisable 0).bar 0).en = true := by decide +kernel

/-- Refutes O43: its clause on disabling claims that the channel is no longer enabled, of every state that meets `State.Good`, also of one whose table
of channels is not in canonical form; there an entry behind the one that is dropped can still say that the channel is enabled. -/
theorem not_barrierChannelCommands : ¬ Obligations.BarrierChannelCommands := by
  unfold Obligations.BarrierChannelCommands
  rintro ⟨-, hchannels⟩
  obtain ⟨-, hdisable⟩ := hchannels 0 channelTwice channelTwice_good (by decide)
  obtain ⟨t, ht, hoff, -⟩ := hdisable rfl
  have hexec : exec (.barrierChannelDisable 0) channelTwice = .next (channelTwice.barDisable 0) := congrArg Host.Outcome.next (if_pos (by decide))
  obtain rfl : channelTwice.barDisable 0 = t := Host.Outcome.next.inj (hexec.symm.trans ht)
  rw [channelTwice_disabled] at hoff
  cases hoff

end Sys2Proof.Machine

/-! PROOF. Range maintenance of the cell cache (R349 to R353): the lines that INVALIDATE and UNLOCK leave, the course of an operation, the Scaler's
frame invalidates, and CacheMaintenance. -/

namespace Sys2Proof.Machine

variable {s₀ s t : State} {x : CacheSt} {c l f op : Nat}

/-! ## The cache of a cell -/

theorem State.cc_modCc_self (h : c < s.cells.length) (f : CacheSt → CacheSt) : (s.modCc c f).cc c = f (s.cc c) :=
  congrArg CellSt.cc (State.cell_modCell_self h fun x => { x with cc := f x.cc })

theorem State.modMaint_maint (h : c < s.cells.length) (f : Maint → Maint) : ((s.modMaint c f).cc c).maint = f (s.cc c).maint :=
  congrArg CacheSt.maint (State.cc_modCc_self h _)

theorem State.modMaint_lines (s : State) (c : Nat) (f : Maint → Maint) : ((s.modMaint c f).cc c).all = (s.cc c).all :=
  State.cell_modCell_part (·.cc.all) (f := fun x => { x with cc := { x.cc with maint := f x.cc.maint } }) (fun _ => rfl) s c c

theorem State.countC_cc (s : State) (c i n d : Nat) : (s.countC c i n).cc d = s.cc d := congrArg CellSt.cc (State.countC_cell s c i n d)

/-- A cell that is not there has no lines, so what a change makes of the lines it makes of none where it makes none of none. -/
theorem State.modCc_lines {F : CacheSt → CacheSt} {g : List Line → List Line} (hnil : g [] = []) (hF : (F (s.cc c)).all = g (s.cc c).all) :
    ((s.modCc c F).cc c).all = g (s.cc c).all := by
  by_cases hc : c < s.cells.length
  · rw [State.cc_modCc_self hc, hF]
  · have hout : s.cell c = CellSt.reset := State.cell_beyond (Nat.le_of_not_lt hc)
    rw [State.cc, State.cc, State.modCc, State.cell_modCell, if_neg fun h => hc h.2, hout]
    exact hnil.symm

/-- A cell with an operation in progress is there. -/
theorem State.cell_lt_of_busy (h : (s.cc c).maint.busy) : c < s.cells.length := by
  by_contra hc
  rw [State.cc, State.cell_beyond (Nat.le_of_not_lt hc)] at h
  cases h

/-! ## Lines whose tags pass (R355, R356) -/

/-- No line has an error in its tag that is not met yet, or that waits for a restart. -/
def CacheSt.TagsPass (x : CacheSt) : Prop := ∀ l ∈ x.all, l.upset < 3

theorem mem_of_tblGet_some {α : Type} {k : Nat} {v : α} {m : List (Nat × Option α)} (h : tblGet none k m = some v) : (k, some v) ∈ m := by
  induction m with
  | nil => cases h
  | cons e m ih =>
    rw [tblGet] at h
    split at h
    · next hk => exact List.mem_cons.2 (.inl (Prod.ext hk h.symm))
    · split at h
      · cases h
      · exact List.mem_cons_of_mem _ (ih h)

theorem CacheSt.mem_all_of_at {set way : Nat} {v : Line} (h : x.at set way = some v) : v ∈ x.all :=
  List.mem_filterMap.2 ⟨_, mem_of_tblGet_some h, rfl⟩

/-- A tag that passes is read and nothing happens. -/
theorem State.checkTag_pass (h : (s.cc c).TagsPass) (set way : Nat) : s.checkTag c set way = s := by
  unfold State.checkTag
  split
  · rfl
  · next v hv => exact if_pos (Nat.ne_of_lt (h v (CacheSt.mem_all_of_at hv)))

theorem State.probe_pass (h : (s.cc c).TagsPass) (p : Nat → Bool) : s.probe c p = s :=
  List.foldl_fixed' (fun set => List.foldl_fixed' (fun way => State.checkTag_pass h set way) _) _

/-- The lines for which `p` holds go, and no other. -/
theorem State.dropLines_lines (h : (s.cc c).TagsPass) (p : Nat → Bool) :
    ((s.dropLines c p).cc c).all = (s.cc c).all.filter fun l => !p l.la := by
  rw [State.dropLines, State.probe_pass h]
  refine State.modCc_lines (g := List.filter fun l => !p l.la) rfl ?_
  rw [CacheSt.all, CacheSt.all, List.filterMap_filter, List.filter_filterMap]
  refine List.filterMap_congr fun e he => ?_
  obtain ⟨k, o⟩ := e
  cases o with
  | none => rfl
  | some v =>
    have hv : v.upset < 3 := h v (List.mem_filterMap.2 ⟨_, he, rfl⟩)
    have hupset : (v.upset == 4) = false := beq_false_of_ne (by omega)
    simp [hupset, Option.filter]

/-! ## What an operation on a cache leaves -/

/-- Only the cache of one cell differs, the requests under way and what is counted and reported: no byte of memory, nothing else of a cell, no
other cell's cache. -/
structure OnlyCache (c : Nat) (s t : State) : Prop where
  mem : t.mem = s.mem
  size : t.cells.length = s.cells.length
  rest : ∀ d, { t.cell d with cc := s.cc d } = s.cell d
  caches : ∀ d, d ≠ c → t.cc d = s.cc d

theorem OnlyCache.refl (s : State) : OnlyCache c s s := ⟨rfl, rfl, fun _ => rfl, fun _ _ => rfl⟩

theorem OnlyCache.trans {u : State} (h : OnlyCache c s t) (k : OnlyCache c t u) : OnlyCache c s u where
  mem := k.mem.trans h.mem
  size := k.size.trans h.size
  rest d := (congrArg (fun y : CellSt => { y with cc := s.cc d }) (k.rest d)).trans (h.rest d)
  caches d hd := (k.caches d hd).trans (h.caches d hd)

theorem OnlyCache.of_cells (h : OnlyCache c s₀ s) (cells : t.cells = s.cells) (mem : t.mem = s.mem) : OnlyCache c s₀ t := by
  have hcell (d : Nat) : t.cell d = s.cell d := congrArg (·.getD d CellSt.reset) cells
  exact h.trans ⟨mem, congrArg List.length cells, fun d => by rw [hcell]; rfl, fun d _ => congrArg CellSt.cc (hcell d)⟩

theorem OnlyCache.sameMemory (h : OnlyCache c s t) : SameMemory s t := fun a => congrArg (memGet · a) h.mem

theorem OnlyCache.sameOpmem (h : OnlyCache c s t) : SameOpmem s t := fun d a =>
  (congrArg (fun y : CellSt => memGet y.opmem a) (h.rest d) :)

theorem OnlyCache.reports (h : OnlyCache c s₀ s) (hr : ReportsOnly s t) : OnlyCache c s₀ t :=
  h.of_cells (hr.part_eq State.cells) (hr.part_eq State.mem)

theorem OnlyCache.countC {i n : Nat} (h : OnlyCache c s₀ s) : OnlyCache c s₀ (s.countC c i n) := h.reports (s.count_reportsOnly ..)

theorem OnlyCache.modCc {F : CacheSt → CacheSt} (h : OnlyCache c s₀ s) : OnlyCache c s₀ (s.modCc c F) := by
  refine h.trans ⟨rfl, modAt_length .., fun d => ?_, fun d hd => congrArg CellSt.cc (State.cell_modCell_ne hd _)⟩
  rw [State.modCc, State.cell_modCell]
  split
  · rfl
  · rfl

theorem OnlyCache.modMaint {F : Maint → Maint} (h : OnlyCache c s₀ s) : OnlyCache c s₀ (s.modMaint c F) := h.modCc

theorem OnlyCache.ite {P : Prop} [Decidable P] (hs : OnlyCache c s₀ s) (ht : OnlyCache c s₀ t) : OnlyCache c s₀ (if P then s else t) := by
  split
  · exact hs
  · exact ht

theorem OnlyCache.errBump {a : Nat} (h : OnlyCache c s₀ s) : OnlyCache c s₀ (s.errBump a) := h.of_cells rfl rfl

theorem OnlyCache.seeClass {k : Nat} (h : OnlyCache c s₀ s) : OnlyCache c s₀ (s.seeClass k) := .ite (h.of_cells rfl rfl) h

theorem OnlyCache.raise {source kind code k info : Nat} (h : OnlyCache c s₀ s) : OnlyCache c s₀ (s.raise source kind code k info) :=
  h.reports (s.raise_reportsOnly ..)

theorem OnlyCache.checkTag {set way : Nat} (h : OnlyCache c s₀ s) : OnlyCache c s₀ (s.checkTag c set way) := by
  unfold State.checkTag
  split
  · exact h
  · exact .ite h (.ite h.modCc.errBump.seeClass.raise h.modCc.errBump.seeClass)

theorem OnlyCache.checkSet {set : Nat} (h : OnlyCache c s₀ s) : OnlyCache c s₀ (s.checkSet c set) :=
  List.foldlRecOn _ _ h fun _ h _ _ => h.checkTag

theorem OnlyCache.checkLine {la : Nat} (h : OnlyCache c s₀ s) : OnlyCache c s₀ (s.checkLine c la) := by
  dsimp only [State.checkLine]
  split
  · exact h.checkSet
  · split
    · exact h.checkSet.modCc.errBump.seeClass
    · exact .ite h.checkSet.modCc.errBump.seeClass.raise h.checkSet.modCc.errBump.seeClass
    · exact h.checkSet

theorem OnlyCache.probe {p : Nat → Bool} (h : OnlyCache c s₀ s) : OnlyCache c s₀ (s.probe c p) :=
  List.foldlRecOn _ _ h fun _ h _ _ => h.checkSet

theorem OnlyCache.dropLines {p : Nat → Bool} (h : OnlyCache c s₀ s) : OnlyCache c s₀ (s.dropLines c p) := h.probe.modCc

theorem OnlyCache.writeBack {v : Line} (h : OnlyCache c s₀ s) : OnlyCache c s₀ (s.writeBack c v) := by
  dsimp only [State.writeBack]
  split
  · exact h
  · exact h.of_cells rfl rfl

theorem OnlyCache.cleanLines {p : Nat → Bool} (h : OnlyCache c s₀ s) : OnlyCache c s₀ (s.cleanLines c p).2 := by
  refine List.foldlRecOn _ _ h.probe fun u hu v _ => ?_
  dsimp only
  split
  · exact hu.checkLine.writeBack.modCc
  · exact hu.checkLine

theorem OnlyCache.maintInvalidate {has : Nat → Bool} (h : OnlyCache c s₀ s) : OnlyCache c s₀ (s.maintInvalidate c has) :=
  h.countC.countC.dropLines

theorem OnlyCache.maintUnlock {has : Nat → Bool} (h : OnlyCache c s₀ s) : OnlyCache c s₀ (s.maintUnlock c has) := h.countC.modCc

theorem State.maintAwait_eq (s : State) (c : Nat) (has : Nat → Bool) :
    s.maintAwait c has = s.modMaint c fun m => { m with fills := m.fills ++ (s.backsOut c has).map (·.id) } := rfl

theorem OnlyCache.maintClean {has : Nat → Bool} (h : OnlyCache c s₀ s) : OnlyCache c s₀ (s.maintClean c has) := by
  rw [State.maintClean, State.maintAwait_eq]
  exact h.countC.cleanLines.modMaint

/-- An operation over every line names no granules, so that PRELOAD_LOCK fetches none. -/
theorem OnlyCache.maintAct {has : Nat → Bool} (h : OnlyCache c s₀ s) : OnlyCache c s₀ (s.maintAct c op has []) := by
  unfold State.maintAct
  split
  case h_1 => exact h.maintClean
  case h_2 => exact h.maintInvalidate
  case h_3 => exact h.maintClean.dropLines
  case h_4 => exact h
  case h_5 => exact h.maintUnlock

/-! ## INVALIDATE and UNLOCK line by line (R349) -/

theorem State.maintInvalidate_lines (h : (s.cc c).TagsPass) (has : Nat → Bool) :
    ((s.maintInvalidate c has).cc c).all = (s.cc c).all.filter fun l => !has l.la := by
  have hcount (k n : Nat) : ((s.maintCount c has).countC c k n).cc c = s.cc c := by
    rw [State.countC_cc, State.maintCount, State.countC_cc]
  unfold State.maintInvalidate
  extract_lets lost
  rw [State.dropLines_lines (by rwa [hcount]), hcount]

/-- UNLOCK of a line that `has` covers. -/
def Line.unlocked (has : Nat → Bool) (v : Line) : Line := if has v.la then { v with lock := false } else v

theorem State.maintUnlock_lines (s : State) (c : Nat) (has : Nat → Bool) :
    ((s.maintUnlock c has).cc c).all = (s.cc c).all.map (Line.unlocked has) := by
  have hcount : (s.maintCount c has).cc c = s.cc c := State.countC_cc ..
  rw [← hcount]
  refine State.modCc_lines (g := List.map (Line.unlocked has)) rfl ?_
  rw [CacheSt.all, CacheSt.all, List.filterMap_map, List.map_filterMap]
  rfl

/-! ## The course of an operation (R350, R351, R353) -/

/-- The commands of range maintenance, with the codes of their operations. -/
def maintCommands : List ((Nat → Instr) × Nat) := [(.ccClean, 0), (.ccInvalidate, 1), (.ccCleanInv, 2), (.ccPreloadLock, 3), (.ccUnlock, 4)]

theorem exec_maintCommand : ∀ i ∈ maintCommands, exec (i.1 c) s = .next (s.maintRun c i.2) := by
  simp only [maintCommands, List.forall_mem_cons]
  exact ⟨rfl, rfl, rfl, rfl, rfl, List.forall_mem_nil _⟩

theorem State.maintReady_parts (h : s.maintReady c op) :
    (s.cc c).maint.busy = true ∧ (s.cc c).maint.done = false := by
  simp only [State.maintReady, Bool.and_eq_true, Bool.not_eq_true'] at h
  obtain ⟨⟨⟨⟨-, hbusy⟩, hdone⟩, -⟩, -⟩ := h
  exact ⟨hbusy, hdone⟩

theorem State.cell_lt_of_maintReady (h : s.maintReady c op) : c < s.cells.length := State.cell_lt_of_busy (State.maintReady_parts h).1

theorem State.modMaint_modMaint (s : State) (c : Nat) (F G : Maint → Maint) : (s.modMaint c G).modMaint c F = s.modMaint c fun m => F (G m) :=
  congrArg (fun cells => { s with cells := cells }) (modAt_modAt ..)

/-- An operation whose range is good begins at a plot, with the requests that it waits for noted. -/
theorem State.maintBegin_good (hbegun : (s.cc c).maint.begun = false) (herr : s.maintErr (s.cc c).maint = 0) :
    ∃ plot fills, s.maintBegin c = s.modMaint c fun m => { m with begun := true, plot := plot, fills := fills } := by
  unfold State.maintBegin
  extract_lets m e first fills u
  rw [if_neg (by simp [m, hbegun]), if_neg (not_not.2 herr)]
  split
  · exact ⟨first, fills ++ (u.backsOut c (u.maintHas c)).map (·.id), (u.maintAwait_eq c (u.maintHas c)).trans (State.modMaint_modMaint ..)⟩
  · exact ⟨first, fills, rfl⟩

/-- One without a good range notes its error and is done. -/
theorem State.maintRun_error (h : s.maintReady c op) (hbegun : (s.cc c).maint.begun = false) (herr : s.maintErr (s.cc c).maint ≠ 0) :
    s.maintRun c op = s.modMaint c fun m => { m with begun := true, done := true, err := s.maintErr (s.cc c).maint } := by
  have hbegin : s.maintBegin c = s.modMaint c fun m => { m with begun := true, done := true, err := s.maintErr (s.cc c).maint } := by
    unfold State.maintBegin
    extract_lets m e first fills u
    exact (if_neg (by simp [m, hbegun])).trans (if_pos herr)
  unfold State.maintRun
  rw [if_pos h, hbegin]
  exact if_pos (congrArg Maint.done (State.modMaint_maint (State.cell_lt_of_maintReady h) _))

/-- What an operation over every line, or over a good range, holds as it goes on from its beginning. -/
theorem State.maintBegin_parts (h : s.maintReady c op) (hbegun : (s.cc c).maint.begun = false) (herr : s.maintErr (s.cc c).maint = 0) :
    OnlyCache c s (s.maintBegin c) ∧ ((s.maintBegin c).cc c).all = (s.cc c).all ∧ ((s.maintBegin c).cc c).maint.done = false ∧
      ((s.maintBegin c).cc c).maint.all = (s.cc c).maint.all ∧ ((s.maintBegin c).cc c).maint.count = (s.cc c).maint.count := by
  obtain ⟨plot, fills, hbegin⟩ := State.maintBegin_good hbegun herr
  rw [hbegin, State.modMaint_maint (State.cell_lt_of_maintReady h)]
  exact ⟨(OnlyCache.refl s).modMaint, State.modMaint_lines .., (State.maintReady_parts h).2, rfl, rfl⟩

/-- Over every line an operation is carried out at once. -/
theorem State.maintRun_all (h : s.maintReady c op) (hbegun : (s.cc c).maint.begun = false) (hall : (s.cc c).maint.all) :
    s.maintRun c op = ((s.maintBegin c).maintAct c op (fun _ => true) []).modMaint c fun m => { m with done := true } := by
  obtain ⟨-, -, hdone, hsame, -⟩ := State.maintBegin_parts h hbegun (if_pos hall)
  unfold State.maintRun
  extract_lets u m
  rw [if_pos h, if_neg (by simp [m, u, hdone]), if_pos (hsame.trans hall)]

/-- Over a range it goes on plot by plot. -/
theorem State.maintRun_range (h : s.maintReady c op) (hbegun : (s.cc c).maint.begun = false) (hall : (s.cc c).maint.all = false)
    (herr : s.maintErr (s.cc c).maint = 0) :
    s.maintRun c op = State.maintGo c (17 * ((s.cc c).maint.count + 2)) (s.maintBegin c) := by
  obtain ⟨-, -, hdone, hsame, hcount⟩ := State.maintBegin_parts h hbegun herr
  unfold State.maintRun
  extract_lets u m
  rw [if_pos h, if_neg (by simp [m, u, hdone]), if_neg (by simp [m, u, hsame, hall]), show m.count = (s.cc c).maint.count from hcount]

/-- An operation over every line is done, and of the cells only this one's cache differs. -/
theorem State.maintRun_all_done (h : s.maintReady c op) (hbegun : (s.cc c).maint.begun = false) (hall : (s.cc c).maint.all) :
    ((s.maintRun c op).cc c).maint.done = true ∧ OnlyCache c s (s.maintRun c op) := by
  obtain ⟨honly, -⟩ := State.maintBegin_parts h hbegun (if_pos hall)
  have hact : OnlyCache c s ((s.maintBegin c).maintAct c op (fun _ => true) []) := honly.maintAct
  rw [State.maintRun_all h hbegun hall]
  exact ⟨congrArg Maint.done (State.modMaint_maint (hact.size ▸ State.cell_lt_of_maintReady h) _), hact.modMaint⟩

theorem State.maintInvalidate_every (h : s.maintReady c 1) (hbegun : (s.cc c).maint.begun = false) (hall : (s.cc c).maint.all)
    (htags : (s.cc c).TagsPass) : ((s.maintRun c 1).cc c).all = [] := by
  obtain ⟨-, hlines, -⟩ := State.maintBegin_parts h hbegun (if_pos hall)
  have htags' : ((s.maintBegin c).cc c).TagsPass := fun v hv => htags v (hlines ▸ hv)
  rw [State.maintRun_all h hbegun hall, State.modMaint_lines]
  exact (State.maintInvalidate_lines htags' _).trans (List.filter_false _)

theorem State.maintUnlock_every (h : s.maintReady c 4) (hbegun : (s.cc c).maint.begun = false) (hall : (s.cc c).maint.all) :
    ((s.maintRun c 4).cc c).all = (s.cc c).all.map fun v => { v with lock := false } := by
  obtain ⟨-, hlines, -⟩ := State.maintBegin_parts h hbegun (if_pos hall)
  rw [State.maintRun_all h hbegun hall, State.modMaint_lines, ← hlines]
  exact State.maintUnlock_lines ..

/-- The entry of the next plot, where the cell has it. -/
theorem State.maintLook_entry {d : Desc} {p : Nat} {e : MapEntry} {v : State} (hgot : (s.cc c).maint.got = none) (hawait : (s.cc c).maint.await = false)
    (hlook : s.lookup c d p = (.entry e, v)) : s.maintLook c d p = (some (some e), v) := by
  unfold State.maintLook
  rw [hgot, hawait, hlook]
  rfl

/-- The plot whose home frame is here: the operation acts on the frame's lines and goes on to the next plot. -/
theorem State.maintPlot_here {d : Desc} {e : MapEntry} {v : State} (hd : s.liveDesc (addrHandle (s.cc c).maint.addr) = some d)
    (hin : (s.cc c).maint.plot * eppOf d < addrIndex (s.cc c).maint.addr + (s.cc c).maint.count)
    (hgot : (s.cc c).maint.got = none) (hawait : (s.cc c).maint.await = false)
    (hlook : s.lookup c d (s.cc c).maint.plot = (.entry e, v)) (hstate : e.pstate ≠ 3) (hdev : e.dev = v.dev)
    (hrec : (v.landing e.lnd).recAt e.frame = some { handle := addrHandle (s.cc c).maint.addr, plot := (s.cc c).maint.plot, gen := e.gen }) :
    s.maintPlot c = ((v.maintAct c (s.cc c).maint.op
      (fun la => inFrame e.lnd e.frame la &&
        v.lineInRange (addrHandle (s.cc c).maint.addr) (addrIndex (s.cc c).maint.addr) (s.cc c).maint.count la)
      (frameRange d e.lnd e.frame (s.cc c).maint.plot (addrIndex (s.cc c).maint.addr) (s.cc c).maint.count)).maintNext c, true) := by
  unfold State.maintPlot
  extract_lets m h i0 fin
  rw [hd]
  dsimp only
  rw [if_neg (Nat.not_le.2 hin), State.maintLook_entry hgot hawait hlook]
  dsimp only
  rw [if_neg hstate, if_pos hdev]
  exact if_pos hrec

/-- BUSY clears once every request that the operation waits for has returned. -/
theorem State.maintComplete_eq (hbusy : (s.cc c).maint.busy) (hdone : (s.cc c).maint.done) (hfills : ∀ i ∈ (s.cc c).maint.fills, s.req i = none) :
    s.maintComplete c = s.modMaint c fun m => { m with busy := false, begun := false, done := false, fills := [] } := by
  have hreturned : ((s.cc c).maint.fills.all fun i => (s.req i).isNone) = true :=
    List.all_eq_true.2 fun i hi => Option.isNone_iff_eq_none.2 (hfills i hi)
  exact if_pos (by simp only [hbusy, hdone, hreturned, Bool.and_self])

/-! ## This device's number, where a cell counts -/

/-- An entry written with a value that the table lists is no matter to the keys below it, in a table of any form. -/
theorem tblGet_tblSet_below {α : Type} [DecidableEq α] {d e v : α} {j k : Nat} (hjk : j < k) (hv : v ≠ e) (m : List (Nat × α)) :
    tblGet d j (tblSet e k v m) = tblGet d j m := by
  have hstop : ∀ l : List (Nat × α), tblGet d j ((k, v) :: l) = d := fun l => by
    rw [tblGet, if_neg (Nat.ne_of_lt hjk), if_pos hjk]
  induction m with
  | nil =>
    rw [tblSet, if_neg hv]
    exact hstop []
  | cons y m ih =>
    obtain ⟨k', w⟩ := y
    rw [tblSet, if_neg hv, if_neg hv]
    split
    · next hk => rw [hstop, tblGet, if_neg (by omega), if_pos (by omega)]
    · split
      · next hk => rw [hstop, tblGet, if_neg (by omega), if_pos (by omega)]
      · rw [tblGet, tblGet, ih]

theorem blockOf_cell {o : Nat} (hc : c < 192) (ho : o < 0x10000) : blockOf (cellBase c + o) = .cell c := by
  have hb : (cellBase c + o) / 0x10000 = 0x200 + c := by
    unfold cellBase
    omega
  unfold blockOf
  extract_lets b
  rw [show b = 0x200 + c from hb, if_pos (by omega), if_pos (by omega), Nat.add_sub_cancel_left]

theorem offOf_cell {o : Nat} (ho : o < 0x10000) : offOf (cellBase c + o) = o := by
  unfold offOf cellBase
  omega

/-- MAINT_STATUS and the control word of CNT_CC_LOCK_LOST lie above FAB_ID, and hold 0 after reset. -/
theorem regReset_maint {a : Nat} (hc : c < 192) (ha : a = rMaintStatus c ∨ a = kCell c (cCc 6) + 8) : rFabId < a ∧ regReset a = 0 := by
  obtain ⟨o, ho, rfl⟩ : ∃ o, (o = 0x218 ∨ o = 0x1348) ∧ a = cellBase c + o := by
    rcases ha with rfl | rfl
    · exact ⟨0x218, .inl rfl, rfl⟩
    · exact ⟨0x1348, .inr rfl, rfl⟩
  have hbound : o < 0x10000 := by omega
  have hmod : (cellBase c + o) % 16 = o % 16 := by
    unfold cellBase
    omega
  constructor
  · unfold rFabId fabBase cellBase
    omega
  · unfold regReset regFlds isCntCtl
    rw [blockOf_cell hc hbound, offOf_cell hbound, hmod]
    rcases ho with rfl | rfl
    · rfl
    · rfl

theorem State.dev_setBits_maint {a : Nat} {m : W32} (hc : c < 192) (ha : a = rMaintStatus c ∨ a = kCell c (cCc 6) + 8) (hm : m ≠ 0) :
    (s.setBits a m).dev = s.dev := by
  obtain ⟨habove, hreset⟩ := regReset_maint hc ha
  have hset : s.reg a ||| m ≠ regReset a := by
    rw [hreset]
    exact fun h => hm (BitVec.or_eq_zero_iff.1 h).2
  exact congrArg (fld · 15 0) (tblGet_tblSet_below habove hset s.regs)

theorem State.dev_countC_locks (hc : c < 192) (n : Nat) : (s.countC c (cCc 6) n).dev = s.dev := by
  have hraw : (s.rawCount (kCell c (cCc 6)) n).dev = s.dev := by
    unfold State.rawCount
    extract_lets v u
    split
    · exact State.dev_setBits_maint hc (.inr rfl) (by decide)
    · rfl
  unfold State.countC State.count
  extract_lets wraps u
  split
  · exact (State.dev_report _).trans hraw
  · exact hraw

/-! ## SCALER_FRAME_INVALIDATE (R84, R88, R353) -/

/-- The locks that an invalidate of a frame takes are counted. -/
def State.locksLost (s : State) (c l f : Nat) : State :=
  let locks := ((s.cc c).all.filter fun x => x.lock && inFrame l f x.la).length
  if locks = 0 then s else (s.countC c (cCc 6) locks).setBits (rMaintStatus c) 0x20

theorem State.locksLost_reportsOnly (s : State) (c l f : Nat) : ReportsOnly s (s.locksLost c l f) := by
  unfold State.locksLost
  extract_lets locks
  split
  · rfl
  · exact (State.count_reportsOnly s (kCell c (cCc 6)) locks).trans rfl

theorem State.locksLost_dev (hc : c < 192) (l f : Nat) : (s.locksLost c l f).dev = s.dev := by
  unfold State.locksLost
  extract_lets locks
  split
  · rfl
  · exact (State.dev_setBits_maint hc (.inl rfl) (by decide)).trans (State.dev_countC_locks hc locks)

theorem State.locksLost_fillsOut (hc : c < 192) (l f : Nat) : (s.locksLost c l f).fillsOut c = s.fillsOut c := by
  have hreqs : (s.locksLost c l f).reqs = s.reqs := (s.locksLost_reportsOnly c l f).part_eq State.reqs
  rw [State.fillsOut, State.fillsOut, hreqs, State.locksLost_dev hc]

/-- The state in which every line of the frame has gone. -/
def State.frameDropped (s : State) (c l f : Nat) : State := (s.locksLost c l f).dropLines c (inFrame l f)

theorem State.frameDropped_only (s : State) (c l f : Nat) : OnlyCache c s (s.frameDropped c l f) :=
  ((OnlyCache.refl s).reports (s.locksLost_reportsOnly c l f)).dropLines

theorem State.frameDropped_lines (h : (s.cc c).TagsPass) (l f : Nat) :
    ((s.frameDropped c l f).cc c).all = (s.cc c).all.filter fun v => !inFrame l f v.la := by
  have hcc : (s.locksLost c l f).cc c = s.cc c := (s.locksLost_reportsOnly c l f).part_eq (State.cc · c)
  rw [State.frameDropped, State.dropLines_lines (by rwa [hcc]), hcc]

/-- The cell notes that it invalidates the frame, and waits for no fill. -/
def State.frameNote (s : State) (c l f : Nat) : State := s.modCell c fun x => { x with scInv := x.scInv ++ [(l, f, [])] }

theorem State.frameBegin_eq (hc : c < 192) (hfills : s.fillsOut c = []) : s.frameBegin c l f = (s.frameDropped c l f).frameNote c l f := by
  have hnone : (s.locksLost c l f).fillsOut c = [] := (State.locksLost_fillsOut hc l f).trans hfills
  rw [State.frameNote, ← hnone]
  rfl

theorem State.mem_frameNote_scInv {y : Nat × Nat × List Nat} (h : y ∈ ((s.frameNote c l f).cell c).scInv) :
    y ∈ (s.cell c).scInv ∨ y = (l, f, []) := by
  rw [State.frameNote, State.cell_modCell] at h
  split at h
  · rcases List.mem_append.1 h with h | h
    · exact .inl h
    · exact .inr (List.mem_singleton.1 h)
  · exact .inl h

/-- The cell acknowledges the invalidate of the frame, and forgets it. -/
def State.frameEnd (s : State) (c l f : Nat) : State :=
  (s.frameAck c l f).modCell c fun x => { x with scInv := x.scInv.filter fun y => !(y.1 == l && y.2.1 == f) }

/-- An invalidate whose cell waits for no fill is acknowledged at once. -/
theorem State.frameInvalidate_eq (hc : c < 192) (hdue : s.frameDue c l f) (hnew : ∀ y ∈ (s.cell c).scInv, ¬(y.1 = l ∧ y.2.1 = f))
    (hfills : s.fillsOut c = []) : s.frameInvalidate c l f = ((s.frameDropped c l f).frameNote c l f).frameEnd c l f := by
  have hfirst : ((s.cell c).scInv.any fun y => y.1 == l && y.2.1 == f) = false :=
    List.any_eq_false.2 fun y hy h => hnew y hy (by simpa using h)
  have hkept : ((s.frameDropped c l f).cell c).scInv = (s.cell c).scInv := (congrArg CellSt.scInv ((s.frameDropped_only c l f).rest c) :)
  unfold State.frameInvalidate
  rw [if_neg (by simp [hdue]), hfirst, State.frameBegin_eq hc hfills]
  generalize s.frameDropped c l f = u at hkept ⊢
  have hreturned : ((((u.frameNote c l f).cell c).scInv.filter fun y => y.1 == l && y.2.1 == f).all fun y =>
      y.2.2.all fun i => ((u.frameNote c l f).req i).isNone) = true := by
    refine List.all_eq_true.2 fun y hy => ?_
    obtain ⟨hmem, hframe⟩ := List.mem_filter.1 hy
    rcases State.mem_frameNote_scInv hmem with hold | rfl
    · exact absurd (by simpa using hframe) (hnew y (hkept ▸ hold))
    · rfl
  exact if_pos hreturned

/-- A part of a cell that does not turn on its frames under invalidation is as it was. -/
theorem State.frameNote_frameEnd_part {α : Type} (part : CellSt → α) (hpart : ∀ x y, part { x with scInv := y } = part x) (s : State) (c l f d : Nat) :
    part (((s.frameNote c l f).frameEnd c l f).cell d) = part (s.cell d) :=
  (State.cell_modCell_part part (fun x => hpart x _) ((s.frameNote c l f).frameAck c l f) c d).trans
    (State.cell_modCell_part part (fun x => hpart x _) s c d)

/-- The landing's list of frames to invalidate, with the cell's acknowledgement. -/
theorem State.inval_frameAck (s : State) (c l f : Nat) : ((s.frameAck c l f).landing l).inval =
    (s.landing l).inval.map fun y => if (y.1 == f) && !y.2.contains c then (y.1, y.2 ++ [c]) else y := by
  by_cases hl : l < s.landings.length
  · exact congrArg Landing.inval ((State.landing_modLanding _ l l _).trans (if_pos ⟨rfl, hl⟩))
  · have hout : s.landing l = Landing.reset := List.getD_eq_default _ _ (Nat.le_of_not_lt hl)
    refine (congrArg Landing.inval ((State.landing_modLanding _ l l _).trans (if_neg fun h => hl h.2))).trans ?_
    change (s.landing l).inval = _
    rw [hout]
    rfl

/-- Once the cell has acknowledged, the Scaler wants nothing more of it for the frame. -/
theorem State.frameDue_frameEnd (s : State) (c l f : Nat) : (s.frameEnd c l f).frameDue c l f = false := by
  refine Bool.or_eq_false_iff.2 ⟨List.any_eq_false.2 (List.forall_mem_map.2 fun m _ => ?moves), ?landing⟩
  case moves =>
    split
    · simp
    · next hm =>
      simp only [Bool.and_eq_true] at hm ⊢
      exact fun ⟨⟨⟨hphase, _⟩, hsrc⟩, hack⟩ => hm ⟨⟨hphase, hsrc⟩, hack⟩
  case landing =>
    refine (congrArg (List.any · fun y => y.1 == f && !y.2.contains c) (s.inval_frameAck c l f)).trans ?_
    refine List.any_eq_false.2 (List.forall_mem_map.2 fun y _ => ?_)
    split
    · simp
    · next hy => exact hy

/-! ## The statement -/

/-- Settles O19: an operation begins with its error (`State.maintRun_error`), over every line (`State.maintRun_all_done`) or over its plots
(`State.maintRun_range`, `State.maintPlot_here`); INVALIDATE filters the lines and UNLOCK maps them (`State.maintInvalidate_lines`,
`State.maintUnlock_lines`); and the Scaler's invalidate is `State.frameEnded`. -/
theorem cacheMaintenance : Obligations.CacheMaintenance := by
  unfold Obligations.CacheMaintenance
  refine ⟨fun c s => ⟨fun i hi hready hbegun => ?_, fun d e v => State.maintPlot_here, fun has htags => ?invalidate, fun has => ?unlock,
    fun hbusy hdone hfills => ?complete⟩, fun c l f s hc hparked hdue hnew hfills htags => ?frame⟩
  · have hexec : exec (i.1 c) s = .next (s.maintRun c i.2) := exec_maintCommand i hi
    refine ⟨fun herr => ⟨_, hexec, ?error⟩, fun hall => ⟨_, hexec, ?every⟩, fun hall herr => ⟨_, hexec, State.maintRun_range hready hbegun hall herr⟩⟩
    case error =>
      rw [State.maintRun_error hready hbegun herr]
      exact State.modCell_step (State.cell_lt_of_maintReady hready) _
    case every =>
      obtain ⟨hdone, honly⟩ := State.maintRun_all_done hready hbegun hall
      refine ⟨hdone, fun hop htags => ⟨?_, honly.sameMemory, honly.sameOpmem⟩, fun hop => ⟨?_, honly.sameMemory, honly.sameOpmem⟩⟩
      · rw [hop] at hready ⊢
        exact State.maintInvalidate_every hready hbegun hall htags
      · rw [hop] at hready ⊢
        exact State.maintUnlock_every hready hbegun hall
  case invalidate => exact ⟨State.maintInvalidate_lines htags has, (OnlyCache.refl s).maintInvalidate.sameMemory⟩
  case unlock => exact ⟨State.maintUnlock_lines s c has, (OnlyCache.refl s).maintUnlock.sameMemory⟩
  case complete =>
    refine ⟨_, congrArg Host.Outcome.next (State.maintComplete_eq hbusy hdone hfills), ?_⟩
    exact State.modCell_step (State.cell_lt_of_busy hbusy) _
  case frame =>
    have hdropped := s.frameDropped_only c l f
    have hlines := State.frameDropped_lines htags l f
    have hexec : exec (.scalerFrameInvalidate c l f) s = .next (s.frameInvalidate c l f) :=
      congrArg Host.Outcome.next (if_pos (by simp [hc, hparked]))
    rw [State.frameInvalidate_eq hc hdue hnew hfills] at hexec
    generalize s.frameDropped c l f = u at hdropped hlines hexec
    have hcc (d : Nat) : ((u.frameNote c l f).frameEnd c l f).cc d = u.cc d := u.frameNote_frameEnd_part CellSt.cc (fun _ _ => rfl) c l f d
    have hopmem (d : Nat) : (((u.frameNote c l f).frameEnd c l f).cell d).opmem = (u.cell d).opmem :=
      u.frameNote_frameEnd_part CellSt.opmem (fun _ _ => rfl) c l f d
    exact ⟨_, hexec, (congrArg CacheSt.all (hcc c)).trans hlines, fun d hd => (hcc d).trans (hdropped.caches d hd), hdropped.sameMemory,
      fun d a => (congrArg (memGet · a) (hopmem d)).trans (hdropped.sameOpmem d a), State.frameDue_frameEnd _ c l f⟩

end Sys2Proof.Machine

/-! PROOF. The step and the queue: what every command and every step keeps of the queue and of one-time memory; the state after reset. -/

namespace Sys2Proof.Machine

/-- Settles O4: a step's operations only move one-time memory forward (`step_kept`), and taking the command off the queue leaves it alone. -/
theorem everyStepKeepsFuses : Obligations.EveryStepKeepsFuses := by
  unfold Obligations.EveryStepKeepsFuses
  intro s t ht
  obtain ⟨u, hu, hkept⟩ := step_kept s
  cases hu.symm.trans ht
  exact hkept.fuses

/-- Settles O2: each command is an operation that the model always carries out, and which keeps the queue (`Kept.exec_next`). -/
theorem commandsAnswerAndKeepQueue : Obligations.CommandsAnswerAndKeepQueue := by
  unfold Obligations.CommandsAnswerAndKeepQueue
  constructor
  · intro i s
    obtain ⟨t, ht, -⟩ := (Kept.refl s).exec_next i
    exact ⟨t, ht⟩
  · intro i s t ht
    obtain ⟨u, hu, hkept⟩ := (Kept.refl s).exec_next i
    cases hu.symm.trans ht
    exact hkept.queue

/-- Settles O1: with a command in front, `step` is `exec` on the rest by definition. -/
theorem stepRunsFrontCommand : Obligations.StepRunsFrontCommand := by
  unfold Obligations.StepRunsFrontCommand
  intro i rest s
  rfl

/-! ## The state after reset -/

/-- Every element of a list of equal elements, the default too, is that element. -/
theorem replicate_getD_self {α : Type} (n k : Nat) (a : α) : (List.replicate n a).getD k a = a := by
  rw [List.getD_eq_getElem?_getD, List.getElem?_replicate]
  split
  · rfl
  · rfl

theorem State.reset_good : State.reset.Good where
  mem := rfl
  regs := rfl
  cnts := rfl
  cells := CellSt.Good.of_mem_replicate
  tick := by decide

theorem State.reset_thread (c k : Nat) : State.reset.thread c k = Thread.reset := by
  have hcell : State.reset.cell c = CellSt.reset := replicate_getD_self 192 c CellSt.reset
  rw [State.thread, hcell, CellSt.thread_reset]

theorem State.reset_link (l : Nat) : State.reset.link l = Link.reset := replicate_getD_self 32 l Link.reset

/-- Settles O49: the tables of the state after reset are empty and read their defaults; its lists of cells, slots and links hold one unit each. -/
theorem resetState : Obligations.ResetState := by
  unfold Obligations.ResetState
  refine ⟨rfl, State.reset_good, fun _ => rfl, rfl, rfl, rfl, fun c k => ?_, fun l => ?_, fun _ => rfl, fun _ => rfl⟩
  · rw [State.reset_thread]
    rfl
  · rw [State.reset_link]
    rfl

end Sys2Proof.Machine

/-! PROOF. What counting, reporting and the events of the fabric leave of the state; a granule read after it is written, and an add to a poisoned
granule. -/

namespace Sys2Proof.Machine

variable {s t u : State}

/-! ## What notices leave -/

/-- Only what counters, reports and free values write differs: registers, counters, event records, the supervisors' queues, the classes of error
seen, and the count of free values. -/
def Noted (s t : State) : Prop :=
  { t with
    regs := s.regs, cnts := s.cnts, eth := { t.eth with events := s.eth.events, lost := s.eth.lost }, supQ := s.supQ, recent := s.recent,
    muted := s.muted, errSeen := s.errSeen, free := s.free } = s

theorem Noted.refl (s : State) : Noted s s := rfl

theorem Noted.trans (h : Noted s t) (k : Noted t u) : Noted s u := by
  have hk := congrArg (fun x : State =>
    { x with
      regs := s.regs, cnts := s.cnts, eth := { x.eth with events := s.eth.events, lost := s.eth.lost }, supQ := s.supQ, recent := s.recent,
      muted := s.muted, errSeen := s.errSeen, free := s.free }) k
  exact hk.trans h

theorem Noted.ite {c : Prop} [Decidable c] (ht : Noted s t) (hu : Noted s u) : Noted s (if c then t else u) := by
  split
  · exact ht
  · exact hu

theorem Noted.setReg {a : Nat} {v : W32} (h : Noted s t) : Noted s (t.setReg a v) := h.trans rfl

theorem Noted.setBits {a : Nat} {m : W32} (h : Noted s t) : Noted s (t.setBits a m) := h.setReg

theorem Noted.errBump {a : Nat} (h : Noted s t) : Noted s (t.errBump a) := h.setReg

theorem Noted.fresh (h : Noted s t) : Noted s t.fresh.2 := h.trans rfl

theorem Noted.seeClass {cls : Nat} (h : Noted s t) : Noted s (t.seeClass cls) := .ite (h.trans rfl) h

theorem Noted.rawCount {k n : Nat} (h : Noted s t) : Noted s (t.rawCount k n) := by
  unfold State.rawCount
  extract_lets v u
  have hu : Noted s u := h.trans rfl
  exact .ite hu.setBits hu

theorem Noted.pushEvent {kind source : Nat} {data : BitVec 160} (h : Noted s t) : Noted s (t.pushEvent kind source data) := by
  unfold State.pushEvent
  extract_lets put u
  have hu : Noted s u := .ite (h.trans rfl) h
  clear_value u
  exact .ite (hu.trans rfl) (Noted.rawCount (hu.trans rfl))

theorem Noted.lookoutReport {r : Report} (h : Noted s t) : Noted s (t.lookoutReport r) :=
  .ite (.ite (h.trans rfl) (Noted.pushEvent (h.trans rfl))) h.pushEvent

theorem Noted.supReport {f : Nat} {r : Report} (h : Noted s t) : Noted s (t.supReport f r) := h.trans rfl

theorem Noted.report {r : Report} (h : Noted s t) : Noted s (t.report r) :=
  .ite h.supReport (.ite h.supReport (.ite h.supReport h.lookoutReport))

theorem Noted.raise {source kind code cls info : Nat} (h : Noted s t) : Noted s (t.raise source kind code cls info) := h.report

theorem Noted.count {k n : Nat} (h : Noted s t) : Noted s (t.count k n) := .ite h.rawCount.raise h.rawCount

theorem Noted.fabEvent {source bit : Nat} (h : Noted s t) : Noted s (t.fabEvent source bit) := by
  dsimp only [State.fabEvent]
  split
  · exact .ite h.setBits.seeClass.fresh.raise h.setBits.seeClass
  · exact .ite h.setBits.fresh.fresh.raise h.setBits

/-- Every part of the state that no notice writes is as it was. -/
theorem Noted.part_eq {α : Type} (h : Noted s t) (part : State → α) :
    part { t with
      regs := s.regs, cnts := s.cnts, eth := { t.eth with events := s.eth.events, lost := s.eth.lost }, supQ := s.supQ, recent := s.recent,
      muted := s.muted, errSeen := s.errSeen, free := s.free } = part s :=
  congrArg part h

theorem Noted.mem (h : Noted s t) : t.mem = s.mem := h.part_eq State.mem
theorem Noted.cells (h : Noted s t) : t.cells = s.cells := h.part_eq State.cells
theorem Noted.fab (h : Noted s t) : t.fab = s.fab := h.part_eq State.fab
theorem Noted.power (h : Noted s t) : t.power = s.power := h.part_eq State.power
theorem Noted.scaler (h : Noted s t) : t.scaler = s.scaler := h.part_eq State.scaler
theorem Noted.reqs (h : Noted s t) : t.reqs = s.reqs := h.part_eq State.reqs
theorem Noted.timebase (h : Noted s t) : t.timebase = s.timebase := h.part_eq State.timebase
theorem Noted.flash (h : Noted s t) : t.flash = s.flash := h.part_eq State.flash
theorem Noted.sec (h : Noted s t) : t.sec = s.sec := h.part_eq State.sec
theorem Noted.session (h : Noted s t) : t.eth.session = s.eth.session := h.part_eq (·.eth.session)
theorem Noted.jobs (h : Noted s t) : t.eth.jobs = s.eth.jobs := h.part_eq (·.eth.jobs)

theorem Noted.sameMemory (h : Noted s t) : SameMemory s t := fun a => congrArg (memGet · a) h.mem

/-! ## Memory under the retirement of frames (R370 to R376) -/

/-- A part of the state that no step of a fold changes. -/
theorem foldl_part_eq {α β : Type} (part : State → β) {f : State → α → State} (hf : ∀ s a, part (f s a) = part s) (l : List α) (s : State) :
    part (l.foldl f s) = part s := by
  induction l generalizing s with
  | nil => rfl
  | cons a l ih => exact (ih (f s a)).trans (hf s a)

@[simp] theorem State.raise_mem (s : State) (source kind code cls info : Nat) : (s.raise source kind code cls info).mem = s.mem :=
  (Noted.refl s).raise.mem

@[simp] theorem State.seeClass_mem (s : State) (cls : Nat) : (s.seeClass cls).mem = s.mem := (Noted.refl s).seeClass.mem

@[simp] theorem State.errBump_mem (s : State) (a : Nat) : (s.errBump a).mem = s.mem := rfl

theorem State.endMove_mem (s : State) (m : MoveReq) : (s.endMove m).mem = s.mem := by
  unfold State.endMove
  extract_lets key after drop t u v free
  have ht : t.mem = s.mem := rfl
  have hu : u.mem = s.mem := by
    dsimp only [u]
    split
    · rw [State.count_mem]
      exact ht
    · exact ht
  have hv : v.mem = s.mem := by
    dsimp only [v]
    split
    · split
      · exact hu
      · exact hu
    · split
      · exact hu
      · exact hu
  exact hv

theorem State.abandonMove_mem (s : State) (m : MoveReq) : (s.abandonMove m).mem = s.mem :=
  (foldl_part_eq (f := fun s d => s.tell d (.moveEnd m false)) State.mem (fun _ _ => rfl) _ _).trans (s.endMove_mem m)

theorem State.queueReplica_mem (s : State) (h p : Nat) (e : MapEntry) (x : Nat × Nat × Nat) : (s.queueReplica h p e x).mem = s.mem := by
  unfold State.queueReplica
  rfl

@[simp] theorem State.markRetired_mem (s : State) (l : Nat) (p : Nat → Bool) : (s.markRetired l p).mem = s.mem := by
  unfold State.markRetired
  extract_lets hit keys copies t u recs v ms
  have ht : t.mem = s.mem := foldl_part_eq State.mem (fun s k => s.modScaler_mem _) keys s
  have hu : u.mem = t.mem := foldl_part_eq State.mem (fun s x => s.queueReplica_mem _ _ _ _) copies t
  have hv : v.mem = s.mem := (foldl_part_eq State.mem (fun s x => by
    split
    · split
      · rfl
      · rfl
    · rfl) _ _).trans (hu.trans ht)
  refine (foldl_part_eq State.mem (fun s m => ?_) _ _).trans hv
  dsimp only
  split
  · exact s.abandonMove_mem _
  · exact s.abandonMove_mem _

@[simp] theorem State.failLanding_mem (s : State) (l : Nat) (pc : Option Nat) : (s.failLanding l pc).mem = s.mem := by
  unfold State.failLanding
  extract_lets add was t u v
  split
  · rfl
  · simp [v, u, t]

@[simp] theorem State.retireFrame_mem (s : State) (l f : Nat) : (s.retireFrame l f).mem = s.mem := by
  unfold State.retireFrame
  extract_lets x t u v h w y
  split
  · rfl
  · have hy : y.mem = s.mem := by simp [y, w, v, u, t]
    split
    · exact (y.failLanding_mem l none).trans hy
    · exact hy

theorem State.correctedError_mem (s : State) (la : Nat) : (s.correctedError la).mem = s.mem := by
  unfold State.correctedError
  extract_lets l f t u v k w
  have hv : v.mem = s.mem := by
    dsimp only [v]
    split
    · simp [u, t]
    · simp [u, t]
  split
  · exact (w.retireFrame_mem l f).trans hv
  · exact hv

theorem State.uncorrectable_mem (s : State) (la : Nat) : (s.uncorrectable la).mem = s.mem := by
  unfold State.uncorrectable
  extract_lets l t u v w
  simp [w, v, u, t]

/-- An error that the code corrects or detects changes no byte. -/
theorem State.checkGranule_mem {la : Nat} (h : badSymbols (tblGet 0 la s.memUpset) ≤ 2) : (s.checkGranule la).mem = s.mem := by
  unfold State.checkGranule
  split
  · rfl
  · split
    · rfl
    · exact s.correctedError_mem la
    · exact s.uncorrectable_mem la
    · next h0 h1 h2 =>
      have hmany : ¬badSymbols (tblGet 0 la s.memUpset) ≤ 2 := by
        have h0 : badSymbols (tblGet 0 la s.memUpset) ≠ 0 := h0
        have h1 : badSymbols (tblGet 0 la s.memUpset) ≠ 1 := h1
        have h2 : badSymbols (tblGet 0 la s.memUpset) ≠ 2 := h2
        omega
      exact absurd h hmany

/-! ## A granule read after it is written (R371, R372, R377) -/

theorem leNat_leBytes_mod (n v : Nat) : leNat (leBytes n v) = v % 2 ^ (8 * n) := by
  induction n generalizing v with
  | zero => exact (Nat.mod_one v).symm
  | succ n ih =>
    rw [leBytes, leNat, ih, BitVec.toNat_ofNat, Nat.mul_succ, Nat.pow_add, Nat.mul_comm (2 ^ (8 * n)), Nat.mod_mul]

/-- A granule is what its bytes are. -/
theorem granBytes_inj {d e : BitVec 512} (h : granBytes d = granBytes e) : d = e := by
  have hnum := congrArg leNat h
  rw [granBytes, granBytes, leNat_leBytes_mod, leNat_leBytes_mod, Nat.mod_eq_of_lt d.isLt, Nat.mod_eq_of_lt e.isLt] at hnum
  exact BitVec.eq_of_toNat_eq hnum

/-- Bytes that agree at every place make the same granule. -/
theorem granule_ext {d e : BitVec 512} (h : ∀ i, i < 64 → byteAt (granBytes d) i = byteAt (granBytes e) i) : d = e := by
  refine granBytes_inj (List.ext_getElem rfl fun i hi hi' => ?_)
  simpa [byteAt, hi, hi'] using h i hi

theorem mergeBytes_whole (old new : BitVec 512) : mergeBytes old new (BitVec.allOnes 64) = new := by
  refine granule_ext fun i hi => ?_
  rw [byteAt_mergeBytes _ _ _ hi, if_pos (by rw [BitVec.getLsbD_allOnes]; exact decide_eq_true hi)]

/-- What a write leaves of memory and of the markers: its enabled bytes are merged, and the marker is set by poison, or kept where a write of part
finds it. -/
theorem State.writeGranule_store (s : State) (la : Nat) (d : BitVec 512) (en : BitVec 64) (p : Bool)
    (hecc : en = BitVec.allOnes 64 ∨ badSymbols (tblGet 0 la s.memUpset) ≤ 2) :
    (s.writeGranule la d en p).mem = memWrite s.mem (64 * la) (granBytes (mergeBytes (s.granule la) d en)) := by
  unfold State.writeGranule
  extract_lets whole u v mark
  have hu : SameStore s u := (SameStore.refl s).addFlush
  have hv : v.mem = s.mem := by
    dsimp only [v]
    split
    · exact hu.mem
    · next hpart =>
      have hbad : badSymbols (tblGet 0 la u.memUpset) ≤ 2 := by
        rw [hu.upset]
        exact hecc.resolve_left (by simpa [whole] using hpart)
      exact (State.checkGranule_mem hbad).trans hu.mem
  rw [State.count_mem, State.putGranule_mem, hv, State.granule, hv]
  rfl

/-- A write of a whole granule leaves its marker as its poison. -/
theorem State.writeGranule_whole_poison (s : State) (la : Nat) (d : BitVec 512) (p : Bool) (hwf : tblWf (fun _ => false) s.memPoison = true) :
    (s.writeGranule la d (BitVec.allOnes 64) p).granulePoison la = p := by
  have hflush : (s.addFlush la).memPoison = s.memPoison := (SameStore.refl s).addFlush.poison
  have hmark : (s.writeGranule la d (BitVec.allOnes 64) p).memPoison = tblSet false la p s.memPoison := by
    rw [← hflush]
    simp [State.writeGranule, State.putGranule]
  rw [State.granulePoison, hmark]
  exact (tblGet_tblSet (fun _ => false) la la p s.memPoison hwf).trans (if_pos rfl)

/-- Settles O57: a write is one write of the granule's 64 bytes (`State.writeGranule_store`), so they read back and no other granule changes; what a
read checks and counts changes none where no error stands. -/
theorem granuleReadAfterWrite : Obligations.GranuleReadAfterWrite := by
  unfold Obligations.GranuleReadAfterWrite
  intro s la d p hwf
  refine ⟨?whole, ?part, ?read⟩
  case whole =>
    rintro t rfl
    have hmem := s.writeGranule_store la d (BitVec.allOnes 64) p (.inl rfl)
    rw [mergeBytes_whole] at hmem
    refine ⟨granBytes_inj (State.granBytes_granule_of_memWrite hwf hmem), fun k hk => State.granule_of_memWrite_ne hwf hmem hk, ?_,
      s.writeGranule_whole_poison la d p⟩
    rw [hmem]
    exact memWrite_wf _ _ _ hwf
  case part =>
    rintro en t hbad rfl i hi
    have hmem := s.writeGranule_store la d en p (.inr hbad)
    rw [State.granBytes_granule_of_memWrite hwf hmem]
    exact byteAt_mergeBytes _ _ _ hi
  case read =>
    intro hclean
    have hread : SameStore s (s.readGranule la).2 := ((SameStore.refl s).addFlush.checkGranule hclean).count
    exact ⟨hread.granule_eq la, fun a => congrArg (memGet · a) hread.mem⟩

/-! ## An add to a poisoned granule (R369) -/

/-- The state `t` is in canonical form, and its counter `j` is that of `s`. -/
structure Uncounted (j : Nat) (s t : State) : Prop where
  good : t.Good
  cnt : t.cnt j = s.cnt j

theorem Uncounted.refl {j : Nat} (h : s.Good) : Uncounted j s s := ⟨h, rfl⟩

theorem Uncounted.count {j k n : Nat} (h : Uncounted j s t) (hjk : j ≠ k) (hj : j ≠ kEth 14) : Uncounted j s (t.count k n) :=
  ⟨(Kept.refl t).count.good h.good, (State.cnt_count_ne h.good hjk hj n).trans h.cnt⟩

theorem Uncounted.modLanding {j l : Nat} {f : Landing → Landing} (h : Uncounted j s t) : Uncounted j s (t.modLanding l f) :=
  ⟨(Kept.refl t).modLanding.good h.good, h.cnt⟩

theorem Uncounted.modScaler {j : Nat} {f : ScalerSt → ScalerSt} (h : Uncounted j s t) : Uncounted j s (t.modScaler f) :=
  ⟨(Kept.refl t).modScaler.good h.good, h.cnt⟩

theorem Uncounted.ite {j : Nat} {c : Prop} [Decidable c] (ht : Uncounted j s t) (hu : Uncounted j s u) : Uncounted j s (if c then t else u) := by
  split
  · exact ht
  · exact hu

theorem natBits_lt (v hi lo : Nat) : natBits v hi lo < 2 ^ (hi + 1 - lo) := Nat.mod_lt _ (Nat.two_pow_pos _)

theorem bankOf_lt (la : Nat) : bankOf la < 256 := by
  have hpc : pcOf (laA la) < 2 ^ 6 := Nat.xor_lt_two_pow (natBits_lt _ _ _) (natBits_lt _ _ _)
  have hbg : bgOf (laA la) < 2 ^ 2 := Nat.xor_lt_two_pow (natBits_lt _ _ _) (natBits_lt _ _ _)
  unfold bankOf
  omega

/-- The count of dropped adds of a landing is none of its counts of banks. -/
theorem kLnd_dropped_ne_bank (l la : Nat) : kLnd l 5 ≠ kLndReq l (bankOf la) ∧ kLnd l 5 ≠ kLndPmiss l (bankOf la) := by
  have := bankOf_lt la
  unfold kLnd kLndReq kLndPmiss
  omega

/-- Until an add to a poisoned granule is dropped, its service reads no data, changes no byte, and counts no dropped add. -/
def State.addMet (s : State) (la : Nat) : State :=
  if (s.landing (laLanding la)).adds.contains la then s else ((s.touchPage la).checkGranule la).count (kLnd (laLanding la) 0) 1

/-- An add to a poisoned granule is dropped and counted. -/
theorem State.addGranule_poisoned {la : Nat} (int : Bool) (d : BitVec 512) (en : BitVec 64) (p : Bool) (h : (s.addMet la).granulePoison la) :
    s.addGranule la int d en p = (s.addMet la).count (kLnd (laLanding la) 5) 1 := by
  unfold State.addGranule
  exact if_pos (by rw [Bool.or_eq_true]; exact .inl h)

theorem State.touchPage_poison (s : State) (la k : Nat) : (s.touchPage la).granulePoison k = s.granulePoison k :=
  (SameStore.refl s).touchPage.granulePoison_eq k

theorem State.checkGranule_poisoned {la : Nat} (h : s.granulePoison la) : s.checkGranule la = s := if_pos h

theorem State.addMet_poisoned {la : Nat} (h : s.granulePoison la) :
    s.addMet la = if (s.landing (laLanding la)).adds.contains la then s else (s.touchPage la).count (kLnd (laLanding la) 0) 1 := by
  rw [State.addMet, State.checkGranule_poisoned (by rwa [State.touchPage_poison])]

/-- The statistics of an add that is served. -/
def State.meterAdd (s : State) (r : Req) : State :=
  let t := (s.countBank r.la).modLanding r.lnd fun x => { x with served := x.served + 1 }
  t.modScaler fun z => { z with traffic := countTraffic r.handle r.plot (t.reqDev r) r.op z.traffic }

theorem State.apply_add {r : Req} (hop : r.op = .add) :
    s.apply r = (((s.meterAdd r).addGranule r.la r.int r.data r.en r.poison).markWritten r.lnd r.frame r.off).answer r .ack := by
  unfold State.apply State.meterAdd
  rw [hop]

theorem State.meterAdd_sameStore (s : State) (r : Req) : SameStore s (s.meterAdd r) := by
  unfold State.meterAdd
  exact (SameStore.refl s).count.modLanding.modScaler

theorem State.addMet_sameStore {la : Nat} (h : s.granulePoison la) : SameStore s (s.addMet la) := by
  rw [State.addMet_poisoned h]
  exact .ite (.refl s) (SameStore.refl s).touchPage.count

/-- Up to the drop, nothing counts under the dropped adds. -/
theorem State.addMet_uncounted {la : Nat} {r : Req} (h : s.Good) (hla : r.la = la) (hpoison : (s.meterAdd r).granulePoison la) :
    Uncounted (kLnd (laLanding la) 5) s ((s.meterAdd r).addMet la) := by
  subst hla
  obtain ⟨hreqBank, hmissBank⟩ := kLnd_dropped_ne_bank (laLanding r.la) r.la
  have hdrop : kLnd (laLanding r.la) 5 ≠ kEth 14 := kLnd_ne_kEth (by decide)
  have hload : kLnd (laLanding r.la) 5 ≠ kLnd (laLanding r.la) 0 := by
    unfold kLnd
    omega
  have hmeter : Uncounted (kLnd (laLanding r.la) 5) s (s.meterAdd r) := by
    unfold State.meterAdd
    exact ((Uncounted.refl h).count hreqBank hdrop).modLanding.modScaler
  rw [State.addMet_poisoned hpoison]
  exact .ite hmeter ((Uncounted.ite hmeter (hmeter.count hmissBank hdrop)).modLanding.count hload hdrop)

/-- Settles O58: the granule is found poisoned, so the add counts under CNT_LND_ADD_POISON and writes nothing (`State.addGranule_poisoned`); the
answer is that of any add. -/
theorem poisonedAddIsDropped : Obligations.PoisonedAddIsDropped := by
  unfold Obligations.PoisonedAddIsDropped
  intro s r f hgood hrec hh hp hg hfrom hto hreq hwho hwb hop hpoison
  have hmeter := s.meterAdd_sameStore r
  have hpoisonU : (s.meterAdd r).granulePoison r.la := (hmeter.granulePoison_eq r.la).trans hpoison
  have hcount := State.addMet_uncounted hgood rfl hpoisonU
  have hmet : SameStore (s.meterAdd r) ((s.meterAdd r).addMet r.la) := State.addMet_sameStore hpoisonU
  rw [State.serve_eq_apply hrec hh hp hg hfrom hto, State.apply_add hop, State.answer_local hwb hwho,
    State.addGranule_poisoned _ _ _ _ ((hmet.granulePoison_eq r.la).trans hpoisonU)]
  generalize (s.meterAdd r).addMet r.la = u at hmet hcount
  have hdone : SameStore (s.meterAdd r) (u.count (kLnd (laLanding r.la) 5) 1) := hmet.count
  have hcnt := State.cnt_count hcount.good (k := kLnd (laLanding r.la) 5) (kLnd_ne_kEth (by decide)) 1
  rw [hcount.cnt] at hcnt
  generalize u.count (kLnd (laLanding r.la) 5) 1 = v at hdone hcnt
  refine ⟨hdone.mem.trans hmeter.mem, (hdone.granulePoison_eq r.la).trans hpoisonU, hcnt, _, State.req_modReq (r := r) ?_ fun _ => rfl, rfl⟩
  exact (congrArg (List.find? _) (hdone.reqs.trans hmeter.reqs)).trans hreq

end Sys2Proof.Machine

/-! PROOF. The host's commands: a command that may start is carried out in the state in which it has left its queue, and what can end at once ends. -/

namespace Sys2Proof.Machine

variable {s u : State} {q opc : Nat} {p : List Byte} {n : W32} {c : QCmd} {d : Desc}

/-! ## A command that may start (R426) -/

/-- The row of a command that may start carries it out. -/
theorem HostReady.hostRow (h : HostReady s q opc p n c) (f : State → W32 → QCmd → State) : s.hostRow q opc p f = f (s.taken q) n c := by
  obtain ⟨hnext, hcode, hpayload, hmay⟩ := h
  unfold State.hostRow
  rw [hnext]
  exact if_pos ⟨hcode, hpayload, hmay⟩

/-- A command that may start is carried out, and what can end at once ends. -/
theorem HostReady.hostDo {t : State} {f : State → W32 → QCmd → State} (h : HostReady s q opc p n c) (hf : f (s.taken q) n c = t) :
    s.hostDo q opc p f = t.settle := by
  rw [State.hostDo, h.hostRow, hf]

/-- A row that only looks at its own operation code carries out the command. -/
theorem HostReady.hostDo_unless {t : State} {f : State → W32 → QCmd → State} {P : Prop} [Decidable P] (h : HostReady s q opc p n c) (hP : ¬P)
    (hf : f (s.taken q) n c = t) : (if P then s else s.hostDo q opc p f) = t.settle := by
  rw [if_neg hP, h.hostDo hf]

/-! ## Objects (R52 to R56, R431) -/

theorem State.objCreate_good (hp : c.payload = p) (hd : d = createDesc p s.dev) (hok : s.createOk p d) (hnew : s.desc d.handle = none)
    (hsteward : d.steward = s.dev) : s.objCreate q n c = (s.waitOn q n c d.handle).startCreate d none none [] := by
  subst hp hd
  unfold State.objCreate
  simp only [hok, hnew, Bool.not_true, Bool.false_eq_true, if_false, Option.isSome_none]
  exact if_pos hsteward

theorem State.handleCmd_good {k : Nat} (f : State → Nat → State) (hp : c.payload = p) (hlen : p.length = 3 + k) :
    s.handleCmd q n c k f = f (s.waitOn q n c (leAt p 0 3)) (leAt p 0 3) := by
  subst hp
  exact if_neg (by simpa using hlen)

theorem State.askFree_good {h : Nat} {asker : Option Nat} (hd : s.desc h = some d) (hfree : freeable d) (hsteward : d.steward = s.dev) :
    s.askFree h asker = s.startFree h asker := by
  unfold State.askFree
  rw [hd]
  simp [hfree, hsteward]

theorem State.askSeal_good {h : Nat} {asker : Option Nat} (hd : s.desc h = some d) (hlive : d.state = .live) (h7 : d.typ ≠ 7) (h9 : d.typ ≠ 9)
    (hsteward : d.steward = s.dev) : s.askSeal h asker =
      (s.modScaler fun z => { z with seals := z.seals ++ [(h, asker)], queue := z.queue.filter fun m => m.handle != h }).sealStep := by
  unfold State.askSeal
  rw [hd]
  simp [hlive, h7, h9, hsteward]

theorem State.objQuery_good (hp : c.payload = p) (hlen : p.length = 3) (hd : s.desc (leAt p 0 3) = some d) :
    s.objQuery q n c = s.complete q n c stOk (descBytes d) := by
  subst hp
  unfold State.objQuery
  rw [if_neg (by simpa using hlen), hd]

theorem State.askHint_good {h hint : Nat} (hd : s.liveDesc h = some d) (hhint : hint ≤ 3) (hsteward : d.steward = s.dev) :
    s.askHint h hint none = (s.modScaler fun z => { z with hints := tblSet 0 h hint z.hints }).completeOn 0x14 h stOk := by
  unfold State.askHint
  rw [hd]
  dsimp only
  rw [if_neg (by omega), if_pos hsteward]
  rfl

theorem State.objAccess_good {write : Bool} (hp : c.payload = p) (hd : s.liveDesc (addrHandle (BitVec.ofNat 64 (leAt p 0 8))) = some d)
    (hlen : accessLen p ≠ 0) (hrange : accessStart d p + accessLen p ≤ d.count * d.esize)
    (hshape : (if write then p.length == 16 + accessLen p && zeroAt p 14 2 && decide (accessLen p ≤ 8176)
      else p.length == 14 && decide (accessLen p ≤ 8192)) = true)
    (hallowed : ¬(write ∧ (d.state = .sealed ∨ d.typ = 9))) :
    s.objAccess q n c write = (s.newJob (.qct q n c) (addrHandle (BitVec.ofNat 64 (leAt p 0 8))) 1).2.hostAccess s.eth.nextJob
      (if write then .store else .load) d (accessStart d p) (accessLen p) (p.drop 16) := by
  subst hp
  unfold State.objAccess
  dsimp only
  rw [hd]
  dsimp only
  rw [hshape, if_neg (by simp [hlen, hrange]), if_neg hallowed]
  rfl

/-! ## Queries and work sets (R96, R114) -/

theorem State.queryPlot_good {e : MapEntry} (hp : c.payload = p) (hlen : p.length = 9) (hcode : leAt p 0 1 = 0)
    (hd : s.liveDesc (leAt p 1 3) = some d) (hplot : leAt p 4 5 < plotsOf d) (hsteward : d.steward = s.dev)
    (he : s.mapEntry (leAt p 1 3) (leAt p 4 5) = some e) : ∀ f, f = s.plotFigures (leAt p 1 3) (leAt p 4 5) →
      s.queryPlot q n c = s.complete q n c stOk (plotReply e f.1 f.2.1 f.2.2.1 f.2.2.2) := by
  rintro f rfl
  subst hp
  unfold State.queryPlot
  dsimp only
  rw [if_neg (by simp [hlen, hcode]), hd]
  dsimp only
  rw [if_neg (by omega), if_pos hsteward, he]

theorem State.queryWork_good {w : WSet} (hp : c.payload = p) (hlen : p.length = 3) (hcode : leAt p 0 1 = 1) (hw : s.wset (leAt p 1 2) = some w) :
    s.queryWork q n c = s.complete q n c stOk
      ((List.range 192).flatMap fun i => leBytes 8 (w.cells.getD i (0, 0)).1 ++ leBytes 8 (w.cells.getD i (0, 0)).2) := by
  subst hp
  unfold State.queryWork
  dsimp only
  rw [if_neg (by simp [hlen, hcode]), hw]

theorem State.startWork_good {a : WorkArgs} {f e : Desc} (hp : c.payload = p) (hlen : p.length = 24) (ha : a = workArgs p)
    (hrow : s.objOf a.rowptr 2 = some d) (hfeature : s.objOf a.feature 5 = some f) (hcol : s.objOf a.col 3 = some e) (hsome : a.v0 < a.v1)
    (hcount : a.v1 < d.count) (hpart : handleOk a.partH) (hnew : s.desc a.partH = none) :
    s.startWork q n c = (s.newJob (.qct q n c) 0 1).2.hostAccess s.eth.nextJob .load d (5 * a.v0) (5 * (a.v1 + 1 - a.v0)) [] := by
  subst hp ha
  unfold State.startWork
  dsimp only
  rw [if_neg (by simpa using hlen), hrow, hfeature, hcol]
  dsimp only
  rw [if_neg (by simp [hpart]; omega), hnew, if_neg (by simp), if_neg (by omega)]
  rfl

/-- Settles O16: with good parameters each command passes its checks, one lemma above for each, and what follows is its operation. -/
theorem hostObjectCommands : Obligations.HostObjectCommands := by
  unfold Obligations.HostObjectCommands
  rintro q p n c s u d rfl hsteward
  refine ⟨?create, fun hlen hd => ⟨?free, ?sealed, ?query⟩, ?hint, fun hd hlen hrange => ⟨?read, ?write⟩, ?plot, ?work, ?set⟩
  case create =>
    intro h hd hok hnew
    exact congrArg Host.Outcome.next (h.hostDo (State.objCreate_good h.payload hd hok hnew hsteward))
  case free =>
    intro h hfree
    refine congrArg Host.Outcome.next (h.hostDo ((State.handleCmd_good _ h.payload hlen).trans ?_))
    exact State.askFree_good hd hfree hsteward
  case sealed =>
    intro h hlive h7 h9
    refine congrArg Host.Outcome.next (h.hostDo ((State.handleCmd_good _ h.payload hlen).trans ?_))
    exact State.askSeal_good hd hlive h7 h9 hsteward
  case query =>
    intro h
    exact congrArg Host.Outcome.next (h.hostDo (State.objQuery_good h.payload hlen hd))
  case hint =>
    intro h hlen hd hhint
    refine congrArg Host.Outcome.next (h.hostDo ((State.handleCmd_good _ h.payload hlen).trans ?_))
    rw [h.payload]
    exact State.askHint_good hd hhint hsteward
  case read =>
    intro h hbytes hmost
    exact congrArg Host.Outcome.next (h.hostDo (State.objAccess_good h.payload hd hlen hrange (by simp [hbytes, hmost]) (by simp)))
  case write =>
    intro h hbytes hzero hmost hsealed htyp
    exact congrArg Host.Outcome.next (h.hostDo (State.objAccess_good h.payload hd hlen hrange (by simp [hbytes, hzero, hmost])
      (by simp [hsealed, htyp])))
  case plot =>
    intro h e hlen hcode hd hplot he f hf
    exact congrArg Host.Outcome.next (h.hostDo_unless (by omega) (State.queryPlot_good h.payload hlen hcode hd hplot hsteward he f hf))
  case work =>
    intro h w hlen hcode hw
    exact congrArg Host.Outcome.next (h.hostDo_unless (by omega) (State.queryWork_good h.payload hlen hcode hw))
  case set =>
    intro a f e h hlen ha hrow hfeature hcol hsome hcount hpart hnew
    exact congrArg Host.Outcome.next (h.hostDo (State.startWork_good h.payload hlen ha hrow hfeature hcol hsome hcount hpart hnew))

end Sys2Proof.Machine

/-! PROOF. The host's commands on cells, threads and registers, and on the session, power, firmware, keys and RDMA. -/

namespace Sys2Proof.Machine

variable {s u : State} {q opc : Nat} {p : List Byte} {n : W32} {c : QCmd}

/-! ## Cells and threads (R301 to R308) -/

theorem State.progLoad_good (hp : c.payload = p) (hlen : p.length = 32 + leAt p 28 2) (hsome : 1 ≤ leAt p 28 2) (hmost : leAt p 28 2 ≤ 8160)
    (hzero : zeroAt p 30 2) (hend : leAt p 24 4 + leAt p 28 2 ≤ opSoft) : s.progLoad q n c = (((maskCells (leAt p 0 24)).filter s.cellUp).foldl
      (fun s i => (s.unpark i).modCell i fun x => x.opWrite (leAt p 24 4) (p.drop 32)) s).complete q n c stOk [] := by
  subst hp
  exact if_neg (by simp only [hlen, hzero]; simp; omega)

theorem State.threadStart_good (hp : c.payload = p) (hlen : p.length = 40) (htarget : leAt p 0 1 = 0) (hcell : leAt p 1 1 < 192) (hslot : leAt p 2 1 < 64)
    (hpri : leAt p 3 1 ≤ 7) (haligned : leAt p 4 4 % 8 = 0) (hpc : leAt p 4 4 < opSoft) (hup : s.cellUp (leAt p 1 1))
    (hfree : (s.thread (leAt p 1 1) (leAt p 2 1)).state = .free) : s.threadStart q n c =
      (((s.unpark (leAt p 1 1)).modCell (leAt p 1 1) fun x => x.startThread (leAt p 2 1) (leAt p 3 1) (leAt p 4 4)
        ((List.range 4).map fun (i : Nat) => BitVec.ofNat 64 (leAt p (8 + 8 * i) 8))).complete q n c stOk
          (leBytes 1 (leAt p 1 1) ++ leBytes 1 (leAt p 2 1))) := by
  subst hp
  have hshape : ¬(c.payload.length ≠ 40 ∨ 1 < leAt c.payload 0 1 ∨ (if leAt c.payload 0 1 = 0 then 192 else 4) ≤ leAt c.payload 1 1 ∨
      (64 ≤ leAt c.payload 2 1 ∧ leAt c.payload 2 1 ≠ 255) ∨ 7 < leAt c.payload 3 1 ∨ leAt c.payload 4 4 % 8 ≠ 0 ∨ opSoft ≤ leAt c.payload 4 4) := by
    rw [if_pos htarget]
    omega
  have hany : leAt c.payload 2 1 ≠ 255 := by omega
  unfold State.threadStart
  dsimp only
  rw [if_neg hshape, if_pos htarget, if_pos hup]
  dsimp only
  rw [if_neg hany, if_pos (by rw [hfree]; rfl)]

theorem State.slotCmd_good {k : Nat} (f : State → Nat → Nat → State) (hp : c.payload = p) (hlen : p.length = k) (hcell : leAt p 0 1 < 192)
    (hslot : leAt p 1 1 < 64) : s.slotCmd q n c k f = f s (leAt p 0 1) (leAt p 1 1) := by
  subst hp
  exact if_neg (by omega)

/-! ## Registers (R494) -/

theorem State.regRead_good (hp : c.payload = p) (hlen : p.length = 6) (hrange : regRange (leAt p 0 4) (leAt p 4 2) 256) :
    ∀ r, r = s.readRegs 0 (regRun (leAt p 0 4) (leAt p 4 2)) → s.regRead q n c = r.2.complete q n c stOk (r.1.flatMap fun v => leBytes 4 v.toNat) := by
  rintro r rfl
  subst hp
  exact if_neg (by simp [hlen, hrange])

theorem State.regWrite_good (hp : c.payload = p) (hlen : p.length = 8 + 4 * leAt p 4 2) (hzero : zeroAt p 6 2)
    (hrange : regRange (leAt p 0 4) (leAt p 4 2) 256) : s.regWrite q n c = (s.writeRegs false ((List.range (leAt p 4 2)).map fun (i : Nat) =>
      (leAt p 0 4 + 4 * i, BitVec.ofNat 32 (leAt p (8 + 4 * i) 4)))).complete q n c stOk [] := by
  subst hp
  exact if_neg (by simp [hlen, hzero, hrange])

/-- Settles O17: with good parameters each command passes its checks, one lemma above for each, and what follows is its operation. -/
theorem hostCellCommands : Obligations.HostCellCommands := by
  unfold Obligations.HostCellCommands
  rintro q p n c s u rfl
  refine ⟨?load, ?start, fun hcell hslot => ⟨?stop, ?free, ?signal⟩, ?read, ?write⟩
  case load =>
    intro h hheld hlen hsome hmost hzero hend
    exact congrArg Host.Outcome.next (h.hostDo_unless (by simp [hheld]) (State.progLoad_good h.payload hlen hsome hmost hzero hend))
  case start =>
    intro h hlen htarget hcell hslot hpri haligned hpc hup hfree
    exact congrArg Host.Outcome.next (h.hostDo
      (State.threadStart_good h.payload hlen htarget hcell hslot hpri haligned hpc hup hfree))
  case stop =>
    intro h hlen
    exact congrArg Host.Outcome.next (h.hostDo (State.slotCmd_good _ h.payload hlen hcell hslot))
  case free =>
    intro h hlen hfailed
    exact congrArg Host.Outcome.next (h.hostDo ((State.slotCmd_good _ h.payload hlen hcell hslot).trans (if_pos hfailed)))
  case signal =>
    rintro h hlen hzero r rfl
    refine congrArg Host.Outcome.next (h.hostDo ((State.slotCmd_good _ h.payload hlen hcell hslot).trans ?_))
    rw [h.payload]
    exact if_neg (by simp [hzero])
  case read =>
    intro h hheld hlen hrange r hr
    exact congrArg Host.Outcome.next (h.hostDo_unless (by simp [hheld]) (State.regRead_good h.payload hlen hrange r hr))
  case write =>
    intro h hheld hlen hzero hrange
    exact congrArg Host.Outcome.next (h.hostDo_unless (by simp [hheld]) (State.regWrite_good h.payload hlen hzero hrange))

/-! ## Power (R465, R466) -/

theorem State.taken_noted (s : State) (q : Nat) : Noted (s.modQueue q fun y => { y with buf := y.buf.drop 1 }) (s.taken q) := (Noted.refl _).count

theorem State.taken_timebase (s : State) (q : Nat) : (s.taken q).timebase = s.timebase := (s.taken_noted q).timebase

theorem State.taken_power (s : State) (q : Nat) : (s.taken q).power = s.power := (s.taken_noted q).power

/-- A rung asked for passes its checks while no change runs. -/
theorem State.powerSetRung_good (hp : c.payload = p) (hlen : p.length = 32) (hscope : leAt p 0 1 = 0) (hrung : leAt p 1 1 ≤ 4) (hzero : zeroAt p 2 30)
    (hidle : s.power.busy = false) : s.powerSetRung q n c = if s.power.rung = leAt p 1 1 then s.complete q n c stOk [] else
      (s.newJob (.qct q n c) 0 0).2.modPower fun y => { y with target := leAt p 1 1, busy := true, since := s.timebase } := by
  subst hp
  unfold State.powerSetRung
  dsimp only
  rw [if_neg (by simp [hlen, hscope, hzero, hrung]), if_neg (by simp [hidle])]

theorem State.powerSetSp_good (hp : c.payload = p) (hlen : p.length = 32) (hscope : leAt p 0 1 = 1) (hsp : leAt p 1 1 ≤ 3) (hzero : zeroAt p 2 6) :
    s.powerSetSp q n c = ((maskCells (leAt p 8 24)).foldl (fun s i => s.setRegF (rCellSp i) 1 0 (leAt p 1 1)) s).complete q n c stOk [] := by
  subst hp
  exact if_neg (by simp [hlen, hscope, hsp, hzero])

/-! ## Firmware and keys (R451 to R455) -/

theorem State.attest_good (hp : c.payload = p) (hlen : p.length = 33) (hplain : leAt p 32 1 = 0) : s.attest q n c =
    s.fresh.2.complete q n c stOk
      (s.attestReport (p.take 32) ++ sigField (Config.falconSign s.fresh.1 (signedMsg "QJ-ATTST" (s.attestReport (p.take 32)))) ++ []) := by
  subst hp
  unfold State.attest
  dsimp only
  rw [if_neg (by simp [hlen, hplain]), if_neg (by simp [hplain])]

/-- A FW_UPDATE row of its own operation code. -/
theorem HostReady.fwRow {t : State} {op : Nat} {f : State → W32 → QCmd → State} (h : HostReady s q 0x31 p n c) (hop : leAt p 0 1 = op)
    (hf : f (s.taken q) n c = t) : s.fwRow q op p f = t.settle := by
  rw [State.fwRow, if_pos (.inl hop), h.hostDo hf]

theorem State.fwBegin_good (hp : c.payload = p) (hlen : p.length = 8) (hop : leAt p 0 1 = 0) (hzero : zeroAt p 1 3) (hnone : s.sec.staging = none)
    (hfits : leAt p 4 4 ≤ 2 ^ 24) : s.fwBegin q n c =
      (((s.modFlash fun f => f.modSlot (1 - s.sec.slot) fun _ => { state := 0, image := [] }).modSec fun x =>
        { x with staging := some { slot := 1 - s.sec.slot, session := n, len := leAt p 4 4 }, committed := false }).complete q n c stOk []) := by
  subst hp
  unfold State.fwBegin
  dsimp only
  rw [if_neg (by simp [hlen, hop, hzero]), if_neg (by simp [hnone]), if_neg (by omega)]
  rfl

section
variable {g : Staging}

theorem State.fwData_good (hp : c.payload = p) (hg : s.sec.staging = some g) (hleast : 8 ≤ p.length) (hmost : p.length ≤ 8192) (hzero : zeroAt p 1 3)
    (hfits : leAt p 4 4 + (p.length - 8) ≤ g.len) : s.fwData q n c =
      ((s.modFlash fun f => f.modSlot g.slot fun x => { x with image := memWrite x.image (leAt p 4 4) (p.drop 8) }).complete q n c stOk []) := by
  subst hp
  unfold State.fwData
  dsimp only
  rw [if_neg (by simp only [hzero]; simp; omega), hg]
  exact if_neg (by omega)

theorem State.fwCommit_good (hp : c.payload = [2]) (hg : s.sec.staging = some g) (hcheck : s.flash.check (s.flash.slot g.slot) [0, 1, 2] = 0) :
    s.fwCommit q n c =
      (((s.modFlash fun f => f.mark g.slot 2).modSec fun x => { x with staging := none, committed := true }).complete q n c stOk []) := by
  unfold State.fwCommit
  rw [hp, if_neg (by simp [bareOp]), hg]
  exact if_neg (by simp [hcheck])

theorem State.fwAbort_good (hp : c.payload = [6]) (hg : s.sec.staging = some g) : s.fwAbort q n c =
    (((s.modFlash fun f => f.modSlot g.slot fun _ => { state := 0, image := [] }).modSec fun x => { x with staging := none }).complete q n c stOk []) := by
  unfold State.fwAbort
  rw [hp, if_neg (by simp [bareOp]), hg]
end

/-- The flash after a CONFIRM of slot `k`: its image is active, the other is so no more, and its revocations are made. -/
def FlashSt.confirmed (f : FlashSt) (k : Nat) : FlashSt :=
  let g := f.mark k 4
  let g := if (g.slot (1 - k)).state = 4 then g.mark (1 - k) 1 else g
  { g with revoked := g.revoked ||| BitVec.ofNat 4 (f.slot k).revoke }

theorem FlashSt.mark_arb (f : FlashSt) (k st : Nat) : (f.mark k st).arb = f.arb := by
  unfold FlashSt.mark FlashSt.modSlot
  split
  · rfl
  · rfl

theorem FlashSt.mark_revoked (f : FlashSt) (k st : Nat) : (f.mark k st).revoked = f.revoked := by
  unfold FlashSt.mark FlashSt.modSlot
  split
  · rfl
  · rfl

theorem FlashSt.slot_mark_self (f : FlashSt) (k st : Nat) : ((f.mark k st).slot k).state = st := by
  by_cases hk : k = 0
  · simp [FlashSt.mark, FlashSt.modSlot, FlashSt.slot, hk]
  · simp [FlashSt.mark, FlashSt.modSlot, FlashSt.slot, hk]

/-- The other slot of a device is not the one. -/
theorem FlashSt.slot_mark_other (f : FlashSt) (k st : Nat) : (f.mark (1 - k) st).slot k = f.slot k := by
  by_cases hk : k = 0
  · simp [FlashSt.mark, FlashSt.modSlot, FlashSt.slot, hk]
  · have hother : 1 - k = 0 := by omega
    simp [FlashSt.mark, FlashSt.modSlot, FlashSt.slot, hk, hother]

/-- What a CONFIRM leaves of the anti-rollback count, of the revocations and of its slot. -/
theorem FlashSt.confirmed_parts (f : FlashSt) (k : Nat) : (f.confirmed k).arb = f.arb ∧
    (f.confirmed k).revoked = f.revoked ||| BitVec.ofNat 4 (f.slot k).revoke ∧ ((f.confirmed k).slot k).state = 4 := by
  unfold FlashSt.confirmed
  extract_lets g h
  have hh : h.arb = f.arb ∧ h.revoked = f.revoked ∧ (h.slot k).state = 4 := by
    dsimp only [h, g]
    split
    · rw [FlashSt.mark_arb, FlashSt.mark_arb, FlashSt.mark_revoked, FlashSt.mark_revoked, FlashSt.slot_mark_other, FlashSt.slot_mark_self]
      exact ⟨rfl, rfl, rfl⟩
    · rw [FlashSt.mark_arb, FlashSt.mark_revoked, FlashSt.slot_mark_self]
      exact ⟨rfl, rfl, rfl⟩
  obtain ⟨harb, hrevoked, hslot⟩ := hh
  exact ⟨harb, by rw [← hrevoked], hslot⟩

/-- The anti-rollback count raised to the running SVN. -/
def FlashSt.raised (f : FlashSt) (svn : Nat) : FlashSt := { f with arb := Nat.max f.arb svn }

theorem State.raiseArb_good (hroom : s.flash.arb < 128) : s.raiseArb q n c = (s.modFlash fun f => f.raised s.sec.svn).complete q n c stOk [] :=
  if_neg (by omega)

/-- The device after a CONFIRM of its slot. -/
def State.afterConfirm (s : State) : State :=
  (s.modFlash fun f => (f.confirmed s.sec.slot).raised s.sec.svn).modSec fun y => { y with trial := false }

theorem State.afterConfirm_parts (s : State) : s.afterConfirm.flash.arb = Nat.max s.flash.arb s.sec.svn ∧
    s.afterConfirm.flash.revoked = s.flash.revoked ||| BitVec.ofNat 4 (s.flash.slot s.sec.slot).revoke ∧
    (s.afterConfirm.flash.slot s.sec.slot).state = 4 ∧ s.afterConfirm.sec = { s.sec with trial := false } ∧
    { s.afterConfirm with flash := s.flash, sec := s.sec } = s := by
  obtain ⟨harb, hrevoked, hslot⟩ := s.flash.confirmed_parts s.sec.slot
  exact ⟨congrArg (Nat.max · s.sec.svn) harb, hrevoked, hslot, rfl, rfl⟩

theorem State.fwConfirm_good (hp : c.payload = [3]) (htrial : s.sec.trial) (hroom : s.flash.arb < 128) : s.fwConfirm q n c =
    s.afterConfirm.complete q n c stOk [] := by
  unfold State.fwConfirm
  rw [hp, if_neg (by simp [bareOp]), if_neg (by simp [htrial])]
  refine (State.raiseArb_good (s := (s.modFlash (FlashSt.confirmed · s.sec.slot)).modSec fun y => { y with trial := false }) ?_).trans rfl
  obtain ⟨harb, -⟩ := s.flash.confirmed_parts s.sec.slot
  exact harb.trans_lt hroom

theorem State.fwRaise_good (hp : c.payload = [4]) (hactive : (s.flash.slot s.sec.slot).state = 4) (hroom : s.flash.arb < 128) :
    s.fwRaise q n c = ((s.modFlash fun f => f.raised s.sec.svn).complete q n c stOk []) := by
  unfold State.fwRaise
  rw [hp, if_neg (by simp [bareOp]), if_neg (by simp [hactive]), State.raiseArb_good hroom]

theorem State.ownerEnrol_good (hp : c.payload = p) (hlen : p.length = 3585) (harmed : s.regBit rSecCtrl 0) (hnone : s.flash.owner = none) :
    ∀ key, key = (p.drop 1).take 1793 → sigHolds key (p.drop 2049) "QJ-OWNER" (key ++ leBytes 16 s.flash.uid.toNat) → s.ownerEnrol q n c =
      (((s.modFlash fun f => { f with owner := some (Config.shake256 key) }).setRegF rSecCtrl 0 0 0).complete q n c stOk []) := by
  rintro key rfl hsig
  subst hp
  unfold State.ownerEnrol
  dsimp only
  rw [if_neg (by simpa using hlen), if_neg (by simp [harmed]), if_neg (by simp [hnone])]
  exact if_neg (by rw [hsig]; decide)

/-! ## MACsec and RDMA (R421, R433) -/

theorem State.macsecKey_good (hp : c.payload = p) (hlen : p.length = 64) (hdir : leAt p 0 1 ≤ 1) (han : leAt p 1 1 ≤ 1) (hzero : zeroAt p 2 6)
    (hnone : s.saKey (2 * leAt p 0 1 + leAt p 1 1) = none) : s.macsecKey q n c = (s.modEth fun e => { e with
      keys := tblSet none (2 * leAt p 0 1 + leAt p 1 1) (some ⟨BitVec.ofNat 256 (leAt p 8 32), BitVec.ofNat 64 (leAt p 40 8),
        BitVec.ofNat 32 (leAt p 48 4), BitVec.ofNat 96 (leAt p 52 12)⟩) e.keys,
      txAn := if leAt p 0 1 = 0 then leAt p 1 1 else e.txAn }).complete q n c stOk [] := by
  subst hp
  exact if_neg (by rw [hnone]; simp only [hzero]; simp; omega)

/-- A queue pair of the payload is added under some free number. -/
theorem State.qpCreate_good (hp : c.payload = p) (hlen : p.length = 32) (hop : leAt p 0 1 = 0) (hzero : zeroAt p 7 1) (hroom : s.eth.qps.length < 256) :
    ∃ y : Qp, s.qpCreate q n c = (s.fresh.2.modEth fun e => { e with qps := e.qps ++ [y] }).complete q n c stOk (leBytes 3 y.qpn) ∧
      y.partner = leAt p 4 3 ∧ y.rxPsn = BitVec.ofNat 24 (leAt p 26 3) ∧ y.error = false := by
  subst hp
  unfold State.qpCreate
  dsimp only
  rw [if_neg (by simp [hlen, hop, hzero]), if_neg (by omega)]
  exact ⟨_, rfl, rfl, rfl, rfl⟩

theorem State.qpDestroy_good (hp : c.payload = p) (hlen : p.length = 32) (hop : leAt p 0 1 = 1) (hzero : zeroAt p 7 1)
    (hqp : s.eth.qps.any fun y => y.qpn == leAt p 1 3) : s.qpDestroy q n c =
      (s.modEth fun e => { e with qps := e.qps.filter fun y => y.qpn != leAt p 1 3 }).complete q n c stOk (leBytes 3 (leAt p 1 3)) := by
  subst hp
  exact if_neg (by rw [hqp]; simp [hlen, hop, hzero])

/-- A memory region of the payload is added under some free key. -/
theorem State.mrCreate_good {d : Desc} (hp : c.payload = p) (hshape : mrShape p) (hop : leAt p 0 1 = 0)
    (hd : s.liveDesc (addrHandle (BitVec.ofNat 64 (leAt p 4 8))) = some d) (hrange : addrIndex (BitVec.ofNat 64 (leAt p 4 8)) + leAt p 12 5 ≤ d.count) :
    ∃ k : W32, s.mrCreate q n c = (s.fresh.2.modEth fun e => { e with mrs := e.mrs ++ [⟨k, natBit (leAt p 1 1) 0, natBit (leAt p 1 1) 1,
      BitVec.ofNat 64 (leAt p 4 8), leAt p 12 5, true⟩] }).complete q n c stOk (leBytes 4 k.toNat) := by
  subst hp
  unfold State.mrCreate
  dsimp only
  rw [hd]
  dsimp only
  rw [if_neg (by simp [hshape, hop]; omega)]
  refine ⟨_, (congrArg (State.complete _ q n c stOk) (congrArg (leBytes 4) ?_)).trans rfl⟩
  exact ((BitVec.toNat_ofNat ..).trans (Nat.mod_mod ..)).symm

theorem State.mrDestroy_good (hp : c.payload = p) (hshape : mrShape p) (hop : leAt p 0 1 = 1)
    (hmr : s.eth.mrs.any fun y => y.rkey.toNat == leAt p 20 4) : s.mrDestroy q n c =
      (s.modEth fun e => { e with mrs := e.mrs.filter fun y => y.rkey.toNat != leAt p 20 4 }).complete q n c stOk (leBytes 4 (leAt p 20 4)) := by
  subst hp
  exact if_neg (by rw [hmr]; simp [hshape, hop])

/-- Settles O18: with good parameters each command passes its checks, one lemma above for each, and what follows is its operation. -/
theorem hostDeviceCommands : Obligations.HostDeviceCommands := by
  unfold Obligations.HostDeviceCommands
  rintro q p n c s u rfl
  refine ⟨?close, ?keepalive, ?rung, ?setpoint, ?attest, fun h => ⟨?begin, fun g hg => ⟨?data, ?commit, ?abort⟩, ?confirm, ?raised, ?enrol⟩, ?macsec,
    fun h hlen hzero => ⟨?qp, ?noQp⟩, fun h hshape => ⟨?mr, ?noMr⟩⟩
  case close =>
    intro h hp
    exact congrArg Host.Outcome.next (h.hostDo (if_neg (by simp [h.payload, hp])))
  case keepalive =>
    intro h hp
    rw [← s.taken_timebase q]
    exact congrArg Host.Outcome.next (h.hostDo (if_neg (by simp [h.payload, hp])))
  case rung =>
    intro h hlen hscope hrung hzero hidle
    rw [← s.taken_power q] at hidle
    rw [← s.taken_power q, ← s.taken_timebase q]
    have hgood := State.powerSetRung_good (s := s.taken q) (q := q) (n := n) h.payload hlen hscope hrung hzero hidle
    exact ⟨fun hsame => congrArg Host.Outcome.next (h.hostDo_unless (by omega) (hgood.trans (if_pos hsame))),
      fun hother => congrArg Host.Outcome.next (h.hostDo_unless (by omega) (hgood.trans (if_neg hother)))⟩
  case setpoint =>
    intro h hlen hscope hsp hzero
    exact congrArg Host.Outcome.next (h.hostDo_unless (by omega) (State.powerSetSp_good h.payload hlen hscope hsp hzero))
  case attest =>
    intro h hlen hplain
    exact congrArg Host.Outcome.next (h.hostDo (State.attest_good h.payload hlen hplain))
  case begin =>
    intro hlen hop hzero hnone hfits
    exact congrArg Host.Outcome.next (h.fwRow hop (State.fwBegin_good h.payload hlen hop hzero hnone hfits))
  case data =>
    intro hleast hmost hop hzero hfits
    exact congrArg Host.Outcome.next (h.fwRow hop (State.fwData_good h.payload hg hleast hmost hzero hfits))
  case commit =>
    rintro rfl hcheck
    exact congrArg Host.Outcome.next (h.fwRow rfl (State.fwCommit_good h.payload hg hcheck))
  case abort =>
    rintro rfl
    exact congrArg Host.Outcome.next (h.fwRow rfl (State.fwAbort_good h.payload hg))
  case confirm =>
    rintro rfl htrial hroom
    exact ⟨_, congrArg Host.Outcome.next (h.fwRow rfl (State.fwConfirm_good h.payload htrial hroom)), State.afterConfirm_parts _⟩
  case raised =>
    rintro rfl hactive hroom
    exact congrArg Host.Outcome.next (h.fwRow rfl (State.fwRaise_good h.payload hactive hroom))
  case enrol =>
    intro hlen hop harmed hnone key hkey hsig
    exact congrArg Host.Outcome.next (h.fwRow hop (State.ownerEnrol_good h.payload hlen harmed hnone key hkey hsig))
  case macsec =>
    intro h hlen hdir han hzero hnone
    exact congrArg Host.Outcome.next (h.hostDo (State.macsecKey_good h.payload hlen hdir han hzero hnone))
  case qp =>
    intro hop hroom
    obtain ⟨y, hy, hparts⟩ := State.qpCreate_good (q := q) (n := n) h.payload hlen hop hzero hroom
    exact ⟨y, congrArg Host.Outcome.next (h.hostDo_unless (by omega) hy), hparts⟩
  case noQp =>
    intro hop hqp
    exact congrArg Host.Outcome.next (h.hostDo_unless (by omega) (State.qpDestroy_good h.payload hlen hop hzero hqp))
  case mr =>
    intro d hop hd hrange
    obtain ⟨k, hk⟩ := State.mrCreate_good (q := q) (n := n) h.payload hshape hop hd hrange
    exact ⟨k, congrArg Host.Outcome.next (h.hostDo_unless (by omega) hk)⟩
  case noMr =>
    intro hop hmr
    exact congrArg Host.Outcome.next (h.hostDo_unless (by omega) (State.mrDestroy_good h.payload hshape hop hmr))

end Sys2Proof.Machine

/-! PROOF. What sending on the port leaves of the state, the completion of a host command, and the writes of SEC_CTRL. -/

namespace Sys2Proof.Machine

variable {s t u : State}

/-! ## SEC_CTRL (R496) -/

/-- SEC_CTRL is the one register of its block and offset. -/
theorem eq_rSecCtrl {a : Nat} (hblock : blockOf a = .sec) (hoff : offOf a = 0x10) : a = rSecCtrl := by
  have hdiv : a / 0x10000 = 3 := by
    unfold blockOf at hblock
    dsimp only at hblock
    split at hblock
    · split at hblock <;> cases hblock
    split at hblock
    · split at hblock <;> cases hblock
    split at hblock <;> first | assumption | cases hblock
  unfold offOf at hoff
  unfold rSecCtrl secBase
  omega

theorem State.regDead_rSecCtrl (s : State) : s.regDead rSecCtrl = false := rfl

/-- A write of SEC_CTRL on a path other than I3C is ignored. -/
theorem State.writeReg_rSecCtrl_ignored (s : State) (v : W32) : s.writeReg false rSecCtrl v = s := rfl

theorem State.writeRegs_rSecCtrl_ignored (s : State) (v : W32) : s.writeRegs false [(rSecCtrl, v)] = s := by
  rw [State.writeRegs, List.foldl_cons, List.foldl_nil, s.writeReg_rSecCtrl_ignored]

/-- A write of SEC_CTRL over I3C is made. -/
theorem State.writeReg_rSecCtrl (s : State) (v : W32) :
    s.writeReg true rSecCtrl v = s.setReg rSecCtrl (plainWrite rSecCtrl (s.reg rSecCtrl) v) := rfl

/-- A register other than SEC_CTRL is written alike on every path. -/
theorem State.writeReg_path_eq {a : Nat} (s : State) (v : W32) (h : a ≠ rSecCtrl) : s.writeReg true a v = s.writeReg false a v := by
  unfold State.writeReg
  split
  · rfl
  · dsimp only
    split
    case h_2 hblock =>
      have hoff : offOf a ≠ 0x10 := fun hoff => h (eq_rSecCtrl hblock hoff)
      rw [if_neg (fun hpath => hoff hpath.1), if_neg (fun hpath => hoff hpath.1)]
    all_goals rfl

/-- Settles O60: SEC_CTRL is the one register at its block and offset, and the path is looked at there alone. -/
theorem securityControlWrites : Obligations.SecurityControlWrites := by
  unfold Obligations.SecurityControlWrites
  intro s v
  refine ⟨fun hway => ?_, s.writeRegs_rSecCtrl_ignored v, fun hway => ?_, fun a ha => s.writeReg_path_eq v ha⟩
  · change Host.Outcome.next (s.pathWrite .jtag rSecCtrl v) = _
    rw [State.pathWrite, hway]
    exact congrArg Host.Outcome.next (s.writeReg_rSecCtrl_ignored v)
  · change Host.Outcome.next (s.pathWrite .i3c rSecCtrl v) = _
    rw [State.pathWrite, hway]
    exact congrArg (fun x : State => Host.Outcome.next (x.modPower fun y => { y with i3cNak := false })) (s.writeReg_rSecCtrl v)

/-! ## What sending on the port leaves -/

/-- Only what notices write, and what the port has sent or is to send, differs: the frames, those that wait, and the keys. -/
def Sent (s t : State) : Prop :=
  Noted s { t with eth := { t.eth with out := s.eth.out, txq := s.eth.txq, keys := s.eth.keys, macsecNow := s.eth.macsecNow } }

theorem Noted.sent (h : Noted s t) : Sent s t := by
  unfold Noted at h
  exact congrArg (fun x : State =>
    { x with eth := { x.eth with out := s.eth.out, txq := s.eth.txq, keys := s.eth.keys, macsecNow := s.eth.macsecNow } }) h

theorem Sent.refl (s : State) : Sent s s := (Noted.refl s).sent

theorem Sent.trans (h : Sent s t) (k : Sent t u) : Sent s u := by
  have hk := congrArg (fun x : State =>
    { x with
      regs := s.regs, cnts := s.cnts,
      eth := { x.eth with events := s.eth.events, lost := s.eth.lost, out := s.eth.out, txq := s.eth.txq, keys := s.eth.keys,
                          macsecNow := s.eth.macsecNow },
      supQ := s.supQ, recent := s.recent, muted := s.muted, errSeen := s.errSeen, free := s.free }) k
  exact hk.trans h

theorem Sent.ite {c : Prop} [Decidable c] (ht : Sent s t) (hu : Sent s u) : Sent s (if c then t else u) := by
  split
  · exact ht
  · exact hu

theorem Sent.noted (h : Sent s t) (k : Noted t u) : Sent s u := h.trans k.sent

theorem Sent.count {k n : Nat} (h : Sent s t) : Sent s (t.count k n) := h.noted (.count (.refl t))

theorem Sent.emit {o : NetOut} (h : Sent s t) : Sent s (t.emit o) := by
  unfold State.emit
  extract_lets on t'
  have ht' : Sent s t' := h.trans rfl
  clear_value t'
  split
  · exact Sent.count (ht'.trans rfl)
  · split
    · exact ht'
    · exact Sent.count (ht'.trans rfl)

theorem Sent.transmit {pri : Nat} {o : NetOut} (h : Sent s t) : Sent s (t.transmit pri o) :=
  .ite h (.ite (h.trans rfl) h.emit)

theorem Sent.qctSend {x : Session} {flags qid opc status : Nat} {seq ackno tag : W32} {payload : List Byte} (h : Sent s t) :
    Sent s (t.qctSend x flags qid opc seq ackno status tag payload) := h.transmit

/-- Every part of the state that neither notices nor frames write is as it was. -/
theorem Sent.part_eq {α : Type} (h : Sent s t) (part : State → α) :
    part { t with
      regs := s.regs, cnts := s.cnts,
      eth := { t.eth with events := s.eth.events, lost := s.eth.lost, out := s.eth.out, txq := s.eth.txq, keys := s.eth.keys,
                          macsecNow := s.eth.macsecNow },
      supQ := s.supQ, recent := s.recent, muted := s.muted, errSeen := s.errSeen, free := s.free } = part s :=
  congrArg part h

theorem Sent.mem (h : Sent s t) : t.mem = s.mem := h.part_eq State.mem
theorem Sent.cells (h : Sent s t) : t.cells = s.cells := h.part_eq State.cells
theorem Sent.fab (h : Sent s t) : t.fab = s.fab := h.part_eq State.fab
theorem Sent.power (h : Sent s t) : t.power = s.power := h.part_eq State.power
theorem Sent.scaler (h : Sent s t) : t.scaler = s.scaler := h.part_eq State.scaler
theorem Sent.reqs (h : Sent s t) : t.reqs = s.reqs := h.part_eq State.reqs
theorem Sent.session (h : Sent s t) : t.eth.session = s.eth.session := h.part_eq (·.eth.session)
theorem Sent.jobs (h : Sent s t) : t.eth.jobs = s.eth.jobs := h.part_eq (·.eth.jobs)

/-! ## Completions (R425, R426, R428) -/

/-- A queue after a completion under its next sequence number: the last W are held, and what was to be acknowledged is, with it. -/
def QSt.completed (y : QSt) (w : Nat) (d : Completion) : QSt :=
  { y with held := (y.held ++ [d]).drop ((y.held ++ [d]).length - w), txNext := y.txNext + 1, ackDue := false }

/-- The session after a completion on queue `q`. -/
def Session.completed (x : Session) (q : Nat) (d : Completion) : Session :=
  { x with queues := modAt q (fun y => y.completed x.w d) x.queues }

theorem Session.queue_completed_self {x : Session} {q : Nat} (hq : q < x.queues.length) (d : Completion) :
    (x.completed q d).queue q = (x.queue q).completed x.w d :=
  (modAt_getD ..).trans (if_pos ⟨rfl, hq⟩)

theorem Session.queue_completed_ne {x : Session} {q k : Nat} (hk : k ≠ q) (d : Completion) : (x.completed q d).queue k = x.queue k :=
  (modAt_getD ..).trans (if_neg fun h => hk h.1)

/-- The youngest held completion is the new one. -/
theorem QSt.getLast_completed (y : QSt) {w : Nat} (hw : 0 < w) (d : Completion) : (y.completed w d).held.getLast? = some d := by
  have hshort : (y.held ++ [d]).length - w < (y.held ++ [d]).length := by
    rw [List.length_append, List.length_singleton]
    omega
  change ((y.held ++ [d]).drop _).getLast? = _
  rw [List.getLast?_drop, if_neg (by omega), List.getLast?_concat]

theorem QSt.length_completed_le (y : QSt) (w : Nat) (d : Completion) : (y.completed w d).held.length ≤ w := by
  change ((y.held ++ [d]).drop _).length ≤ _
  rw [List.length_drop]
  omega

theorem Sent.sendCompletion {q : Nat} {d : Completion} {retx : Bool} (s : State) :
    Sent (s.modQueue q fun y => { y with ackDue := false }) (s.sendCompletion q d retx) := by
  unfold State.sendCompletion
  split
  case h_1 h =>
    have hsame : s.modQueue q (fun y => { y with ackDue := false }) = s := by
      have hnone : s.eth.session.map (fun x => { x with queues := modAt q (fun y => { y with ackDue := false }) x.queues }) = s.eth.session := by
        rw [h]
        rfl
      exact congrArg (fun z => { s with eth := { s.eth with session := z } }) hnone
    rw [hsame]
    exact .refl s
  case h_2 => exact .qctSend (.refl _)

theorem State.modQueue_modQueue (s : State) (q : Nat) (f g : QSt → QSt) : (s.modQueue q f).modQueue q g = s.modQueue q fun y => g (f y) := by
  have hsession : (s.eth.session.map fun x => { x with queues := modAt q f x.queues }).map (fun x => { x with queues := modAt q g x.queues }) =
      s.eth.session.map fun x => { x with queues := modAt q (fun y => g (f y)) x.queues } := by
    rw [Option.map_map]
    exact congrArg (Option.map · _) (funext fun x => congrArg (fun l => { x with queues := l }) (modAt_modAt ..))
  exact congrArg (fun z => { s with eth := { s.eth with session := z } }) hsession

theorem State.modQueue_of_session {x : Session} {q : Nat} (hx : s.eth.session = some x) (f : QSt → QSt) :
    s.modQueue q f = s.modEth fun e => { e with session := some { x with queues := modAt q f x.queues } } :=
  congrArg (fun z => { s with eth := { s.eth with session := z } }) (congrArg (Option.map _) hx)

/-- The completion that a session's queue is given. -/
def State.completion (s : State) (x : Session) (q : Nat) (c : QCmd) (st : Nat) (b : List Byte) : Completion :=
  { seq := (x.queue q).txNext, cmdSeq := c.seq, opc := c.opc, tag := c.tag, status := st, payload := b, acked := false, sentAt := s.timebase,
    rto := s.regF rQctTimers 31 16 }

/-- A command of the open session completes: its queue holds the completion, and only what sending writes differs otherwise. -/
theorem State.complete_session {x : Session} {q : Nat} {n : W32} {c : QCmd} {st : Nat} {b : List Byte} (hx : s.eth.session = some x)
    (hn : x.num = n) : Sent (s.modEth fun e => { e with session := some (x.completed q (s.completion x q c st b)) }) (s.complete q n c st b) := by
  unfold State.complete
  rw [hx]
  dsimp only
  rw [if_neg (by simp [hn])]
  refine Eq.mp (congrArg (Sent · _) ?_) (Sent.sendCompletion _)
  exact (State.modQueue_modQueue ..).trans (State.modQueue_of_session hx _)

/-! ## A state in which nothing waits -/

theorem State.jobPass_of_no_jobs (h : s.eth.jobs = []) : s.jobPass = s := by
  rw [State.jobPass, h]
  rfl

theorem State.sealStep_of_no_seals (h : s.scaler.seals = []) : s.sealStep = s := by
  rw [State.sealStep, h]
  rfl

theorem State.hostTakeAll_of_no_reqs (h : s.reqs = []) (n : Nat) : s.hostTakeAll (n + 1) = s := by
  have hnone : s.hostAnswered = none := by
    rw [State.hostAnswered, h]
    rfl
  rw [State.hostTakeAll, hnone]

theorem State.badOpcs_of_no_commands (h : ∀ x, s.eth.session = some x → ∀ q, (x.queue q).buf = []) : s.badOpcs = s := by
  unfold State.badOpcs
  split
  · rfl
  · next x hx =>
    have hstay : ∀ l : List Nat, l.foldl (fun (u : State) q => u.badOpc q (x.queue q).buf.length) s = s := by
      intro l
      induction l with
      | nil => rfl
      | cons q l ih =>
        rw [List.foldl_cons, h x hx q]
        exact ih
    exact hstay _

/-- Settling changes nothing where nothing waits. -/
theorem State.Calm.settle (h : s.Calm) : s.settle = s := by
  obtain ⟨hreqs, hjobs, hseals, hbufs⟩ := h
  unfold State.settle
  dsimp only
  rw [State.hostTakeAll_of_no_reqs hreqs, State.jobPass_of_no_jobs hjobs, State.jobPass_of_no_jobs hjobs, State.jobPass_of_no_jobs hjobs,
    State.sealStep_of_no_seals hseals, State.badOpcs_of_no_commands hbufs]

/-- Settles O56: a completion goes on its own queue, and what sends it writes no queue. -/
theorem completionIsHeld : Obligations.CompletionIsHeld := by
  unfold Obligations.CompletionIsHeld
  refine ⟨?_, fun s h => h.settle⟩
  rintro s t q n c st b rfl
  refine ⟨fun hnone => ?_, fun x hx hn => ?_, fun x hx hn hq hw => ?_⟩
  · rw [State.complete, hnone]
  · rw [State.complete, hx]
    exact if_pos hn
  · have h := s.complete_session (q := q) (c := c) (st := st) (b := b) hx hn
    refine ⟨x.completed q (s.completion x q c st b), s.completion x q c st b, h.session, rfl, ?_⟩
    rw [Session.queue_completed_self hq]
    exact ⟨rfl, QSt.getLast_completed _ hw _, rfl, rfl, rfl, rfl, rfl, rfl, rfl, QSt.length_completed_le .., fun k hk => Session.queue_completed_ne hk _,
      h.cells, h.mem, h.scaler, h.reqs⟩

end Sys2Proof.Machine

/-! PROOF. The links: what a flit that comes in does, what a link sends, and how links come up and go down. -/

namespace Sys2Proof.Machine

variable {s t u : State} {l : Nat} {f : Flit}

/-! ## The flit (R382, R383) -/

/-- The number of a flit's fields lies below its CRC. -/
theorem mkFlit_parts (kind seq ack vc units cv cn body : Nat) : ∃ n < 2 ^ 2016, n / 2 ^ 12 % 8 = kind % 8 ∧
    (mkFlit kind seq ack vc units cv cn body).toNat = n + (crc32 (leBytes 252 n)).toNat * 2 ^ 2016 := by
  refine ⟨seq % 4096 + kind % 8 * 2 ^ 12 + ack % 4096 * 2 ^ 16 + vc % 8 * 2 ^ 32 + units % 16 * 2 ^ 35 + cv % 8 * 2 ^ 40 + cn % 1024 * 2 ^ 43 +
    body % 2 ^ 1920 * 2 ^ 96, ?_, ?_, ?_⟩
  · omega
  · omega
  · refine (BitVec.toNat_ofNat ..).trans (Nat.mod_eq_of_lt ?_)
    have hcrc := (crc32 (leBytes 252 (seq % 4096 + kind % 8 * 2 ^ 12 + ack % 4096 * 2 ^ 16 + vc % 8 * 2 ^ 32 + units % 16 * 2 ^ 35 +
      cv % 8 * 2 ^ 40 + cn % 1024 * 2 ^ 43 + body % 2 ^ 1920 * 2 ^ 96))).isLt
    generalize (crc32 _).toNat = crc at hcrc ⊢
    omega

theorem flKind_mkFlit {kind : Nat} (hkind : kind < 8) (seq ack vc units cv cn body : Nat) : flKind (mkFlit kind seq ack vc units cv cn body) = kind := by
  obtain ⟨n, hn, hfield, hflit⟩ := mkFlit_parts kind seq ack vc units cv cn body
  rw [flKind, fld, hflit, natBits]
  omega

/-- The 32 bits that stand above bit `k`. -/
theorem natBits_above {n k : Nat} (hn : n < 2 ^ k) (c : W32) : natBits (n + c.toNat * 2 ^ k) (k + 31) k = c.toNat := by
  have hwidth : k + 31 + 1 - k = 32 := by omega
  rw [natBits, hwidth, Nat.add_mul_div_right _ _ (Nat.two_pow_pos k), Nat.div_eq_of_lt hn, Nat.zero_add, Nat.mod_eq_of_lt c.isLt]

theorem flGood_mkFlit (kind seq ack vc units cv cn body : Nat) : flGood (mkFlit kind seq ack vc units cv cn body) = true := by
  obtain ⟨n, hn, -, hflit⟩ := mkFlit_parts kind seq ack vc units cv cn body
  rw [flGood, flCrc, fld, hflit, natBits_above hn, Nat.add_mul_mod_self_right, Nat.mod_eq_of_lt hn, BitVec.ofNat_toNat, BitVec.setWidth_eq]
  exact beq_self_eq_true _

/-! ## One link (R384, R390) -/

/-- A link that has heard a good flit. -/
def Link.heard (k : Link) (now : W64) (f : Flit) : Link :=
  { k with
    lastGood := now, replay := if k.recovering then k.replay else replayAfter (flAck f) k.replay,
    inUse := modAt (flCreditVc f) (· - flCredit f) k.inUse }

/-- The VC for which a link returns credits next, and how many. -/
def Link.owes (k : Link) : Nat × Nat :=
  let cv := (lowest (fun v => k.owed.getD v 0 != 0) 8 0).getD 0
  (cv, Nat.min 768 (k.owed.getD cv 0))

/-- The flit that a link sends, with the ACK and the credits that it owes. -/
def Link.flit (k : Link) (kind seq vc units body : Nat) : Flit := mkFlit kind seq (k.rxSeq + 4095) vc units k.owes.1 k.owes.2 body

/-- A link that has sent a flit. -/
def Link.sends (k : Link) (kind seq vc units body : Nat) : Link :=
  { k with
    sent := k.sent ++ [k.flit kind seq vc units body], owed := modAt k.owes.1 (· - k.owes.2) k.owed,
    replay := if kind = flData then k.replay ++ [(seq, k.flit kind seq vc units body)] else k.replay }

theorem State.link_of_fab (h : t.fab = s.fab) (l : Nat) : t.link l = s.link l := congrArg (fun x : FabSt => x.links.getD l Link.reset) h

theorem State.link_modLink_self (hl : l < s.fab.links.length) (f : Link → Link) : (s.modLink l f).link l = f (s.link l) :=
  (s.link_modLink l l f).trans (if_pos ⟨rfl, hl⟩)

theorem State.links_length_modLink (s : State) (l : Nat) (f : Link → Link) : (s.modLink l f).fab.links.length = s.fab.links.length :=
  modAt_length ..

/-! ## Flits in and out -/

theorem State.flitIn_noted (s : State) (l : Nat) (f : Flit) : Noted (s.modLink l fun k => k.heard s.timebase f) (s.flitIn l f) :=
  (Noted.refl _).count

theorem State.link_flitIn (hl : l < s.fab.links.length) (f : Flit) : (s.flitIn l f).link l = (s.link l).heard s.timebase f :=
  (State.link_of_fab (s.flitIn_noted l f).fab l).trans (State.link_modLink_self hl _)

theorem State.flitIn_links_length (s : State) (l : Nat) (f : Flit) : (s.flitIn l f).fab.links.length = s.fab.links.length :=
  (congrArg (·.links.length) (s.flitIn_noted l f).fab).trans (s.links_length_modLink ..)

theorem State.flitIn_router (s : State) (l : Nat) (f : Flit) : (s.flitIn l f).fab.router = s.fab.router := by
  rw [(s.flitIn_noted l f).fab]
  rfl

theorem State.sendFlit_noted (s : State) (l kind seq vc units body : Nat) :
    Noted (s.modLink l fun k => { k with
      sent := k.sent ++ [(s.link l).flit kind seq vc units body], owed := modAt (s.link l).owes.1 (· - (s.link l).owes.2) k.owed,
      replay := if kind = flData then k.replay ++ [(seq, (s.link l).flit kind seq vc units body)] else k.replay })
      (s.sendFlit l kind seq vc units body) := (Noted.refl _).count

theorem State.link_sendFlit (hl : l < s.fab.links.length) (kind seq vc units body : Nat) :
    (s.sendFlit l kind seq vc units body).link l = (s.link l).sends kind seq vc units body :=
  (State.link_of_fab (s.sendFlit_noted ..).fab l).trans (State.link_modLink_self hl _)

theorem State.sendFlit_links_length (s : State) (l kind seq vc units body : Nat) :
    (s.sendFlit l kind seq vc units body).fab.links.length = s.fab.links.length :=
  (congrArg (·.links.length) (s.sendFlit_noted ..).fab).trans (s.links_length_modLink ..)

theorem State.sendFlit_router (s : State) (l kind seq vc units body : Nat) : (s.sendFlit l kind seq vc units body).fab.router = s.fab.router := by
  rw [(s.sendFlit_noted ..).fab]
  rfl

theorem State.releaseHeld_links (s : State) : s.releaseHeld.fab.links = s.fab.links := rfl

theorem State.link_releaseHeld (s : State) (l : Nat) : s.releaseHeld.link l = s.link l := rfl

/-! ## A flit whose CRC fails (R383) -/

theorem State.flitBad_noted (s : State) (l : Nat) : Noted s (s.flitBad l) := (Noted.refl s).errBump.seeClass

/-- What a bad flit leaves: the link's liveness, the router and memory. -/
theorem State.badFlit_leaves (hl : l < s.fab.links.length) (h : t = s.flitBad l ∨ t = (s.flitBad l).sendNak l) :
    (t.link l).lastGood = (s.link l).lastGood ∧ t.fab.router = s.fab.router ∧ SameMemory s t := by
  have hbad := s.flitBad_noted l
  rcases h with rfl | rfl
  · exact ⟨congrArg Link.lastGood (State.link_of_fab hbad.fab l), congrArg FabSt.router hbad.fab, hbad.sameMemory⟩
  · have hlen : l < (s.flitBad l).fab.links.length := hl.trans_eq (congrArg (·.links.length) hbad.fab.symm)
    have hlink : ((s.flitBad l).sendNak l).link l = ((s.flitBad l).link l).sends flNak 0 0 0 0 := State.link_sendFlit hlen ..
    rw [State.link_of_fab hbad.fab] at hlink
    exact ⟨(congrArg Link.lastGood hlink :),
      (State.sendFlit_router ..).trans (congrArg FabSt.router hbad.fab),
      fun a => congrArg (memGet · a) (((s.flitBad l).sendFlit_noted l flNak 0 0 0 0).mem.trans hbad.mem)⟩

/-! ## Which flits are taken -/

section
variable {kind : Nat}

/-- A flit of its kind comes in on a link that takes flits. -/
theorem flitTaken (hon : s.fabOn) (hlink : l < 32) (halive : (s.link l).alive) (hkind : flKind f = kind) :
    ¬((!s.fabOn) = true ∨ 32 ≤ l ∨ (!(s.link l).alive) = true ∨ flKind f ≠ kind) := by
  simp [hon, hlink, halive, hkind]

theorem FlitReady.taken (h : FlitReady s l kind f) : ¬((!s.fabOn) = true ∨ 32 ≤ l ∨ (!(s.link l).alive) = true ∨ flKind f ≠ kind) :=
  flitTaken h.on h.link h.alive h.kind

theorem FlitReady.not_bad (h : FlitReady s l kind f) : ¬(!flGood f) = true := by simp [h.good]

theorem FlitReady.plainFlit (h : FlitReady s l kind f) (g : State → State) : s.plainFlit l kind f g = g (s.flitIn l f) :=
  (if_neg h.taken).trans (if_neg h.not_bad)
end

/-- A flit of each kind whose CRC fails is discarded; a DATA flit is then asked for again. -/
theorem exec_badFlit (hon : s.fabOn) (hlink : l < 32) (halive : (s.link l).alive) (hbad : flGood f = false) :
    ∀ x ∈ ([(.dataFlit, flData), (.idleFlit, flIdle), (.nak, flNak), (.heartbeat, flHeartbeat), (.beacon, flBeacon), (.wake, flWake), (.resume, flResume)] :
      List ((Nat → Flit → Instr) × Nat)), flKind f = x.2 → ∃ t, exec (x.1 l f) s = .next t ∧ (t = s.flitBad l ∨ t = (s.flitBad l).sendNak l) := by
  have hgood : (!flGood f) = true := by simp [hbad]
  have hplain : ∀ kind g, flKind f = kind → s.plainFlit l kind f g = s.flitBad l := fun kind g hkind =>
    (if_neg (flitTaken hon hlink halive hkind)).trans (if_pos hgood)
  intro x hx hkind
  simp only [List.mem_cons, List.not_mem_nil, or_false] at hx
  rcases hx with rfl | rfl | rfl | rfl | rfl | rfl | rfl
  · exact ⟨_, rfl, .inr ((if_neg (flitTaken hon hlink halive hkind)).trans (if_pos hgood))⟩
  · exact ⟨_, rfl, .inl ((if_neg (flitTaken hon hlink halive hkind)).trans (if_pos hgood))⟩
  · exact ⟨_, rfl, .inl ((if_neg (flitTaken hon hlink halive hkind)).trans (if_pos hgood))⟩
  · exact ⟨_, rfl, .inl ((if_neg (flitTaken hon hlink halive hkind)).trans (if_pos hgood))⟩
  · exact ⟨_, rfl, .inl (hplain _ _ hkind)⟩
  · exact ⟨_, rfl, .inl (hplain _ _ hkind)⟩
  · exact ⟨_, rfl, .inl (hplain _ _ hkind)⟩

/-! ## Good flits -/

theorem State.dataIn_link (hl : l < s.fab.links.length) (f : Flit) : ((s.dataIn l f).link l).rxSeq = ((s.link l).rxSeq + 1) % 4096 := by
  unfold State.dataIn
  extract_lets
  exact congrArg Link.rxSeq (State.link_modLink_self hl _)

theorem State.dataIn_router (hnear : (s.link l).state ≠ .foreign) : (s.dataIn l f).fab.router = s.fab.router ++
    (unitPackets 32 ((if flCont f then (s.link l).part.getD (flVc f) [] else []) ++ (List.range (flUnits f)).map (flUnit f))).1 := by
  unfold State.dataIn
  extract_lets
  exact congrArg (s.fab.router ++ ·) (if_neg hnear)

/-- A NAK of a place not yet asked for sends again what follows it. -/
theorem FlitReady.nakIn (h : FlitReady s l flNak f) (hl : l < s.fab.links.length) (hnew : (s.link l).nakSeq ≠ some (flAck f))
    (hrec : (s.link l).recovering = false) : ((s.nakIn l f).link l).naks = 1 ∧
      ((s.nakIn l f).link l).sent = (s.link l).sent ++ (replayAfter (flAck f) (s.link l).replay).map (·.2) := by
  have hheard := State.link_flitIn hl f
  have hlen : l < (s.flitIn l f).fab.links.length := hl.trans_eq (s.flitIn_links_length l f).symm
  have hn : (if ((s.flitIn l f).link l).nakSeq = some (flAck f) then ((s.flitIn l f).link l).naks + 1 else 1) = 1 :=
    if_neg (by rw [hheard]; exact hnew)
  unfold State.nakIn
  rw [if_neg h.taken, if_neg h.not_bad]
  dsimp only
  rw [hn, if_neg (by omega)]
  generalize hu : ((s.flitIn l f).modLink l fun k => { k with naks := 1, nakSeq := some (flAck f) }) = u
  have hulink : u.link l = { (s.link l).heard s.timebase f with naks := 1, nakSeq := some (flAck f) } := by
    rw [← hu, State.link_modLink_self hlen, hheard]
  have hulen : l < u.fab.links.length := by
    rw [← hu, State.links_length_modLink]
    exact hlen
  rw [State.link_of_fab (Noted.count (Noted.count (Noted.refl _))).fab, State.link_modLink_self hulen, hulink]
  refine ⟨rfl, congrArg ((s.link l).sent ++ List.map Prod.snd ·) ?_⟩
  exact if_neg (by simp [hrec])

/-- The link after a heartbeat. -/
def State.heartbeatLink (s : State) (l : Nat) (f : Flit) : Link :=
  { (s.link l).heard s.timebase f with
    farDev := flBody f 0 2, farLink := flBody f 12 1 % 32, farValid := true, farKeeper := flBody f 10 2,
    state := if (s.link l).state = .up ∨ (s.link l).state = .foreign then
      (if flBody f 2 4 != (s.reg rFabSpace).toNat || s.fab.member (flBody f 0 2) == 2 then .foreign else .up) else (s.link l).state }

theorem kLink_ne_space (l : Nat) : rFabSpace ≠ kLink l 1 + 8 := by
  unfold rFabSpace kLink
  omega

theorem FlitReady.heartbeat (h : FlitReady s l flHeartbeat f) (hgood : s.Good) (hl : l < s.fab.links.length) :
    (s.heartbeat l f).link l = s.heartbeatLink l f := by
  have hheard := State.link_flitIn hl f
  have hlen : l < (s.flitIn l f).fab.links.length := hl.trans_eq (s.flitIn_links_length l f).symm
  have hreg : (s.flitIn l f).reg rFabSpace = s.reg rFabSpace :=
    State.reg_count ((Kept.refl s).modLink.good hgood) (kLink_ne_space l) (by decide) 1
  have hmember : (s.flitIn l f).fab.member (flBody f 0 2) = s.fab.member (flBody f 0 2) := by
    rw [(s.flitIn_noted l f).fab]
    rfl
  unfold State.heartbeat
  rw [if_neg h.taken, if_neg h.not_bad]
  extract_lets v far foreign was st u
  have hu : u.link l = s.heartbeatLink l f := by
    refine (State.link_modLink_self hlen _).trans ?_
    dsimp only [st, was, foreign, far, v]
    simp only [hheard, hreg, hmember]
    rfl
  split
  · exact (State.link_of_fab (Noted.fabEvent (.refl u)).fab l).trans hu
  · exact hu

/-- Of an UP or FOREIGN link a heartbeat of another space, or of a device that is LOST here, makes a FOREIGN one, any other an UP one. -/
theorem State.heartbeatLink_foreign (hstate : (s.link l).state = .up ∨ (s.link l).state = .foreign) :
    (s.heartbeatLink l f).state = .foreign ↔ flBody f 2 4 ≠ (s.reg rFabSpace).toNat ∨ s.fab.member (flBody f 0 2) = 2 := by
  change (if (s.link l).state = .up ∨ (s.link l).state = .foreign then _ else _) = _ ↔ _
  rw [if_pos hstate]
  split <;> simp_all

/-- A RESUME that answers the link's own makes it UP. -/
theorem FlitReady.resumeIn (h : FlitReady s l flResume f) (hl : l < s.fab.links.length) (hstate : (s.link l).state = .beacon)
    (hsent : (s.link l).resumeSent) : ((s.resumeIn l f).link l).state = .up := by
  have hheard := State.link_flitIn hl f
  have hlen : l < (s.flitIn l f).fab.links.length := hl.trans_eq (s.flitIn_links_length l f).symm
  rw [State.resumeIn, h.plainFlit]
  dsimp only
  have hbeacon : ((s.flitIn l f).link l).state = .beacon := by rw [hheard]; exact hstate
  rw [if_pos (.inl hbeacon), if_neg (by rw [hbeacon]; simp)]
  have hgot := State.link_modLink_self hlen fun k => { k with resumeGot := true }
  rw [hheard] at hgot
  unfold State.resumeDone
  dsimp only
  rw [if_pos (by rw [hgot]; exact ⟨hsent, rfl, .inl hstate⟩)]
  rw [State.link_releaseHeld, State.link_modLink_self (hlen.trans_eq (State.links_length_modLink ..).symm)]

/-! ## Links that come up and speak (R381, R386, R387) -/

/-- The link after LINK_TRAINED. -/
def Link.trained (k : Link) (w : Nat) (now : W64) : Link :=
  { k with
    state := .up, width := w, txSeq := 0, rxSeq := 0, rxLast := none, inUse := List.replicate 8 0, owed := List.replicate 8 0,
    part := List.replicate 8 [], naks := 0, nakSeq := none, lastGood := now }

theorem State.linkTrained_link {n : Nat} (hon : s.fabOn) (hlink : l < 32) (hl : l < s.fab.links.length) (hleast : 1 ≤ n) (hmost : n < 16)
    (hen : (s.reg rFabLinkEn).getLsbD l) (hstate : (s.link l).state = .training ∨ (s.link l).state = .down) :
    (s.linkTrained l n).link l = (s.link l).trained (laneWidth n) s.timebase := by
  have hgo : ¬((!s.fabOn) = true ∨ 32 ≤ l ∨ n = 0 ∨ 16 ≤ n ∨ (!(s.reg rFabLinkEn).getLsbD l) = true ∨
      ((s.link l).state ≠ .training ∧ (s.link l).state ≠ .down)) := by
    rw [hon, hen]
    rcases hstate with hstate | hstate <;> rw [hstate] <;> simp <;> omega
  unfold State.linkTrained
  dsimp only
  rw [if_neg hgo, State.link_releaseHeld]
  refine (State.link_of_fab (Noted.ite (Noted.fabEvent (.refl _)) (.refl _)).fab l).trans ?_
  exact State.link_modLink_self hl _

/-- A link that has sent a flit at its time to speak. -/
theorem State.speak_link (hl : l < s.fab.links.length) (kind body : Nat) :
    ((s.sendFlit l kind 0 0 0 body).modLink l fun k => { k with lastBeat := s.timebase }).link l =
      { (s.link l).sends kind 0 0 0 body with lastBeat := s.timebase } := by
  rw [State.link_modLink_self (hl.trans_eq (s.sendFlit_links_length ..).symm), State.link_sendFlit hl]

/-- What a link that speaks sends: one flit of its kind, with its CRC. -/
theorem State.speaks {kind body : Nat} (hl : l < s.fab.links.length) (hkind : kind < 8)
    (ht : t = (s.sendFlit l kind 0 0 0 body).modLink l fun k => { k with lastBeat := s.timebase }) :
    ∃ g, (t.link l).sent = (s.link l).sent ++ [g] ∧ flKind g = kind ∧ flGood g ∧ (t.link l).lastBeat = s.timebase := by
  have hlink := State.speak_link hl kind body
  rw [← ht] at hlink
  exact ⟨_, congrArg Link.sent hlink, flKind_mkFlit hkind .., flGood_mkFlit .., congrArg Link.lastBeat hlink⟩

/-- The body of a heartbeat. -/
def State.beatBody (s : State) (l : Nat) : Nat :=
  s.dev + (s.reg rFabSpace).toNat * 2 ^ 16 + s.fab.epoch.toNat * 2 ^ 48 + s.fab.keeper * 2 ^ 80 + l * 2 ^ 96

theorem State.heartbeatSend_up (hon : s.fabOn) (hlink : l < 32) (hstate : (s.link l).state = .up ∨ (s.link l).state = .foreign) :
    s.heartbeatSend l = (s.sendFlit l flHeartbeat 0 0 0 (s.beatBody l)).modLink l fun k => { k with lastBeat := s.timebase } := by
  have hgo : ¬((!s.fabOn) = true ∨ 32 ≤ l ∨ (!(s.link l).alive) = true) := by
    rcases hstate with hstate | hstate <;> simp [hon, hlink, Link.alive, hstate]
  have htime := (s.sendFlit_noted l flHeartbeat 0 0 0 (s.beatBody l)).timebase
  unfold State.heartbeatSend
  dsimp only
  rw [if_neg hgo]
  rcases hstate with hstate | hstate
  · rw [hstate]
    exact congrArg (State.modLink _ l) (funext fun k => congrArg (fun x => { k with lastBeat := x }) htime)
  · rw [hstate]
    exact congrArg (State.modLink _ l) (funext fun k => congrArg (fun x => { k with lastBeat := x }) htime)

theorem State.heartbeatSend_beacon (hon : s.fabOn) (hlink : l < 32) (hstate : (s.link l).state = .beacon) :
    s.heartbeatSend l = (s.sendFlit l flBeacon 0 0 0 (s.shortBody l)).modLink l fun k => { k with lastBeat := s.timebase } := by
  have hgo : ¬((!s.fabOn) = true ∨ 32 ≤ l ∨ (!(s.link l).alive) = true) := by simp [hon, hlink, Link.alive, hstate]
  unfold State.heartbeatSend
  dsimp only
  rw [if_neg hgo, hstate]
  exact congrArg (State.modLink _ l) (funext fun k => congrArg (fun x => { k with lastBeat := x }) (s.sendFlit_noted ..).timebase)

/-- Settles O22: each clause reads the link after the flit that was heard or sent; notices change no link. -/
theorem linkFlits : Obligations.LinkFlits := by
  unfold Obligations.LinkFlits
  refine ⟨fun l f s hgood hon hlink hl halive => ⟨?bad, ?idle, fun h => ⟨?inOrder, ?outOfOrder⟩, ?nak, ?heartbeat, ?beacon, ?wake, ?resume⟩,
    fun l s hon hlink hl => ⟨?trained, ?silent, ?speak, ?speakBeacon⟩⟩
  case bad =>
    intro x hx hkind hbad
    obtain ⟨t, ht, hleft⟩ := exec_badFlit hon hlink halive hbad x hx hkind
    exact ⟨t, ht, State.badFlit_leaves hl hleft⟩
  case idle =>
    intro h
    have hheard := State.link_flitIn hl f
    refine ⟨s.flitIn l f, congrArg Host.Outcome.next ((if_neg h.taken).trans (if_neg h.not_bad)), congrArg Link.lastGood hheard, s.flitIn_router l f,
      fun hrec => (congrArg Link.replay hheard).trans (if_neg (by simp [hrec]))⟩
  case inOrder =>
    intro hseq hnear
    have hheard := State.link_flitIn hl f
    have hlen : l < (s.flitIn l f).fab.links.length := hl.trans_eq (s.flitIn_links_length l f).symm
    refine ⟨(s.flitIn l f).dataIn l f, congrArg Host.Outcome.next ((if_neg h.taken).trans ((if_neg h.not_bad).trans (if_pos hseq))), ?_, ?_⟩
    · rw [State.dataIn_link hlen, hheard]
      rfl
    · rw [State.dataIn_router (by rw [hheard]; exact hnear), s.flitIn_router, hheard]
      rfl
  case outOfOrder =>
    intro hseq
    have hheard := State.link_flitIn hl f
    have hlen : l < (s.flitIn l f).fab.links.length := hl.trans_eq (s.flitIn_links_length l f).symm
    have hsent : ((s.flitIn l f).sendNak l).link l = ((s.link l).heard s.timebase f).sends flNak 0 0 0 0 :=
      (State.link_sendFlit hlen ..).trans (congrArg (Link.sends · flNak 0 0 0 0) hheard)
    exact ⟨(s.flitIn l f).sendNak l, congrArg Host.Outcome.next ((if_neg h.taken).trans ((if_neg h.not_bad).trans (if_neg hseq))),
      (congrArg Link.rxSeq hsent :), (State.sendFlit_router ..).trans (s.flitIn_router l f), _, congrArg Link.sent hsent, flKind_mkFlit (by decide) ..⟩
  case nak =>
    intro h hnew hrec
    exact ⟨s.nakIn l f, rfl, h.nakIn hl hnew hrec⟩
  case heartbeat =>
    intro h
    have hlink := h.heartbeat hgood hl
    refine ⟨s.heartbeat l f, rfl, congrArg Link.farDev hlink, congrArg Link.farKeeper hlink, congrArg Link.farValid hlink, fun hstate => ?_⟩
    rw [hlink]
    exact State.heartbeatLink_foreign hstate
  case beacon =>
    intro h hup
    refine ⟨s.beaconIn l f, rfl, ?_⟩
    rw [State.beaconIn, h.plainFlit, State.link_modLink_self (hl.trans_eq (s.flitIn_links_length l f).symm), State.link_flitIn hl]
    exact if_pos hup
  case wake =>
    intro h hstate
    refine congrArg Host.Outcome.next ((h.plainFlit _).trans (if_pos ?_))
    rw [State.link_flitIn hl]
    exact hstate
  case resume =>
    intro h hstate hsent
    exact ⟨s.resumeIn l f, rfl, h.resumeIn hl hstate hsent⟩
  case trained =>
    intro n hleast hmost hen hstate
    have htrained := State.linkTrained_link hon hlink hl hleast hmost hen hstate
    exact ⟨s.linkTrained l n, rfl, congrArg Link.state htrained, congrArg Link.width htrained, congrArg Link.txSeq htrained,
      congrArg Link.rxSeq htrained, congrArg Link.inUse htrained, congrArg Link.lastGood htrained⟩
  case silent =>
    intro halive hlate
    exact congrArg Host.Outcome.next (if_pos ⟨hon, hlink, halive, hlate⟩)
  case speak =>
    intro hstate
    obtain ⟨g, hsent, hkind, hcrc, hbeat⟩ := State.speaks hl (by decide) (State.heartbeatSend_up hon hlink hstate)
    exact ⟨s.heartbeatSend l, g, rfl, hsent, hkind, hcrc, hbeat⟩
  case speakBeacon =>
    intro hstate
    obtain ⟨g, hsent, hkind, hcrc, -⟩ := State.speaks hl (by decide) (State.heartbeatSend_beacon hon hlink hstate)
    exact ⟨s.heartbeatSend l, g, rfl, hsent, hkind, hcrc⟩

end Sys2Proof.Machine

/-! PROOF. The router, requests of other devices, and membership: messages and what happens in time. -/

namespace Sys2Proof.Machine

variable {s t u : State} {p : Packet} {l : Nat}

/-! ## Routing (R396 to R398, R412) -/

theorem State.packetRoute_held (hon : s.fabOn) (hheld : s.fab.router.contains p) : ¬((!s.fabOn) = true ∨ (!s.fab.router.contains p) = true) := by
  rw [hon, hheld]
  decide

/-- A packet for this device that wakes nothing arrives. -/
theorem State.packetRoute_here (hon : s.fabOn) (hheld : s.fab.router.contains p) (hdst : p.dst = s.dev) (htyp : p.typ ≠ pkMemb) (hrung : s.power.rung = 0)
    (hidle : s.power.busy = false) : s.packetRoute p = ((s.dropRouted p).arrivePk p).settle := by
  rw [State.packetRoute, if_neg (State.packetRoute_held hon hheld), if_pos hdst, if_neg htyp, if_neg (by simp [hrung, hidle])]

/-- A packet of another device that passes through is counted with its hop. -/
theorem State.transit_passing (hsrc : p.src ≠ s.dev) (hhops : p.hops < 15) :
    s.transit p = (some { p with hops := p.hops + 1 }, s.count (kFab 0) 1) :=
  (if_neg fun h => hsrc h.1).trans (if_neg (by omega))

/-- Under the limit a packet passes or is this device's own. -/
theorem State.transit_some (s : State) (hhops : p.hops < 15) : ∃ q v, s.transit p = (some q, v) := by
  unfold State.transit
  split
  · exact ⟨_, _, rfl⟩
  · rw [if_neg (by omega)]
    exact ⟨_, _, rfl⟩

theorem State.packetRoute_out (hon : s.fabOn) (hheld : s.fab.router.contains p) (hdst : p.dst ≠ s.dev) (hbest : s.bestPath p (pkVc p) = some l)
    (htakes : (s.link l).takesPk p) (hfirst : s.outranked p l = false) (hsrc : p.src ≠ s.dev) (hhops : p.hops < 15) :
    s.packetRoute p = ((s.dropRouted p).count (kFab 0) 1).sendData l (pkVc p) { p with hops := p.hops + 1 } := by
  have hpass : (s.dropRouted p).transit p = (some { p with hops := p.hops + 1 }, (s.dropRouted p).count (kFab 0) 1) :=
    State.transit_passing hsrc hhops
  rw [State.packetRoute, if_neg (State.packetRoute_held hon hheld), if_neg hdst, hbest]
  dsimp only
  rw [if_neg (by simp [htakes, hfirst]), hpass]

theorem State.packetRoute_holds (hon : s.fabOn) (hheld : s.fab.router.contains p) (hdst : p.dst ≠ s.dev) (hbest : s.bestPath p (pkVc p) = none)
    (hhops : p.hops < 15) (htyp : p.typ ≠ pkMemb) (hnear : s.fab.member p.dst ≠ 2) : s.packetRoute p = (s.dropRouted p).modFab fun f =>
      { f with held := f.held ++ [{ p := p, since := s.timebase, parked := (s.parkedPath p).isSome }] } := by
  obtain ⟨q, v, hpass⟩ := (s.dropRouted p).transit_some hhops
  rw [State.packetRoute, if_neg (State.packetRoute_held hon hheld), if_neg hdst, hbest]
  dsimp only
  rw [hpass]
  exact (if_neg htyp).trans (if_neg hnear)

theorem State.norouteExpiry_due {h : HeldPk} (hon : s.fabOn) (hheld : s.fab.held.find? (fun h => h.p == p && !h.parked) = some h)
    (hdue : h.since.toNat + 1000 * s.regF rFabDrain 31 16 ≤ s.timebase.toNat) : s.norouteExpiry p =
      (((s.modFab fun f => { f with held := f.held.erase h }).count (kFab 3) 1).fabEvent (srcLink 0) 6).bounce p := by
  rw [State.norouteExpiry, hheld]
  exact if_neg (by rw [hon]; simpa using hdue)

theorem State.parkedExpiry_due {h : HeldPk} (hon : s.fabOn) (hheld : s.fab.held.find? (fun h => h.p == p && h.parked) = some h)
    (hdue : h.since.toNat + 1000000 ≤ s.timebase.toNat) : s.parkedExpiry p =
      (((s.modFab fun f => { f with held := f.held.erase h }).count (kFab 1) 1).fabEvent (srcLink 0) 8).bounce p := by
  rw [State.parkedExpiry, hheld]
  exact if_neg (by rw [hon]; simpa using hdue)

/-! ## Requests of other devices (R392, R402, R407) -/

section
variable {typ : Nat} {f : State → State}

theorem State.requestIn_here (hactive : s.active) (htyp : p.typ = typ) (hhere : s.fab.arrived.contains p) :
    ¬((!s.active) = true ∨ p.typ ≠ typ ∨ (!s.fab.arrived.contains p) = true) := by
  rw [hactive, hhere, htyp]
  simp

theorem RequestReady.requestIn (h : RequestReady s p typ) : s.requestIn p typ f = f (s.takeArrived p) := by
  have hspace : ¬((s.takeArrived p).fab.state ≠ .member ∧ (s.takeArrived p).fab.state ≠ .expelled) := fun hout => h.space.elim hout.1 hout.2
  rw [State.requestIn, if_neg (State.requestIn_here h.active h.typ h.here)]
  exact (if_neg h.near).trans (if_neg hspace)

theorem State.requestIn_lost (hactive : s.active) (htyp : p.typ = typ) (hhere : s.fab.arrived.contains p) (hlost : s.fab.member p.src = 2) :
    s.requestIn p typ f = ((s.takeArrived p).send (s.packet p.src pkFenced p.tag [])).count (kFab 5) 1 := by
  rw [State.requestIn, if_neg (State.requestIn_here hactive htyp hhere)]
  exact if_pos hlost
end

theorem State.walkIn_entry {e : MapEntry} (he : s.mapEntry (uBytes (pkUnit p 0) 0 3) (uBytes (pkUnit p 0) 3 5) = some e) :
    s.walkIn p = s.send (s.packet p.src pkWalkResp p.tag [entryBits e]) := by
  rw [State.walkIn, he]

/-- The granule that a part of a copy names. -/
def moveGranule (p : Packet) : Nat :=
  laOf (uBytes (pkUnit p 0) 10 1 % 16) (uBytes (pkUnit p 0) 11 2 % 2 ^ 15) (uBytes (pkUnit p 0) 13 3 % 2 ^ 21)

/-- A part of a copy is written where its packet names. -/
theorem State.moveIn_mem {m : Move} (hm : s.move (uBytes (pkUnit p 0) 0 3) (uBytes (pkUnit p 0) 3 5) = some m) (hphase : m.phase ≠ .flipped)
    (hdst : m.req.dst = (s.dev, uBytes (pkUnit p 0) 10 1 % 16, uBytes (pkUnit p 0) 11 2 % 2 ^ 15)) :
    (s.moveIn p).mem = memWrite s.mem (64 * moveGranule p) (granBytes (unitsData (p.body.drop 1))) := by
  unfold State.moveIn
  dsimp only
  rw [hm]
  dsimp only
  rw [if_pos ⟨hdst, hphase⟩, State.send_mem, State.count_mem, moveGranule, State.putGranule]

/-- Settles O23: each clause is the one branch of its operation that its conditions leave. -/
theorem packetsAndRequests : Obligations.PacketsAndRequests := by
  unfold Obligations.PacketsAndRequests
  refine ⟨fun p s hon => ⟨fun hheld => ⟨?here, ?out, ?held⟩, ?noroute, ?parked⟩, fun p s => ⟨?land, ?walk, ?move, ?lost, ?mgmt⟩⟩
  case here =>
    intro hdst htyp hrung hidle
    exact congrArg Host.Outcome.next (State.packetRoute_here hon hheld hdst htyp hrung hidle)
  case out =>
    intro l hdst hbest htakes hfirst hsrc hhops
    exact congrArg Host.Outcome.next (State.packetRoute_out hon hheld hdst hbest htakes hfirst hsrc hhops)
  case held =>
    intro hdst hbest hhops htyp hnear
    have hholds := State.packetRoute_holds hon hheld hdst hbest hhops htyp hnear
    exact ⟨s.packetRoute p, rfl, congrArg (·.fab.router) hholds, congrArg (·.fab.held) hholds⟩
  case noroute =>
    intro h hfind hdue
    exact congrArg Host.Outcome.next (State.norouteExpiry_due hon hfind hdue)
  case parked =>
    intro h hfind hdue
    exact congrArg Host.Outcome.next (State.parkedExpiry_due hon hfind hdue)
  case land =>
    intro x hx h
    simp only [List.mem_cons, List.not_mem_nil, or_false] at hx
    rcases hx with rfl | rfl | rfl
    · exact congrArg Host.Outcome.next h.requestIn
    · exact congrArg Host.Outcome.next h.requestIn
    · exact congrArg Host.Outcome.next h.requestIn
  case walk =>
    intro e h he
    refine ⟨_, congrArg Host.Outcome.next (h.requestIn.trans (State.walkIn_entry (s := s.takeArrived p) he)), rfl, fun a => rfl⟩
  case move =>
    intro m h hm hphase hdst hwf
    refine ⟨_, congrArg Host.Outcome.next h.requestIn, ?_⟩
    exact granBytes_inj (State.granBytes_granule_of_memWrite hwf (State.moveIn_mem (s := s.takeArrived p) hm hphase hdst))
  case lost =>
    intro x hx hactive htyp hhere hlost
    simp only [List.mem_cons, List.not_mem_nil, or_false] at hx
    rcases hx with rfl | rfl | rfl | rfl | rfl
    · exact congrArg Host.Outcome.next (State.requestIn_lost hactive htyp hhere hlost)
    · exact congrArg Host.Outcome.next (State.requestIn_lost hactive htyp hhere hlost)
    · exact congrArg Host.Outcome.next (State.requestIn_lost hactive htyp hhere hlost)
    · exact congrArg Host.Outcome.next (State.requestIn_lost hactive htyp hhere hlost)
    · exact congrArg Host.Outcome.next (State.requestIn_lost hactive htyp hhere hlost)
  case mgmt =>
    intro src m hon hnear hspace hrung hidle
    have hopen : ¬((!s.fabOn) = true ∨ s.fab.member src = 2 ∨ (s.fab.state ≠ .member ∧ s.fab.state ≠ .joining)) := by
      rcases hspace with hspace | hspace <;> simp [hon, hnear, hspace]
    exact congrArg Host.Outcome.next ((if_neg hopen).trans (if_neg (by simp [hrung, hidle])))

/-! ## Membership messages (R393, R403 to R415) -/

section
variable {code : Nat} {f : State → State}

theorem MembReady.membIn (h : MembReady s p code) : s.membIn p code f = f (s.takeArrived p) := by
  refine if_neg ?_
  rw [h.on, h.here, h.typ, h.code]
  simp
end

theorem State.probeIn_answers (h : MembReady s p mbProbe) (hmember : s.fab.state = .member) (hself : mbF p 1 2 = s.dev) : s.probeIn p =
    (s.takeArrived p).send (s.memb p.src mbProbeResp 0 [(1, 2, s.dev), (3, 4, mbF p 3 4), (7, 4, s.fab.epoch.toNat)]) :=
  h.membIn.trans (if_pos ⟨hmember, hself⟩)

/-- The answer to a probe ends it. -/
theorem State.probeRespIn_ends {y : ProbeSt} (h : MembReady s p mbProbeResp)
    (hy : s.fab.probes.find? (fun y => y.dev == mbF p 1 2 && y.num.toNat == mbF p 3 4) = some y) :
    (s.probeRespIn p).fab.probes = s.fab.probes.filter (fun z => z.dev != y.dev) ∧
    ∀ j, y.forJoin = some j → (s.probeRespIn p).fab.router = s.fab.router ++ [s.memb (mbF j 1 2) mbJoinResp 0 [(1, 1, 2), (2, 4, 0)]] := by
  have hfind : (s.takeArrived p).fab.probes.find? (fun y => y.dev == mbF p 1 2 && y.num.toNat == mbF p 3 4) = some y := hy
  rw [State.probeRespIn, h.membIn]
  dsimp only
  rw [hfind]
  dsimp only
  split
  case h_1 j hj =>
    rw [hj]
    refine ⟨rfl, fun j' hj' => ?_⟩
    cases hj'
    rfl
  case h_2 hj =>
    rw [hj]
    exact ⟨rfl, fun j' hj' => by cases hj'⟩

/-- RECOVER is answered, and what is incomplete on its link is discarded. -/
theorem State.recoverIn_answers (h : MembReady s p mbRecover) (hl : l = mbF p 3 1 % 32) (hlen : l < s.fab.links.length) :
    ((s.recoverIn p).link l).answered = true ∧ ((s.recoverIn p).link l).part = List.replicate 8 [] ∧
    ∃ q, (s.recoverIn p).fab.router = s.fab.router ++ [q] ∧ q.dst = p.src := by
  subst hl
  rw [State.recoverIn, h.membIn]
  have hlink : ((s.takeArrived p).modLink (mbF p 3 1 % 32) fun k => { k with answered := true, part := List.replicate 8 [] }).link (mbF p 3 1 % 32) =
      { s.link (mbF p 3 1 % 32) with answered := true, part := List.replicate 8 [] } := State.link_modLink_self hlen _
  exact ⟨congrArg Link.answered hlink, congrArg Link.part hlink, _, rfl, rfl⟩

/-- Beyond the links no link is recovering. -/
theorem State.recovering_lt (h : (s.link l).recovering) : l < s.fab.links.length := by
  by_contra hout
  rw [State.link, List.getD_eq_default _ _ (by omega)] at h
  exact Bool.noConfusion h

/-- RECOVER_RESP frees the replay buffer of its link. -/
theorem State.recoverResp_frees (h : MembReady s p mbRecoverResp)
    (hl : lowest (fun l => (s.link l).recovering && (s.link l).farDev == p.src && (s.link l).farLink == mbF p 3 1) 32 0 = some l) :
    ((s.recoverResp p).link l).replay = [] ∧ ((s.recoverResp p).link l).recovering = false := by
  obtain ⟨-, -, hrec, -⟩ := lowest_eq_some_iff.mp hl
  have hrec : (s.link l).recovering = true := by
    simp only [Bool.and_eq_true] at hrec
    exact hrec.1.1
  have hfind : lowest (fun l => ((s.takeArrived p).link l).recovering && ((s.takeArrived p).link l).farDev == p.src &&
      ((s.takeArrived p).link l).farLink == mbF p 3 1) 32 0 = some l := hl
  have hlink : ((s.takeArrived p).modLink l fun k => { k with replay := [], recovering := false }).link l =
      { s.link l with replay := [], recovering := false } := State.link_modLink_self (State.recovering_lt hrec) _
  rw [State.recoverResp, h.membIn]
  dsimp only
  rw [hfind]
  exact ⟨congrArg Link.replay hlink, congrArg Link.recovering hlink⟩

theorem State.sendOver_keeps (s : State) (l : Nat) (p : Packet) : (s.sendOver l p).fab.state = s.fab.state ∧ (s.sendOver l p).fab.epoch = s.fab.epoch := by
  unfold State.sendOver
  split
  · unfold State.sendData
    have hsent := (s.sendFlit_noted l flData (s.link l).txSeq 7 (pkUnits p) (pkBits p)).fab
    exact ⟨(congrArg FabSt.state hsent :), (congrArg FabSt.epoch hsent :)⟩
  · exact ⟨rfl, rfl⟩

/-- An epoch goes out of one link, where a device is known beyond it. -/
def State.floodOver (e : W32) (change x keeper : Nat) (s : State) (l : Nat) : State :=
  if (s.link l).state = .up ∧ (s.link l).farValid then
    s.sendOver l (s.memb (s.link l).farDev mbEpoch 0 [(1, 4, e.toNat), (5, 1, change), (6, 2, x), (8, 2, keeper)])
  else s

theorem State.flood_eq (s : State) (e : W32) (change x keeper : Nat) : s.flood e change x keeper =
    (List.range 32).foldl (State.floodOver e change x keeper) (s.modFab fun f => { f with seenEpochs := e :: f.seenEpochs.filter (· != e) }) := rfl

/-- Flooding an epoch changes neither this device's state nor its own epoch. -/
theorem State.flood_keeps (s : State) (e : W32) (change x keeper : Nat) : (s.flood e change x keeper).fab.state = s.fab.state ∧
    (s.flood e change x keeper).fab.epoch = s.fab.epoch := by
  rw [State.flood_eq]
  constructor
  · refine (foldl_part_eq (fun u : State => u.fab.state) (fun s l => ?_) _ _).trans rfl
    unfold State.floodOver
    split
    · exact (s.sendOver_keeps ..).1
    · rfl
  · refine (foldl_part_eq (fun u : State => u.fab.epoch) (fun s l => ?_) _ _).trans rfl
    unfold State.floodOver
    split
    · exact (s.sendOver_keeps ..).2
    · rfl

/-- A new epoch is flooded and installed. -/
theorem State.epochIn_installs (h : MembReady s p mbEpoch) (hnew : s.fab.seenEpochs.contains (BitVec.ofNat 32 (mbF p 1 4)) = false)
    (hstate : s.fab.state = .member ∨ s.fab.state = .joining) (hnewer : newer 32 (BitVec.ofNat 32 (mbF p 1 4)).toNat s.fab.epoch.toNat) :
    s.epochIn p = ((s.takeArrived p).flood (BitVec.ofNat 32 (mbF p 1 4)) (mbF p 5 1) (mbF p 6 2) (mbF p 8 2)).installEpoch
      (BitVec.ofNat 32 (mbF p 1 4)) (mbF p 5 1) (mbF p 6 2) (mbF p 8 2) := by
  obtain ⟨hkeepState, hkeepEpoch⟩ := (s.takeArrived p).flood_keeps (BitVec.ofNat 32 (mbF p 1 4)) (mbF p 5 1) (mbF p 6 2) (mbF p 8 2)
  have hunseen : ¬(s.takeArrived p).fab.seenEpochs.contains (BitVec.ofNat 32 (mbF p 1 4)) = true := fun hseen =>
    Bool.false_ne_true (hnew.symm.trans hseen)
  rw [State.epochIn, h.membIn]
  dsimp only
  rw [if_neg hunseen, hkeepState, hkeepEpoch]
  exact if_pos ⟨hstate, hnewer⟩

theorem State.joinIn_probes (h : MembReady s p mbJoin) (hkeeper : s.isKeeper) (hfree : s.fab.probes = []) :
    s.joinIn p = if s.fab.member (mbF p 1 2) = 1 then (s.takeArrived p).startProbe (mbF p 1 2) (some p) false else (s.takeArrived p).decideJoin p := by
  rw [State.joinIn, if_neg (by simp [hfree]), h.membIn]
  have hkeeper' : ¬(!(s.takeArrived p).isKeeper) = true := by
    change ¬(!s.isKeeper) = true
    simp [hkeeper]
  exact if_neg hkeeper'

/-- The device that a JOIN_RESP takes in. -/
theorem State.joinRespIn_joins (h : MembReady s p mbJoinResp) (hjoining : s.fab.state = .joining) (hyes : mbF p 1 1 = 1) :
    (s.joinRespIn p).fab.state = .member ∧ (s.joinRespIn p).fab.keeper = p.src ∧ (s.joinRespIn p).fab.joinResult = 1 := by
  rw [State.joinRespIn, h.membIn]
  dsimp only
  rw [if_neg (by simp [hjoining]), if_pos hyes, (Noted.fabEvent (.refl _)).fab]
  exact ⟨rfl, rfl, rfl⟩

theorem State.joinRespIn_refused (h : MembReady s p mbJoinResp) (hjoining : s.fab.state = .joining) (hno : mbF p 1 1 ≠ 1) :
    s.joinRespIn p = (s.takeArrived p).joinFailed (mbF p 1 1 % 8) := by
  rw [State.joinRespIn, h.membIn]
  dsimp only
  rw [if_neg (by simp [hjoining]), if_neg hno]

section
variable (hon : s.fabOn) (htyp : p.typ = pkFenced) (hhere : s.fab.arrived.contains p)
include hon htyp hhere

theorem State.fencedIn_here : ¬((!s.fabOn) = true ∨ p.typ ≠ pkFenced ∨ (!s.fab.arrived.contains p) = true) := by
  rw [hon, hhere, htyp]
  simp

/-- FENCED for nothing of this device's own is counted. -/
theorem State.fencedIn_late (hreq : s.byTag p = none) (hwalks : s.walks.all (fun w => w.tag != p.tag))
    (hmoves : s.scaler.moves.all (fun m => m.tag != p.tag || m.unacked == 0)) : s.fencedIn p = (s.takeArrived p).late := by
  have hnone : ((s.byTag p).isSome || s.walks.any (fun w => w.tag == p.tag) || s.scaler.moves.any fun m => m.tag == p.tag && m.unacked != 0) = false := by
    have hwalk : s.walks.any (fun w => w.tag == p.tag) = false := by
      rw [List.any_eq_false]
      intro w hw
      simpa using List.all_eq_true.mp hwalks w hw
    have hmove : s.scaler.moves.any (fun m => m.tag == p.tag && m.unacked != 0) = false := by
      rw [List.any_eq_false]
      intro m hm
      have := List.all_eq_true.mp hmoves m hm
      simp only [Bool.or_eq_true, bne_iff_ne, beq_iff_eq] at this
      simp only [Bool.and_eq_true, bne_iff_ne, beq_iff_eq]
      tauto
    rw [hreq, hwalk, hmove]
    rfl
  rw [State.fencedIn, if_neg (State.fencedIn_here hon htyp hhere)]
  exact if_neg (by rw [hnone]; decide)

/-- FENCED for a request of this device's own expels it. -/
theorem State.fencedIn_own (hreq : (s.byTag p).isSome) : s.fencedIn p = (s.takeArrived p).expel := by
  rw [State.fencedIn, if_neg (State.fencedIn_here hon htyp hhere)]
  exact if_pos (by rw [hreq]; rfl)
end

/-- Settles O24: each message is the one branch of its operation that its conditions leave. -/
theorem membershipMessages : Obligations.MembershipMessages := by
  unfold Obligations.MembershipMessages
  rintro p s u rfl
  refine ⟨?probe, ?probeResp, ?recover, ?recoverResp, ?linkDown, ?seen, ?epoch, ?join, ?joinResp, ?late, ?own⟩
  case probe =>
    intro h hmember hself
    exact ⟨s.probeIn p, rfl, congrArg (·.fab.router) (State.probeIn_answers h hmember hself)⟩
  case probeResp =>
    intro y h hy
    exact ⟨s.probeRespIn p, rfl, State.probeRespIn_ends h hy⟩
  case recover =>
    intro h l hl hlen
    exact ⟨s.recoverIn p, rfl, State.recoverIn_answers h hl hlen⟩
  case recoverResp =>
    intro l h hl
    exact ⟨s.recoverResp p, rfl, State.recoverResp_frees h hl⟩
  case linkDown =>
    intro h
    exact congrArg Host.Outcome.next h.membIn
  case seen =>
    intro h hseen
    exact congrArg Host.Outcome.next (h.membIn.trans (if_pos hseen))
  case epoch =>
    intro h hnew hstate hnewer
    exact ⟨_, congrArg Host.Outcome.next (State.epochIn_installs h hnew hstate hnewer), rfl⟩
  case join =>
    intro h hkeeper hfree
    have hjoin := State.joinIn_probes h hkeeper hfree
    exact ⟨fun hmember => congrArg Host.Outcome.next (hjoin.trans (if_pos hmember)), fun hmember => congrArg Host.Outcome.next (hjoin.trans (if_neg hmember))⟩
  case joinResp =>
    intro h hjoining
    refine ⟨fun hyes => ⟨s.joinRespIn p, rfl, State.joinRespIn_joins h hjoining hyes⟩, fun hno => ?_⟩
    have hfailed := State.joinRespIn_refused h hjoining hno
    exact ⟨s.joinRespIn p, rfl, congrArg (·.fab.state) hfailed, congrArg (·.fab.joinResult) hfailed⟩
  case late =>
    intro hon htyp hhere hreq hwalks hmoves
    refine ⟨_, congrArg Host.Outcome.next (State.fencedIn_late hon htyp hhere hreq hwalks hmoves),
      (congrArg FabSt.state (State.count_fab (s := s.takeArrived p) (kFab 2) 1) :), fun hgood => ?_⟩
    exact State.cnt_count (s := s.takeArrived p) ((Kept.refl s).modFab.good hgood) (by decide) 1
  case own =>
    intro hon htyp hhere hreq _
    exact congrArg Host.Outcome.next (State.fencedIn_own hon htyp hhere hreq)

/-! ## Membership in time (R402 to R408, R413) -/

theorem State.probeTimeout_lost {x : Nat} {y : ProbeSt} (hon : s.fabOn) (hy : s.expired.find? (fun y => y.dev == x) = some y)
    (hmember : s.fab.state = .member) (hfirst : ∀ z ∈ s.expired, x ≤ z.dev) (hplain : y.takeover = false) (hnone : y.forJoin = none) :
    s.probeTimeout x = (s.modFab fun f => { f with probes := f.probes.filter fun z => z.dev != x, losses := [] }).change 2 x := by
  have hlowest : s.expired.any (fun z => decide (z.dev < x)) = false := by
    rw [List.any_eq_false]
    intro z hz
    have := hfirst z hz
    simpa using this
  unfold State.probeTimeout
  rw [hy]
  dsimp only
  rw [if_neg (by rw [hlowest, hon, hmember]; simp), hplain, hnone]
  rfl

theorem State.reportTimeout_alone {x : Nat} {r : DownReport} (hon : s.fabOn) (hr : s.fab.reports.find? (fun r => r.dev == x) = some r)
    (hdue : r.at_.toNat + 1000 * s.regF rFabProbe 7 0 ≤ s.timebase.toNat) (halone : s.others.filter s.hasPath = []) :
    s.reportTimeout x = (s.modFab fun f => { f with reports := f.reports.filter fun y => y.dev != x }).expel := by
  unfold State.reportTimeout
  rw [hr]
  dsimp only
  rw [if_neg (by rw [hon]; simpa using hdue)]
  exact if_pos halone

/-- A drain with nothing outstanding answers nothing. -/
theorem State.drainTimeout_empty {w : W64} {rest : List W64} (htimes : s.fab.lossTimes = w :: rest)
    (hdue : w.toNat + 1000 * s.regF rFabDrain 15 0 ≤ s.timebase.toNat) (hnone : ∀ r ∈ s.reqs, r.stage ≠ .remote) :
    s.drainTimeout = (s.modFab fun f => { f with lossTimes := rest }).settle := by
  have hold : ∀ r ∈ s.reqs, (r.stage == .remote && decide (r.born.toNat ≤ w.toNat)) = false := fun r hr => by simp [hnone r hr]
  have hcount : (s.reqs.filter fun r => r.stage == .remote && decide (r.born.toNat ≤ w.toNat)).length = 0 := by
    rw [List.filter_eq_nil_iff.mpr fun r hr => by simp [hold r hr]]
    rfl
  have hmap : (s.reqs.map fun r => if r.stage == .remote && decide (r.born.toNat ≤ w.toNat) then { r with stage := .answered .homeLost } else r) = s.reqs :=
    (List.map_congr_left fun r hr => if_neg (by rw [hold r hr]; exact Bool.false_ne_true)).trans (List.map_id' s.reqs)
  unfold State.drainTimeout
  rw [htimes]
  dsimp only
  rw [if_neg (by omega), hmap, if_pos hcount]

theorem State.joinTimeout_due {w : W64} (hon : s.fabOn) (hw : s.fab.joinAt = some w) (hjoining : s.fab.state = .joining)
    (hdue : w.toNat + 1000000 ≤ s.timebase.toNat) : s.joinTimeout = s.joinFailed 5 := by
  rw [State.joinTimeout, hw]
  exact if_pos ⟨hon, hjoining, hdue⟩

theorem State.found_eq (hon : s.fabOn) (hdetached : s.fab.state = .detached) (hid : s.fab.idSet) : s.found = s.modFab fun f =>
    { f with state := .member, everMember := true, epoch := 1, keeper := s.dev, members := tblSet 0 s.dev 1 [], absent := 0, seenEpochs := [1] } :=
  if_pos ⟨hdetached, hid, hon⟩

/-- Of a founded space this device is the one member. -/
theorem State.found_member (hon : s.fabOn) (hdetached : s.fab.state = .detached) (hid : s.fab.idSet) (d : Nat) :
    s.found.fab.member d = if d = s.dev then 1 else 0 := by
  have hentry : tblGet (0 : BitVec 2) d (tblSet 0 s.dev 1 []) = if d = s.dev then 1 else 0 :=
    (tblGet_tblSet (fun _ => (0 : BitVec 2)) d s.dev 1 [] rfl).trans rfl
  rw [State.found_eq hon hdetached hid]
  refine (congrArg BitVec.toNat hentry).trans ?_
  split
  · rfl
  · rfl

theorem State.join_first (hon : s.fabOn) (hnear : lowest (fun l => ((s.link l).state == .up || (s.link l).state == .foreign) && (s.link l).farValid) 32 0 = some l)
    (hid : s.fab.idSet) (hdetached : s.fab.state = .detached) (hnew : s.fab.everMember = false) : s.join =
      (s.modFab fun f => { f with state := .joining, joinAt := some s.timebase, joinResult := 0 }).send (s.memb (s.link l).farKeeper mbJoin 0
        [(1, 2, s.dev), (3, 4, (s.reg rFabSpace).toNat), (7, 1, 1), (8, 4, s.fab.epoch.toNat)]) := by
  unfold State.join
  dsimp only
  rw [hnear]
  dsimp only
  rw [if_neg (by rw [hon, hid, hdetached]; simp), hnew]
  rfl

/-- Settles O25: each event at its time is the one branch of its operation that its conditions leave. -/
theorem membershipEvents : Obligations.MembershipEvents := by
  unfold Obligations.MembershipEvents
  intro x s hon
  refine ⟨?probe, ?report, ?drain, ?join, ?found, ?firstJoin⟩
  case probe =>
    intro y hy hmember hfirst hplain hnone
    exact congrArg Host.Outcome.next (State.probeTimeout_lost hon hy hmember hfirst hplain hnone)
  case report =>
    intro r hr hdue halone
    exact congrArg Host.Outcome.next (State.reportTimeout_alone hon hr hdue halone)
  case drain =>
    intro w rest htimes hdue hnone
    exact congrArg Host.Outcome.next (State.drainTimeout_empty htimes hdue hnone)
  case join =>
    intro w hw hjoining hdue
    exact ⟨_, congrArg Host.Outcome.next (State.joinTimeout_due hon hw hjoining hdue), rfl, rfl, rfl, rfl⟩
  case found =>
    intro hdetached hid
    have hfound := State.found_eq hon hdetached hid
    have hmember := State.found_member hon hdetached hid
    exact ⟨s.found, rfl, congrArg (·.fab.state) hfound, congrArg (·.fab.epoch) hfound, congrArg (·.fab.keeper) hfound,
      (hmember s.dev).trans (if_pos rfl), fun d hd => (hmember d).trans (if_neg hd), congrArg (fun t : State => { t with fab := s.fab }) hfound⟩
  case firstJoin =>
    intro l hnear hid hdetached hnew
    exact ⟨_, congrArg Host.Outcome.next (State.join_first hon hnear hid hdetached hnew), rfl, rfl, rfl⟩

end Sys2Proof.Machine

/-! PROOF. Session packets, the session's opening and its time, the event queue, the frames of the port and RoCEv2. -/

namespace Sys2Proof.Machine

variable {s t u v : State}

theorem Noted.displaced (h : Noted s t) : t.eth.displaced = s.eth.displaced := h.part_eq (·.eth.displaced)
theorem Noted.lastSession (h : Noted s t) : t.eth.lastSession = s.eth.lastSession := h.part_eq (·.eth.lastSession)
theorem Noted.txq (h : Noted s t) : t.eth.txq = s.eth.txq := h.part_eq (·.eth.txq)
theorem Noted.paused (h : Noted s t) : t.eth.paused = s.eth.paused := h.part_eq (·.eth.paused)
theorem Sent.timebase (h : Sent s t) : t.timebase = s.timebase := h.part_eq State.timebase

/-! ## Packets of the session (R422, R424, R425) -/

section
variable {d : Datagram} {h : QctHdr} {x : Session}

theorem State.qctArrive_damaged (hhdr : qctHdr d.bytes = none) : s.qctArrive d = s.count (kEth 2) 1 := by
  rw [State.qctArrive, hhdr]
  rfl

theorem State.qctArrive_open (hhdr : qctHdr d.bytes = some h) (hopc : h.opc = 1) (hfull : h.ackOnly = false) :
    s.qctArrive d = s.modEth fun e => { e with opens := e.opens ++ [d] } := by
  rw [State.qctArrive, hhdr]
  exact if_pos ⟨hopc, by simp [hfull]⟩

/-- A packet of another session is counted. -/
theorem State.qctArrive_stale (hhdr : qctHdr d.bytes = some h) (hopc : h.opc ≠ 1) (hx : s.eth.session = some x) (hdisplaced : s.eth.displaced = none)
    (hnum : x.num ≠ h.session) : s.qctArrive d = s.count (kEth 12) 1 := by
  rw [State.qctArrive, hhdr]
  dsimp only
  rw [if_neg fun hopen => hopc hopen.1, hx]
  dsimp only
  rw [if_neg (by rw [hdisplaced]; simp), if_pos (.inr (.inr hnum))]

/-- A packet of the session is heard, acknowledges, and brings its command. -/
theorem State.qctArrive_command (hhdr : qctHdr d.bytes = some h) (hopc : h.opc ≠ 1) (hfull : h.ackOnly = false) (hx : s.eth.session = some x)
    (hdisplaced : s.eth.displaced = none) (hip : x.ip = d.srcIp) (hport : x.port = d.srcPort) (hnum : x.num = h.session) (hq : h.qid < x.q)
    (hcommand : h.qid ≠ 0x80) : s.qctArrive d =
      ((s.modEth fun e => { e with session := e.session.map fun x => { x with lastRx := s.timebase } }).ackArrive h.qid h.ackno).cmdArrive h.qid x.w h := by
  rw [State.qctArrive, hhdr]
  dsimp only
  rw [if_neg fun hopen => hopc hopen.1, hx]
  dsimp only
  rw [if_neg (by rw [hdisplaced]; simp), if_neg (by simp [hip, hport, hnum]), if_neg (by omega), if_neg (by simp [hfull, hcommand])]

end

/-! ## Opening (R424) -/

/-- A session number from a free value: not 0. -/
def sessionNumber (v : W64) (k : Nat) : W32 := BitVec.ofNat 32 (1 + (v.toNat + k) % (2 ^ 32 - 1))

theorem toNat_sessionNumber (v : W64) (k : Nat) : (sessionNumber v k).toNat = 1 + (v.toNat + k) % (2 ^ 32 - 1) :=
  (BitVec.toNat_ofNat ..).trans (Nat.mod_eq_of_lt (by omega))

theorem sessionNumber_ne_zero (v : W64) (k : Nat) : sessionNumber v k ≠ 0 := by
  intro h
  have hzero := toNat_sessionNumber v k
  rw [h] at hzero
  change 0 = _ at hzero
  omega

/-- One of two free session numbers is not that of the session before. -/
theorem sessionNumber_succ_ne (v : W64) : sessionNumber v 1 ≠ sessionNumber v 0 := by
  intro h
  have hsame := congrArg BitVec.toNat h
  rw [toNat_sessionNumber, toNat_sessionNumber] at hsame
  omega

theorem State.newSession_fst (s : State) : s.newSession.1 ≠ 0 ∧ s.newSession.1 ≠ s.eth.lastSession := by
  change (if sessionNumber s.fresh.1 0 = s.eth.lastSession then sessionNumber s.fresh.1 1 else sessionNumber s.fresh.1 0) ≠ 0 ∧
    (if sessionNumber s.fresh.1 0 = s.eth.lastSession then sessionNumber s.fresh.1 1 else sessionNumber s.fresh.1 0) ≠ s.eth.lastSession
  split
  case isTrue hlast => exact ⟨sessionNumber_ne_zero _ _, fun h => sessionNumber_succ_ne s.fresh.1 (h.trans hlast.symm)⟩
  case isFalse hlast => exact ⟨sessionNumber_ne_zero _ _, hlast⟩

/-- The session that opens for a datagram, under a number and with its queues and window. -/
def openedSession (n : W32) (d : Datagram) (q w : Nat) (now : W64) : Session :=
  { num := n, ip := d.srcIp, port := d.srcPort, q := q, w := w, queues := { QSt.start 0 with rxNext := 1 } :: List.replicate (q - 1) (QSt.start 0),
    evSeq := 0, evAcked := 0, lastRx := now, anyCmd := false }

theorem State.openSession_session (s : State) (d : Datagram) (h : QctHdr) (q w : Nat) : ∃ x, (s.openSession d h q w).eth.session = some x ∧
    x.ip = d.srcIp ∧ x.port = d.srcPort ∧ x.q = q ∧ x.num = s.newSession.1 ∧ (x.queue 0).rxNext = 1 ∧ x.anyCmd = false := by
  unfold State.openSession
  rcases s.newSession with ⟨n, u⟩
  dsimp only
  have hopened := State.complete_session (s := (((u.modEth fun e =>
      { e with session := some (openedSession n d q (Nat.min w (u.regF rQctCfg 24 16)) u.timebase) }).bootFirst).count (kEth 8) 1)) (q := 0)
    (c := { seq := 0, opc := 1, tag := h.tag, payload := h.payload }) (st := stOk)
    (b := leBytes 2 (Nat.min w (u.regF rQctCfg 24 16)) ++ leBytes 1 q) (Noted.count (.refl _)).session rfl
  exact ⟨_, hopened.session, rfl, rfl, rfl, rfl, rfl, rfl⟩

theorem State.sessionOpen_good {d : Datagram} {h : QctHdr} (hnone : s.eth.session = none) (hqid : h.qid = 0) (hseq : h.seq = 0) (hsyn : h.syn)
    (hlen : h.payload.length = 4) (hflag : leAt h.payload 3 1 ≤ 1) (hleast : 1 ≤ leAt h.payload 0 1) (hmost : leAt h.payload 0 1 ≤ 64)
    (hwindow : 1 ≤ leAt h.payload 1 2) (hwide : leAt h.payload 1 2 ≤ 256) :
    s.sessionOpen d h = s.openSession d h (leAt h.payload 0 1) (leAt h.payload 1 2) := by
  unfold State.sessionOpen
  dsimp only
  rw [if_neg (by rw [hsyn]; simp only [hlen, hqid, hseq]; simp; omega), hnone]

/-! ## Resending, closing and the event queue (R426, R428, R432) -/

theorem State.sendCompletion_timebase (s : State) (q : Nat) (c : Completion) (retx : Bool) : (s.sendCompletion q c retx).timebase = s.timebase :=
  (Sent.sendCompletion s).timebase

theorem State.qctRetransmit_due {q : Nat} {c : Completion} (hopen : s.portOpen) (hdue : s.dueCompletion q = some c) : s.qctRetransmit q =
    ((s.sendCompletion q c true).count (kEth 9) 1).modQueue q fun y =>
      { y with held := y.held.map fun z => if z.seq = c.seq then { z with sentAt := s.timebase, rto := Nat.min 64000 (2 * z.rto) } else z } := by
  have htime : ((s.sendCompletion q c true).count (kEth 9) 1).timebase = s.timebase :=
    (Noted.count (.refl _)).timebase.trans (s.sendCompletion_timebase q c true)
  unfold State.qctRetransmit
  rw [if_neg (by simp [hopen]), hdue]
  dsimp only
  rw [htime]

theorem State.ackonly_due {q : Nat} {x : Session} (hopen : s.portOpen) (hx : s.eth.session = some x) (hq : q < x.q) (hdue : (x.queue q).ackDue) :
    s.ackonly q = s.sendAckOnly q := by
  rw [State.ackonly, hx]
  exact if_pos ⟨hopen, hq, hdue⟩

/-- A closed session is gone, and its number is the one before. -/
theorem State.closeSession_session {x : Session} (hx : s.eth.session = some x) :
    s.closeSession.eth.session = none ∧ s.closeSession.eth.lastSession = x.num := by
  unfold State.closeSession
  rw [hx]
  dsimp only
  split
  · split
    · exact ⟨rfl, rfl⟩
    · exact ⟨rfl, rfl⟩
  · exact ⟨rfl, rfl⟩

theorem State.portOpen_running (hopen : s.portOpen) : s.power.phase = .running := by
  simp only [State.portOpen, Bool.and_eq_true, beq_iff_eq] at hopen
  exact hopen.1

theorem State.keepaliveLoss_due {x : Session} (hopen : s.portOpen) (hx : s.eth.session = some x)
    (hdue : x.lastRx.toNat + 3000000 * s.regF rQctTimers 15 0 ≤ s.timebase.toNat) : s.keepaliveLoss = s.closeSession.count (kEth 13) 1 := by
  rw [State.keepaliveLoss, hx]
  exact if_pos ⟨State.portOpen_running hopen, hdue⟩

/-- A counter that does not wrap reports nothing. -/
theorem State.count_events {k n : Nat} (hroom : (s.cnt k).toNat + n < 2 ^ 64) : (s.count k n).eth.events = s.eth.events := by
  have hcount : s.count k n = { s with cnts := tblSet 0 k (BitVec.ofNat 64 ((s.cnt k).toNat + n)) s.cnts } := by
    have hwraps : decide (2 ^ 64 ≤ (s.cnt k).toNat + n) = false := decide_eq_false (by omega)
    unfold State.count
    dsimp only
    rw [hwraps]
    exact (if_neg (by simp)).trans (if_neg (by omega))
  rw [hcount]

/-- A frame that leaves while the count of frames has room reports no event. -/
theorem State.emit_events {o : NetOut} (hroom : (s.cnt (kEth 1)).toNat + 1 < 2 ^ 64) : (s.emit o).eth.events = s.eth.events := by
  unfold State.emit
  dsimp only
  split
  · exact (State.count_events (by exact hroom)).trans rfl
  · split
    · rfl
    · exact (State.count_events (by exact hroom)).trans rfl

theorem State.transmit_events {pri : Nat} {o : NetOut} (hroom : (s.cnt (kEth 1)).toNat + 1 < 2 ^ 64) :
    (s.transmit pri o).eth.events = s.eth.events := by
  unfold State.transmit
  split
  · rfl
  · split
    · rfl
    · exact State.emit_events hroom

/-- What is sent of the event queue: up to 64 records that have not been sent, under the next sequence number. -/
def State.sentEvents (s : State) (x : Session) : List EventQ :=
  (s.eth.events.filter fun y => y.seq.isSome) ++ ((s.eth.events.filter fun e => e.seq.isNone).take 64).map (fun y => { y with seq := some x.evSeq }) ++
    (s.eth.events.filter fun y => y.seq.isNone).drop 64

theorem State.eventSend_new {x : Session} (hopen : s.portOpen) (hx : s.eth.session = some x) (hnew : (s.eth.events.filter fun e => e.seq.isNone) ≠ [])
    (hroom : (s.cnt (kEth 1)).toNat + 1 < 2 ^ 64) : ∃ y, s.eventSend.eth.session = some y ∧ y.evSeq = x.evSeq + 1 ∧
      s.eventSend.eth.events = s.sentEvents x := by
  have htake : (s.eth.events.filter fun e => e.seq.isNone).take 64 ≠ [] := by simpa using hnew
  unfold State.eventSend
  rw [hx]
  dsimp only
  rw [if_neg (by simp [hopen]), if_pos htake]
  refine ⟨{ x with evSeq := x.evSeq + 1 }, ?_, rfl, ?_⟩
  · refine (Sent.qctSend (.refl _)).session.trans ?_
    exact congrArg (Option.map _) hx
  · exact State.transmit_events hroom

/-- Settles O26: each packet and each event at its time is the one branch of its operation that its conditions leave. -/
theorem sessionTransport : Obligations.SessionTransport := by
  unfold Obligations.SessionTransport
  intro s hopen
  have hheard : Noted s (s.count (kEth 0) 1) := Noted.count (.refl s)
  refine ⟨?opens, ?damaged, ?stale, ?command, ?waits, ?opened, ?resend, ?ack, ?silent, ?events⟩
  case opens =>
    intro d h hhdr hopc hfull
    exact congrArg Host.Outcome.next ((if_pos hopen).trans (State.qctArrive_open hhdr hopc hfull))
  case damaged =>
    intro d hhdr
    exact congrArg Host.Outcome.next ((if_pos hopen).trans (State.qctArrive_damaged hhdr))
  case stale =>
    intro d h x hhdr hopc hx hdisplaced hnum
    exact congrArg Host.Outcome.next ((if_pos hopen).trans
      (State.qctArrive_stale hhdr hopc (hheard.session.trans hx) (hheard.displaced.trans hdisplaced) hnum))
  case command =>
    rintro d h x u hhdr hopc hfull hx hdisplaced hip hport hnum hq hcommand rfl
    rw [← hheard.timebase]
    exact congrArg Host.Outcome.next ((if_pos hopen).trans
      (State.qctArrive_command hhdr hopc hfull (hheard.session.trans hx) (hheard.displaced.trans hdisplaced) hip hport hnum hq hcommand))
  case waits =>
    intro d rest h q p hopens hhdr hqid hpayload
    refine congrArg Host.Outcome.next ?_
    rw [hopens]
    dsimp only
    rw [hhdr]
    exact if_pos ⟨hqid, hpayload, hopen⟩
  case opened =>
    intro d h hnone hqid hseq hsyn hlen hflag hleast hmost hwindow hwide
    obtain ⟨x, hx, hip, hport, hq, hnum, hnext, hany⟩ := s.openSession_session d h (leAt h.payload 0 1) (leAt h.payload 1 2)
    obtain ⟨hzero, hlast⟩ := s.newSession_fst
    rw [State.sessionOpen_good hnone hqid hseq hsyn hlen hflag hleast hmost hwindow hwide]
    exact ⟨x, hx, hip, hport, hq, by rwa [hnum], by rwa [hnum], hnext, hany⟩
  case resend =>
    intro q c hdue
    exact congrArg Host.Outcome.next (State.qctRetransmit_due hopen hdue)
  case ack =>
    intro q x hx hq hdue
    exact congrArg Host.Outcome.next (State.ackonly_due hopen hx hq hdue)
  case silent =>
    intro x hx hdue
    obtain ⟨hsession, hlast⟩ := State.closeSession_session hx
    have hcount : Noted s.closeSession (s.closeSession.count (kEth 13) 1) := Noted.count (.refl _)
    exact ⟨_, congrArg Host.Outcome.next (State.keepaliveLoss_due hopen hx hdue), hcount.session.trans hsession, hcount.lastSession.trans hlast⟩
  case events =>
    intro x hx hnew hroom
    obtain ⟨y, hy⟩ := State.eventSend_new hopen hx hnew hroom
    exact ⟨s.eventSend, y, rfl, hy⟩

/-! ## Frames (R418 to R421) -/

section
variable {f : Frame}

/-- A frame without tags or protection, while MACsec is off, is taken by its kind. -/
theorem State.macsecIn_plain (hsec : f.sec = none) (hoff : s.regBit rEthCfg 12 = false) :
    s.macsecIn f = (true, s.modEth fun e => { e with macsecNow := false }) := by
  unfold State.macsecIn
  rw [hsec, hoff]
  dsimp only
  split
  · rfl
  · exact if_neg (by simp)
  · contradiction

theorem State.frameReceive_damaged (hbad : f.fcsOk = false) : s.frameReceive f = ((s.count (kEth 0) 1).errBump rErrEthFcs).seeClass 0 :=
  if_pos (by simp [hbad])

theorem State.frameReceive_badLength (hgood : f.fcsOk) (hlen : f.len < 64 ∨ 9216 < f.len) : s.frameReceive f = (s.count (kEth 0) 1).count (kEth 2) 1 :=
  (if_neg (by simp [hgood])).trans (if_pos hlen)

/-- What a plain frame of each kind does. -/
def State.plainFrame (s : State) (b : NetBody) : State :=
  match b with
  | .pause => s.count (kEth 4) 1
  | .pfc p => s.pfcArrive p
  | .arp t => if s.regBit rEthCfg 15 && t == s.reg rEthIp4 then s.transmit 0 (.arpReply t) else s
  | .ip v6 src dst opts frag b => if !s.regBit rEthCfg (if v6 then 16 else 15) || opts || frag then s.rxDrop else s.ipArrive 0 v6 src dst b
  | .other => s.rxDrop

theorem State.frameReceive_plain (hgood : f.fcsOk) (hleast : 64 ≤ f.len) (hmost : f.len ≤ 9216) (htags : f.tags = []) (hsec : f.sec = none)
    (hoff : (s.count (kEth 0) 1).regBit rEthCfg 12 = false) :
    s.frameReceive f = ((s.count (kEth 0) 1).modEth fun e => { e with macsecNow := false }).plainFrame f.body := by
  unfold State.frameReceive
  dsimp only
  rw [if_neg (by simp [hgood]), if_neg (by omega), State.macsecIn_plain hsec hoff]
  dsimp only
  rw [htags, if_neg (by simp)]
  rfl
end

/-- A UDP datagram for the device's QCT port goes to the session. -/
theorem State.plainFrame_qct {src dst : BitVec 128} {sp dp : BitVec 16} {b : List Byte} (hon : s.regBit rEthCfg 15) (hdst : dst = s.ownIp false)
    (hport : dp.toNat = s.regF rQctCfg 15 0) : s.plainFrame (.ip false src dst false false (.udp sp dp false b)) = s.qctArrive ⟨src, sp, b⟩ := by
  have hpass : ¬(!s.regBit rEthCfg (if false = true then 16 else 15) || false || false) = true := by
    rw [if_neg Bool.false_ne_true, hon]
    decide
  refine (if_neg hpass).trans ?_
  unfold State.ipArrive
  dsimp only
  rw [if_neg (by simp [hdst]), if_neg (by simp), if_pos hport]

/-- With nothing waiting to be sent, PFC only sets the paused priorities. -/
theorem State.pfcArrive_paused {p : Byte} (hon : (s.count (kEth 5) 1).regBit rEthCfg 3) (hempty : s.eth.txq = []) :
    (s.pfcArrive p).eth.paused = p &&& BitVec.ofNat 8 ((s.count (kEth 5) 1).regF rEthCfg 11 4) := by
  have htxq : (s.count (kEth 5) 1).eth.txq = [] := (Noted.count (.refl s)).txq.trans hempty
  refine (congrArg (fun t : State => t.eth.paused) (if_pos hon)).trans ?_
  unfold State.drainTx
  dsimp only [State.modEth]
  rw [htxq]
  rfl

/-! ## RoCEv2 (R433) -/

section
variable {r : RdmaReq} {q : Qp}

theorem State.rdmaArrive_outOfOrder (hon : s.regBit rEthCfg 14) (hq : s.eth.qps.find? (fun y => y.qpn == r.qpn) = some q) (hpsn : q.rxPsn ≠ r.psn) :
    s.rdmaArrive 0 r = s.count (kEth 2) 1 := by
  unfold State.rdmaArrive
  rw [if_neg (by simp [hon]), hq]
  exact if_pos (.inr hpsn)

/-- A request in sequence takes its packet numbers, and asks for its granules if it may. -/
theorem State.rdmaArrive_inOrder {n : Nat} (hon : s.regBit rEthCfg 14) (hq : s.eth.qps.find? (fun y => y.qpn == r.qpn) = some q)
    (hgood : q.error = false) (hpsn : q.rxPsn = r.psn) (hecn : r.ecn = false)
    (hn : (r.op = .read ∧ n = r.len) ∨ (r.op = .write ∧ n = r.data.length))
    (hv : v = s.modQp q.qpn fun y => { y with rxPsn := y.rxPsn + BitVec.ofNat 24 (Nat.max 1 (ceilDiv n 4096)) }) :
    s.rdmaArrive 0 r = match v.rdmaOk r with
      | none => v.rdmaNak 0 q r.psn true
      | some (m, d) => ((v.newJob (.rdma 0 r) d.handle 1).2.hostAccess v.eth.nextJob (if r.op = .write then .store else .load) d (rdmaStart d m r.va) n
          r.data).settle := by
  subst hv
  unfold State.rdmaArrive
  rw [if_neg (by simp [hon]), hq]
  dsimp only
  rw [if_neg (by simp [hgood, hpsn]), if_neg (Bool.eq_false_iff.mp hecn)]
  rcases hn with ⟨hop, rfl⟩ | ⟨hop, rfl⟩
  · rw [hop]
    rfl
  · rw [hop]
    rfl
end

/-- Settles O27: each frame and each request is the one branch of its operation that its conditions leave. -/
theorem portFramesAndRdma : Obligations.PortFramesAndRdma := by
  unfold Obligations.PortFramesAndRdma
  refine ⟨fun s f => ⟨?damaged, ?badLength, ?plain, ?pfc, ?paused, ?up, ?down⟩,
    fun s r q u v hopen hu hon hq => ⟨?outOfOrder, fun hgood hpsn hecn => ⟨?read, ?write⟩, ?cnp⟩⟩
  case damaged =>
    intro hopen hbad
    exact congrArg Host.Outcome.next ((if_pos hopen).trans (State.frameReceive_damaged hbad))
  case badLength =>
    intro hopen hgood hlen
    exact congrArg Host.Outcome.next ((if_pos hopen).trans (State.frameReceive_badLength hgood hlen))
  case plain =>
    rintro hopen hgood hleast hmost htags hsec u rfl hoff v rfl
    have hplain : exec (.frameReceive f) s = .next (((s.count (kEth 0) 1).modEth fun e => { e with macsecNow := false }).plainFrame f.body) :=
      congrArg Host.Outcome.next ((if_pos hopen).trans (State.frameReceive_plain hgood hleast hmost htags hsec hoff))
    rw [hplain]
    generalize (s.count (kEth 0) 1).modEth (fun e => { e with macsecNow := false }) = v
    refine ⟨?pause, ?pfcKind, ?arp, ?other, ?qct⟩
    case pause =>
      intro hbody
      rw [hbody]
      rfl
    case pfcKind =>
      intro p hbody
      rw [hbody]
      rfl
    case arp =>
      intro hbody hon hip
      rw [hbody]
      exact congrArg Host.Outcome.next (if_pos (by simp [hon, hip]))
    case other =>
      intro hbody
      rw [hbody]
      rfl
    case qct =>
      intro src dst b sp dp hbody hon hdst hport
      rw [hbody, State.plainFrame_qct hon hdst hport]
  case pfc =>
    intro p hopen
    exact congrArg Host.Outcome.next (if_pos hopen)
  case paused =>
    intro p hon hempty
    exact ⟨_, rfl, State.pfcArrive_paused hon hempty⟩
  case up =>
    intro n hpower hon hlanes hdown
    refine ⟨_, congrArg Host.Outcome.next ((if_neg (by simp [hpower, hon]; omega)).trans (if_neg hdown)), rfl, rfl, rfl, rfl⟩
  case down =>
    intro hup
    exact ⟨_, congrArg Host.Outcome.next (if_pos hup), rfl, rfl⟩
  case outOfOrder =>
    subst hu
    intro hop _ hpsn
    exact congrArg Host.Outcome.next ((if_pos ⟨hopen, hop⟩).trans (State.rdmaArrive_outOfOrder hon hq hpsn))
  case read =>
    subst hu
    intro hop hv
    have harrive := State.rdmaArrive_inOrder (r := r) hon hq hgood hpsn hecn (.inl ⟨hop, rfl⟩) hv
    have hexec : exec (.rdmaRead r) s = _ := congrArg Host.Outcome.next ((if_pos ⟨hopen, hop⟩).trans harrive)
    refine ⟨fun hnone => ?_, fun m d hsome => ?_⟩
    · rw [hnone] at hexec
      exact hexec
    · rw [hsome] at hexec
      dsimp only at hexec
      rw [if_neg (by simp [hop])] at hexec
      exact hexec
  case write =>
    subst hu
    intro hop hv
    have harrive := State.rdmaArrive_inOrder (r := r) hon hq hgood hpsn hecn (.inr ⟨hop, rfl⟩) hv
    have hexec : exec (.rdmaWrite r) s = _ := congrArg Host.Outcome.next ((if_pos ⟨hopen, by simp [hop]⟩).trans harrive)
    refine ⟨fun hnone => ?_, fun m d hsome => ?_⟩
    · rw [hnone] at hexec
      exact hexec
    · rw [hsome] at hexec
      dsimp only at hexec
      rw [if_pos hop] at hexec
      exact hexec
  case cnp =>
    subst hu
    intro n hon
    exact congrArg Host.Outcome.next (if_pos ⟨hopen, hon⟩)

end Sys2Proof.Machine

/-! PROOF. What the landings, the caches and the programs' ends leave of the state; the rung ladder, parking and temperature. -/

namespace Sys2Proof.Machine

variable {s t u : State}

/-! ## What writes to memory and the retirement of frames leave (R364 to R376) -/

/-- Only what notices and the landings write differs: memory, the landings, the Scaler, the fabric, the requests and the log of retired frames. -/
def Stored (s t : State) : Prop :=
  Noted s { t with
    scaler := s.scaler, landings := s.landings, fab := s.fab, mem := s.mem, memPoison := s.memPoison, memUpset := s.memUpset, reqs := s.reqs,
    flash := { t.flash with retired := s.flash.retired } }

theorem Noted.stored (h : Noted s t) : Stored s t := by
  unfold Noted at h
  exact congrArg (fun x : State => { x with
    scaler := s.scaler, landings := s.landings, fab := s.fab, mem := s.mem, memPoison := s.memPoison, memUpset := s.memUpset, reqs := s.reqs,
    flash := { x.flash with retired := s.flash.retired } }) h

theorem Stored.refl (s : State) : Stored s s := (Noted.refl s).stored

theorem Stored.trans (h : Stored s t) (k : Stored t u) : Stored s u := by
  have hk := congrArg (fun x : State => { x with
    regs := s.regs, cnts := s.cnts, eth := { x.eth with events := s.eth.events, lost := s.eth.lost }, supQ := s.supQ, recent := s.recent,
    muted := s.muted, errSeen := s.errSeen, free := s.free, scaler := s.scaler, landings := s.landings, fab := s.fab, mem := s.mem,
    memPoison := s.memPoison, memUpset := s.memUpset, reqs := s.reqs, flash := { x.flash with retired := s.flash.retired } }) k
  exact hk.trans h

theorem Stored.ite {c : Prop} [Decidable c] (ht : Stored s t) (hu : Stored s u) : Stored s (if c then t else u) := by
  split
  · exact ht
  · exact hu

theorem Stored.foldl {α : Type} {f : State → α → State} {l : List α} (h : Stored s t) (hf : ∀ {t : State} {a : α}, Stored s t → Stored s (f t a)) :
    Stored s (l.foldl f t) := List.foldlRecOn _ _ h fun _ h _ _ => hf h

theorem Stored.noted (h : Stored s t) (k : Noted t u) : Stored s u := h.trans k.stored

theorem Stored.count {k n : Nat} (h : Stored s t) : Stored s (t.count k n) := h.noted (.count (.refl t))
theorem Stored.raise {source kind code cls info : Nat} (h : Stored s t) : Stored s (t.raise source kind code cls info) := h.noted (.raise (.refl t))
theorem Stored.seeClass {cls : Nat} (h : Stored s t) : Stored s (t.seeClass cls) := h.noted (.seeClass (.refl t))
theorem Stored.errBump {a : Nat} (h : Stored s t) : Stored s (t.errBump a) := h.noted (.errBump (.refl t))
theorem Stored.setBits {a : Nat} {m : W32} (h : Stored s t) : Stored s (t.setBits a m) := h.noted (.setBits (.refl t))
theorem Stored.modScaler {f : ScalerSt → ScalerSt} (h : Stored s t) : Stored s (t.modScaler f) := h.trans rfl
theorem Stored.modLanding {l : Nat} {f : Landing → Landing} (h : Stored s t) : Stored s (t.modLanding l f) := h.trans rfl
theorem Stored.tell {d : Nat} {m : MgmtMsg} (h : Stored s t) : Stored s (t.tell d m) := h.trans rfl

theorem Stored.endMove {m : MoveReq} (h : Stored s t) : Stored s (t.endMove m) := by
  unfold State.endMove
  extract_lets key after drop u v w free
  have hu : Stored s u := h.modScaler
  have hv : Stored s v := .ite hu.modScaler.count hu
  have hw : Stored s w := .ite (.ite hv.modLanding hv) (.ite hv.modLanding hv)
  exact hw.trans rfl

theorem Stored.abandonMove {m : MoveReq} (h : Stored s t) : Stored s (t.abandonMove m) := h.endMove.foldl fun h => h.tell

theorem Stored.markRetired {l : Nat} {p : Nat → Bool} (h : Stored s t) : Stored s (t.markRetired l p) := by
  unfold State.markRetired
  extract_lets hit keys copies u v recs w ms
  have hu : Stored s u := h.foldl fun h => h.modScaler
  have hv : Stored s v := hu.foldl fun h => by
    unfold State.queueReplica
    exact h.modScaler
  have hw : Stored s w := hv.foldl fun h => by
    split
    · exact .ite h h.tell
    · exact h
  exact hw.foldl fun h => by
    unfold State.requeueMove
    exact .ite h.abandonMove.modScaler h.abandonMove.tell

theorem Stored.failLanding {l : Nat} {pc : Option Nat} (h : Stored s t) : Stored s (t.failLanding l pc) :=
  .ite h.modLanding h.modLanding.setBits.seeClass.raise.markRetired

theorem Stored.retireFrame {l f : Nat} (h : Stored s t) : Stored s (t.retireFrame l f) := by
  unfold State.retireFrame
  extract_lets x u v w k y z
  have hv : Stored s v := h.trans rfl
  have hz : Stored s z := hv.errBump.setBits.seeClass.raise.markRetired
  exact .ite h (.ite hz.failLanding hz)

theorem Stored.setMem {m : List Host.Cell} {p : List (Nat × Bool)} {x : List (Nat × Nat)} (h : Stored s t) :
    Stored s { t with mem := m, memPoison := p, memUpset := x } := h.trans rfl

theorem Stored.putGranule {la : Nat} {d : BitVec 512} {poison : Bool} (h : Stored s t) : Stored s (t.putGranule la d poison) := by
  unfold State.putGranule
  exact h.setMem

theorem Stored.addFlush {la : Nat} (h : Stored s t) : Stored s (t.addFlush la) := .ite h.modLanding.count h

/-- A write of a whole granule checks none. -/
theorem Stored.writeWhole {la : Nat} {d : BitVec 512} {poison : Bool} (h : Stored s t) : Stored s (t.writeGranule la d (BitVec.allOnes 64) poison) := by
  unfold State.writeGranule
  extract_lets whole u v mark
  have hv : Stored s v := by
    have hwhole : whole = true := beq_self_eq_true _
    dsimp only [v]
    rw [if_pos hwhole]
    exact h.addFlush
  exact hv.putGranule.count

theorem Stored.touchBank {la : Nat} (h : Stored s t) : Stored s (t.touchBank la) := Stored.modLanding (.ite h.count h.count.count)

theorem Stored.markWritten {l f off : Nat} (h : Stored s t) : Stored s (t.markWritten l f off) := h.modScaler

theorem Stored.writeNow {c : Nat} {v : Line} (h : Stored s t) : Stored s (t.writeNow c v) := by
  unfold State.writeNow
  split
  · exact h
  · exact Stored.markWritten (Stored.writeWhole (Stored.touchBank (h.trans rfl)))

theorem Stored.backsNow {c : Nat} {p : Nat → Bool} (h : Stored s t) : Stored s (t.backsNow c p) :=
  h.foldl fun h => Stored.writeNow (h.trans rfl)

theorem Stored.power (h : Stored s t) : t.power = s.power := by
  unfold Stored at h
  exact h.power

theorem Stored.cells (h : Stored s t) : t.cells = s.cells := by
  unfold Stored at h
  exact h.cells

theorem Stored.sec (h : Stored s t) : t.sec = s.sec := by
  unfold Stored at h
  exact h.sec

/-! ## What the caches and the ends of programs leave (R124, R346, R357) -/

/-- The power state is as it was, and so are the cells' number and the states of their slots. -/
structure SlotsKept (s t : State) : Prop where
  power : t.power = s.power
  size : t.cells.length = s.cells.length
  slots : ∀ d, (t.cell d).threads.map Thread.state = (s.cell d).threads.map Thread.state

theorem SlotsKept.refl (s : State) : SlotsKept s s := ⟨rfl, rfl, fun _ => rfl⟩

theorem SlotsKept.trans (h : SlotsKept s t) (k : SlotsKept t u) : SlotsKept s u :=
  ⟨k.power.trans h.power, k.size.trans h.size, fun d => (k.slots d).trans (h.slots d)⟩

theorem SlotsKept.of_cells (h : SlotsKept s t) (cells : u.cells = t.cells) (power : u.power = t.power := by rfl) : SlotsKept s u :=
  h.trans ⟨power, congrArg _ cells, fun d => congrArg (fun l : List CellSt => (l.getD d CellSt.reset).threads.map Thread.state) cells⟩

theorem SlotsKept.noted (h : SlotsKept s t) (k : Noted t u) : SlotsKept s u := h.of_cells k.cells k.power

theorem SlotsKept.stored (h : SlotsKept s t) (k : Stored t u) : SlotsKept s u := h.of_cells k.cells k.power

theorem SlotsKept.ite {c : Prop} [Decidable c] (ht : SlotsKept s t) (hu : SlotsKept s u) : SlotsKept s (if c then t else u) := by
  split
  · exact ht
  · exact hu

theorem SlotsKept.foldl {α : Type} {f : State → α → State} {l : List α} (h : SlotsKept s t)
    (hf : ∀ {t : State} {a : α}, SlotsKept s t → SlotsKept s (f t a)) : SlotsKept s (l.foldl f t) := List.foldlRecOn _ _ h fun _ h _ _ => hf h

theorem SlotsKept.modCell {c : Nat} {f : CellSt → CellSt} (h : SlotsKept s t)
    (hf : ∀ x, (f x).threads.map Thread.state = x.threads.map Thread.state := by intro; rfl) : SlotsKept s (t.modCell c f) := by
  refine h.trans ⟨rfl, modAt_length .., fun d => ?_⟩
  rw [State.cell_modCell]
  split
  · exact hf _
  · rfl

theorem SlotsKept.count {k n : Nat} (h : SlotsKept s t) : SlotsKept s (t.count k n) := h.noted (.count (.refl t))
theorem SlotsKept.raise {source kind code cls info : Nat} (h : SlotsKept s t) : SlotsKept s (t.raise source kind code cls info) :=
  h.noted (.raise (.refl t))
theorem SlotsKept.seeClass {cls : Nat} (h : SlotsKept s t) : SlotsKept s (t.seeClass cls) := h.noted (.seeClass (.refl t))
theorem SlotsKept.errBump {a : Nat} (h : SlotsKept s t) : SlotsKept s (t.errBump a) := h.noted (.errBump (.refl t))
theorem SlotsKept.setReg {a : Nat} {v : W32} (h : SlotsKept s t) : SlotsKept s (t.setReg a v) := h.noted (.setReg (.refl t))
theorem SlotsKept.modCc {c : Nat} {f : CacheSt → CacheSt} (h : SlotsKept s t) : SlotsKept s (t.modCc c f) := h.modCell
theorem SlotsKept.writeNow {c : Nat} {v : Line} (h : SlotsKept s t) : SlotsKept s (t.writeNow c v) := h.stored (.writeNow (.refl t))
theorem SlotsKept.backsNow {c : Nat} {p : Nat → Bool} (h : SlotsKept s t) : SlotsKept s (t.backsNow c p) := h.stored (.backsNow (.refl t))

theorem SlotsKept.checkTag {c set way : Nat} (h : SlotsKept s t) : SlotsKept s (t.checkTag c set way) := by
  unfold State.checkTag
  split
  · exact h
  · exact .ite h (.ite h.modCc.errBump.seeClass.raise h.modCc.errBump.seeClass)

theorem SlotsKept.checkSet {c set : Nat} (h : SlotsKept s t) : SlotsKept s (t.checkSet c set) := h.foldl fun h => h.checkTag

theorem SlotsKept.checkLine {c la : Nat} (h : SlotsKept s t) : SlotsKept s (t.checkLine c la) := by
  dsimp only [State.checkLine]
  split
  · exact h.checkSet
  · split
    · exact h.checkSet.modCc.errBump.seeClass
    · exact .ite h.checkSet.modCc.errBump.seeClass.raise h.checkSet.modCc.errBump.seeClass
    · exact h.checkSet

theorem SlotsKept.probe {c : Nat} {p : Nat → Bool} (h : SlotsKept s t) : SlotsKept s (t.probe c p) := h.foldl fun h => h.checkSet

theorem SlotsKept.cleanNow {c : Nat} {p : Nat → Bool} (h : SlotsKept s t) : SlotsKept s (t.cleanNow c p) := by
  refine h.backsNow.probe.foldl fun h => ?_
  dsimp only
  split
  · exact h.checkLine.writeNow.modCc
  · exact h.checkLine

theorem SlotsKept.emptyCache {c : Nat} (h : SlotsKept s t) : SlotsKept s (t.emptyCache c) := h.modCc.count

theorem SlotsKept.turnOffCache {c : Nat} (h : SlotsKept s t) : SlotsKept s (t.turnOffCache c) := h.cleanNow.emptyCache

theorem SlotsKept.flushAll (h : SlotsKept s t) : SlotsKept s t.flushAll := h.foldl fun h => h.turnOffCache

/-! ## Events of power and temperature (R474, R480) -/

theorem Noted.powerEvent {bit : Nat} (h : Noted s t) : Noted s (t.powerEvent bit) := .ite h.setBits.fresh.fresh.raise h.setBits

theorem Noted.thermEvent {bit info : Nat} (h : Noted s t) : Noted s (t.thermEvent bit info) := .ite h.setBits.raise h.setBits

theorem Noted.rungChanged (h : Noted s t) : Noted s t.rungChanged := h.count.powerEvent

/-! ## POWER_SET ends (R465) -/

theorem State.complete_power (s : State) (q : Nat) (n : W32) (c : QCmd) (st : Nat) (b : List Byte) : (s.complete q n c st b).power = s.power := by
  cases hx : s.eth.session with
  | none => rw [State.complete, hx]
  | some x =>
    by_cases hn : x.num = n
    · exact (State.complete_session hx hn).power
    · rw [State.complete, hx]
      exact congrArg State.power (if_pos hn)

theorem State.powerSetDone_power (s : State) (st : Nat) : (s.powerSetDone st).power = s.power := by
  unfold State.powerSetDone State.completeOn
  split
  · unfold State.completeJob
    split
    · exact State.complete_power ..
    · rfl
  · rfl

/-! ## Entering and leaving a rung (R465, R467) -/

/-- A drained device enters the rung that is asked for. -/
theorem State.drainDone_enters (hrunning : s.power.phase = .running) (hbusy : s.power.busy) (hrung : s.power.rung = 0) (htarget : s.power.target ≠ 0)
    (hfallow : s.power.target < 4) (hdone : (List.range 192).all s.cellDone) :
    s.drainDone.power = { s.power with rung := s.power.target, target := 0, busy := false } := by
  unfold State.drainDone
  extract_lets target t u v
  have ht : t.power = s.power := by
    dsimp only [t]
    split
    · rw [State.quietLinks, State.modFab_power]
      exact (SlotsKept.refl s).flushAll.power
    · rfl
  have hu : u.power = { s.power with rung := s.power.target, target := 0, busy := false } := by
    refine (Noted.rungChanged (.refl _)).power.trans ?_
    exact congrArg (fun p : PowerSt => { p with rung := s.power.target, target := 0, busy := false }) ht
  have hgo : s.power.phase = .running ∧ s.power.busy ∧ s.power.rung = 0 ∧ target ≠ 0 ∧ (List.range 192).all s.cellDone :=
    ⟨hrunning, hbusy, hrung, htarget, hdone⟩
  rw [if_pos hgo, if_neg (by omega)]
  exact (u.powerSetDone_power stOk).trans hu

theorem State.wakePin_begins (hrunning : s.power.phase = .running) (hrst : s.power.rstN) (hwake : s.regBit rPwrCfg 8) (hrung : s.power.rung ≠ 0)
    (hidle : s.power.busy = false) : s.wakePin = s.modPower fun p => { p with target := 0, busy := true, since := s.timebase } := by
  have hpin : (s.power.rstN && s.regBit rPwrCfg 8) = true := by rw [hrst, hwake]; rfl
  refine (if_pos hpin).trans ?_
  unfold State.wake
  rw [if_neg (by simp [hrunning]), if_neg (by simp [hidle]), if_neg hrung]

/-- What the ladder holds: the rung, whether a change runs, and where it ends. -/
def PowerSt.ladder (p : PowerSt) : Nat × Bool × Nat := (p.rung, p.busy, p.target)

/-- Setpoint changes write the setpoints that cells run at alone. -/
theorem State.foldl_setpointChange_part {α : Type} (part : State → α)
    (hpart : ∀ (s : State) (f : PowerSt → List Nat), part (s.modPower fun p => { p with cur := f p }) = part s := by intros; rfl)
    (l : List Nat) (s : State) : part (l.foldl State.setpointChange s) = part s := by
  refine foldl_part_eq part (fun s c => ?_) l s
  unfold State.setpointChange
  split
  · exact hpart ..
  · rfl

theorem State.sendResume_power (s : State) (l : Nat) : (s.sendResume l).power = s.power := by
  have hdone : ∀ t : State, (t.resumeDone l).power = t.power := fun t => by
    unfold State.resumeDone
    dsimp only
    split
    · rfl
    · rfl
  exact (hdone _).trans (s.sendFlit_noted ..).power

/-- An exit on the way to another rung leaves the device in ACTIVE, still changing. -/
theorem State.rungExit_ladder (hrunning : s.power.phase = .running) (hbusy : s.power.busy) (hrung : s.power.rung ≠ 0) (hfallow : s.power.rung ≠ 4)
    (htarget : s.power.target ≠ 0) : s.rungExit.power.ladder = (0, true, s.power.target) := by
  unfold State.rungExit
  extract_lets more t u v
  have hmore : more = true := decide_eq_true htarget
  rw [if_pos ⟨hrunning, hbusy, hrung, hfallow⟩, if_pos hmore]
  have ht : t.power.ladder = (0, true, s.power.target) := by
    rw [← hmore]
    exact congrArg PowerSt.ladder (Noted.rungChanged (.refl _)).power
  have hu : u.power.ladder = t.power.ladder := State.foldl_setpointChange_part (fun s : State => s.power.ladder) (l := _) (s := _)
  refine (foldl_part_eq (fun s : State => s.power.ladder) (fun s l => ?_) _ _).trans (hu.trans ht)
  dsimp only
  split
  · exact congrArg PowerSt.ladder (State.sendResume_power ..)
  · rfl

/-! ## Setpoints (R469, R471) -/

theorem State.setpointChange_active {c : Nat} (hc : c < 192) (hactive : s.active) :
    s.setpointChange c = s.modPower fun p => { p with cur := modAt c (fun _ => s.wantedSp c) p.cur } := if_pos ⟨hc, hactive⟩

theorem getElem?_modAt_self {α : Type} {i : Nat} {l : List α} (hi : i < l.length) (a : α) : (modAt i (fun _ => a) l)[i]? = some a := by
  rw [modAt_getElem?_self, List.getElem?_eq_getElem hi]
  rfl

/-- Setpoints of a list of cells, each set to its own. -/
def setpoints (g : Nat → Nat) (l : List Nat) (cur : List Nat) : List Nat := l.foldl (fun cur c => modAt c (fun _ => g c) cur) cur

theorem setpoints_length (g : Nat → Nat) (l cur : List Nat) : (setpoints g l cur).length = cur.length := by
  induction l generalizing cur with
  | nil => rfl
  | cons c l ih => exact (ih _).trans (modAt_length ..)

/-- A cell of the list has its own setpoint. -/
theorem getD_setpoints (g : Nat → Nat) {l cur : List Nat} {c : Nat} (hc : c < cur.length) (d : Nat) :
    (setpoints g l cur).getD c d = if c ∈ l then g c else cur.getD c d := by
  induction l generalizing cur with
  | nil => rfl
  | cons a l ih =>
    have hlen : c < (modAt a (fun _ => g a) cur).length := hc.trans_eq (modAt_length ..).symm
    refine (ih hlen).trans ?_
    rw [modAt_getD]
    by_cases hl : c ∈ l
    · rw [if_pos hl, if_pos (List.mem_cons_of_mem a hl)]
    · by_cases ha : c = a
      · rw [if_neg hl, if_pos ⟨ha, ha ▸ hc⟩, if_pos (ha ▸ List.mem_cons_self), ha]
      · rw [if_neg hl, if_neg fun h => ha h.1, if_neg (by simp [ha, hl])]

theorem getElem?_setpoints (g : Nat → Nat) {l cur : List Nat} {c : Nat} (hc : c < cur.length) (hl : c ∈ l) : (setpoints g l cur)[c]? = some (g c) := by
  have hlen : c < (setpoints g l cur).length := hc.trans_eq (setpoints_length ..).symm
  rw [List.getElem?_eq_getElem hlen, ← List.getD_eq_getElem _ 0 hlen, getD_setpoints g hc 0, if_pos hl]

/-- Setpoint changes of several cells of an ACTIVE device. -/
theorem State.foldl_setpointChange {l : List Nat} (hl : ∀ c ∈ l, c < 192) (hactive : s.active) :
    l.foldl State.setpointChange s = s.modPower fun p => { p with cur := setpoints s.wantedSp l p.cur } := by
  induction l generalizing s with
  | nil => rfl
  | cons c l ih =>
    obtain ⟨hc, hl⟩ := List.forall_mem_cons.mp hl
    rw [List.foldl_cons, State.setpointChange_active hc hactive]
    exact ih hl hactive

/-- A cell of the list then runs at its wanted setpoint. -/
theorem State.cur_foldl_setpointChange {l : List Nat} {c : Nat} (hl : ∀ c ∈ l, c < 192) (hactive : s.active) (hc : c ∈ l)
    (hcur : c < s.power.cur.length) : (l.foldl State.setpointChange s).power.cur[c]? = some (s.wantedSp c) := by
  rw [State.foldl_setpointChange hl hactive, State.modPower_power]
  exact getElem?_setpoints _ hcur hc

/-! ## Parking (R470) -/

/-- Beyond the cells none is parked. -/
theorem State.parked_lt {c : Nat} (h : (s.cell c).parked) : c < s.cells.length := by
  by_contra hout
  rw [State.cell, List.getD_eq_default _ _ (by omega)] at h
  exact Bool.noConfusion h

theorem State.cellUnpark_due {c : Nat} (hactive : s.active) (hup : s.cellUp c) (hparked : (s.cell c).parked) (hdue : (s.cell c).anyDue) :
    s.cellUnpark c = s.unpark c := if_pos ⟨hactive, hup, hparked, .inl hdue⟩

theorem State.unpark_parked {c : Nat} (hparked : (s.cell c).parked) : ((s.unpark c).cell c).parked = false := by
  rw [State.unpark, State.cell_modCell_self (State.parked_lt hparked), if_pos hparked]

/-! ## Temperature (R471) -/

/-- A reading at the warning temperature holds THERM_N low. -/
theorem State.thermCheck_hot (hrunning : s.power.phase = .running) (hot : s.warnAt ≤ s.power.hot.2) :
    Noted (s.modPower fun p => { p with therm := true }) s.thermCheck := by
  unfold State.thermCheck
  dsimp only
  rw [if_pos hot]
  split
  case isTrue htherm =>
    refine Eq.mp (congrArg (Noted · s) ?_) (Noted.refl s)
    exact congrArg (fun b => { s with power := { s.power with therm := b } }) htherm
  case isFalse =>
    rw [if_pos (by exact hrunning)]
    exact Noted.thermEvent (.refl _)

theorem State.warnAt_setRegF_temp (h : s.Good) (x : Nat) : (s.setRegF rPwrTemp 17 10 x).warnAt = s.warnAt := by
  have hreg : (s.setRegF rPwrTemp 17 10 x).reg rPwrTherm = s.reg rPwrTherm := (State.reg_setReg h ..).trans (if_neg (by decide))
  unfold State.warnAt State.regF
  rw [hreg]

/-- A reading at the warning temperature. -/
theorem State.reading_hot {i : Nat} {x : Int} (h : s.Good) (hrunning : s.power.phase = .running)
    (hot : s.warnAt ≤ (s.modPower fun p => { p with temps := modAt i (fun _ => x) p.temps }).power.hot.2) :
    Noted (s.modPower fun p => { p with temps := modAt i (fun _ => x) p.temps, therm := true }) (s.reading i x) := by
  unfold State.reading
  extract_lets t hottest
  have hgood : t.Good := (Kept.refl s).modPower.good h
  have hset : Noted t (if t.regF rPwrTemp 17 10 < hottest then t.setRegF rPwrTemp 17 10 hottest else t) := .ite (Noted.setReg (.refl t)) (.refl t)
  have hwarn : (if t.regF rPwrTemp 17 10 < hottest then t.setRegF rPwrTemp 17 10 hottest else t).warnAt = s.warnAt := by
    split
    · exact State.warnAt_setRegF_temp hgood hottest
    · rfl
  rw [if_neg (by rw [show t.power.phase = .running from hrunning]; simp)]
  generalize (if t.regF rPwrTemp 17 10 < hottest then t.setRegF rPwrTemp 17 10 hottest else t) = u at hset hwarn
  have hthermed : Noted (t.modPower fun p => { p with therm := true }) (u.modPower fun p => { p with therm := true }) :=
    congrArg (fun v : State => v.modPower fun p => { p with therm := true }) hset
  refine hthermed.trans (State.thermCheck_hot ?_ ?_)
  · rw [hset.power]
    exact hrunning
  · rw [hwarn, hset.power]
    exact hot

/-- The cells of a field. -/
def fieldCells (f : Nat) : List Nat := (List.range 48).map (48 * f + ·)

theorem mem_fieldCells {f c : Nat} : c ∈ fieldCells f ↔ c / 48 = f := by
  unfold fieldCells
  simp only [List.mem_map, List.mem_range]
  constructor
  · rintro ⟨i, hi, rfl⟩
    omega
  · intro h
    exact ⟨c - 48 * f, by omega, by omega⟩

/-- A field is throttled by `n` steps from now on. -/
def State.stepField (s : State) (f n : Nat) : State := s.modPower fun p =>
  { p with throttled := modAt f (fun _ => n) p.throttled, throttleAt := modAt f (fun _ => some s.timebase) p.throttleAt }

theorem State.stepField_throttled {f : Nat} (hlen : f < s.power.throttled.length) (n : Nat) : (s.stepField f n).power.throttled.getD f 0 = n := by
  rw [State.stepField, State.modPower_power]
  exact (modAt_getD ..).trans (if_pos ⟨rfl, hlen⟩)

theorem State.stepField_wantedSp {f c : Nat} (hlen : f < s.power.throttled.length) (hc : c / 48 = f) (n : Nat) :
    (s.stepField f n).wantedSp c = Nat.min 3 (s.regF (rCellSp c) 1 0 + n) := by
  unfold State.wantedSp
  rw [fieldOfCell, hc, State.stepField_throttled hlen]
  rfl

/-- A hot field goes down one setpoint. -/
theorem State.throttleStep_hot {f : Nat} (hf : f < 4) (hactive : s.active) (hdue : s.power.throttleAt.getD f none = none) (hon : s.regBit rPwrTherm 8)
    (hot : s.warnAt ≤ (s.power.fieldHot f).2) (hroom : (fieldCells f).any fun c => decide (s.wantedSp c < 3)) :
    Noted ((fieldCells f).foldl State.setpointChange (s.stepField f (s.power.throttled.getD f 0 + 1))) (s.throttleStep f) := by
  have hrunning : s.power.phase = .running := by
    simp only [State.active, Bool.and_eq_true, beq_iff_eq] at hactive
    exact hactive.1
  unfold State.throttleStep
  dsimp only
  rw [hdue, if_neg (by simp [hrunning, hf]), if_pos ⟨hon, hot, hroom⟩]
  exact Noted.thermEvent (Noted.count (.refl _))

/-- Settles O29: each event is the one branch of its operation that its conditions leave; what follows it keeps the ladder (`PowerSt.ladder`), and
setpoints are written cell by cell (`State.foldl_setpointChange`). -/
theorem rungsAndTemperature : Obligations.RungsAndTemperature := by
  unfold Obligations.RungsAndTemperature
  refine ⟨fun s hrunning => ⟨?drained, ?timedOut, ?wake, ?exit, ?setpoint⟩, fun s hrunning => ⟨?park, ?unpark, ?warn, ?throttle⟩⟩
  case drained =>
    intro hbusy hrung htarget hfallow hdone
    have hpower := State.drainDone_enters hrunning hbusy hrung htarget hfallow hdone
    exact ⟨s.drainDone, rfl, congrArg PowerSt.rung hpower, congrArg PowerSt.busy hpower, congrArg PowerSt.target hpower⟩
  case timedOut =>
    intro hbusy hrung hlate
    exact congrArg Host.Outcome.next (if_pos ⟨hrunning, hbusy, hrung, hlate⟩)
  case wake =>
    intro hrst hpin hrung hidle
    exact ⟨_, congrArg Host.Outcome.next (State.wakePin_begins hrunning hrst hpin hrung hidle), rfl, rfl, rfl, rfl, rfl⟩
  case exit =>
    intro hbusy hrung hfallow htarget
    have hladder := State.rungExit_ladder hrunning hbusy hrung hfallow htarget
    exact ⟨s.rungExit, rfl, congrArg Prod.fst hladder, congrArg (·.2.1) hladder, congrArg (·.2.2) hladder⟩
  case setpoint =>
    intro c hc hlen hactive
    exact ⟨_, congrArg Host.Outcome.next (State.setpointChange_active hc hactive), getElem?_modAt_self hlen _, rfl⟩
  case park =>
    intro c hlen hgo hup hparked hon hquiet hscaler hwake hidle
    refine ⟨(s.modCell c fun x => { x with parked := true, parkRung := 1 }).count (kPwr 1) 1, congrArg Host.Outcome.next (if_pos ?_), ?_, fun d hd => ?_,
      fun hgood => ?_⟩
    · exact ⟨hgo, hup, by simp [hparked], hon, hquiet, by simp [hscaler], by rw [hwake]; rfl, hidle⟩
    · rw [State.count_cell, State.cell_modCell_self hlen]
    · rw [State.count_cell, State.cell_modCell_ne hd]
    · exact State.cnt_count (s := s.modCell c _) ((Kept.refl s).modCell (fun hx => hx.of_eq) |>.good hgood) (by decide) 1
  case unpark =>
    intro c hactive hup hparked hdue
    exact ⟨_, congrArg Host.Outcome.next (State.cellUnpark_due hactive hup hparked hdue), State.unpark_parked hparked,
      fun d hd => State.cell_modCell_ne hd _, fun a => rfl⟩
  case warn =>
    intro i x hi hx hot hgood
    have hread := State.reading_hot hgood hrunning hot
    have hsense : s.sense i x = s.reading i x := by
      unfold State.sense
      dsimp only
      rw [if_neg (by omega), if_neg (by omega)]
    refine ⟨s.reading i x, congrArg Host.Outcome.next hsense, congrArg PowerSt.therm hread.power,
      congrArg PowerSt.temps hread.power, hread.cells, hread.sameMemory⟩
  case throttle =>
    intro f hf hactive hlen hdue hon hot hroom
    have hstep := State.throttleStep_hot hf hactive hdue hon hot hroom
    have hcells : ∀ c ∈ fieldCells f, c < 192 := fun c hc => by
      have := mem_fieldCells.mp hc
      omega
    refine ⟨s.throttleStep f, rfl, ?_, hstep.cells.trans (State.foldl_setpointChange_part State.cells (l := _) (s := _)),
      fun a => congrArg (memGet · a) (hstep.mem.trans (State.foldl_setpointChange_part State.mem (l := _) (s := _))), fun c hc hfield hcur => ?_⟩
    · rw [hstep.power, State.foldl_setpointChange_part (fun s : State => s.power.throttled), State.stepField_throttled hlen]
    · rw [hstep.power, ← State.stepField_wantedSp hlen hfield]
      exact State.cur_foldl_setpointChange hcells hactive (mem_fieldCells.mpr hfield) hcur

end Sys2Proof.Machine

/-! PROOF. Snapshots, the clearing of error counters, reports on their way, and the restart of cells. -/

namespace Sys2Proof.Machine

variable {s t u : State} {c : Nat}

/-! ## Snapshots (R488, R500) -/

/-- The copy of a unit's register is what the register read at the TAKE. -/
theorem find?_copies (f : Nat → W32) {l : List Nat} {a : Nat} (ha : a ∈ l) :
    (l.map fun b => (b, f b)).find? (fun e => e.1 == a) = some (a, f a) := by
  induction l with
  | nil => cases ha
  | cons b l ih =>
    rw [List.map_cons, List.find?_cons]
    by_cases hb : b = a
    · simp [hb]
    · have hne : (b == a) = false := beq_eq_false_iff_ne.mpr hb
      dsimp only
      rw [hne]
      exact ih ((List.mem_cons.mp ha).resolve_left (Ne.symm hb))

theorem State.takeUnit_head (s : State) (j : Nat) {i a : Nat} (ha : a ∈ unitRegs i) :
    ((s.takeUnit j i).latches.head?.map fun l => (l.j, l.scope, l.time, (l.copies.find? fun e => e.1 == a).map (·.2))) =
      some (j, i, s.timebase, some (s.liveReg a)) := by
  have hcopy := find?_copies s.liveReg ha
  unfold State.takeUnit
  dsimp only
  rw [List.head?_cons, Option.map_some, hcopy, Option.map_some]

/-- A unit that is released holds no copies. -/
theorem State.release_held {j scope i : Nat} {us : List Nat} (hus : scopeUnits scope = some us) (hi : i ∈ us) : (s.release j scope).held j i = false := by
  unfold State.held State.latch State.release
  rw [hus, Option.getD_some, List.find?_map]
  cases hfind : s.latches.find? _ with
  | none => rfl
  | some l =>
    have hl := List.find?_some hfind
    have hreleased : l.j = j ∧ us.contains l.scope = true := by
      by_contra hout
      rw [Function.comp_apply, if_neg hout] at hl
      simp only [Bool.and_eq_true, beq_iff_eq] at hl
      obtain ⟨hj, hscope⟩ := hl
      exact hout ⟨hj, by rw [hscope]; exact List.contains_iff_mem.mpr hi⟩
    rw [Option.map_some, if_pos hreleased]
    rfl

/-! ## Error counters (R486) -/

/-- Clearing the error counters gives each its reset value and leaves every other register. -/
theorem State.reg_clearErrs (h : s.Good) (a : Nat) : s.clearErrs.reg a = if isErrCnt a then regReset a else s.reg a := by
  have hfilter := tblGet_filter_from (regReset a) (fun b => !isErrCnt b) a h.regs
  refine hfilter.trans ?_
  cases isErrCnt a with
  | false => rfl
  | true => rfl

/-! ## Reports (R477) -/

theorem State.rawCount_supQ (s : State) (k n : Nat) : (s.rawCount k n).supQ = s.supQ := by
  unfold State.rawCount
  dsimp only
  split
  · rfl
  · rfl

theorem State.pushEvent_supQ (s : State) (kind source : Nat) (data : BitVec 160) : (s.pushEvent kind source data).supQ = s.supQ := by
  unfold State.pushEvent
  extract_lets put u
  have hu : u.supQ = s.supQ := by
    dsimp only [u]
    split
    · rfl
    · rfl
  split
  · exact hu
  · exact (State.rawCount_supQ ..).trans hu

/-- The lookout takes a report without sending one. -/
theorem State.lookoutReport_supQ (s : State) (r : Report) : (s.lookoutReport r).supQ = s.supQ := by
  unfold State.lookoutReport
  split
  · split
    · rfl
    · exact State.pushEvent_supQ ..
  · exact State.pushEvent_supQ ..

/-- The oldest report of a supervisor leaves it. -/
theorem State.forward_supQ {f : Nat} {x : Nat × Report} {pre post : List (Nat × Report)} (hrunning : s.power.phase = .running)
    (hq : s.supQ = pre ++ x :: post) (hpre : ∀ y ∈ pre, y.1 ≠ f) (hx : x.1 = f) : (s.forward f).supQ = pre ++ post := by
  have hskip : ∀ y ∈ pre, ¬(y.1 == f) = true := fun y hy => by simpa using hpre y hy
  have hhere : (x.1 == f) = true := by simpa using hx
  have hfind : s.supQ.find? (fun y => y.1 == f) = some x := by
    rw [hq, List.find?_append, List.find?_eq_none.mpr hskip, Option.none_or, List.find?_cons_of_pos (p := fun y : Nat × Report => y.1 == f) hhere]
  unfold State.forward
  rw [if_neg (by simp [hrunning]), hfind]
  refine (State.lookoutReport_supQ ..).trans ?_
  change s.supQ.eraseP _ = _
  rw [hq, List.eraseP_append_right _ hskip, List.eraseP_cons_of_pos (p := fun y : Nat × Report => y.1 == f) hhere]

/-! ## What the steps of a restart leave (R124, R319, R339, R357, R482) -/

theorem SlotsKept.flushCache (h : SlotsKept s t) : SlotsKept s (t.flushCache c) := by
  refine SlotsKept.emptyCache ((h.backsNow.foldl fun h => h.errBump).foldl fun h => ?_)
  exact (SlotsKept.ite h.errBump.seeClass h).writeNow.modCc

theorem map_modAt_eq {α β : Type} (g : α → β) {f : α → α} (hf : ∀ a, g (f a) = g a) (i : Nat) (l : List α) : (modAt i f l).map g = l.map g := by
  induction l generalizing i with
  | nil => simp only [modAt]
  | cons a l ih =>
    cases i with
    | zero => exact congrArg (· :: l.map g) (hf a)
    | succ i => exact congrArg (g a :: ·) (ih i)

theorem SlotsKept.modThread {k : Nat} {f : Thread → Thread} (h : SlotsKept s t) (hf : ∀ x, (f x).state = x.state) : SlotsKept s (t.modThread c k f) :=
  h.modCell fun _ => map_modAt_eq Thread.state hf ..

theorem SlotsKept.unpark (h : SlotsKept s t) : SlotsKept s (t.unpark c) := h.modCell fun x => by
  split
  · rfl
  · rfl

theorem SlotsKept.flagToken {k tok : Nat} {m : W32} (h : SlotsKept s t) : SlotsKept s (t.flagToken c k tok m) :=
  .ite (.ite h (h.unpark.modThread fun x => x.orFlags_state m)) h

theorem CellSt.opWrite_threads (x : CellSt) (a : Nat) (b : List Byte) : (x.opWrite a b).threads = x.threads := rfl

theorem SlotsKept.endProg {e : Engine} (h : SlotsKept s t) : SlotsKept s (t.endProg c e) := by
  unfold State.endProg
  split
  · exact h
  · refine SlotsKept.flagToken (h.modCell fun x => ?_)
    extract_lets y
    have hy : y.threads = x.threads := x.opWrite_threads ..
    clear_value y
    cases e with
    | access => exact congrArg _ hy
    | execute => exact congrArg _ hy

theorem SlotsKept.abortPrograms (h : SlotsKept s t) : SlotsKept s (t.abortPrograms c) :=
  SlotsKept.endProg (SlotsKept.endProg ((h.modCell (c := c)).of_cells rfl))

theorem SlotsKept.dropRequests (h : SlotsKept s t) : SlotsKept s (t.dropRequests c) := h.of_cells rfl

theorem Noted.barEvent {source bit code info : Nat} (h : Noted s t) : Noted s (t.barEvent source bit code info) := .ite h.setBits.lookoutReport h.setBits

theorem SlotsKept.barBreak {n cause : Nat} (h : SlotsKept s t) : SlotsKept s (t.barBreak n cause) := by
  unfold State.barBreak
  extract_lets b u out
  have hu : SlotsKept s u := SlotsKept.noted (t := t.setBar n _) (h.of_cells rfl) (.barEvent (.refl _))
  exact .ite h (.ite (hu.foldl fun h => h.of_cells rfl) hu)

theorem SlotsKept.barCellRestart (h : SlotsKept s t) : SlotsKept s (t.barCellRestart c) :=
  (h.foldl fun h => h.barBreak).foldl fun h => h.modCell

/-! ## The items of a cell are queued again (R97, R100) -/

theorem leastCell_mem {cost : Nat → Nat} {l : List Nat} {d : Nat} (h : leastCell cost l = some d) : d ∈ l := by
  induction l generalizing d with
  | nil => cases h
  | cons a l ih =>
    rw [leastCell] at h
    split at h
    case h_1 e he =>
      split at h
      · exact Option.some.inj h ▸ List.mem_cons_of_mem a (ih he)
      · exact Option.some.inj h ▸ List.mem_cons_self
    case h_2 => exact Option.some.inj h ▸ List.mem_cons_self

/-- A cell but for its items is as it was. -/
def SameButItems (c : Nat) (s t : State) : Prop :=
  t.cells.length = s.cells.length ∧
  { t.cell c with queue := (s.cell c).queue, held := (s.cell c).held, taken := (s.cell c).taken } = s.cell c

theorem SameButItems.trans (h : SameButItems c s t) (k : SameButItems c t u) : SameButItems c s u := by
  obtain ⟨hsize, hcell⟩ := h
  obtain ⟨ksize, kcell⟩ := k
  refine ⟨ksize.trans hsize, ?_⟩
  exact (congrArg (fun x : CellSt => { x with queue := (s.cell c).queue, held := (s.cell c).held, taken := (s.cell c).taken }) kcell).trans hcell

theorem SameButItems.of_cell (hsize : t.cells.length = s.cells.length) (hcell : t.cell c = s.cell c) : SameButItems c s t := ⟨hsize, by rw [hcell]⟩

/-- Its items go to other cells. -/
theorem State.requeueCell_same (s : State) (c : Nat) : SameButItems c s (s.requeueCell c) := by
  unfold State.requeueCell
  extract_lets x others again
  split
  · exact .of_cell rfl rfl
  · refine List.foldlRecOn _ _ ⟨modAt_length .., ?_⟩ fun u hu q _ => ?_
    · rw [State.cell_modCell]
      split
      · rfl
      · rfl
    · dsimp only
      split
      case h_1 d hd =>
        have hne : c ≠ d := by
          have hmem : d ∈ others := leastCell_mem hd
          simp only [others, List.mem_filter, bne_iff_ne] at hmem
          exact fun h => hmem.2 h.symm
        refine hu.trans (.of_cell ?_ ?_)
        · rw [(Noted.count (.refl _)).cells]
          exact modAt_length ..
        · rw [State.count_cell]
          exact State.cell_modCell_ne hne _
      case h_2 => exact hu

/-! ## A cell at its restart (R316, R482, R483) -/

theorem Thread.restart_free {x : Thread} (h : x.state = .free) (tick : W32) : (x.restart tick).state = .free := by
  rw [Thread.restart, if_pos h]
  exact h

theorem Thread.restart_failed {x : Thread} (h : x.state ≠ .free) (tick : W32) : (x.restart tick).state = .failed ∧ (x.restart tick).reason = 2 := by
  rw [Thread.restart, if_neg h]
  exact ⟨rfl, rfl⟩

/-- The steps of a restart end in a reset of the cell, whose items go to others where it stays OFFLINE. -/
theorem State.cellRestart_steps (hrunning : s.power.phase = .running) (hc : c < 192) (hrung : s.power.rung ≠ 4) (hmode : (s.cell c).mode ≠ .offline) :
    ∃ (v : State) (starts : List W64), SlotsKept s v ∧
      ((s.recentRestarts c).length < 2 → s.cellRestart c = v.modCell c fun x => x.restart .restarting starts v.timebase) ∧
      (¬(s.recentRestarts c).length < 2 →
        Noted ((v.modCell c fun x => x.restart .offline starts v.timebase).requeueCell c) (s.cellRestart c)) := by
  unfold State.cellRestart
  rw [if_neg (by simp [hrunning, hrung, hmode]; omega)]
  extract_lets starts t u v w
  have ht : SlotsKept s t := (SlotsKept.refl s).errBump.abortPrograms
  have hu : SlotsKept s u := ht.dropRequests.flushCache.barCellRestart
  have hstarts : starts.length = (s.recentRestarts c).length + 1 := List.length_append
  refine ⟨v, starts, hu.foldl fun h => h.setReg, fun hfew => if_neg (by omega), fun hmany => ?_⟩
  rw [if_pos (by omega)]
  exact .raise (.seeClass (.fresh (.refl w)))

/-- The cell after a restart: but for its items, what `CellSt.restart` makes of a cell whose slots are in the states they were in. -/
theorem State.cellRestart_cell (hrunning : s.power.phase = .running) (hc : c < 192) (hlen : c < s.cells.length) (hrung : s.power.rung ≠ 4)
    (hmode : (s.cell c).mode ≠ .offline) : ∃ (x : CellSt) (starts : List W64) (now : W64),
      x.threads.map Thread.state = (s.cell c).threads.map Thread.state ∧
      { (s.cellRestart c).cell c with queue := x.queue, held := x.held, taken := x.taken } =
        x.restart (if (s.recentRestarts c).length < 2 then .restarting else .offline) starts now := by
  obtain ⟨v, starts, hv, hfirst, hthird⟩ := State.cellRestart_steps hrunning hc hrung hmode
  have hvlen : c < v.cells.length := hlen.trans_eq hv.size.symm
  refine ⟨v.cell c, starts, v.timebase, hv.slots c, ?_⟩
  by_cases hfew : (s.recentRestarts c).length < 2
  · rw [hfirst hfew, if_pos hfew, State.cell_modCell_self hvlen]
    rfl
  · obtain ⟨-, hcell⟩ := (v.modCell c fun x => x.restart .offline starts v.timebase).requeueCell_same c
    rw [State.cell_modCell_self hvlen] at hcell
    have hsame : (s.cellRestart c).cell c = _ := congrArg (fun l : List CellSt => l.getD c CellSt.reset) (hthird hfew).cells
    rw [hsame, if_neg hfew]
    exact hcell

/-- A slot at a place of a list whose slots are in the same states. -/
theorem getElem?_of_map_state {l m : List Thread} (h : l.map Thread.state = m.map Thread.state) {k : Nat} {x : Thread} (hx : m[k]? = some x) :
    ∃ y, l[k]? = some y ∧ y.state = x.state := by
  have hk : (l.map Thread.state)[k]? = some x.state := by rw [h, List.getElem?_map, hx]; rfl
  rw [List.getElem?_map, Option.map_eq_some_iff] at hk
  exact hk

/-- A restart of a cell ends once its microcode has been checked. -/
theorem State.restartDone_eq (hrunning : s.power.phase = .running) (hc : c < 192) (hmode : (s.cell c).mode = .restarting) (hcode : s.codeHolds) :
    s.restartDone c = (s.requeueCell c).modCell c fun x => { x with mode := .running, idleSince := s.timebase } := by
  unfold State.restartDone
  rw [if_neg (by simp [hrunning, hmode]; omega), if_neg (by simp [hcode])]

/-- Settles O31: a TAKE keeps a copy of each register, a RELEASE empties the latches of its units, clearing drops the error counters from the
registers, the lookout's own reports go to no supervisor, and a restart resets its cell whatever the steps before it leave
(`State.cellRestart_cell`). -/
theorem snapshotsReportsRestarts : Obligations.SnapshotsReportsRestarts := by
  unfold Obligations.SnapshotsReportsRestarts
  refine ⟨fun s j hrunning => ⟨?take, ?copy, ?release, ?clear, ?forward⟩, fun c s hrunning hc hlen => ⟨?restart, ?done⟩⟩
  case take =>
    intro sc hj
    exact congrArg Host.Outcome.next (if_pos ⟨hj, hrunning⟩)
  case copy =>
    intro i a ha
    exact s.takeUnit_head j ha
  case release =>
    intro hj
    exact ⟨_, congrArg Host.Outcome.next (if_pos ⟨hj, hrunning⟩), rfl, fun us hus i hi => State.release_held hus hi⟩
  case clear =>
    intro hgood
    have hreg := State.reg_clearErrs hgood
    exact ⟨_, congrArg Host.Outcome.next (if_pos hrunning), fun a ha => (hreg a).trans (if_pos ha), fun a ha => (hreg a).trans (if_neg (by simp [ha])), rfl⟩
  case forward =>
    intro f x pre post hq hpre hx
    exact ⟨s.forward f, rfl, State.forward_supQ hrunning hq hpre hx⟩
  case restart =>
    intro hrung hmode
    obtain ⟨x, starts, now, hslots, hcell⟩ := State.cellRestart_cell hrunning hc hlen hrung hmode
    have hthreads : ((s.cellRestart c).cell c).threads = x.threads.map (Thread.restart x.tick) := congrArg CellSt.threads hcell
    refine ⟨s.cellRestart c, rfl, congrArg CellSt.mode hcell, congrArg (·.ae.prog) hcell, congrArg (·.xe.prog) hcell, congrArg (·.cc.all) hcell,
      congrArg CellSt.opmem hcell, fun k y hy hfree => ?_, fun k y hy hheld => ?_⟩
    · obtain ⟨z, hz, hstate⟩ := getElem?_of_map_state hslots hy
      exact ⟨z.restart x.tick, by rw [hthreads, List.getElem?_map, hz]; rfl, Thread.restart_free (hstate.trans hfree) x.tick⟩
    · obtain ⟨z, hz, hstate⟩ := getElem?_of_map_state hslots hy
      exact ⟨z.restart x.tick, by rw [hthreads, List.getElem?_map, hz]; rfl, Thread.restart_failed (hstate ▸ hheld) x.tick⟩
  case done =>
    intro hmode hcode
    obtain ⟨hsize, hcell⟩ := s.requeueCell_same c
    have hdone := State.restartDone_eq hrunning hc hmode hcode
    have hend : (s.restartDone c).cell c = { (s.requeueCell c).cell c with mode := .running, idleSince := s.timebase } := by
      rw [hdone]
      exact State.cell_modCell_self (hlen.trans_eq hsize.symm) _
    exact ⟨s.restartDone c, rfl, congrArg CellSt.mode hend, (congrArg CellSt.threads hend).trans (congrArg CellSt.threads hcell :),
      (congrArg CellSt.opmem hend).trans (congrArg CellSt.opmem hcell :)⟩

end Sys2Proof.Machine

/-! PROOF. Supplies and resets, the boot chain, and the debug unlock. -/

namespace Sys2Proof.Machine

variable {s t u : State}

/-! ## FAB_ID through an operation (R468) -/

/-- An operation keeps what every step keeps, and FAB_ID. -/
structure IdKept (s t : State) : Prop where
  kept : Kept s t
  id : s.Good → t.reg rFabId = s.reg rFabId

theorem IdKept.refl (s : State) : IdKept s s := ⟨.refl s, fun _ => rfl⟩

theorem IdKept.step (h : IdKept s t) (kept : Kept t u) (id : t.Good → u.reg rFabId = t.reg rFabId) : IdKept s u where
  kept := ⟨fun hgood => kept.good (h.kept.good hgood), kept.queue.trans h.kept.queue, h.kept.fuses.trans kept.fuses⟩
  id hgood := (id (h.kept.good hgood)).trans (h.id hgood)

theorem IdKept.of_regs (h : IdKept s t) (kept : Kept t u) (regs : u.regs = t.regs := by rfl) : IdKept s u :=
  h.step kept fun _ => congrArg (fun r => tblGet (regReset rFabId) rFabId r) regs

theorem IdKept.ite {c : Prop} [Decidable c] (ht : IdKept s t) (hu : IdKept s u) : IdKept s (if c then t else u) := by
  split
  · exact ht
  · exact hu

theorem IdKept.foldl {α : Type} {f : State → α → State} {l : List α} (h : IdKept s t) (hf : ∀ {t : State} {a : α}, IdKept s t → IdKept s (f t a)) :
    IdKept s (l.foldl f t) := List.foldlRecOn _ _ h fun _ h _ _ => hf h

theorem IdKept.setReg {a : Nat} {v : W32} (h : IdKept s t) (ha : rFabId ≠ a) : IdKept s (t.setReg a v) :=
  h.step (Kept.refl t).setReg fun hgood => (State.reg_setReg hgood ..).trans (if_neg ha)

theorem IdKept.count {k n : Nat} (h : IdKept s t) (hk : rFabId ≠ k + 8) : IdKept s (t.count k n) :=
  h.step (Kept.refl t).count fun hgood => State.reg_count hgood hk (by decide) n

theorem IdKept.raise {source kind code cls info : Nat} (h : IdKept s t) : IdKept s (t.raise source kind code cls info) :=
  h.step (Kept.refl t).raise fun hgood => State.reg_report hgood (by decide) _

theorem IdKept.seeClass {cls : Nat} (h : IdKept s t) : IdKept s (t.seeClass cls) := .ite (h.of_regs (.of_eq (.refl t))) h

theorem IdKept.fresh (h : IdKept s t) : IdKept s t.fresh.2 := h.of_regs (Kept.refl t).fresh

theorem IdKept.modScaler {f : ScalerSt → ScalerSt} (h : IdKept s t) : IdKept s (t.modScaler f) := h.of_regs (Kept.refl t).modScaler
theorem IdKept.modLanding {l : Nat} {f : Landing → Landing} (h : IdKept s t) : IdKept s (t.modLanding l f) := h.of_regs (Kept.refl t).modLanding
theorem IdKept.modFab {f : FabSt → FabSt} (h : IdKept s t) : IdKept s (t.modFab f) := h.of_regs (Kept.refl t).modFab
theorem IdKept.modPower {f : PowerSt → PowerSt} (h : IdKept s t) : IdKept s (t.modPower f) := h.of_regs (Kept.refl t).modPower
theorem IdKept.tell {d : Nat} {m : MgmtMsg} (h : IdKept s t) : IdKept s (t.tell d m) := h.of_regs (Kept.refl t).tell

theorem IdKept.endMove {m : MoveReq} (h : IdKept s t) : IdKept s (t.endMove m) := by
  unfold State.endMove
  extract_lets key after drop u v w free
  have hu : IdKept s u := h.modScaler
  have hv : IdKept s v := .ite (hu.modScaler.count (by decide)) hu
  have hw : IdKept s w := .ite (.ite hv.modLanding hv) (.ite hv.modLanding hv)
  exact hw.of_regs (.of_eq (.refl w))

theorem IdKept.abandonMove {m : MoveReq} (h : IdKept s t) : IdKept s (t.abandonMove m) := h.endMove.foldl fun h => h.tell

theorem IdKept.markRetired {l : Nat} {p : Nat → Bool} (h : IdKept s t) : IdKept s (t.markRetired l p) := by
  unfold State.markRetired
  extract_lets hit keys copies u v recs w ms
  have hu : IdKept s u := h.foldl fun h => h.modScaler
  have hv : IdKept s v := hu.foldl fun h => by
    unfold State.queueReplica
    exact h.modScaler
  have hw : IdKept s w := hv.foldl fun h => by
    split
    · exact .ite h h.tell
    · exact h
  exact hw.foldl fun h => by
    unfold State.requeueMove
    exact .ite h.abandonMove.modScaler h.abandonMove.tell

theorem rFabId_ne_rLnd (l o : Nat) : rFabId ≠ rLnd l o := by
  unfold rFabId rLnd lndBase fabBase
  omega

theorem IdKept.failLanding {l : Nat} {pc : Option Nat} (h : IdKept s t) : IdKept s (t.failLanding l pc) :=
  .ite h.modLanding ((h.modLanding.setReg (rFabId_ne_rLnd _ _)).seeClass.raise.markRetired)

theorem rFabId_ne_rEthIp6 (i : Nat) (hi : i < 4) : rFabId ≠ rEthIp6 i := by
  unfold rFabId rEthIp6 ethBase fabBase
  omega

theorem IdKept.powerEvent {bit : Nat} (h : IdKept s t) : IdKept s (t.powerEvent bit) :=
  have hset := h.setReg (a := rPwrEvent) (by decide)
  .ite hset.fresh.fresh.raise hset

theorem IdKept.rungChanged (h : IdKept s t) : IdKept s t.rungChanged := (h.count (by decide)).powerEvent

theorem IdKept.bootEvent (h : IdKept s t) : IdKept s t.bootEvent :=
  h.step (Kept.refl t).bootEvent fun hgood => State.reg_pushEvent hgood (by decide) ..

/-! ## Registers from the flash (R375, R419, R435) -/

theorem IdKept.loadConfig (h : IdKept s t) : IdKept s t.loadConfig := by
  unfold State.loadConfig
  extract_lets f w a b c u v
  have ha : IdKept s a := (((h.setReg (by decide)).setReg (by decide)).setReg (by decide)).setReg (by decide)
  have hb : IdKept s b := List.foldlRecOn _ _ ha fun _ h i hi => h.setReg (rFabId_ne_rEthIp6 i (List.mem_range.mp hi))
  have hc : IdKept s c := hb.setReg (by decide)
  clear_value c
  have hv : IdKept s v := hc.of_regs (Kept.modPower (Kept.modEth (.of_eq (.refl c))))
  exact hv.foldl fun h => .ite h.failLanding h

theorem Stored.setLandings {x : List Landing} (h : Stored s t) : Stored s { t with landings := x } := h.trans rfl

/-- The device serves with its port enabled. -/
def State.served (s : State) : State := (s.modEth fun e => { e with link := 1 }).modPower fun p => { p with phase := .running }

theorem Stored.served (h : Stored s t) : Stored s.served t.served := by
  unfold Stored Noted at h
  exact congrArg State.served h

/-- But for notices and the landings, loading the configuration leaves a device that serves. -/
theorem State.loadConfig_stored (s : State) : Stored s.served s.loadConfig := by
  unfold State.loadConfig
  extract_lets f w a b c u v
  have ha : Noted s a := Noted.setReg (Noted.setReg (Noted.setReg (Noted.setReg (.refl s))))
  have hb : Noted s b := List.foldlRecOn _ _ ha fun _ h _ _ => h.setReg
  have hc : Noted s c := hb.setReg
  clear_value c
  have hu : Stored s u := hc.stored.setLandings
  have hv : Stored s.served v := by exact hu.served
  exact hv.foldl fun h => .ite h.failLanding h

theorem Stored.incarn (h : Stored s t) : t.flash.incarn = s.flash.incarn := by
  unfold Stored at h
  exact (congrArg FlashSt.incarn h.flash :)

theorem Stored.link (h : Stored s t) : t.eth.link = s.eth.link := by
  unfold Stored at h
  exact h.part_eq (·.eth.link)

theorem State.loadConfig_power (s : State) : s.loadConfig.power = { s.power with phase := .running } := s.loadConfig_stored.power
theorem State.loadConfig_sec (s : State) : s.loadConfig.sec = s.sec := s.loadConfig_stored.sec
theorem State.loadConfig_incarn (s : State) : s.loadConfig.flash.incarn = s.flash.incarn := s.loadConfig_stored.incarn
theorem State.loadConfig_link (s : State) : s.loadConfig.eth.link = 1 := s.loadConfig_stored.link

theorem Noted.bootEvent (h : Noted s t) : Noted s t.bootEvent := h.pushEvent
theorem Noted.link (h : Noted s t) : t.eth.link = s.eth.link := h.part_eq (·.eth.link)

/-! ## Supplies and resets (R461, R472, R520 to R532) -/

theorem State.powerOn_clause (s : State) (hphase : s.power.phase = .unpowered) :
    ∃ t, exec .powerOn s = .next t ∧ t.power.phase = .inReset ∧ t.power.cause = 1 ∧ t.timebase = 0 ∧ t.flash = s.flash ∧
      t.pending = s.pending ∧ t.power.rstN = false ∧ t.power.faultN = false := by
  refine ⟨s.powerOn, rfl, ?_⟩
  unfold State.powerOn
  rw [if_neg (by simp [hphase])]
  exact ⟨rfl, rfl, rfl, rfl, rfl, rfl, rfl⟩

theorem State.railsUp_raised (s : State) (hen : s.power.pwrEn) (hvin : s.power.vin48) (hpg : s.power.pgTimeout = false)
    (hcool : s.power.cause = 3 → ∀ x ∈ s.power.temps, x < 100) :
    s.railsUp = s.modPower fun p => { p with rails := true, pwrGood := true } := by
  refine if_pos ⟨hen, hvin, by simp [hpg], ?_⟩
  by_cases hcause : s.power.cause = 3
  · simpa [hcause] using hcool hcause
  · simp [hcause]

theorem State.pwrEnRise_clause (s : State) (hphase : s.power.phase = .inReset) (hen : s.power.pwrEn = false) (hvin : s.power.vin48)
    (hpg : s.power.pgTimeout = false) (hcause : s.power.cause ≠ 3) :
    ∃ t, exec .pwrEnRise s = .next t ∧ t.power.pwrEn ∧ t.power.rails ∧ t.power.pwrGood ∧ { t with power := s.power } = s := by
  refine ⟨s.pwrEnRise, rfl, ?_⟩
  unfold State.pwrEnRise
  extract_lets u
  rw [if_neg (by simp [hen]), if_pos (show u.power.phase = .inReset from hphase),
    State.railsUp_raised u rfl hvin hpg (fun h => absurd h hcause)]
  exact ⟨rfl, rfl, rfl, rfl⟩

theorem State.pwrGoodTimeout_clause (s : State) (hphase : s.power.phase = .inReset) (hen : s.power.pwrEn) (hgood : s.power.pwrGood = false)
    (hpg : s.power.pgTimeout = false) (hcause : s.power.cause ≠ 3) (htime : s.power.since.toNat + 20000000 ≤ s.timebase.toNat) :
    ∃ t, exec .pwrGoodTimeout s = .next t ∧ t.power.pgTimeout ∧ t.power.faultN ∧ { t with power := s.power } = s := by
  refine ⟨s.pwrGoodTimeout, rfl, ?_⟩
  unfold State.pwrGoodTimeout
  rw [if_pos ⟨hphase, hen, by simp [hgood], by simp [hpg], hcause, htime⟩]
  exact ⟨rfl, rfl, rfl⟩

theorem State.rstAssert_flash (s : State) : s.rstAssert.flash = s.flash := by
  unfold State.rstAssert
  dsimp only
  split <;> rfl

theorem State.pwrEnFall_clause (s : State) (hen : s.power.pwrEn) :
    ∃ t, exec .pwrEnFall s = .next t ∧ t.power.pwrEn = false ∧ t.power.rails = false ∧ t.power.pwrGood = false ∧
      t.power.pgTimeout = false ∧ t.flash = s.flash := by
  refine ⟨s.pwrEnFall, rfl, ?_⟩
  unfold State.pwrEnFall
  rw [if_neg (by simp [hen])]
  refine ⟨rfl, rfl, rfl, rfl, ?_⟩
  change (if s.power.phase = .tripped then s else s.rstAssert).flash = s.flash
  split
  · rfl
  · exact s.rstAssert_flash

theorem State.resetAssert_clause (s : State) (hphase : s.power.phase ≠ .unpowered) (hrst : s.power.rstN ∨ s.power.phase = .tripped) :
    ∃ t, exec .resetAssert s = .next t ∧ t.power.phase = .inReset ∧
      t.power.rstN = false ∧ t.power.trip = false ∧ t.power.cause = (if s.power.phase = .tripped then 3 else 2) ∧ t.flash = s.flash ∧ t.timebase = s.timebase ∧
      t.cells = State.reset.cells ∧ t.regs = [] ∧ t.pending = s.pending := by
  refine ⟨s.rstAssert, rfl, ?_⟩
  unfold State.rstAssert
  rw [if_neg (by rcases hrst with h | h <;> simp [hphase, h])]
  exact ⟨rfl, rfl, rfl, rfl, rfl, rfl, rfl, rfl, rfl⟩

theorem State.vstbyLoss_clause (s : State) (hphase : s.power.phase ≠ .unpowered) :
    ∃ t, exec .vstbyLoss s = .next t ∧ t.power.phase = .unpowered ∧ t.power.vstby = false ∧ t.power.rails = false ∧
      t.cells = State.reset.cells ∧ t.regs = [] := by
  refine ⟨s.vstbyLoss, rfl, ?_⟩
  unfold State.vstbyLoss
  rw [if_neg hphase]
  exact ⟨rfl, rfl, rfl, rfl, rfl⟩

theorem State.railFailure_clause (s : State) (hphase : s.power.phase ≠ .unpowered) (hen : s.power.pwrEn) (hrails : s.power.rails) :
    ∃ t, exec .railFailure s = .next t ∧ t.power.rails = false ∧ t.power.pwrGood = false ∧ t.power.faultN ∧ t.power.pgTimeout := by
  refine ⟨s.railFailure, rfl, ?_⟩
  unfold State.railFailure
  extract_lets had t u
  rw [if_neg (by simp [hphase, hen]), if_pos (show had = true from hrails)]
  exact ⟨rfl, rfl, rfl, rfl⟩

theorem State.tripRailReturn_clause (s : State) (hphase : s.power.phase = .inReset) (hcause : s.power.cause = 3) (hrails : s.power.rails = false)
    (hen : s.power.pwrEn) (hvin : s.power.vin48) (hpg : s.power.pgTimeout = false) (hcool : ∀ x ∈ s.power.temps, x < 100) :
    ∃ t, exec .tripRailReturn s = .next t ∧ t.power.rails ∧ t.power.pwrGood ∧ { t with power := s.power } = s := by
  refine ⟨s.tripRailReturn, rfl, ?_⟩
  unfold State.tripRailReturn
  rw [if_pos ⟨hphase, hcause, by simp [hrails]⟩, State.railsUp_raised s hen hvin hpg fun _ => hcool]
  exact ⟨rfl, rfl, rfl⟩

theorem State.thermCheck_phase (s : State) : s.thermCheck.power.phase = s.power.phase := by
  unfold State.thermCheck
  extract_lets h t
  split
  · split
    · rfl
    · split
      · exact (congrArg PowerSt.phase (Noted.thermEvent (.refl t)).power :)
      · rfl
  · split <;> rfl

theorem State.reading_phase (s : State) (i : Nat) (x : Int) : (s.reading i x).power.phase = s.power.phase := by
  unfold State.reading
  extract_lets t hot
  split
  · rfl
  · rw [State.thermCheck_phase]
    split <;> rfl

theorem State.thermalTrip_clause (s : State) {i : Nat} {x : Int} (hi : i < 32) (hot : 120 ≤ x) (hpowered : s.power.phase ≠ .unpowered)
    (htripped : s.power.phase ≠ .tripped) :
    ∃ t, exec (.thermalTrip i x) s = .next t ∧ t.power.phase = .tripped ∧ t.power.trip ∧ t.power.rails = false ∧ t.power.cause = 3 := by
  have hsense : s.sense i x = (s.reading i x).trip := by
    unfold State.sense
    rw [if_neg (by omega), if_pos hot]
  refine ⟨(s.reading i x).trip, congrArg Host.Outcome.next ((if_pos hot).trans hsense), ?_⟩
  unfold State.trip
  rw [if_neg (by simp [State.reading_phase, hpowered, htripped])]
  exact ⟨rfl, rfl, rfl, rfl⟩

theorem State.i3cDynamicAddressing_clause (s : State) (a : BitVec 7) (hphase : s.power.phase ≠ .unpowered) (hrst : s.power.rstN) :
    exec (.i3cDynamicAddressing a) s = .next (s.modPower fun p => { p with dynAddr := some a }) :=
  congrArg Host.Outcome.next (if_neg (by simp [hphase, hrst]))

/-! ## The boot chain (R445 to R450, R468) -/

/-- The ROM takes the chosen slot, or none. -/
theorem State.bootRom_clause (s : State) (k : BitVec 3) (b : Nat) (hphase : s.power.phase = .inReset) (hgood : s.power.pwrGood)
    (hpg : s.power.pgTimeout = false) (hsfdp : s.flash.sfdp) :
    (s.flash.choose.slot = none → ∃ t, exec (.bootRom k) s = .next t ∧ t.power.phase = .bootFail ∧ t.power.faultN ∧ t.sec.stage = 7) ∧
    (s.flash.choose.slot = some b → ∃ t, exec (.bootRom k) s = .next t ∧ t.power.phase = .lookout ∧ t.sec.stage = 1 ∧ t.sec.slot = b ∧
      t.flash = s.flash.choose.flash ∧ t.sec.svn = (s.flash.choose.flash.slot b).svn ∧ t.power.rstN) := by
  refine ⟨fun hslot => ⟨s.bootRom k, rfl, ?_⟩, fun hslot => ⟨s.bootRom k, rfl, ?_⟩⟩
  all_goals
    unfold State.bootRom
    extract_lets p t c u v
    rw [if_neg (by simp [p, hphase, hgood, hpg]), if_neg (by rw [show t.flash.sfdp = true from hsfdp]; simp)]
  · rw [show c.slot = none from hslot]
    exact ⟨rfl, rfl, rfl⟩
  · rw [show c.slot = some b from hslot]
    exact ⟨rfl, rfl, rfl, rfl, rfl, rfl⟩

theorem State.lookoutBoot_serves (s : State) (hphase : s.power.phase = .lookout)
    (hok : (s.flash.slot s.sec.slot).compOk 1 && (s.flash.slot s.sec.slot).compOk 2) :
    ∃ t, exec .lookoutBoot s = .next t ∧ t.power.phase = .running ∧ t.sec.stage = 3 ∧
      t.flash.incarn = s.flash.incarn + (if s.flash.copyBad then 2 else 1) ∧ t.eth.link = 1 := by
  refine ⟨s.lookoutBoot, rfl, ?_⟩
  obtain ⟨hcode, hdata⟩ := Bool.and_eq_true_iff.mp hok
  unfold State.lookoutBoot
  extract_lets u k x f cfg v
  rw [if_neg (not_not_intro hphase), if_neg (by simp [show x.compOk 1 = true from hcode, show x.compOk 2 = true from hdata])]
  have hpower : (v.loadConfig.modPower fun p => { p with faultN := false }).power.phase = .running := by
    rw [State.modPower_power, State.loadConfig_power]
  have hsec := congrArg SecSt.stage v.loadConfig_sec
  have hincarn := v.loadConfig_incarn
  have hlink := v.loadConfig_link
  generalize v.loadConfig = w at *
  have hboot : Noted (w.modPower fun p => { p with faultN := false }) (w.modPower fun p => { p with faultN := false }).bootEvent := .bootEvent (.refl _)
  exact ⟨(congrArg PowerSt.phase hboot.power).trans hpower, (congrArg SecSt.stage hboot.sec).trans hsec,
    (congrArg FlashSt.incarn hboot.flash).trans hincarn, hboot.link.trans hlink⟩

theorem State.lookoutBoot_fails (s : State) (hphase : s.power.phase = .lookout)
    (hbad : ((s.flash.slot s.sec.slot).compOk 1 && (s.flash.slot s.sec.slot).compOk 2) = false) :
    ∃ t, exec .lookoutBoot s = .next t ∧ t.power.phase = .inReset ∧ t.power.cause = 7 ∧ (t.flash.slot s.sec.slot).state = 5 := by
  refine ⟨s.lookoutBoot, rfl, ?_⟩
  unfold State.lookoutBoot
  extract_lets u k x f cfg v
  have hx : x.compOk 1 = false ∨ x.compOk 2 = false := Bool.and_eq_false_iff.mp hbad
  rw [if_neg (not_not_intro hphase), if_pos (by simpa using hx)]
  exact ⟨rfl, rfl, FlashSt.slot_mark_self ..⟩

theorem State.lookoutWatchdog_clause (s : State) (hphase : s.power.phase = .running ∨ s.power.phase = .lookout) :
    ∃ t, exec .lookoutWatchdog s = .next t ∧ t.power.phase = .inReset ∧ t.power.cause = 6 ∧ t.flash = s.flash :=
  ⟨s.deviceReset 6, congrArg Host.Outcome.next (if_pos hphase), rfl, rfl, rfl⟩

theorem State.deviceFatal_clause (s : State) (hphase : s.power.phase = .running ∨ s.power.phase = .lookout) :
    ∃ t, exec .deviceFatal s = .next t ∧ t.power.phase = .inReset ∧ t.power.cause = 5 ∧ t.power.faultN ∧ t.flash = s.flash :=
  ⟨s.fatalReset, congrArg Host.Outcome.next (if_pos hphase), rfl, rfl, rfl, rfl⟩

theorem State.fallowExit_clause (s : State) (hphase : s.power.phase = .running) (hrung : s.power.rung = 4) (hbusy : s.power.busy)
    (hvin : s.power.vin48) (hcode : s.codeHolds) :
    ∃ t, exec .fallowExit s = .next t ∧ t.power.phase = .running ∧ t.power.rung = 0 ∧ t.power.rails ∧ t.power.cause = 4 ∧
      t.sec.slot = s.sec.slot ∧ t.sec.meas = s.sec.meas ∧ t.sec.jtagOpen = false ∧ t.reg rFabId = s.reg rFabId := by
  refine ⟨s.fallowExit, rfl, ?_⟩
  unfold State.fallowExit
  extract_lets a sec b v w
  rw [if_pos ⟨hphase, hrung, hbusy, hvin⟩, if_neg (by simp [hcode])]
  have hb : b.Good := ⟨rfl, rfl, rfl, CellSt.Good.of_mem_replicate, Nat.succ_pos _⟩
  have hkept : Kept b (b.setReg rFabId (s.reg rFabId)) := (Kept.refl b).setReg
  have hv : IdKept (b.setReg rFabId (s.reg rFabId)) v := ((IdKept.refl _).setReg (by decide)).modFab
  have hw : IdKept (b.setReg rFabId (s.reg rFabId)) w := hv.loadConfig.modPower
  have hid := (hw.rungChanged.bootEvent.id (hkept.good hb)).trans ((State.reg_setReg hb ..).trans (if_pos rfl))
  have hpower : w.power = { v.power with phase := .running, rails := true, pwrGood := true } := by
    rw [State.modPower_power, State.loadConfig_power]
  have hsec : w.sec = v.sec := (State.modPower_sec ..).trans v.loadConfig_sec
  have hboot : Noted w w.rungChanged.bootEvent := .bootEvent (.rungChanged (.refl w))
  rw [hboot.power, hboot.sec, hpower, hsec]
  exact ⟨rfl, rfl, rfl, rfl, rfl, rfl, rfl, hid⟩

/-! ## The debug unlock (R456, R457) -/

theorem State.jtagUnlockChallenge_unarmed (s : State) (hon : s.tapOn) (harmed : s.regBit rSecCtrl 1 = false) :
    ∃ t, exec .jtagUnlockChallenge s = .next t ∧ t.sec.jtagOut = List.replicate 49 0 ∧ t.sec.challenge = s.sec.challenge := by
  refine ⟨s.jtagChallenge, rfl, ?_⟩
  unfold State.jtagChallenge
  rw [if_neg (by simp [hon]), if_pos (by simp [harmed])]
  exact ⟨rfl, rfl⟩

theorem State.jtagUnlockChallenge_armed (s : State) (hon : s.tapOn) (harmed : s.regBit rSecCtrl 1) :
    ∃ t c, exec .jtagUnlockChallenge s = .next t ∧ t.sec.challenge = some (c, s.timebase) ∧
      t.sec.jtagOut = leBytes 32 c.toNat ++ leBytes 16 s.flash.uid.toNat ++ [1] := by
  obtain ⟨c, hchallenge, hout⟩ : ∃ c, s.jtagChallenge.sec.challenge = some (c, s.timebase) ∧
      s.jtagChallenge.sec.jtagOut = leBytes 32 c.toNat ++ leBytes 16 s.flash.uid.toNat ++ [1] := by
    unfold State.jtagChallenge
    rw [if_neg (by simp [hon]), if_neg (by simp [harmed])]
    exact ⟨_, rfl, rfl⟩
  exact ⟨s.jtagChallenge, c, rfl, hchallenge, hout⟩

theorem State.jtagUnlockResponse_opens (s : State) {b : List Byte} {c : BitVec 256} {w : W64} (hon : s.tapOn) (harmed : s.regBit rSecCtrl 1)
    (hlen : b.length = 3584) (hfails : s.sec.jtagFails < 3) (hchallenge : s.sec.challenge = some (c, w))
    (htime : s.timebase.toNat ≤ w.toNat + 60000000000) (hkey : s.unlockKey (b.take 1793))
    (hsig : sigHolds (b.take 1793) (b.drop 2048) "QJ-JTAGU" (leBytes 32 c.toNat ++ leBytes 16 s.flash.uid.toNat ++ [1])) :
    ∃ t, exec (.jtagUnlockResponse b) s = .next t ∧ t.sec.jtagOpen := by
  refine ⟨s.jtagResponse b, rfl, ?_⟩
  unfold State.jtagResponse
  extract_lets key ok u
  have hok : ok = true := by simp only [ok, key, hchallenge, htime, hkey, hsig, decide_true, Bool.and_self]
  rw [if_neg (by simp [hon, harmed, hlen]; omega), if_pos hok]
  exact congrArg SecSt.jtagOpen (Noted.raise (.fresh (.refl u))).sec

theorem State.jtagUnlockResponse_counted (s : State) {b : List Byte} (hon : s.tapOn) (harmed : s.regBit rSecCtrl 1)
    (hlen : b.length = 3584) (hfails : s.sec.jtagFails < 3) (hchallenge : s.sec.challenge = none) :
    ∃ t, exec (.jtagUnlockResponse b) s = .next t ∧ t.sec.jtagFails = s.sec.jtagFails + 1 ∧ t.sec.jtagOpen = s.sec.jtagOpen := by
  refine ⟨s.jtagResponse b, rfl, ?_⟩
  unfold State.jtagResponse
  extract_lets key ok u
  have hok : ¬ok = true := by simp only [ok, hchallenge, Bool.false_eq_true, not_false_eq_true]
  rw [if_neg (by simp [hon, harmed, hlen]; omega), if_neg hok]
  exact ⟨rfl, rfl⟩

theorem State.jtagUnlockResponse_unheard (s : State) (b : List Byte) (hfails : 3 ≤ s.sec.jtagFails) :
    exec (.jtagUnlockResponse b) s = .next s :=
  congrArg Host.Outcome.next (if_pos (by simp [hfails]))

/-- Settles O28: each event of the board by its branch; a boot through what loading the configuration leaves, and FAB_ID across the exit from
FALLOW because no step after its restoration writes it. -/
theorem supplyAndBoot : Obligations.SupplyAndBoot := by
  unfold Obligations.SupplyAndBoot
  refine ⟨fun s => ⟨s.powerOn_clause, s.pwrEnRise_clause, s.pwrGoodTimeout_clause, s.pwrEnFall_clause, s.resetAssert_clause,
    s.vstbyLoss_clause, s.railFailure_clause, s.tripRailReturn_clause, fun _ _ => s.thermalTrip_clause, s.i3cDynamicAddressing_clause⟩,
    fun s => ⟨s.bootRom_clause, s.lookoutBoot_serves, s.lookoutBoot_fails,
      fun h => ⟨s.lookoutWatchdog_clause h, s.deviceFatal_clause h⟩, s.fallowExit_clause⟩,
    fun s hon => ⟨s.jtagUnlockChallenge_unarmed hon, s.jtagUnlockChallenge_armed hon, fun b harmed hlen hfails =>
      ⟨fun c w hchallenge htime hkey hsig => s.jtagUnlockResponse_opens hon harmed hlen hfails hchallenge htime hkey hsig,
        s.jtagUnlockResponse_counted hon harmed hlen hfails⟩, s.jtagUnlockResponse_unheard⟩⟩

end Sys2Proof.Machine
